-- ==== Sys2Proof/Word.lean ====
section
/-! DEFINITION. Word.lean: the word types of the SLS4620 (R7, R8, R40, R388). -/

namespace Sys2Proof

/-- A word is 36 bits in every on-chip context (R8). -/
abbrev Word := BitVec 36

/-- Device time: DT_SEC in the upper 36 bits, DT_FRAC (ticks of 2^-36 s) in the lower 36 (R40). -/
abbrev Dt := BitVec 72

/-- A stored SRAM word: seven check bits c6..c0 above 36 data bits (R388). -/
abbrev Stored := BitVec 43

/-- A 24-bit Apone address (R350). -/
abbrev Addr24 := BitVec 24

end Sys2Proof
end

