-- ==== Sys2Proof/Syntax.lean ====
section
/-! DEFINITION. Syntax.lean: the commands and events of the SLS4620 as data, one constructor of Instr per row of
spec/opcode_table.json, with the row's operands. What the outside world supplies (a pin level, a measured value, the
result of a host-memory read) is an operand. -/

namespace Sys2Proof

/-- Operand fields of an R-format instruction of major opcode 0x00: rd, ra, rb and bits 8:0 (R351). -/
structure FmtR where
  rd : BitVec 5
  ra : BitVec 5
  rb : BitVec 5
  lo : BitVec 9
deriving DecidableEq, Repr

/-- Operand fields of an R-format instruction of another major opcode; `fn` is bits 14:9 (R351). -/
structure FmtM where
  rd : BitVec 5
  ra : BitVec 5
  rb : BitVec 5
  fn : BitVec 6
  lo : BitVec 9
deriving DecidableEq, Repr

/-- Operand fields of format I (R351). -/
structure FmtI where
  rd : BitVec 5
  ra : BitVec 5
  imm : BitVec 20
deriving DecidableEq, Repr

/-- Operand fields of format S; `lo` is bits 11:0 (R351). -/
structure FmtS where
  rd : BitVec 5
  ra : BitVec 5
  amt : BitVec 6
  lo : BitVec 12
deriving DecidableEq, Repr

/-- Operand fields of format F; `lo` is bits 7:0 (R351). -/
structure FmtF where
  rd : BitVec 5
  ra : BitVec 5
  pos : BitVec 6
  wid : BitVec 6
  lo : BitVec 8
deriving DecidableEq, Repr

/-- Operand fields of format B; `z` is bit 24 (R351). -/
structure FmtB where
  ra : BitVec 5
  z : BitVec 1
  off : BitVec 24
deriving DecidableEq, Repr

/-- Operand fields of format J; `z` is bits 29:24 (R351). -/
structure FmtJ where
  z : BitVec 6
  target : BitVec 24
deriving DecidableEq, Repr

/-- Operand fields of format P; `lo` is bits 17:0 (R351). -/
structure FmtP where
  rd : BitVec 5
  ra : BitVec 5
  i : BitVec 2
  lo : BitVec 18
deriving DecidableEq, Repr

/-- Operand fields of format C; `lo` is bits 13:0 (R351). -/
structure FmtC where
  rd : BitVec 5
  ra : BitVec 5
  n : BitVec 6
  lo : BitVec 14
deriving DecidableEq, Repr

/-- Operand fields of format X; `z` is bits 29:20 (R351). -/
structure FmtX where
  z : BitVec 10
  code : BitVec 20
deriving DecidableEq, Repr

/-- Who makes an access: a PCI Express link, SPI, or an Apone core (0-15 wing cores, 16-17 SOL0 and SOL1, 18 the
Curator core; R349, R517). -/
inductive Src where
  | pcie
  | spi
  | core (c : Fin 19)
deriving DecidableEq, Repr

/-- How an access covers its slot: a whole 64-bit access (every SPI unit and core access too), the low dword or the high dword
(R415, R416). -/
inductive Width where
  | qword
  | loDword
  | hiDword
deriving DecidableEq, Repr

/-- What the device's access to a buffer named by a command gives: the words read (or that a write went through,
with none), or the cause of the failure as HIF_DMA_ERR_INFO.CAUSE codes it (R450, R451). -/
inductive BufRes where
  | ok (ws : List Word)
  | failed (cause : BitVec 4)
deriving DecidableEq, Repr

/-- A command entry of ring 0 (R435): header fields and parameter words, with what the outside world supplies: the
result of its buffer access (R449 to R451). -/
structure Packet where
  tag : BitVec 12
  len : BitVec 8
  wait : Bool
  atEpoch : Bool
  lateOk : Bool
  noReply : Bool
  epoch : Dt
  params : List Word
  buf : BufRes
deriving DecidableEq, Repr


/-- The commands and events of spec/opcode_table.json, one constructor per row. -/
inductive Instr where
  /-- REGISTER_WRITE (R9): A host or core write to a register that has no row of its own replaces its fields by access type, subject to reserved-value and lock checks. -/
  | registerWrite (src : Src) (slot : BitVec 14) (wid : Width) (v : BitVec 64)
  /-- REGISTER_READ_CLEAR (R10): A read of a register with an RC field returns the value and clears the field, and a same-cycle hardware update survives. -/
  | registerReadClear (src : Src) (slot : BitVec 14) (wid : Width)
  /-- HIGH_DWORD_WRITE (R416): A write of a slot's high dword holds bits 35:32 for the link until the low-dword write commits them. -/
  | highDwordWrite (bar2 : Bool) (slot : BitVec 22) (v : BitVec 32)
  /-- PARTIAL_ACCESS (R417): An access smaller than a dword returns the addressed bytes on read or is discarded on write, counted, and raises event 0x048. -/
  | partialAccess (bar2 : Bool) (slot : BitVec 22) (hi : Bool) (be : BitVec 4) (write : Bool)
  /-- UNDEFINED_OFFSET_ACCESS (R513): An access to an undefined offset reads zero or is discarded, advances GLB_UNDEF_CNT and captures the first such access. -/
  | undefinedOffsetAccess (src : Src) (slot : BitVec 14) (wid : Width) (write : Bool) (v : BitVec 64)
  /-- GLB_DT_SEC_READ (R519): A read of GLB_DT_SEC takes a per-requester snapshot of DT_SEC, DT_FRAC and the sub-tick accumulator. -/
  | glbDtSecRead (src : Src) (wid : Width)
  /-- GLB_LASTEVT0_READ (R520): A read of GLB_LASTEVT0 snapshots the newest event record of the Accession log for that requester. -/
  | glbLastevt0Read (src : Src) (wid : Width)
  /-- MSIX_VECTOR_UNMASK (R412): Unmasking an MSI-X vector whose pending bit is set sends its message. -/
  | msixVectorUnmask (v : Fin 34)
  /-- BAR2_READ (R386): A host read of a shared-store word through BAR2 returns the word, or completes poisoned on a bus error. -/
  | bar2Read (a : BitVec 22) (wid : Width)
  /-- BAR2_WRITE (R377): A host posted write of a shared-store word through BAR2 commits all 36 bits, or is discarded and counted on a bus error. -/
  | bar2Write (a : BitVec 22) (wid : Width) (v : BitVec 64)
  /-- SPI_REGISTER_READ (R418): An SPI frame with command 0x0B reads successive register slots as 5-byte units with their side effects. -/
  | spiRegisterRead (addr : BitVec 24) (n : Nat)
  /-- SPI_REGISTER_WRITE (R418): An SPI frame with command 0x02 writes successive register slots, each unit committed on its fifth byte. -/
  | spiRegisterWrite (addr : BitVec 24) (units : List (BitVec 40))
  /-- SPI_WORD_READ (R419): An SPI frame with command 0x1B reads shared-store words as requester HOST, with STAT giving a bus error or not-ready. -/
  | spiWordRead (addr : BitVec 24) (ready : List Bool)
  /-- SPI_WORD_WRITE (R419): An SPI frame with command 0x12 writes shared-store words as requester HOST, recording failure in the status byte. -/
  | spiWordWrite (addr : BitVec 24) (units : List (BitVec 40))
  /-- SPI_STATUS_READ (R420): An SPI frame with command 0x05 returns the status byte and clears its ERR bit. -/
  | spiStatusRead
  /-- SPI_FRAME_REFUSED (R418): A frame with an unknown command byte or bad address is ignored, drives all ones and advances HIF_SPI_ERR_CNT. -/
  | spiFrameRefused (cmd : BitVec 8) (addr : BitVec 24)
  /-- POWER_ON_RESET_RELEASE (R499): Once every rail and RESET_N has stood above reset level for 2 ms, the power-on reset is released and boot begins. -/
  | powerOnResetRelease (hostsel : Bool) (bootsel : Bool) (iob33 : Bool) (bad : List Nat)
  /-- SUPPLY_RESET (R501): A rail falling below its reset level causes a supply reset that acts as a power-on reset, after a hardware Provenance entry. -/
  | supplyReset (rail : Fin 9)
  /-- RESET_N_ASSERT (R501): RESET_N held low for at least 1 µs causes a warm reset lasting while it is low. -/
  | resetNAssert
  /-- WARM_RESET (R502): A warm reset resets units and rings while keeping DT, memories and the Catalogue, wipes Vault banks, and reboots. -/
  | warmReset (bad : List Nat) (catOk : Bool)
  /-- WATCHDOG_EXPIRY (R463): Expiry of the Curator watchdog, or a stopped Curator core, causes a warm reset with cause 0x4. -/
  | watchdogExpiry
  /-- BOOT_CONFIRM (R487): 10 s of DT after HIF_BOOT.DONE the boot is confirmed, clearing the slot's attempt count and advancing the anti-rollback fuses if needed. -/
  | bootConfirm
  /-- FUNCTION_LEVEL_RESET (R413): A PCI Express function-level reset returns the host interface registers and rings to reset values and discards unconsumed entries. -/
  | functionLevelReset
  /-- PERST_N (R413): An assertion of PERST_N resets the link and configuration space and acts on the host interface as a function-level reset. -/
  | perstN (level : Bool)
  /-- LINK_DOWN (R414): The PCI Express link going down drops records, pauses host-to-device rings and sets ALERT_STAT.LINK. -/
  | linkDown
  /-- LINK_UP (R412): The link coming up sends pending MSI-X messages and raises event 0x047. -/
  | linkUp (speed : Fin 3) (width : Fin 3)
  /-- DMA_READ_FAILURE (R414): A failing completion of a device read of host memory halts the ring it served and raises event 0x044. -/
  | dmaReadFailure (q : Fin 32) (addr : BitVec 64) (cause : Fin 3) (detected : Bool)
  /-- DMA_COMPLETION_TIMEOUT (R414): A device read of host memory with no completion after 50 ms is detected as failed. -/
  | dmaCompletionTimeout (q : Fin 32) (addr : BitVec 64) (detected : Bool)
  /-- SUPPLY_WARNING (R504): A rail falling below its warning level begins a supply-warning interval and raises event 0xA20. -/
  | supplyWarning (i : Fin 14) (mv : Nat)
  /-- SUPPLY_RECOVERY (R505): A rail standing above warning level plus hysteresis for 1 ms ends the interval, raises event 0xA21 and lets deferred store writes begin. -/
  | supplyRecovery (i : Fin 14) (us : Nat)
  /-- TAMPER_FILTER_PASS (R491): TAMPER_N held low for 1 ms passes its filter, wipes the Vault banks and raises event 0xA17. -/
  | tamperFilterPass (level : Bool)
  /-- SENSOR_SAMPLE (R465): Every 1 ms the Curator samples sensors 0 to 30 and evaluates the thermal warning, load shedding and shutdown rules. -/
  | sensorSample (temps : List Int) (mv : List Nat)
  /-- AGEING_MEASURE (R465): Every 86,400 s of DT each ageing monitor is measured over 1 s at constant load. -/
  | ageingMeasure (vals : List Nat)
  /-- TPC_DELAY_REFRESH (R314): Once per second the Curator sets TPC_DFIX and TPC_DIN from factory data and sensor 11. -/
  | tpcDelayRefresh
  /-- PROVENANCE_WRITE (R472): A queued Provenance entry is written to the store ring with its PSEQ and CRC. -/
  | provenanceWrite
  /-- NVS_WRITE_COMPLETE (R477): An A/B record write over the copy not in force completes, making the new version valid. -/
  | nvsWriteComplete
  /-- NVS_SECTOR_REFRESH (R479): Every 61,440 s of powered time the next store sector is read and written back unchanged. -/
  | nvsSectorRefresh (bad : Option Nat)
  /-- HISTORY_ENTRY (R484): At each year or 30 days of powered time an ageing or delay entry is written to the history ring. -/
  | historyEntry
  /-- CONSOLE_LINE (R530): A queued event line of severity notice or above is sent on CUR_TX. -/
  | consoleLine
  /-- SAMPLE_CLOCK_ABSENT (R115): 64 management cycles without an fs edge declare the sample clock absent, hold DT and end LOCKED. -/
  | sampleClockAbsent
  /-- SAMPLE_CLOCK_RETURNED (R115): 64 management cycles with fs edges declare the clock returned and raise event 0x207. -/
  | sampleClockReturned (cycles : BitVec 36)
  /-- REFERENCE_LOST (R100): Missing REFIN edges for 1 µs, or a gross frequency error, declares the reference lost and moves the sample synthesiser to COAST. -/
  | referenceLost (gross : Bool) (est : BitVec 16)
  /-- QUAL_WINDOW_END (R108): At the end of each qualification window the reference offset is judged and the reference qualified after TIME windows. -/
  | qualWindowEnd (offset : BitVec 36)
  /-- SYNTH_LOCKED (R105): LOCK_N consecutive in-window comparisons lock a synthesiser, ending any unlock episode with its step S. -/
  | synthLocked (which : Fin 9) (slip : BitVec 32)
  /-- SYNTH_LOCK_LOST (R105): LOSS_K consecutive out-of-window comparisons unlock a synthesiser, beginning an episode or a front-end fault. -/
  | synthLockLost (which : Fin 9)
  /-- LOCK_TIMEOUT (R106): No lock within 100 ms plus LOCK_N periods reopens the loop, holds the DAC and returns the sample synthesiser to COAST. -/
  | lockTimeout
  /-- DISC_DECLARED (R113): An episode reaching 100 ms sets DISC_DECLARED and raises event 0x205. -/
  | discDeclared
  /-- SYN_SMP_CTRL_ENABLE (R106): A write of ENABLE to SYN_SMP_CTRL starts the sample synthesiser from OFF. -/
  | synSmpCtrlEnable (src : Src)
  /-- SYN_SMP_CTRL_REENGAGE (R106): A write of REENGAGE in QUALIFIED closes the loop to RELOCKING. -/
  | synSmpCtrlReengage (src : Src)
  /-- RAMP_FRAC_WRITE (R118): A write to _RAMP_FRAC arms a ramp profile at the DT held, or is discarded as a reserved value. -/
  | rampFracWrite (src : Src) (u : Fin 8) (v : Word)
  /-- RAMP_START (R118): An armed ramp starts at its DT, moving an LO's front end to SURVEY. -/
  | rampStart (u : Fin 8)
  /-- RAMP_SEGMENT_END (R117): A ramp segment's duration ends and the next segment begins, or the profile ends or repeats. -/
  | rampSegmentEnd (u : Fin 8)
  /-- RAMP_STOP (R119): A write of RAMP_STOP to _CTRL ends a repeat or triangle profile at the next update point. -/
  | rampStop (src : Src) (u : Fin 8)
  /-- FE_CTRL_ENABLE (R95): A write of ENABLE to FE_CTRL powers the front end and starts its synthesisers. -/
  | feCtrlEnable (src : Src) (n : Fin 4)
  /-- FE_CTRL_DISABLE (R95): A write of DISABLE to FE_CTRL abandons any run and stops the taps. -/
  | feCtrlDisable (src : Src) (n : Fin 4)
  /-- FE_CTRL_RECAL (R83): A write of RECAL to FE_CTRL requests a calibration run of CAL_CFG.MASK. -/
  | feCtrlRecal (src : Src) (n : Fin 4)
  /-- FE_LOCK_TIMEOUT (R95): No LO and injection lock within 5 ms of STARTING with the sample synthesiser locked is a front-end fault. -/
  | feLockTimeout (n : Fin 4)
  /-- CAL_STEP_END (R83): A front-end calibration step completes and is judged against its limits, starting the next step or ending the run. -/
  | calStepEnd (n : Fin 4) (ms : List Int)
  /-- CAL_STEP_RESTART (R86): A suspended calibration step restarts from its beginning after lock or after a supply-interval hold. -/
  | calStepRestart (n : Fin 4)
  /-- AGC_BLOCK_END (R71): At the end of each 1 ms block the AGC, tap level control, blanking fraction and notch spectrum are computed. -/
  | agcBlockEnd (n : Fin 4)
  /-- AGC_CODE_APPLY (R72): A gain code computed at block k takes effect at block k + 2 with its phase rotation. -/
  | agcCodeApply (n : Fin 4)
  /-- LEVEL_SCALE_APPLY (R132): A tap SCALE computed at block k takes effect at the first tap sample of block k + 2. -/
  | levelScaleApply (n : Fin 4) (t : Fin 16)
  /-- NOTCH_ENGAGE (R137): A searching notch engages on its chosen bin at block k + 2 and raises event 0x301. -/
  | notchEngage (n : Fin 4) (k : Fin 4)
  /-- NOTCH_RELEASE (R137): An engaged notch is released at block k + 2 after 8 quiet blocks and raises event 0x302. -/
  | notchRelease (n : Fin 4) (k : Fin 4)
  /-- MISMATCH_CHECK_START (R77): A periodic mismatch check begins, tagging taps with C and muting injection, or is skipped. -/
  | mismatchCheckStart (n : Fin 4)
  /-- MISMATCH_CHECK_END (R78): A mismatch check ends with the return loss reported and warning, fault or recovery events raised. -/
  | mismatchCheckEnd (n : Fin 4) (lo : Nat) (mid : Nat) (hi : Nat) (refl : BitVec 12)
  /-- BIAS_SAMPLE (R80): Every 10 µs ABIAS_SNS is sampled, open and short conditions judged and the switch driven off on a short. -/
  | biasSample (n : Fin 4) (uv : Nat)
  /-- BIAS_RETRY (R81): After 2^(m−1) s the aerial bias is switched on again following a short. -/
  | biasRetry (n : Fin 4)
  /-- BIAS_CFG_WRITE (R81): A write of BIAS_CFG.EN switches the bias, and EN = 1 after EN = 0 clears a latch and the short history. -/
  | biasCfgWrite (src : Src) (n : Fin 4) (v : Word)
  /-- COEX_REQ_EDGE (R90): An edge on COEX_REQ drives the grant and starts or ends blanking of mapped front ends. -/
  | coexReqEdge (k : Fin 2) (level : Bool)
  /-- COEX_GNT_EDGE (R92): A fall of COEX_GNT during a protected window in requester mode sets DENIED. -/
  | coexGntEdge (k : Fin 2) (level : Bool)
  /-- COEX_WIN_FRAC_WRITE (R93): A write to COEX_WIN_FRAC arms protected windows, or sets LATE for a single window already passed. -/
  | coexWinFracWrite (src : Src) (n : Fin 4) (k : Fin 2) (v : Word)
  /-- COEX_WINDOW_START (R92): A protected window begins, with REQ asserted beforehand in requester mode and the grant checked. -/
  | coexWindowStart (k : Fin 2)
  /-- COEX_WINDOW_END (R91): A protected window ends, releasing REQ after TAIL or granting a withheld request. -/
  | coexWindowEnd (k : Fin 2)
  /-- TAP_CFG_WRITE (R127): A write to a tap configuration enables or disables the tap subject to range, budget and busy tests. -/
  | tapCfgWrite (src : Src) (n : Fin 4) (t : Fin 16) (fcw : Bool) (v : Word)
  /-- TAP_START (R130): An enabled tap begins producing at the first aligned sample cycle after its front end starts producing. -/
  | tapStart (n : Fin 4) (t : Fin 16)
  /-- STREAM_BLOCK_END (R142): A stream block ends after its samples or run limit and is written to its ring or dropped. -/
  | streamBlockEnd (n : Fin 4) (t : Fin 17)
  /-- CHZ_CTRL_REPLAY_START (R143): A write of REPLAY_START to CHZ_CTRL begins replay from the replay-in ring. -/
  | chzCtrlReplayStart (src : Src) (n : Fin 4)
  /-- CHZ_CTRL_REPLAY_STOP (R143): A write of REPLAY_STOP to CHZ_CTRL ends replay. -/
  | chzCtrlReplayStop (src : Src) (n : Fin 4)
  /-- REPLAY_BLOCK (R145): A replay block is taken from the ring, checked, gap-filled if late, or stops replay on an error. -/
  | replayBlock (n : Fin 4) (h : List Word) (bytes : List (BitVec 8))
  /-- CAPTURE_COMPLETE (R155): A snapshot capture reaches its nominal end and becomes complete, or fails on overrun. -/
  | captureComplete (i : Fin 32) (failed : Bool)
  /-- JOB_START (R160): A free engine half starts the lowest-numbered admitted job whose snapshot is complete. -/
  | jobStart (h : Fin 2) (us : Word)
  /-- JOB_COMPLETE (R168): An engine half completes a search and hands the result to the ordering stage. -/
  | jobComplete (h : Fin 2) (us : Word)
  /-- ACQ_HALF_FAULT (R168): A residue mismatch in an engine half reruns the job or retires the half. -/
  | acqHalfFault (h : Fin 2) (retryOk : Bool)
  /-- RESULT_RECORD_WRITE (R160): A completed job's result record is written in job sequence order once every earlier result is written. -/
  | resultRecordWrite
  /-- JOB_NOMINAL_END (R159): A job's nominal end frees its queue slot, releases AUTO_REL snapshots and admits waiting jobs. -/
  | jobNominalEnd
  /-- ACQ_CFG_WRITE (R168): A write to ACQ_CFG enables or disables engine halves and fall-back, moving half states. -/
  | acqCfgWrite (src : Src) (v : Word)
  /-- ACQ_CTRL_PLAN_NOW (R171): A write of PLAN_NOW begins an extra plan rebuild at the next tick. -/
  | acqCtrlPlanNow (src : Src)
  /-- PLAN_REBUILD_START (R171): At E_k a plan rebuild begins from Catalogue and channel state, abandoning any rebuild still running. -/
  | planRebuildStart
  /-- PLAN_REBUILD_COMPLETE (R172): A plan rebuild completes, and a late generation becomes active at the next scheduler tick. -/
  | planRebuildComplete
  /-- PLAN_ACTIVATE (R171): At A_k a completed generation becomes active, or the rebuild is declared late. -/
  | planActivate
  /-- SCHEDULER_TICK (R174): Every 100 ms, once every channel has passed the tick, the scheduler forms candidates, assigns channels and enters captures and jobs. -/
  | schedulerTick
  /-- FALLBACK_DWELL_END (R179): A fall-back dwell ends and is tested against the threshold, ending the search or moving on. -/
  | fallbackDwellEnd (c : Fin 2048)
  /-- WG_CTRL_ENABLE (R188): A write of ENABLE to WG_CTRL powers the wing, fills its memories and loads the loop program. -/
  | wgCtrlEnable (src : Src) (w : Fin 16)
  /-- WG_CTRL_DISABLE (R188): A write of DISABLE to WG_CTRL powers off a wing with no channel assigned. -/
  | wgCtrlDisable (src : Src) (w : Fin 16)
  /-- WING_CORE_READY (R188): The wing core becomes ready and the wing enters ON. -/
  | wingCoreReady (w : Fin 16)
  /-- CHANNEL_ASSIGNMENT_ENTRY (R211): At its entry grid point an assignment initialises the channel and posts tokens 0 and 1. -/
  | channelAssignmentEntry
  /-- INTEGRATION_START (R203): At the first sample of an integration the channel reads its token and latches the slot, waits, runs free or is released. -/
  | integrationStart (c : Fin 2048)
  /-- TOKEN_LATCH (R203): A waiting channel latches its slot when the token is written. -/
  | tokenLatch (c : Fin 2048)
  /-- INTEGRATION_END (R200): An integration ends and the correlator writes its result buffer with DONE. -/
  | integrationEnd (c : Fin 2048)
  /-- RESIDUE_CHECKPOINT (R202): At each checkpoint accumulator residues are compared and a mismatch is retried from the tap buffer. -/
  | residueCheckpoint (c : Fin 2048) (mismatch : Bool) (retryOk : Bool)
  /-- CHANNEL_OVERRUN (R20): A channel whose lag would exceed the real-time margin is marked invalid, released and reported. -/
  | channelOverrun (c : Fin 2048)
  /-- CHANNEL_MOVE (R213): A move or migration copies the channel's state to the target once integration j − 1 is done. -/
  | channelMove (c : Fin 2048)
  /-- LOOP_PROCESS_INTEGRATION (R221): The loop program processes a DONE integration, updating loops, state, sync and decoding and posting the token for j + 2. -/
  | loopProcessIntegration (c : Fin 2048) (budgetTrap : Bool)
  /-- WING_CORE_FAULT (R212): A wing-core fault reloads the core and resumes every channel, or retires the wing. -/
  | wingCoreFault (w : Fin 16) (cause : BitVec 5) (pc : BitVec 24) (retryOk : Bool) (part : Bool)
  /-- EPOCH_RECORDS (R247): Once every reporting channel has processed its containing integration, the epoch's observable, profile, navigation-data and epoch-close records are written. -/
  | epochRecords
  /-- SOLUTION_EPOCH (R275): At each solution epoch SOL forms the solution with fault exclusion, updates offsets, holdover and steering, and writes the record. -/
  | solutionEpoch
  /-- SOLUTION_CORE_FAULT (R270): A solution-core fault recomputes the epoch, or retires the core and the survivor takes over its duties. -/
  | solutionCoreFault (k : Fin 2) (retryOk : Bool)
  /-- OSS_GRID_POINT (R288): At each OSS grid point the steering code is sent as a frame on OSS_DO. -/
  | ossGridPoint
  /-- TP_MODEL_UPDATE (R303): At t_e plus the margin TPC applies the new offset model and moves the difference into Δ. -/
  | tpModelUpdate
  /-- TP_FIRST_ALIGNMENT (R304): An output in WAIT enters RUN and places its first pulse once its scale is available. -/
  | tpFirstAlignment (n : Fin 4)
  /-- TP_EDGE_COMMIT (R302): An edge is committed 64 sample cycles before its DT, or its label is skipped. -/
  | tpEdgeCommit (n : Fin 4)
  /-- TP_LEADING_EDGE (R301): A pulse's leading edge is emitted at its scheduled DT and a report written when due. -/
  | tpLeadingEdge (n : Fin 4)
  /-- TP_TRAILING_EDGE (R301): A pulse's trailing edge is emitted WIDTH after the leading edge. -/
  | tpTrailingEdge (n : Fin 4)
  /-- SLEW_COMPLETE (R303): Δ reaches zero and the slew ends with event 0x703. -/
  | slewComplete (n : Fin 4)
  /-- TP_CTRL_JUMP (R304): A write of JUMP to TP_CTRL sets Δ to zero for the output. -/
  | tpCtrlJump (src : Src) (n : Fin 4)
  /-- CAPTURE_EDGE (R310): An edge on a capture input is stamped in DT and scale time and enters the FIFO, or is ignored or lost. -/
  | captureEdge (n : Fin 4) (rising : Bool) (d : Dt)
  /-- CAPTURE_RECORD_WRITE (R312): A stamped edge leaves the FIFO as a capture record on the capture ring. -/
  | captureRecordWrite (n : Fin 4)
  /-- INJECTION_START (R324): A waiting calibration unit starts injection at the first grid point once ready. -/
  | injectionStart (n : Fin 4)
  /-- INJECT_WAIT_TIMEOUT (R324): TIMEOUT elapsing in WAIT refuses the start with NOT_READY and returns the unit to OFF. -/
  | injectWaitTimeout (n : Fin 4)
  /-- CAL_SECOND_END (R329): At each whole second the calibration correlators form their estimates, judge validity and recentre BASE. -/
  | calSecondEnd
  /-- LIVE_DELAY_APPLY (R331): A valid estimate's live value takes effect at sample time k + 2 s. -/
  | liveDelayApply
  /-- CAL_CTRL_INJ_STOP (R324): A write of INJ_STOP to CAL_CTRL stops injection as an immediate command. -/
  | calCtrlInjStop (src : Src) (n : Fin 4)
  /-- CAL_CTRL_SWEEP_ABORT (R338): A write of SWEEP_ABORT to CAL_CTRL aborts a running sweep. -/
  | calCtrlSweepAbort (src : Src) (n : Fin 4)
  /-- SWEEP_DUE (R335): A periodic sweep falls due and starts, or is skipped. -/
  | sweepDue (n : Fin 4)
  /-- SWEEP_END (R337): A sweep ends and the new delay table is computed. -/
  | sweepEnd (n : Fin 4)
  /-- SWEEP_TABLE_APPLY (R337): The sweep's table takes effect 2 s after its last sample and its records are written. -/
  | sweepTableApply (n : Fin 4)
  /-- BANK_OWNER_WRITE (R380): A permitted write to BANK_OWNER starts a handover, or is held or denied. -/
  | bankOwnerWrite (src : Src) (b : Fin 16) (v : Word)
  /-- HANDOVER_DRAIN_COMPLETE (R380): A handover's drain completes and its wipe begins when required. -/
  | handoverDrainComplete (b : Fin 16)
  /-- HANDOVER_ACTIVATE (R380): A handover activates the new owner, raises interrupt line 2 and event 0x900, and starts any held handover. -/
  | handoverActivate (b : Fin 16)
  /-- BANK_POWER_WRITE (R402): A write to BANK_POWER requests ON, RETAIN or OFF for a bank. -/
  | bankPowerWrite (src : Src) (b : Fin 16) (v : Word)
  /-- BANK_WAKE_COMPLETE (R385): A bank in RETAIN woken by an access becomes able to serve it. -/
  | bankWakeComplete (b : Fin 16)
  /-- BANK_REFILL_COMPLETE (R402): A bank powered up from OFF finishes its refill and goes ON. -/
  | bankRefillComplete (b : Fin 16)
  /-- BANK_IDLE_TIMEOUT (R402): A woken bank returns to RETAIN after IDLE µs without an access. -/
  | bankIdleTimeout (b : Fin 16)
  /-- VAULT_WIPE_COMPLETE (R384): A Vault wipe outside a handover completes and stalled accesses proceed. -/
  | vaultWipeComplete (b : Fin 16)
  /-- PRIORITY_SCRUB (R390): A priority scrub rewrites a word with a correctable error and rereads it, declaring a hard error if it persists. -/
  | priorityScrub (persists : Bool) (retryOk : Bool)
  /-- SCRUB_WORD (R393): The Conservator scrubs the next word, correcting, leaving or poisoning it. -/
  | scrubWord
  /-- BUCKET_LEAK (R392): At each multiple of LEAK seconds every error bucket falls by one and may re-arm. -/
  | bucketLeak
  /-- REGION_BORROW (R397): Every INTERVAL ms the Conservator borrows the next region into a shadow and starts its March test. -/
  | regionBorrow
  /-- MARCH_TEST_COMPLETE (R399): A March test ends, the shadow is written back and a failure is a region fault. -/
  | marchTestComplete (a : Fin 64) (mask : Stored) (retryOk : Bool)
  /-- MEM_CTRL_SCRUB_NOW (R393): A write of SCRUB_NOW to MEM_CTRL begins a new scrub pass. -/
  | memCtrlScrubNow (src : Src)
  /-- MEM_CTRL_TEST_RESTART (R397): A write of TEST_RESTART to MEM_CTRL restarts the test pass at region 0. -/
  | memCtrlTestRestart (src : Src)
  /-- FE_HIST_CTRL_CLEAR (R98): A write of CLEAR to FE_HIST_CTRL zeroes all histogram bins. -/
  | feHistCtrlClear (src : Src) (n : Fin 4)
  /-- ACQ_HIST_CTRL_CLEAR (R185): A write of CLEAR to ACQ_HIST_CTRL zeroes the acquisition histogram. -/
  | acqHistCtrlClear (src : Src)
  /-- RING_CTRL_ENABLE (R427): A write of ENABLE to RING_CTRL turns a validly configured ring ON with both indices zero. -/
  | ringCtrlEnable (src : Src) (q : Fin 32)
  /-- RING_CTRL_DISABLE (R427): A write of DISABLE to RING_CTRL turns a ring OFF after the entry in progress. -/
  | ringCtrlDisable (src : Src) (q : Fin 32)
  /-- RING_BASE_LO_WRITE (R427): A low-dword write committing a valid base to rings 0 to 2 enables the ring. -/
  | ringBaseLoWrite (src : Src) (q : Fin 32) (v : Word)
  /-- RING_PROD_WRITE (R423): A host write of PROD advances a host-to-device or user ring, or is refused. -/
  | ringProdWrite (src : Src) (q : Fin 32) (v : Word)
  /-- RING_CONS_WRITE (R423): A host write of CONS frees entries of a device-to-host or user ring, or is refused. -/
  | ringConsWrite (src : Src) (q : Fin 32) (v : Word)
  /-- RING_MOD_TIMEOUT (R428): MOD_TIME µs after the first unsignalled entry the ring sends its message. -/
  | ringModTimeout (q : Fin 32)
  /-- COMMAND_UNKNOWN_OPCODE (R452): A command entry with an undefined opcode is consumed and refused with UNKNOWN_OPCODE. -/
  | commandUnknownOpcode (op : BitVec 12) (p : Packet)
  /-- PENDING_COMMAND_DUE (R440): A pending at-epoch command reaches its boundary, is checked against the state there and takes effect or is refused. -/
  | pendingCommandDue
  /-- PARKED_COMMAND_RETRY (R441): A parked command is checked again at a boundary and takes effect once no longer busy. -/
  | parkedCommandRetry
  /-- PARKED_COMMAND_TIMEOUT (R441): A parked command still busy after WAIT_MAX returns TIMEOUT with no effect. -/
  | parkedCommandTimeout
  /-- PRODUCT_LANDING (R355): A MUL, MULU or MAC lands its product after the second following instruction. -/
  | productLanding (c : Fin 19)
  /-- INTERRUPT (R366): A pending enabled interrupt line is taken as a trap with cause 0x1F. -/
  | interrupt (c : Fin 19)
  /-- WAIT_RESUME (R366): A core stalled by WAIT continues once IPEND AND IMASK is nonzero. -/
  | waitResume (c : Fin 19)
  /-- ADD (R352): rd := ra + rb. -/
  | add (c : Fin 19) (f : FmtR)
  /-- SUB (R352): rd := ra − rb. -/
  | sub (c : Fin 19) (f : FmtR)
  /-- AND (R352): rd := ra AND rb. -/
  | and (c : Fin 19) (f : FmtR)
  /-- OR (R352): rd := ra OR rb. -/
  | or (c : Fin 19) (f : FmtR)
  /-- XOR (R352): rd := ra XOR rb. -/
  | xor (c : Fin 19) (f : FmtR)
  /-- ANDN (R352): rd := ra AND NOT rb. -/
  | andn (c : Fin 19) (f : FmtR)
  /-- SLL (R352): rd := ra shifted left by rb[5:0]. -/
  | sll (c : Fin 19) (f : FmtR)
  /-- SRL (R352): rd := ra shifted right logically by rb[5:0]. -/
  | srl (c : Fin 19) (f : FmtR)
  /-- SRA (R352): rd := ra shifted right arithmetically by rb[5:0]. -/
  | sra (c : Fin 19) (f : FmtR)
  /-- SEQ (R352): rd := 1 when ra = rb, else 0. -/
  | seq (c : Fin 19) (f : FmtR)
  /-- SNE (R352): rd := 1 when ra ≠ rb, else 0. -/
  | sne (c : Fin 19) (f : FmtR)
  /-- SLT (R352): rd := 1 when ra < rb signed, else 0. -/
  | slt (c : Fin 19) (f : FmtR)
  /-- SLTU (R352): rd := 1 when ra < rb unsigned, else 0. -/
  | sltu (c : Fin 19) (f : FmtR)
  /-- SGE (R352): rd := 1 when ra ≥ rb signed, else 0. -/
  | sge (c : Fin 19) (f : FmtR)
  /-- SGEU (R352): rd := 1 when ra ≥ rb unsigned, else 0. -/
  | sgeu (c : Fin 19) (f : FmtR)
  /-- ADDI (R352): rd := ra + sext(imm). -/
  | addi (c : Fin 19) (f : FmtI)
  /-- ANDI (R352): rd := ra AND zext(imm). -/
  | andi (c : Fin 19) (f : FmtI)
  /-- ORI (R352): rd := ra OR zext(imm). -/
  | ori (c : Fin 19) (f : FmtI)
  /-- XORI (R352): rd := ra XOR zext(imm). -/
  | xori (c : Fin 19) (f : FmtI)
  /-- LUI (R352): rd := imm × 2^16. -/
  | lui (c : Fin 19) (f : FmtI)
  /-- SLLI (R352): rd := ra shifted left by amt. -/
  | slli (c : Fin 19) (f : FmtS)
  /-- SRLI (R352): rd := ra shifted right logically by amt. -/
  | srli (c : Fin 19) (f : FmtS)
  /-- SRAI (R352): rd := ra shifted right arithmetically by amt. -/
  | srai (c : Fin 19) (f : FmtS)
  /-- SEQI (R352): rd := 1 when ra = sext(imm), else 0. -/
  | seqi (c : Fin 19) (f : FmtI)
  /-- SNEI (R352): rd := 1 when ra ≠ sext(imm), else 0. -/
  | snei (c : Fin 19) (f : FmtI)
  /-- SLTI (R352): rd := 1 when ra < sext(imm) signed, else 0. -/
  | slti (c : Fin 19) (f : FmtI)
  /-- SLTUI (R352): rd := 1 when ra < sext(imm) unsigned, else 0. -/
  | sltui (c : Fin 19) (f : FmtI)
  /-- SGEI (R352): rd := 1 when ra ≥ sext(imm) signed, else 0. -/
  | sgei (c : Fin 19) (f : FmtI)
  /-- SGEUI (R352): rd := 1 when ra ≥ sext(imm) unsigned, else 0. -/
  | sgeui (c : Fin 19) (f : FmtI)
  /-- EXT (R352): rd := zero-extended field of ra at pos and wid. -/
  | ext (c : Fin 19) (f : FmtF)
  /-- EXTS (R352): rd := sign-extended field of ra at pos and wid. -/
  | exts (c : Fin 19) (f : FmtF)
  /-- INS (R352): Inserts ra[wid−1:0] into rd at pos. -/
  | ins (c : Fin 19) (f : FmtF)
  /-- LD (R353): Loads a word from the effective address. -/
  | ld (c : Fin 19) (f : FmtI)
  /-- ST (R353): Stores rd to the effective address. -/
  | st (c : Fin 19) (f : FmtI)
  /-- LDD (R353): Loads two words from an even effective address as one access. -/
  | ldd (c : Fin 19) (f : FmtI)
  /-- STD (R353): Stores two words to an even effective address as one access. -/
  | std (c : Fin 19) (f : FmtI)
  /-- MUL (R355): Issues a signed product into p0:p1 that lands later. -/
  | mul (c : Fin 19) (f : FmtM)
  /-- MULU (R355): Issues an unsigned product into p0:p1 that lands later. -/
  | mulu (c : Fin 19) (f : FmtM)
  /-- MAC (R355): Issues a signed product added into p2:p3 at landing. -/
  | mac (c : Fin 19) (f : FmtM)
  /-- DSTEP (R356): Performs one restoring division step on p0:p1. -/
  | dstep (c : Fin 19) (f : FmtM)
  /-- MFP (R352): rd := product register pi. -/
  | mfp (c : Fin 19) (f : FmtP)
  /-- MTP (R352): Product register pi := ra. -/
  | mtp (c : Fin 19) (f : FmtP)
  /-- REP (R358): Repeats the next instruction rc times, or traps repeat misuse. -/
  | rep (c : Fin 19) (z : BitVec 30)
  /-- BZ (R354): Branches by off when ra is zero. -/
  | bz (c : Fin 19) (f : FmtB)
  /-- BNZ (R354): Branches by off when ra is nonzero. -/
  | bnz (c : Fin 19) (f : FmtB)
  /-- JMP (R352): pc := target. -/
  | jmp (c : Fin 19) (f : FmtJ)
  /-- JR (R352): pc := ra[23:0]. -/
  | jr (c : Fin 19) (f : FmtM)
  /-- CALL (R357): Pushes pc + 1 and jumps to target, or traps return-stack overflow. -/
  | call (c : Fin 19) (f : FmtJ)
  /-- CALLR (R357): Pushes pc + 1 and jumps to ra[23:0], or traps return-stack overflow. -/
  | callr (c : Fin 19) (f : FmtM)
  /-- RET (R357): Pops pc from the return stack, or traps underflow. -/
  | ret (c : Fin 19) (z : BitVec 30)
  /-- RETT (R365): Returns from a trap, restoring STATUS and resuming any interrupted repetition. -/
  | rett (c : Fin 19) (z : BitVec 30)
  /-- SYS (R360): Traps with cause system call. -/
  | sys (c : Fin 19) (f : FmtX)
  /-- BRK (R360): Traps with cause breakpoint. -/
  | brk (c : Fin 19) (f : FmtX)
  /-- WAIT (R366): Stalls the core until an enabled interrupt line is pending. -/
  | wait (c : Fin 19) (z : BitVec 30)
  /-- MFC (R368): rd := control register n. -/
  | mfc (c : Fin 19) (f : FmtC)
  /-- MTC (R368): Control register n := ra by its access type. -/
  | mtc (c : Fin 19) (f : FmtC)
  /-- DEV_NOP (R453): Returns the DT at processing. -/
  | devNop (p : Packet)
  /-- DEV_CANCEL (R453): Removes pending and parked commands by TAG or all of them. -/
  | devCancel (p : Packet)
  /-- DEV_FAULT_POLICY (R453): Sets K and window of the fault policy for a unit kind and saves them. -/
  | devFaultPolicy (p : Packet)
  /-- DEV_RESET (R453): Causes a warm reset when KEY is 0x4620. -/
  | devReset (p : Packet)
  /-- DEV_CMD_CFG (R453): Sets or reads the parked-command wait limit. -/
  | devCmdCfg (p : Packet)
  /-- FE_STATE (R454): Enables, disables or switches a front end to or from replay. -/
  | feState (p : Packet)
  /-- FE_CONFIG (R454): Writes eight front-end configuration registers at one sample cycle. -/
  | feConfig (p : Packet)
  /-- FE_CALIBRATE (R454): Starts a front-end calibration run of the given mask. -/
  | feCalibrate (p : Packet)
  /-- FE_BIAS (R454): Writes FE_BIAS_CFG, clearing a latch when EN is set. -/
  | feBias (p : Packet)
  /-- FE_COEX (R454): Configures a coexistence pair and arms its windows. -/
  | feCoex (p : Packet)
  /-- SYN_SMP (R455): Enables or re-engages the sample synthesiser. -/
  | synSmp (p : Packet)
  /-- SYN_REF_CONFIG (R455): Writes the reference and sample-synthesiser configuration registers. -/
  | synRefConfig (p : Packet)
  /-- SYN_LO_CONFIG (R455): Writes the configuration of an LO or injection synthesiser. -/
  | synLoConfig (p : Packet)
  /-- SYN_RAMP_SEG (R455): Writes ramp segments of an LO synthesiser. -/
  | synRampSeg (p : Packet)
  /-- SYN_RAMP_ARM (R455): Arms or stops an LO ramp. -/
  | synRampArm (p : Packet)
  /-- TAP_CONFIG (R456): Configures and enables or disables a tap. -/
  | tapConfig (p : Packet)
  /-- CHZ_CONFIG (R456): Writes blanker, level and event-mask configuration of a channeliser. -/
  | chzConfig (p : Packet)
  /-- NOTCH_CONFIG (R456): Configures a notch filter. -/
  | notchConfig (p : Packet)
  /-- STREAM_CONFIG (R456): Configures the full-rate stream of a front end. -/
  | streamConfig (p : Packet)
  /-- REPLAY_CTRL (R456): Configures, starts or stops replay on a front end. -/
  | replayCtrl (p : Packet)
  /-- CODE_RAM_LOAD (R64): Replaces the whole code-RAM image at its effective sample cycle, or changes nothing. -/
  | codeRamLoad (p : Packet)
  /-- CODE_RAM_READ (R456): Writes the code-RAM image to a host buffer. -/
  | codeRamRead (p : Packet)
  /-- ACQ_JOB (R157): Enters a search job into the acquisition queue. -/
  | acqJob (p : Packet)
  /-- ACQ_SNAP (R154): Captures a tap into a snapshot in banks on loan to ACQ. -/
  | acqSnap (p : Packet)
  /-- ACQ_SNAP_RELEASE (R156): Releases a snapshot's pages. -/
  | acqSnapRelease (p : Packet)
  /-- ACQ_CANCEL (R161): Cancels admitted host jobs by TAG or all. -/
  | acqCancel (p : Packet)
  /-- ACQ_SCHED_LIST (R181): Sets a front end's scheduler signal list from the next tick. -/
  | acqSchedList (p : Packet)
  /-- ACQ_BANK_RETURN (R156): Returns a bank on loan to ACQ to NONE. -/
  | acqBankReturn (p : Packet)
  /-- CH_ASSIGN (R210): Assigns a channel to a signal on a tap. -/
  | chAssign (p : Packet)
  /-- CH_RELEASE (R215): Releases a channel at its next unposted integration boundary. -/
  | chRelease (p : Packet)
  /-- CH_CONFIG (R215): Changes a channel's profile, width and free-run mode at a boundary. -/
  | chConfig (p : Packet)
  /-- CH_MOVE (R213): Moves a channel to another physical channel. -/
  | chMove (p : Packet)
  /-- WG_CTRL (R188): Enables or disables a wing. -/
  | wgCtrl (p : Packet)
  /-- LOOP_PARAM_SET (R224): Sets a loop parameter set from its effective DT. -/
  | loopParamSet (p : Packet)
  /-- LOOP_SELECT (R224): Selects the parameter set of a channel. -/
  | loopSelect (p : Packet)
  /-- LOOP_PARAM_GET (R243): Returns a loop parameter set. -/
  | loopParamGet (p : Packet)
  /-- LOOP_DEFAULT (R243): Sets a front end's default parameter set for later assignments. -/
  | loopDefault (p : Packet)
  /-- LOOP_STATUS (R243): Returns a channel's loop-state words. -/
  | loopStatus (p : Packet)
  /-- LOOP_HOOK (R243): Attaches or detaches a user hook for a parameter set. -/
  | loopHook (p : Packet)
  /-- OBS_CONFIG (R266): Changes the observable interval, alignment and options at a measurement epoch. -/
  | obsConfig (p : Packet)
  /-- SOL_CONFIG (R295): Writes the solution configuration at a measurement epoch. -/
  | solConfig (p : Packet)
  /-- SOL_MODE_SET (R277): Changes the solution mode. -/
  | solModeSet (p : Packet)
  /-- SOL_POSITION (R293): Supplies a position aid or held position. -/
  | solPosition (p : Packet)
  /-- SOL_OSC_MODEL (R295): Sets the oscillator model for holdover. -/
  | solOscModel (p : Packet)
  /-- SOL_STEER (R287): Configures and enables the oscillator steering loop. -/
  | solSteer (p : Packet)
  /-- CAT_LOAD (R292): Loads Catalogue entries from a host buffer. -/
  | catLoad (p : Packet)
  /-- CAT_TIME (R293): Supplies a time aid to the Catalogue. -/
  | catTime (p : Packet)
  /-- CAT_READ (R292): Writes every held Catalogue message to a buffer. -/
  | catRead (p : Packet)
  /-- CAT_CLEAR (R291): Removes the Catalogue entries of the masked systems. -/
  | catClear (p : Packet)
  /-- TP_CONFIG (R315): Configures and enables or disables a time-pulse output. -/
  | tpConfig (p : Packet)
  /-- TP_JUMP (R304): Jumps the masked outputs, removing their Δ. -/
  | tpJump (p : Packet)
  /-- CAP_CONFIG (R315): Configures a capture input. -/
  | capConfig (p : Packet)
  /-- CAL_INJECT (R324): Starts or stops calibration injection, waiting for readiness as configured. -/
  | calInject (p : Packet)
  /-- CAL_SWEEP (R335): Requests or aborts a swept frequency response. -/
  | calSweep (p : Packet)
  /-- CAL_CONFIG (R346): Writes a calibration unit's configuration. -/
  | calConfig (p : Packet)
  /-- BANK_HANDOVER (R407): Requests a bank handover to a new owner. -/
  | bankHandover (p : Packet)
  /-- BANK_CONFIG (R407): Sets a bank's delegate, Vault, lock and wipe attributes. -/
  | bankConfig (p : Packet)
  /-- BANK_POWER (R407): Requests a bank power state. -/
  | bankPower (p : Packet)
  /-- MEM_REPAIR_READ (R407): Writes the field repair map to a buffer. -/
  | memRepairRead (p : Packet)
  /-- LOG_DRAIN (R471): Writes Accession-log entries to a log-drain ring. -/
  | logDrain (p : Packet)
  /-- PROV_READ (R473): Writes the valid Provenance entries to a buffer. -/
  | provRead (p : Packet)
  /-- RETIRED_READ (R483): Writes the retired-unit map to a buffer. -/
  | retiredRead (p : Packet)
  /-- RETIRED_REMOVE (R35): Removes a unit from the retired-unit map. -/
  | retiredRemove (p : Packet)
  /-- SETTINGS_WRITE (R482): Writes a new settings record for the next boot. -/
  | settingsWrite (p : Packet)
  /-- SETTINGS_READ (R482): Writes the settings body in force to a buffer. -/
  | settingsRead (p : Packet)
  /-- SENSOR_READ (R464): Returns a sensor reading and its DT. -/
  | sensorRead (p : Packet)
  /-- LIFECYCLE (R490): Advances the life-cycle state irreversibly and wipes Vault banks. -/
  | lifecycle (p : Packet)
  /-- FW_WRITE (R488): Writes a firmware image into the slot not running. -/
  | fwWrite (p : Packet)
  /-- FW_VERIFY (R488): Checks a firmware slot's signature and version. -/
  | fwVerify (p : Packet)
  /-- FW_ACTIVATE (R488): Selects a slot for the next boot in trial, optionally resetting now. -/
  | fwActivate (p : Packet)
  /-- FW_INFO (R458): Returns version, anti-rollback step and validity of both slots and the ROM. -/
  | fwInfo (p : Packet)
  /-- FW_COSIGN_KEY (R488): Programs the customer co-signing key hash into the fuses once. -/
  | fwCosignKey (p : Packet)
  /-- USER_LOAD (R373): Loads a user image into the user partitions of the masked wings. -/
  | userLoad (p : Packet)
  /-- USER_CLEAR (R373): Zeroes the user partitions of the masked wings. -/
  | userClear (p : Packet)
  /-- USER_INFO (R373): Returns a wing's user image lengths, CRC and hooks attached. -/
  | userInfo (p : Packet)
  /-- SAMPLE_CYCLE (R41): At each sample cycle DT advances by 419 or 420 ticks, ADC samples pass the channeliser, taps produce samples, tap buffers and replay are written and injection chips advance. -/
  | sampleCycle (a : BitVec 9 × BitVec 9) (b : BitVec 9 × BitVec 9) (c : BitVec 9 × BitVec 9) (d : BitVec 9 × BitVec 9) (cmps : List (Fin 9 × Int)) (starved : List (Fin 16))
  /-- RESET_N_RELEASE (R501): RESET_N rising ends a warm reset that lasted while it was low, and boot proceeds. -/
  | resetNRelease (bad : List Nat) (catOk : Bool)
  /-- REFERENCE_RETURN (R101): REFIN edges resume after a loss, the reference is shown present again and REFOUT resumes its selected source. -/
  | referenceReturn (est : BitVec 16)
  /-- ILLEGAL_INSTRUCTION (R351): A core issues a word whose major opcode, or fn for opcode 0x00, is not defined and traps illegal instruction. -/
  | illegalInstruction (c : Fin 19)
  /-- INSTRUCTION_FETCH_FAULT (R369): A fetch outside instruction memory, from an uncorrectable word, or outside the user partition at user level traps before any instruction is decoded. -/
  | instructionFetchFault (c : Fin 19)
  /-- TCK_EDGE (R531): A TCK edge advances the IEEE 1149.1 test port, executing BYPASS, IDCODE, SAMPLE/PRELOAD, EXTEST, CLAMP or HIGHZ. -/
  | tckEdge (rising : Bool) (tms : Bool) (tdi : Bool) (trst : Bool) (pins : List Bool)
  /-- TRST_N_ASSERT (R531): TRST_N driven low resets the test port. -/
  | trstNAssert
deriving DecidableEq, Repr

end Sys2Proof
end

