-- ==== Sys2Proof/Decode.lean ====
section
/-! DEFINITION. Decode.lean: the command that a word spells by the bits of spec/opcode_table.json. -/

namespace Sys2Proof

/-- The command a word spells. No row of the table gives bits, so no word spells one. -/
def decodeTableWord (_nbits _w : Nat) : Option Instr := none

end Sys2Proof
end

