-- ==== Sys2Proof/Config.lean ====
section
/-! DEFINITION. Config.lean: what a part or its firmware fixes and the spec does not state. Every constant here is opaque:
nothing can be proved of its value, so a claim holds whatever it is (notes/assumptions/2.md). -/

namespace Sys2Proof.Config

/-- A value the spec leaves open, fresh for each use: applied to the counter State.freeCtr. -/
opaque freeWord : Nat → BitVec 36

/-- Chip `i` of the primary code of a signal and satellite as the ROM or the code generators give it (R60, R62): true
for chip value 1. The code contents are not in the spec. -/
opaque primChip : Nat → Nat → Nat → Bool

/-- Chip `i` of the secondary code of a signal and satellite in the code ROM (R60, R62). -/
opaque secChip : Nat → Nat → Nat → Bool

/-- Chip `i` of Flifort code `k` (R319 names the generator's polynomial outside this function). -/
opaque flifortChip : Nat → Nat → Bool

/-- A data word of the engine's or a correlator's fabric that the spec does not compute, named by a kind and arguments. -/
opaque engineWord : Nat → List Nat → BitVec 36

/-- Word `i` of the vendor firmware image (2 the ROM firmware, 3 plus its CRC-32 an image of a slot) loaded into the memory of a core (R188, R463). -/
opaque imageWord : Nat → Nat → Nat → BitVec 36

/-- Word `i` of the Curator core's ROM (R349, R460). -/
opaque romWord : Nat → BitVec 36

/-- Word `i` of item `k` of the factory calibration data of front end `n` (R340): 0 D_INJ, 1 D_OUT, 2 D_FAC by bandwidth,
3 to 6 the tables by bandwidth, 7 path shape, 8 BASE, 9 tuner model; `n` = 4 holds the timing unit (R314): 10 DFIX_25,
11 DFIX_TC, 12 DIN_25, 13 DIN_TC, and as item 0 the version; `n` = 5 the factory readings of the ageing monitors, by item. -/
opaque factory : Nat → Nat → Nat → BitVec 36

/-- The corrections stage before the stream point (R123): from the correction words in force and the ADC codes of a sample, the
corrected I and Q before they are clamped. The arithmetic of the corrections is not in the spec. -/
opaque corrected : List (BitVec 36) → Int → Int → Int × Int

/-- The decimation filter of a tap RATE (R124): its length and coefficient `k` of the half that its linear phase mirrors. R124 bounds its
ripple and its stop band; the coefficients are not in the spec. -/
opaque firLen : Nat → Nat
opaque firHalf : Nat → Nat → Int

/-- The tap mixer's number for a phase φ of 2^36: cos and −sin of 2πφ / 2^36, in 2^-14 (R126). -/
opaque mixer : Nat → Int × Int

/-- A sample through a notch (R137): from its WIDTH code, frequency, memory and input in 2^-8 LSB, its output, and its frequency and memory
after the gradient loop. The filter is not in the spec; R137 states its width and depth. -/
opaque notchStep : Nat → BitVec 36 → List Int → Int × Int → (Int × Int) × BitVec 36 × List Int

/-- A calibration correlator's number for a phase of its NCO, in 2^-5 cycle / fs (R318): cos and −sin. Its scale is that of PEAK. -/
opaque ccWave : Nat → Int × Int

/-- The power spectrum of a block (R137): what is accumulated after one more sample, and from it the level of a bin in 0.25 dB relative to
1 LSB² per bin. -/
opaque specStep : List Int → Int × Int → List Int
opaque specLevel : List Int → Nat → Int

/-- The SCALE that R132 rounds to where the RMS is zero, by the SCALE in force: the division by zero has no result in the spec. -/
opaque scaleAtZero : Nat → Nat

/-- Does an image's bytes pass the check of R486 that the spec states by name only (0 the SHA-256 hash, 1 the vendor's ECDSA
signature, 2 the customer's co-signature under the key of this hash)? -/
opaque imageCrypto : Nat → List (BitVec 36) → List (BitVec 36) → Bool

/-- The length of the test port's instruction register, what its bits above the lowest two capture, and the instruction of a code
(0 BYPASS, 1 IDCODE, 2 SAMPLE/PRELOAD, 3 EXTEST, 4 CLAMP, 5 HIGHZ, 6 a diagnostic one): none of them is in the spec (R531). -/
opaque irLen : Nat
opaque irCapture : Nat → Bool
opaque irDecode : List Bool → Nat

/-- The factory centre code of the hold DAC (R106), and the code that follows the VCO tuning voltage at a sample cycle (R107). -/
opaque centreCode : BitVec 16
opaque vcoCode : Nat → BitVec 16

/-- How far the realised frequency of synthesiser `u` in a ramp lies from the formula of R117 at a sample cycle, 2^-5 Hz; the rule
bounds it by 50 Hz. -/
opaque rampDev : Nat → Nat → Int

/-- The last digit of 72-bit fixed-point arithmetic (R226, R337), which the spec leaves open: does this value round up to its field's
unit? -/
opaque fixUp : Rat → Bool

/-- The dead time of a capture input in ticks; R311 bounds it by 100 ns, and its value is not stated. -/
opaque deadTicks : Nat

end Sys2Proof.Config
end

