-- ==== Sys2Proof/Machine/Angle.lean ====
section
/-! DEFINITION. Angle.lean: the four-quadrant arc tangent that the loop program (R225) and the sweep table (R337) take of a sum, as a
rational number within 2^-76 of its value, and the rounding of 72-bit fixed point. -/

namespace Sys2Proof.Machine

/-- π to 40 decimal places. -/
def piR : Rat := (31415926535897932384626433832795028841971 : Rat) / 10 ^ 40

/-- The first `n` terms from term `k` on of the series of atan at `y`, whose present power is `p` and whose square is `y2`. -/
def atanSeries (y2 : Rat) : Nat → Nat → Rat → Rat
  | 0, _, _ => 0
  | n + 1, k, p => p / (2 * k + 1) - atanSeries y2 n (k + 1) (p * y2)

/-- atan y for |y| at most 1/3. -/
def atanNear (y : Rat) : Rat := atanSeries (y * y) 26 0 y

/-- atan y for |y| at most 1/2: outside |y| ≤ 1/3 the angle less atan 1/3. -/
def atanMid (y : Rat) : Rat :=
  if 3 * y ≤ 1 ∧ -1 ≤ 3 * y then atanNear y
  else if 0 < y then atanNear (1 / 3) + atanNear ((3 * y - 1) / (3 + y))
  else -atanNear (1 / 3) + atanNear ((3 * y + 1) / (3 - y))

/-- atan x for x from 0 on: by the series near 0, and from π/4 or π/2 elsewhere. -/
def atanPos (x : Rat) : Rat :=
  if 3 * x ≤ 1 then atanNear x
  else if x ≤ 3 then piR / 4 + atanMid ((x - 1) / (x + 1))
  else piR / 2 - atanNear (1 / x)

/-- atan x in radians. -/
def atanR (x : Rat) : Rat := if x < 0 then -atanPos (-x) else atanPos x

/-- The argument of re + j·im in radians, from −π to π; zero at the origin. -/
def argR (re im : Int) : Rat :=
  if 0 < re then atanR ((im : Rat) / re)
  else if re < 0 then (if 0 ≤ im then piR else -piR) + atanR ((im : Rat) / re)
  else if 0 < im then piR / 2 else if im < 0 then -piR / 2 else 0

/-- The argument in turns, from −1/2 to 1/2. -/
def argTurns (re im : Int) : Rat := argR re im / (2 * piR)

/-- A value computed in 72-bit fixed point, in the unit of its field: its last digit is the part's (R226, R337). -/
def fixR (x : Rat) : Int := if (x.floor : Rat) = x then x.floor else x.floor + (if Config.fixUp x then 1 else 0)

end Sys2Proof.Machine
end

