-- ==== Sys2Proof/Machine/Bits.lean ====
section
/-! DEFINITION. Bits.lean: bit fields, sign extension, DT arithmetic and counters (R7, R8, R36, R37, R41, R42). -/

namespace Sys2Proof.Machine

/-- FIELD[hi:lo] of a word as a number (R7). -/
def fld (w : Word) (hi lo : Nat) : Nat := (w.toNat >>> lo) % 2 ^ (hi + 1 - lo)

/-- Bit `i` of a word (R7). -/
def bit (w : Word) (i : Nat) : Bool := w.getLsbD i

/-- The word with FIELD[hi:lo] replaced by `v` modulo the field's size. -/
def setFld (w : Word) (hi lo v : Nat) : Word :=
  BitVec.ofNat 36 (w.toNat - (fld w hi lo) <<< lo + (v % 2 ^ (hi + 1 - lo)) <<< lo)

/-- The word with bit `i` set to `b`. -/
def setBit (w : Word) (i : Nat) (b : Bool) : Word := setFld w i i (if b then 1 else 0)

/-- A number as a 36-bit word (modulo 2^36). -/
def wd (n : Nat) : Word := BitVec.ofNat 36 n

/-- A two's-complement 36-bit word (R8). -/
def wdI (i : Int) : Word := BitVec.ofInt 36 i

/-- An `n`-bit number read as two's complement. -/
def sext (n v : Nat) : Int := if 2 ^ (n - 1) ≤ v % 2 ^ n then (v % 2 ^ n : Int) - 2 ^ n else (v % 2 ^ n : Int)

/-- FIELD[hi:lo] of a word read as two's complement (R8). -/
def sfld (w : Word) (hi lo : Nat) : Int := sext (hi + 1 - lo) (fld w hi lo)

/-- An integer clamped to a signed field of `n` bits (R36, measured value). -/
def clampS (n : Nat) (i : Int) : Int := max (-(2 ^ (n - 1) : Int)) (min i (2 ^ (n - 1) - 1))

/-- An integer as the bits of an `n`-bit two's-complement field. -/
def bitsS (n : Nat) (i : Int) : Nat := (i % (2 ^ n : Int)).toNat

/-- DT_SEC, the upper word of a device time (R40, R42). -/
def dtSec (d : Dt) : Word := d.extractLsb' 36 36

/-- DT_FRAC, the lower word of a device time (R40, R42). -/
def dtFrac (d : Dt) : Word := d.extractLsb' 0 36

/-- A device time from its two words (R42). -/
def dtOf (sec frac : Word) : Dt := sec ++ frac

/-- DT(N) = floor(N × 2^28 / 639,375) ticks (R41). -/
def dtOfCycle (n : Nat) : Dt := BitVec.ofNat 72 (n * 268435456 / 639375)

/-- The first sample cycle whose DT is at or after `d` ticks: ceil(d × 639,375 / 2^28) (R41). -/
def cycleAtOrAfter (d : Nat) : Nat := (d * 639375 + 268435455) / 268435456

/-- The first sample cycle with DT at or after `d`, near sample cycle `now`: device times are modular, so that a DT before the reset
is a negative cycle (R37, R41, R43). -/
def cycleOfI (now : Nat) (d : Dt) : Int :=
  let t := now * 268435456 / 639375
  ((t + (d - BitVec.ofNat 72 t).toInt) * 639375 + 268435455) / 268435456

/-- The same, no earlier than sample cycle 0. -/
def cycleOf (now : Nat) (d : Dt) : Nat := (cycleOfI now d).toNat

/-- R37: `a` is later than `b` as quantities of modulus 2^n. -/
def later (n : Nat) (a b : BitVec n) : Bool := decide (0 < (a - b).toNat ∧ (a - b).toNat < 2 ^ (n - 1))

/-- R43: `a` is at or after `b` as device times (equal, or later by R37). -/
def dtGe (a b : Dt) : Bool := a == b || later 72 a b

/-- R36, statistics and event counter: bits 34:0 saturate at all ones, and bit 35 (SAT) is then set. -/
def bump (w : Word) (n : Nat) : Word :=
  if fld w 34 0 + n < 34359738367 then wd (w.toNat / 34359738368 * 34359738368 + (fld w 34 0 + n))
  else 0xFFFFFFFFF#36

/-- Increment of a modular quantity of 36 bits (R36). -/
def incMod (w : Word) : Word := w + 1#36

/-- Decimal helper: quotient rounded up. -/
def ceilDiv (a b : Nat) : Nat := (a + b - 1) / b

/-- Bit mask membership of a natural number. -/
def tbit (n i : Nat) : Bool := Nat.testBit n i

/-- A flag as a number. -/
def b2n (b : Bool) : Nat := if b then 1 else 0

end Sys2Proof.Machine
end

