-- ==== Sys2Proof/Machine/RegMap.lean ====
section
/-! DEFINITION. RegMap.lean: the BAR0 register map (R512, R522) and the register templates of every chapter: offsets,
access types (R9), reset values and stated ranges, written from the register tables of the spec. -/

namespace Sys2Proof.Machine

/-- A test a written value must pass (R515): a field's range, or its list of defined values. -/
inductive FieldRule where
  | range (hi lo min max : Nat)
  | oneOf (hi lo : Nat) (vals : List Nat)
deriving DecidableEq, Repr

/-- A row of a register template: offset, stride and count of its instances, the masks of its RW, W1C and WO bits,
whether it is RC, its reset value and the value tests of R515. -/
structure RegRow where
  off : Nat
  stride : Nat
  cnt : Nat
  rw : Nat
  w1c : Nat
  rc : Bool
  wo : Nat
  reset : Nat
  rules : List FieldRule
deriving DecidableEq, Repr

/-- The register templates (R522). -/
inductive Blk where
  | glb | hif | cur | sens | syn | lo | fe | chz | acq | half | mem | bank | ring | tpc | tp | cap | oss | cal | caln | obs | sol | wg
deriving DecidableEq, Repr

namespace R
abbrev FE_CTRL (n : Nat) : Nat := 0x3000 + 0x400 * n
abbrev FE_STATE (n : Nat) : Nat := 0x3008 + 0x400 * n
abbrev FE_STATUS (n : Nat) : Nat := 0x3010 + 0x400 * n
abbrev FE_CFG (n : Nat) : Nat := 0x3018 + 0x400 * n
abbrev FE_CENTRE (n : Nat) : Nat := 0x3020 + 0x400 * n
abbrev FE_LO_ACT (n : Nat) : Nat := 0x3028 + 0x400 * n
abbrev FE_GAIN_CFG (n : Nat) : Nat := 0x3030 + 0x400 * n
abbrev FE_GAIN_STAT (n : Nat) : Nat := 0x3038 + 0x400 * n
abbrev FE_CLIP_CNT (n : Nat) : Nat := 0x3040 + 0x400 * n
abbrev FE_TUNER (n : Nat) : Nat := 0x3048 + 0x400 * n
abbrev FE_MATCH_STAT (n : Nat) : Nat := 0x3050 + 0x400 * n
abbrev FE_MATCH_CFG (n : Nat) : Nat := 0x3058 + 0x400 * n
abbrev FE_BIAS_CFG (n : Nat) : Nat := 0x3060 + 0x400 * n
abbrev FE_BIAS_STAT (n : Nat) : Nat := 0x3068 + 0x400 * n
abbrev FE_BIAS_SHORT_CNT (n : Nat) : Nat := 0x3070 + 0x400 * n
abbrev FE_CAL_CFG (n : Nat) : Nat := 0x3078 + 0x400 * n
abbrev FE_CAL_STAT (n : Nat) : Nat := 0x3080 + 0x400 * n
abbrev FE_CAL_FAIL_CNT (n : Nat) : Nat := 0x3088 + 0x400 * n
abbrev FE_COEX_MAP (n : Nat) : Nat := 0x3090 + 0x400 * n
abbrev FE_COEX_BLANK_CNT (n : Nat) : Nat := 0x3098 + 0x400 * n
abbrev FE_COEX_CFG (n k : Nat) : Nat := 0x30a0 + 0x400 * n + 0x38 * k
abbrev FE_COEX_EXT (n k : Nat) : Nat := 0x30a8 + 0x400 * n + 0x38 * k
abbrev FE_COEX_WIN_SEC (n k : Nat) : Nat := 0x30b0 + 0x400 * n + 0x38 * k
abbrev FE_COEX_WIN_FRAC (n k : Nat) : Nat := 0x30b8 + 0x400 * n + 0x38 * k
abbrev FE_COEX_WIN_LEN (n k : Nat) : Nat := 0x30c0 + 0x400 * n + 0x38 * k
abbrev FE_COEX_WIN_PER (n k : Nat) : Nat := 0x30c8 + 0x400 * n + 0x38 * k
abbrev FE_COEX_STAT (n k : Nat) : Nat := 0x30d0 + 0x400 * n + 0x38 * k
abbrev FE_ADC_OFS (n : Nat) : Nat := 0x3110 + 0x400 * n
abbrev FE_ADC_GAIN (n : Nat) : Nat := 0x3118 + 0x400 * n
abbrev FE_IQ_IMB (n : Nat) : Nat := 0x3120 + 0x400 * n
abbrev FE_FILT_TRIM (n : Nat) : Nat := 0x3128 + 0x400 * n
abbrev FE_LO_LEAK (n : Nat) : Nat := 0x3130 + 0x400 * n
abbrev FE_CAL_TEMP (n : Nat) : Nat := 0x3138 + 0x400 * n
abbrev FE_CAL_SEC (n : Nat) : Nat := 0x3140 + 0x400 * n
abbrev FE_CAL_FRAC (n : Nat) : Nat := 0x3148 + 0x400 * n
abbrev FE_AGC_IDX (n : Nat) : Nat := 0x3150 + 0x400 * n
abbrev FE_AGC_DATA (n : Nat) : Nat := 0x3158 + 0x400 * n
abbrev FE_RMS_I (n : Nat) : Nat := 0x3160 + 0x400 * n
abbrev FE_RMS_Q (n : Nat) : Nat := 0x3168 + 0x400 * n
abbrev FE_DC_I (n : Nat) : Nat := 0x3170 + 0x400 * n
abbrev FE_DC_Q (n : Nat) : Nat := 0x3178 + 0x400 * n
abbrev FE_REFL_PWR (n : Nat) : Nat := 0x3180 + 0x400 * n
abbrev FE_BIAS_I_MIN (n : Nat) : Nat := 0x3188 + 0x400 * n
abbrev FE_BIAS_I_MAX (n : Nat) : Nat := 0x3190 + 0x400 * n
abbrev FE_EVT_MASK (n : Nat) : Nat := 0x3198 + 0x400 * n
abbrev FE_STATE_SEC (n : Nat) : Nat := 0x31a0 + 0x400 * n
abbrev FE_STATE_FRAC (n : Nat) : Nat := 0x31a8 + 0x400 * n
abbrev FE_HIST_CTRL (n : Nat) : Nat := 0x31b0 + 0x400 * n
abbrev FE_BIAS_RETRY (n : Nat) : Nat := 0x31b8 + 0x400 * n
abbrev FE_HIST (n k : Nat) : Nat := 0x3200 + 0x400 * n + 0x8 * k
abbrev SYN_REF_FREQ : Nat := 0x2000
abbrev SYN_REF_CFG : Nat := 0x2008
abbrev SYN_REF_STAT : Nat := 0x2010
abbrev SYN_REF_EST : Nat := 0x2018
abbrev SYN_REF_OFS : Nat := 0x2020
abbrev SYN_QUAL_CFG : Nat := 0x2028
abbrev SYN_QUAL_ELAPSED : Nat := 0x2030
abbrev SYN_POLICY : Nat := 0x2038
abbrev SYN_SMP_CTRL : Nat := 0x2040
abbrev SYN_SMP_STATE : Nat := 0x2048
abbrev SYN_SMP_STATUS : Nat := 0x2050
abbrev SYN_SMP_CFG : Nat := 0x2058
abbrev SYN_SMP_LOCK : Nat := 0x2060
abbrev SYN_SMP_DIV : Nat := 0x2068
abbrev SYN_SMP_NUM : Nat := 0x2070
abbrev SYN_SMP_DEN : Nat := 0x2078
abbrev SYN_SMP_PHERR : Nat := 0x2080
abbrev SYN_SMP_HOLD : Nat := 0x2088
abbrev SYN_SMP_UNLOCK_CNT : Nat := 0x2090
abbrev SYN_REF_LOSS_CNT : Nat := 0x2098
abbrev SYN_CLK_ABS_CNT : Nat := 0x20a0
abbrev SYN_DISC_CNT : Nat := 0x20a8
abbrev SYN_STEP : Nat := 0x20b0
abbrev SYN_STEP_INFO : Nat := 0x20b8
abbrev SYN_EPI_START_SEC : Nat := 0x20c0
abbrev SYN_EPI_START_FRAC : Nat := 0x20c8
abbrev SYN_EPI_END_SEC : Nat := 0x20d0
abbrev SYN_EPI_END_FRAC : Nat := 0x20d8
abbrev SYN_EPI_LEN : Nat := 0x20e0
abbrev SYN_EVT_MASK : Nat := 0x20e8
abbrev SYN_LOCK_SEC : Nat := 0x20f0
abbrev SYN_LOCK_FRAC : Nat := 0x20f8
abbrev SYN_PHHIST (k : Nat) : Nat := 0x2100 + 0x8 * k
abbrev LO_CTRL (u : Nat) : Nat := 0x2200 + 0x100 * u
abbrev LO_STATE (u : Nat) : Nat := 0x2208 + 0x100 * u
abbrev LO_STATUS (u : Nat) : Nat := 0x2210 + 0x100 * u
abbrev LO_CFG (u : Nat) : Nat := 0x2218 + 0x100 * u
abbrev LO_LOCK (u : Nat) : Nat := 0x2220 + 0x100 * u
abbrev LO_TARGET (u : Nat) : Nat := 0x2228 + 0x100 * u
abbrev LO_ACT (u : Nat) : Nat := 0x2230 + 0x100 * u
abbrev LO_DIV (u : Nat) : Nat := 0x2238 + 0x100 * u
abbrev LO_NUM (u : Nat) : Nat := 0x2240 + 0x100 * u
abbrev LO_DEN (u : Nat) : Nat := 0x2248 + 0x100 * u
abbrev LO_PHERR (u : Nat) : Nat := 0x2250 + 0x100 * u
abbrev LO_UNLOCK_CNT (u : Nat) : Nat := 0x2258 + 0x100 * u
abbrev LO_RAMP_CFG (u : Nat) : Nat := 0x2260 + 0x100 * u
abbrev LO_RAMP_SEC (u : Nat) : Nat := 0x2268 + 0x100 * u
abbrev LO_RAMP_FRAC (u : Nat) : Nat := 0x2270 + 0x100 * u
abbrev LO_RAMP_STAT (u : Nat) : Nat := 0x2278 + 0x100 * u
abbrev LO_SEG (u k : Nat) : Nat := 0x2280 + 0x100 * u + 0x8 * k
abbrev CHZ_CTRL (n : Nat) : Nat := 0x4000 + 0x400 * n
abbrev CHZ_STATUS (n : Nat) : Nat := 0x4008 + 0x400 * n
abbrev CHZ_BUDGET (n : Nat) : Nat := 0x4010 + 0x400 * n
abbrev CHZ_BLANK_CFG (n : Nat) : Nat := 0x4018 + 0x400 * n
abbrev CHZ_BLANK_EXT (n : Nat) : Nat := 0x4020 + 0x400 * n
abbrev CHZ_BLANK_CNT (n : Nat) : Nat := 0x4028 + 0x400 * n
abbrev CHZ_BLANK_PULSE_CNT (n : Nat) : Nat := 0x4030 + 0x400 * n
abbrev CHZ_BLANK_FRAC (n : Nat) : Nat := 0x4038 + 0x400 * n
abbrev CHZ_STREAM_CFG (n : Nat) : Nat := 0x4040 + 0x400 * n
abbrev CHZ_STREAM_SEQ (n : Nat) : Nat := 0x4048 + 0x400 * n
abbrev CHZ_STREAM_DROP_CNT (n : Nat) : Nat := 0x4050 + 0x400 * n
abbrev CHZ_REPLAY_CFG (n : Nat) : Nat := 0x4058 + 0x400 * n
abbrev CHZ_REPLAY_STAT (n : Nat) : Nat := 0x4060 + 0x400 * n
abbrev CHZ_REPLAY_SEC (n : Nat) : Nat := 0x4068 + 0x400 * n
abbrev CHZ_REPLAY_FRAC (n : Nat) : Nat := 0x4070 + 0x400 * n
abbrev CHZ_REPLAY_UNDER_CNT (n : Nat) : Nat := 0x4078 + 0x400 * n
abbrev CHZ_REPLAY_REJ_CNT (n : Nat) : Nat := 0x4080 + 0x400 * n
abbrev CHZ_REPLAY_FILL_CNT (n : Nat) : Nat := 0x4088 + 0x400 * n
abbrev CHZ_TAGRUN_STAT (n : Nat) : Nat := 0x4090 + 0x400 * n
abbrev CHZ_TAGRUN_MERGE_CNT (n : Nat) : Nat := 0x4098 + 0x400 * n
abbrev CHZ_REGION_RET (n : Nat) : Nat := 0x40a0 + 0x400 * n
abbrev CHZ_LVL_CFG (n : Nat) : Nat := 0x40a8 + 0x400 * n
abbrev CHZ_EVT_MASK (n : Nat) : Nat := 0x40b0 + 0x400 * n
abbrev CHZ_NOTCH_FLOOR (n : Nat) : Nat := 0x40b8 + 0x400 * n
abbrev CHZ_TAP_CFG (n k : Nat) : Nat := 0x4100 + 0x400 * n + 0x28 * k
abbrev CHZ_TAP_FCW (n k : Nat) : Nat := 0x4108 + 0x400 * n + 0x28 * k
abbrev CHZ_TAP_STAT (n k : Nat) : Nat := 0x4110 + 0x400 * n + 0x28 * k
abbrev CHZ_TAP_LEVEL (n k : Nat) : Nat := 0x4118 + 0x400 * n + 0x28 * k
abbrev CHZ_TAP_DROP_CNT (n k : Nat) : Nat := 0x4120 + 0x400 * n + 0x28 * k
abbrev CHZ_NF_CFG (n k : Nat) : Nat := 0x4380 + 0x400 * n + 0x20 * k
abbrev CHZ_NF_RANGE (n k : Nat) : Nat := 0x4388 + 0x400 * n + 0x20 * k
abbrev CHZ_NF_STAT (n k : Nat) : Nat := 0x4390 + 0x400 * n + 0x20 * k
abbrev CHZ_NF_FREQ (n k : Nat) : Nat := 0x4398 + 0x400 * n + 0x20 * k
abbrev ACQ_CTRL : Nat := 0x5000
abbrev ACQ_CFG : Nat := 0x5008
abbrev ACQ_STATUS : Nat := 0x5010
abbrev ACQ_STATE : Nat := 0x5018
abbrev ACQ_QUEUE : Nat := 0x5020
abbrev ACQ_JOB_SEQ : Nat := 0x5028
abbrev ACQ_PAGES : Nat := 0x5030
abbrev ACQ_SCHED_CFG : Nat := 0x5038
abbrev ACQ_PLAN_CFG : Nat := 0x5040
abbrev ACQ_PLAN_GEN : Nat := 0x5048
abbrev ACQ_PLAN_SEC : Nat := 0x5050
abbrev ACQ_PLAN_FRAC : Nat := 0x5058
abbrev ACQ_PLAN_STAT : Nat := 0x5060
abbrev ACQ_PLAN_LATE_CNT : Nat := 0x5068
abbrev ACQ_PLAN_GROW : Nat := 0x5070
abbrev ACQ_SCHED_DOPP : Nat := 0x5078
abbrev ACQ_PFA_DEF : Nat := 0x5080
abbrev ACQ_JOBS_CNT : Nat := 0x5088
abbrev ACQ_DET_CNT : Nat := 0x5090
abbrev ACQ_CANCEL_CNT : Nat := 0x5098
abbrev ACQ_BUSY_CNT : Nat := 0x50a0
abbrev ACQ_OVERRUN_CNT : Nat := 0x50a8
abbrev ACQ_LOST_CNT : Nat := 0x50b0
abbrev ACQ_CELLS_CNT : Nat := 0x50b8
abbrev ACQ_EVT_MASK : Nat := 0x50c0
abbrev ACQ_FB_CNT : Nat := 0x50c8
abbrev ACQ_NOM_END_SEC : Nat := 0x50d0
abbrev ACQ_NOM_END_FRAC : Nat := 0x50d8
abbrev ACQ_LAG_MAX : Nat := 0x50e0
abbrev ACQ_HIST_CTRL : Nat := 0x50e8
abbrev ACQ_SCHED_TICKS : Nat := 0x50f0
abbrev ACQ_DIRECT_CNT : Nat := 0x50f8
abbrev ACQ_H_STATE (h : Nat) : Nat := 0x5100 + 0x80 * h
abbrev ACQ_H_STATUS (h : Nat) : Nat := 0x5108 + 0x80 * h
abbrev ACQ_H_CUR_JOB (h : Nat) : Nat := 0x5110 + 0x80 * h
abbrev ACQ_H_LAST_JOB (h : Nat) : Nat := 0x5118 + 0x80 * h
abbrev ACQ_H_JOBS_CNT (h : Nat) : Nat := 0x5120 + 0x80 * h
abbrev ACQ_H_CELLS_CNT (h : Nat) : Nat := 0x5128 + 0x80 * h
abbrev ACQ_H_FFT_CNT (h : Nat) : Nat := 0x5130 + 0x80 * h
abbrev ACQ_H_BUSY_US (h : Nat) : Nat := 0x5138 + 0x80 * h
abbrev ACQ_H_IDLE_US (h : Nat) : Nat := 0x5140 + 0x80 * h
abbrev ACQ_H_RESIDUE_CNT (h : Nat) : Nat := 0x5148 + 0x80 * h
abbrev ACQ_H_POISON_CNT (h : Nat) : Nat := 0x5150 + 0x80 * h
abbrev ACQ_H_PAUSE_CNT (h : Nat) : Nat := 0x5158 + 0x80 * h
abbrev ACQ_H_FAULT_SEC (h : Nat) : Nat := 0x5160 + 0x80 * h
abbrev ACQ_H_FAULT_FRAC (h : Nat) : Nat := 0x5168 + 0x80 * h
abbrev ACQ_H_FAULT_INFO (h : Nat) : Nat := 0x5170 + 0x80 * h
abbrev ACQ_H_RATE (h : Nat) : Nat := 0x5178 + 0x80 * h
abbrev ACQ_SNAP_DESC (k : Nat) : Nat := 0x5200 + 0x10 * k
abbrev ACQ_SNAP_SEC (k : Nat) : Nat := 0x5208 + 0x10 * k
abbrev ACQ_HIST (k : Nat) : Nat := 0x5400 + 0x8 * k
abbrev ACQ_FE_SCHED (k : Nat) : Nat := 0x5500 + 0x40 * k
abbrev ACQ_FE_JOBS_CNT (k : Nat) : Nat := 0x5508 + 0x40 * k
abbrev ACQ_FE_DET_CNT (k : Nat) : Nat := 0x5510 + 0x40 * k
abbrev ACQ_FE_MISS_CNT (k : Nat) : Nat := 0x5518 + 0x40 * k
abbrev ACQ_FE_PLAN_ENT (k : Nat) : Nat := 0x5520 + 0x40 * k
abbrev ACQ_FE_VISIBLE (k : Nat) : Nat := 0x5528 + 0x40 * k
abbrev ACQ_FE_PENDING (k : Nat) : Nat := 0x5530 + 0x40 * k
abbrev ACQ_FE_LAST_DET_SEC (k : Nat) : Nat := 0x5538 + 0x40 * k
abbrev WG_CTRL (w : Nat) : Nat := 0x10000 + 0x1000 * w
abbrev WG_STATE (w : Nat) : Nat := 0x10008 + 0x1000 * w
abbrev WG_STATUS (w : Nat) : Nat := 0x10010 + 0x1000 * w
abbrev WG_CFG (w : Nat) : Nat := 0x10018 + 0x1000 * w
abbrev WG_UNITS (w : Nat) : Nat := 0x10020 + 0x1000 * w
abbrev WG_CH_COUNT (w : Nat) : Nat := 0x10028 + 0x1000 * w
abbrev WG_LAG_MAX (w : Nat) : Nat := 0x10030 + 0x1000 * w
abbrev WG_LAG_NOW (w : Nat) : Nat := 0x10038 + 0x1000 * w
abbrev WG_TOKEN_WAIT_CNT (w : Nat) : Nat := 0x10040 + 0x1000 * w
abbrev WG_OVERRUN_CNT (w : Nat) : Nat := 0x10048 + 0x1000 * w
abbrev WG_RETRY_CNT (w : Nat) : Nat := 0x10050 + 0x1000 * w
abbrev WG_RETIRE_CNT (w : Nat) : Nat := 0x10058 + 0x1000 * w
abbrev WG_MOVE_IN_CNT (w : Nat) : Nat := 0x10060 + 0x1000 * w
abbrev WG_MOVE_OUT_CNT (w : Nat) : Nat := 0x10068 + 0x1000 * w
abbrev WG_ASSIGN_CNT (w : Nat) : Nat := 0x10070 + 0x1000 * w
abbrev WG_RELEASE_CNT (w : Nat) : Nat := 0x10078 + 0x1000 * w
abbrev WG_CSM_TRAP_CNT (w : Nat) : Nat := 0x10080 + 0x1000 * w
abbrev WG_EVT_MASK (w : Nat) : Nat := 0x10088 + 0x1000 * w
abbrev WG_CORE_STAT (w : Nat) : Nat := 0x10090 + 0x1000 * w
abbrev WG_CORE_RELOAD_CNT (w : Nat) : Nat := 0x10098 + 0x1000 * w
abbrev WG_CORE_FAULT_SEC (w : Nat) : Nat := 0x100a0 + 0x1000 * w
abbrev WG_CORE_FAULT_FRAC (w : Nat) : Nat := 0x100a8 + 0x1000 * w
abbrev WG_CORE_FAULT_INFO (w : Nat) : Nat := 0x100b0 + 0x1000 * w
abbrev WG_STATE_SEC (w : Nat) : Nat := 0x100b8 + 0x1000 * w
abbrev WG_STATE_FRAC (w : Nat) : Nat := 0x100c0 + 0x1000 * w
abbrev WG_TD_CNT (w : Nat) : Nat := 0x100c8 + 0x1000 * w
abbrev WG_INVALID_CNT (w : Nat) : Nat := 0x100d0 + 0x1000 * w
abbrev WG_REFUSE_CNT (w : Nat) : Nat := 0x100d8 + 0x1000 * w
abbrev WG_FREE (w k : Nat) : Nat := 0x10100 + 0x1000 * w + 0x8 * k
abbrev WG_RETIRED (w k : Nat) : Nat := 0x10120 + 0x1000 * w + 0x8 * k
abbrev WG_FREERUN (w k : Nat) : Nat := 0x10140 + 0x1000 * w + 0x8 * k
abbrev WG_PROFILE (w k : Nat) : Nat := 0x10160 + 0x1000 * w + 0x8 * k
abbrev WG_LAGHIST (w k : Nat) : Nat := 0x10180 + 0x1000 * w + 0x8 * k
abbrev WG_CH_STAT (w k : Nat) : Nat := 0x10400 + 0x1000 * w + 0x8 * k
abbrev OBS_CFG : Nat := 0xa000
abbrev OBS_RINGS : Nat := 0xa008
abbrev OBS_PROF_CFG : Nat := 0xa010
abbrev OBS_STATUS : Nat := 0xa018
abbrev OBS_SEQ : Nat := 0xa020
abbrev OBS_PROF_SEQ : Nat := 0xa028
abbrev OBS_NAV_SEQ : Nat := 0xa030
abbrev OBS_EPOCH_SEC : Nat := 0xa038
abbrev OBS_EPOCH_FRAC : Nat := 0xa040
abbrev OBS_NEXT_SEC : Nat := 0xa048
abbrev OBS_NEXT_FRAC : Nat := 0xa050
abbrev OBS_REC_CNT : Nat := 0xa058
abbrev OBS_INVALID_CNT : Nat := 0xa060
abbrev OBS_NSA_CNT : Nat := 0xa068
abbrev OBS_NAV_CNT : Nat := 0xa070
abbrev OBS_NAV_FAIL_CNT : Nat := 0xa078
abbrev OBS_PROF_CNT : Nat := 0xa080
abbrev OBS_CLOSE_LAG_MAX : Nat := 0xa088
abbrev OBS_EVT_MASK : Nat := 0xa090
abbrev OBS_REPORTING : Nat := 0xa098
abbrev SOL_CFG : Nat := 0xa100
abbrev SOL_CFG1 : Nat := 0xa108
abbrev SOL_CFG2 : Nat := 0xa110
abbrev SOL_MODE : Nat := 0xa118
abbrev SOL_STATUS : Nat := 0xa120
abbrev SOL_RING : Nat := 0xa128
abbrev SOL_SEQ : Nat := 0xa130
abbrev SOL_CORES : Nat := 0xa138
abbrev SOL_LAST_SEC : Nat := 0xa140
abbrev SOL_LAST_FRAC : Nat := 0xa148
abbrev SOL_FIX : Nat := 0xa150
abbrev SOL_POS_X : Nat := 0xa158
abbrev SOL_POS_Y : Nat := 0xa160
abbrev SOL_POS_Z : Nat := 0xa168
abbrev SOL_SURVEY : Nat := 0xa170
abbrev SOL_HOLD_SEC : Nat := 0xa178
abbrev SOL_HOLD_FRAC : Nat := 0xa180
abbrev SOL_HOLD_ERR : Nat := 0xa188
abbrev SOL_DRIFT : Nat := 0xa190
abbrev SOL_STEER_STAT : Nat := 0xa198
abbrev SOL_CAT_STAT : Nat := 0xa1a0
abbrev SOL_SOL_CNT : Nat := 0xa1a8
abbrev SOL_EXCL_CNT : Nat := 0xa1b0
abbrev SOL_FDEFAIL_CNT : Nat := 0xa1b8
abbrev SOL_HOLD_CNT : Nat := 0xa1c0
abbrev SOL_RATELIM_CNT : Nat := 0xa1c8
abbrev SOL_CAT_REJ_CNT : Nat := 0xa1d0
abbrev SOL_EVT_MASK : Nat := 0xa1d8
abbrev SOL_SCL_TIME0 (k : Nat) : Nat := 0xa200 + 0x18 * k
abbrev SOL_SCL_TIME1 (k : Nat) : Nat := 0xa208 + 0x18 * k
abbrev SOL_SCL_STAT (k : Nat) : Nat := 0xa210 + 0x18 * k
abbrev OSS_CFG : Nat := 0x8e00
abbrev OSS_FRAME : Nat := 0x8e08
abbrev OSS_CENTER : Nat := 0x8e10
abbrev OSS_GAIN : Nat := 0x8e18
abbrev OSS_MIN : Nat := 0x8e20
abbrev OSS_MAX : Nat := 0x8e28
abbrev OSS_MANUAL : Nat := 0x8e30
abbrev OSS_CODE : Nat := 0x8e38
abbrev OSS_STATE : Nat := 0x8e40
abbrev OSS_STATUS : Nat := 0x8e48
abbrev OSS_WRITE_CNT : Nat := 0x8e50
abbrev OSS_LIMIT_CNT : Nat := 0x8e58
abbrev OSS_CODE_SEC : Nat := 0x8e60
abbrev TPC_STATUS : Nat := 0x8000
abbrev TPC_EVT_MASK : Nat := 0x8008
abbrev TPC_TP_SEQ : Nat := 0x8010
abbrev TPC_CAP_SEQ : Nat := 0x8018
abbrev TPC_RINGS : Nat := 0x8020
abbrev TPC_DFIX : Nat := 0x8028
abbrev TPC_DIN : Nat := 0x8030
abbrev TPC_DL_CAL : Nat := 0x8038
abbrev TPC_JUMP_CNT : Nat := 0x8040
abbrev TPC_FF_CNT : Nat := 0x8048
abbrev TPC_STATE : Nat := 0x8050
abbrev TP_CFG (n : Nat) : Nat := 0x8100 + 0x100 * n
abbrev TP_PERIOD (n : Nat) : Nat := 0x8108 + 0x100 * n
abbrev TP_WIDTH (n : Nat) : Nat := 0x8110 + 0x100 * n
abbrev TP_OFS (n : Nat) : Nat := 0x8118 + 0x100 * n
abbrev TP_SLEW (n : Nat) : Nat := 0x8120 + 0x100 * n
abbrev TP_JUMP_TH (n : Nat) : Nat := 0x8128 + 0x100 * n
abbrev TP_STATE (n : Nat) : Nat := 0x8130 + 0x100 * n
abbrev TP_STATUS (n : Nat) : Nat := 0x8138 + 0x100 * n
abbrev TP_LAST_SEC (n : Nat) : Nat := 0x8140 + 0x100 * n
abbrev TP_LAST_FRAC (n : Nat) : Nat := 0x8148 + 0x100 * n
abbrev TP_LAST_LBL0 (n : Nat) : Nat := 0x8150 + 0x100 * n
abbrev TP_LAST_LBL1 (n : Nat) : Nat := 0x8158 + 0x100 * n
abbrev TP_RESID (n : Nat) : Nat := 0x8160 + 0x100 * n
abbrev TP_DELTA (n : Nat) : Nat := 0x8168 + 0x100 * n
abbrev TP_ERR (n : Nat) : Nat := 0x8170 + 0x100 * n
abbrev TP_PULSE_CNT (n : Nat) : Nat := 0x8178 + 0x100 * n
abbrev TP_SKIP_CNT (n : Nat) : Nat := 0x8180 + 0x100 * n
abbrev TP_LATE_CNT (n : Nat) : Nat := 0x8188 + 0x100 * n
abbrev TP_CTRL (n : Nat) : Nat := 0x8190 + 0x100 * n
abbrev TP_SLEW_END_SEC (n : Nat) : Nat := 0x8198 + 0x100 * n
abbrev CAP_CFG (n : Nat) : Nat := 0x8600 + 0x80 * n
abbrev CAP_STATUS (n : Nat) : Nat := 0x8608 + 0x80 * n
abbrev CAP_FIFO (n : Nat) : Nat := 0x8610 + 0x80 * n
abbrev CAP_EDGE_CNT (n : Nat) : Nat := 0x8618 + 0x80 * n
abbrev CAP_LOST_CNT (n : Nat) : Nat := 0x8620 + 0x80 * n
abbrev CAP_DEAD_CNT (n : Nat) : Nat := 0x8628 + 0x80 * n
abbrev CAP_LAST_SEC (n : Nat) : Nat := 0x8630 + 0x80 * n
abbrev CAP_LAST_FRAC (n : Nat) : Nat := 0x8638 + 0x80 * n
abbrev CAP_LEVEL (n : Nat) : Nat := 0x8640 + 0x80 * n
abbrev CAP_FIFO_MAX (n : Nat) : Nat := 0x8648 + 0x80 * n
abbrev CAP_INTV_MIN (n : Nat) : Nat := 0x8650 + 0x80 * n
abbrev CAP_INTV_MAX (n : Nat) : Nat := 0x8658 + 0x80 * n
abbrev CAP_RATE (n : Nat) : Nat := 0x8660 + 0x80 * n
abbrev CAP_SEQ_LAST (n : Nat) : Nat := 0x8668 + 0x80 * n
abbrev CAL_RING : Nat := 0x9000
abbrev CAL_SEQ : Nat := 0x9008
abbrev CAL_STATUS : Nat := 0x9010
abbrev CAL_EVT_MASK : Nat := 0x9018
abbrev CAL_FAC_STAT : Nat := 0x9020
abbrev CAL_REC_CNT : Nat := 0x9028
abbrev CAL_NOTREADY_CNT : Nat := 0x9030
abbrev CAL_TIMEOUT : Nat := 0x9038
abbrev CALN_CTRL (n : Nat) : Nat := 0x9100 + 0x100 * n
abbrev CALN_CFG (n : Nat) : Nat := 0x9108 + 0x100 * n
abbrev CALN_STATE (n : Nat) : Nat := 0x9110 + 0x100 * n
abbrev CALN_STATUS (n : Nat) : Nat := 0x9118 + 0x100 * n
abbrev CALN_INJ_OFS (n : Nat) : Nat := 0x9120 + 0x100 * n
abbrev CALN_EXT_LEVEL (n : Nat) : Nat := 0x9128 + 0x100 * n
abbrev CALN_EXT_PATH (n : Nat) : Nat := 0x9130 + 0x100 * n
abbrev CALN_SWEEP_CFG (n : Nat) : Nat := 0x9138 + 0x100 * n
abbrev CALN_BASE (n : Nat) : Nat := 0x9140 + 0x100 * n
abbrev CALN_RAW (n : Nat) : Nat := 0x9148 + 0x100 * n
abbrev CALN_LIVE (n : Nat) : Nat := 0x9150 + 0x100 * n
abbrev CALN_APPLIED (n : Nat) : Nat := 0x9158 + 0x100 * n
abbrev CALN_EST_SEC (n : Nat) : Nat := 0x9160 + 0x100 * n
abbrev CALN_START_SEC (n : Nat) : Nat := 0x9168 + 0x100 * n
abbrev CALN_START_FRAC (n : Nat) : Nat := 0x9170 + 0x100 * n
abbrev CALN_VALID_CNT (n : Nat) : Nat := 0x9178 + 0x100 * n
abbrev CALN_INVALID_CNT (n : Nat) : Nat := 0x9180 + 0x100 * n
abbrev CALN_SWEEP_CNT (n : Nat) : Nat := 0x9188 + 0x100 * n
abbrev CALN_SWEEP_SEC (n : Nat) : Nat := 0x9190 + 0x100 * n
abbrev CALN_TUNER_DLY (n : Nat) : Nat := 0x9198 + 0x100 * n
abbrev CALN_FAC_DINJ (n : Nat) : Nat := 0x91a0 + 0x100 * n
abbrev CALN_FAC_DOUT (n : Nat) : Nat := 0x91a8 + 0x100 * n
abbrev CALN_FAC_D0 (n : Nat) : Nat := 0x91b0 + 0x100 * n
abbrev CALN_CC_CFG (n : Nat) : Nat := 0x91b8 + 0x100 * n
abbrev CALN_CC_RAW (n k : Nat) : Nat := 0x91c0 + 0x100 * n + 0x8 * k
abbrev CALN_TBL_IDX (n : Nat) : Nat := 0x91e0 + 0x100 * n
abbrev CALN_TBL_DATA (n : Nat) : Nat := 0x91e8 + 0x100 * n
abbrev MEM_CTRL : Nat := 0x6000
abbrev MEM_STATUS : Nat := 0x6008
abbrev MEM_EVT_MASK : Nat := 0x6010
abbrev MEM_SCRUB_CFG : Nat := 0x6018
abbrev MEM_SCRUB_STAT : Nat := 0x6020
abbrev MEM_SCRUB_PASS_CNT : Nat := 0x6028
abbrev MEM_TEST_CFG : Nat := 0x6030
abbrev MEM_TEST_STAT : Nat := 0x6038
abbrev MEM_TEST_PASS_CNT : Nat := 0x6040
abbrev MEM_TEST_ABANDON_CNT : Nat := 0x6048
abbrev MEM_TEST_FAIL_CNT : Nat := 0x6050
abbrev MEM_FILL_STAT : Nat := 0x6058
abbrev MEM_CE_CNT : Nat := 0x6060
abbrev MEM_UE_CNT : Nat := 0x6068
abbrev MEM_POISON_CNT : Nat := 0x6070
abbrev MEM_HARD_CNT : Nat := 0x6078
abbrev MEM_REPAIR_STAT : Nat := 0x6080
abbrev MEM_REPAIR_FULL : Nat := 0x6088
abbrev MEM_RETIRED_RGN : Nat := 0x6090
abbrev MEM_FLIP_DATA : Nat := 0x6098
abbrev MEM_FLIP_CHECK : Nat := 0x60a0
abbrev MEM_FLIP_ARM : Nat := 0x60a8
abbrev MEM_ERR_UNIT : Nat := 0x60b0
abbrev MEM_ERR_ADDR : Nat := 0x60b8
abbrev MEM_ERR_SEC : Nat := 0x60c0
abbrev MEM_ERR_FRAC : Nat := 0x60c8
abbrev MEM_BUCKET_CFG : Nat := 0x60d0
abbrev MEM_STARVE_CFG : Nat := 0x60d8
abbrev MEM_VAULT_WIPE_CNT : Nat := 0x60e0
abbrev MEM_HOST_DISCARD_CNT : Nat := 0x60e8
abbrev MEM_NONOWNER_CNT : Nat := 0x60f0
abbrev MEM_SHADOW_CNT : Nat := 0x60f8
abbrev BANK_OWNER (b : Nat) : Nat := 0x6100 + 0xc0 * b
abbrev BANK_STATE (b : Nat) : Nat := 0x6108 + 0xc0 * b
abbrev BANK_CFG (b : Nat) : Nat := 0x6110 + 0xc0 * b
abbrev BANK_DELEGATE (b : Nat) : Nat := 0x6118 + 0xc0 * b
abbrev BANK_POWER (b : Nat) : Nat := 0x6120 + 0xc0 * b
abbrev BANK_STATUS (b : Nat) : Nat := 0x6128 + 0xc0 * b
abbrev BANK_CE_CNT (b : Nat) : Nat := 0x6130 + 0xc0 * b
abbrev BANK_UE_CNT (b : Nat) : Nat := 0x6138 + 0xc0 * b
abbrev BANK_BUCKET (b : Nat) : Nat := 0x6140 + 0xc0 * b
abbrev BANK_POISON_CNT (b : Nat) : Nat := 0x6148 + 0xc0 * b
abbrev BANK_ERR_ADDR (b : Nat) : Nat := 0x6150 + 0xc0 * b
abbrev BANK_ERR_SEC (b : Nat) : Nat := 0x6158 + 0xc0 * b
abbrev BANK_RPT_IDX (b : Nat) : Nat := 0x6160 + 0xc0 * b
abbrev BANK_RPT_DATA (b : Nat) : Nat := 0x6168 + 0xc0 * b
abbrev BANK_STARVE_CNT (b : Nat) : Nat := 0x6170 + 0xc0 * b
abbrev BANK_NONOWNER_CNT (b : Nat) : Nat := 0x6178 + 0xc0 * b
abbrev BANK_HO_CNT (b : Nat) : Nat := 0x6180 + 0xc0 * b
abbrev BANK_HO_SEC (b : Nat) : Nat := 0x6188 + 0xc0 * b
abbrev BANK_HO_FRAC (b : Nat) : Nat := 0x6190 + 0xc0 * b
abbrev BANK_REPAIR (b : Nat) : Nat := 0x6198 + 0xc0 * b
abbrev HIF_MODE : Nat := 0x800
abbrev HIF_BOOT : Nat := 0x808
abbrev HIF_STATUS : Nat := 0x810
abbrev HIF_ALERT_STAT : Nat := 0x818
abbrev HIF_ALERT_CFG : Nat := 0x820
abbrev HIF_EVT_CFG : Nat := 0x828
abbrev HIF_ACC_NEXT : Nat := 0x830
abbrev HIF_LINK_STAT : Nat := 0x838
abbrev HIF_LINK_DOWN_CNT : Nat := 0x840
abbrev HIF_AER_CNT : Nat := 0x848
abbrev HIF_DMA_ERR_CNT : Nat := 0x850
abbrev HIF_DMA_ERR_LO : Nat := 0x858
abbrev HIF_DMA_ERR_HI : Nat := 0x860
abbrev HIF_DMA_ERR_INFO : Nat := 0x868
abbrev HIF_PARTIAL_CNT : Nat := 0x870
abbrev HIF_MISROUTE_CNT : Nat := 0x878
abbrev HIF_FLR_CNT : Nat := 0x880
abbrev HIF_TX_CNT : Nat := 0x888
abbrev HIF_RX_CNT : Nat := 0x890
abbrev HIF_CMD_CNT : Nat := 0x898
abbrev HIF_EVT_CNT : Nat := 0x8a0
abbrev HIF_SPI_ERR_CNT : Nat := 0x8a8
abbrev HIF_SPI_STAT : Nat := 0x8b0
abbrev HIF_EVT_MASK : Nat := 0x8b8
abbrev HIF_RING_ON : Nat := 0x8c0
abbrev HIF_RING_HALT : Nat := 0x8c8
abbrev HIF_RING_IRQ : Nat := 0x8d0
abbrev HIF_RING_FULL : Nat := 0x8d8
abbrev HIF_VEC_CNT (k : Nat) : Nat := 0x900 + 0x8 * k
abbrev HIF_VEC_LAT (k : Nat) : Nat := 0xa80 + 0x8 * k
abbrev RING_BASE_LO (q : Nat) : Nat := 0x7000 + 0x80 * q
abbrev RING_BASE_HI (q : Nat) : Nat := 0x7008 + 0x80 * q
abbrev RING_CFG (q : Nat) : Nat := 0x7010 + 0x80 * q
abbrev RING_CTRL (q : Nat) : Nat := 0x7018 + 0x80 * q
abbrev RING_STATE (q : Nat) : Nat := 0x7020 + 0x80 * q
abbrev RING_PROD (q : Nat) : Nat := 0x7028 + 0x80 * q
abbrev RING_CONS (q : Nat) : Nat := 0x7030 + 0x80 * q
abbrev RING_MOD (q : Nat) : Nat := 0x7038 + 0x80 * q
abbrev RING_HWM (q : Nat) : Nat := 0x7040 + 0x80 * q
abbrev RING_DROP_CNT (q : Nat) : Nat := 0x7048 + 0x80 * q
abbrev RING_STATUS (q : Nat) : Nat := 0x7050 + 0x80 * q
abbrev RING_WB_LO (q : Nat) : Nat := 0x7058 + 0x80 * q
abbrev RING_WB_HI (q : Nat) : Nat := 0x7060 + 0x80 * q
abbrev RING_OCC_MAX (q : Nat) : Nat := 0x7068 + 0x80 * q
abbrev CUR_STATUS : Nat := 0x1000
abbrev CUR_EVT_MASK : Nat := 0x1008
abbrev CUR_BOOT : Nat := 0x1010
abbrev CUR_POWER_ON : Nat := 0x1018
abbrev CUR_POWERED : Nat := 0x1020
abbrev CUR_LIFECYCLE : Nat := 0x1028
abbrev CUR_THERM_CFG : Nat := 0x1030
abbrev CUR_THERM_STAT : Nat := 0x1038
abbrev CUR_PROV_CFG : Nat := 0x1040
abbrev CUR_PROV_SEQ : Nat := 0x1048
abbrev CUR_PROV_LOST_CNT : Nat := 0x1050
abbrev CUR_NVS_STAT : Nat := 0x1058
abbrev CUR_NVS_WRITE_CNT : Nat := 0x1060
abbrev CUR_REFRESH : Nat := 0x1068
abbrev CUR_FW_STAT : Nat := 0x1070
abbrev CUR_HIST_IDX : Nat := 0x1078
abbrev CUR_HIST_DATA : Nat := 0x1080
abbrev CUR_TAMPER : Nat := 0x1088
abbrev CUR_WDOG_CNT : Nat := 0x1090
abbrev CUR_REFRESHED (k : Nat) : Nat := 0x1100 + 0x8 * k
abbrev CUR_S_VAL (i : Nat) : Nat := 0x1200 + 0x18 * i
abbrev CUR_S_EXT (i : Nat) : Nat := 0x1208 + 0x18 * i
abbrev CUR_S_CFG (i : Nat) : Nat := 0x1210 + 0x18 * i
abbrev GLB_ID : Nat := 0x0
abbrev GLB_CAPS : Nat := 0x8
abbrev GLB_MAP_REV : Nat := 0x10
abbrev GLB_FW_VER : Nat := 0x18
abbrev GLB_SERIAL0 : Nat := 0x20
abbrev GLB_SERIAL1 : Nat := 0x28
abbrev GLB_PROD_DATE : Nat := 0x30
abbrev GLB_SUMMARY : Nat := 0x38
abbrev GLB_RESET_CAUSE : Nat := 0x40
abbrev GLB_MODE : Nat := 0x48
abbrev GLB_RETIRED : Nat := 0x50
abbrev GLB_UNDEF_CNT : Nat := 0x58
abbrev GLB_UNDEF_ADDR : Nat := 0x60
abbrev GLB_UNDEF_DATA : Nat := 0x68
abbrev GLB_UNDEF_SEC : Nat := 0x70
abbrev GLB_RESVAL_CNT : Nat := 0x78
abbrev GLB_RESVAL : Nat := 0x80
abbrev GLB_RESVAL_DATA : Nat := 0x88
abbrev GLB_RESVAL_SEC : Nat := 0x90
abbrev GLB_DT_SEC : Nat := 0x98
abbrev GLB_DT_FRAC : Nat := 0xa0
abbrev GLB_DT_SUB : Nat := 0xa8
abbrev GLB_FS_HZ : Nat := 0xb0
abbrev GLB_SUBTICK_MOD : Nat := 0xb8
abbrev GLB_LASTEVT (k : Nat) : Nat := 0x100 + 0x8 * k
abbrev GLB_SCRATCH (k : Nat) : Nat := 0x140 + 0x8 * k
abbrev GLB_BLKMAP (k : Nat) : Nat := 0x200 + 0x8 * k
end R

/-- Part 1 of the register rows of block `glb` (R518). -/
def rows_glb_0 : List RegRow := [
  ⟨0x0, 0x0, 1, 0x0, 0x0, false, 0x0, 0xd4e4620a1, []⟩,
  ⟨0x8, 0x0, 1, 0x0, 0x0, false, 0x0, 0x8001024, []⟩,
  ⟨0x10, 0x0, 1, 0x0, 0x0, false, 0x0, 0x1, []⟩,
  ⟨0x18, 0x0, 1, 0x0, 0x0, false, 0x0, 0x0, []⟩,
  ⟨0x20, 0x0, 1, 0x0, 0x0, false, 0x0, 0x0, []⟩,
  ⟨0x28, 0x0, 1, 0x0, 0x0, false, 0x0, 0x0, []⟩,
  ⟨0x30, 0x0, 1, 0x0, 0x0, false, 0x0, 0x0, []⟩,
  ⟨0x38, 0x0, 1, 0x0, 0x0, false, 0x0, 0x0, []⟩,
  ⟨0x40, 0x0, 1, 0x0, 0x0, false, 0x0, 0x0, []⟩,
  ⟨0x48, 0x0, 1, 0x0, 0x0, false, 0x0, 0x0, []⟩,
  ⟨0x50, 0x0, 1, 0x0, 0x0, false, 0x0, 0x0, []⟩,
  ⟨0x58, 0x0, 1, 0x0, 0x0, true, 0x0, 0x0, []⟩,
  ⟨0x60, 0x0, 1, 0x0, 0x800000000, false, 0x0, 0x0, []⟩,
  ⟨0x68, 0x0, 1, 0x0, 0x0, false, 0x0, 0x0, []⟩,
  ⟨0x70, 0x0, 1, 0x0, 0x0, false, 0x0, 0x0, []⟩,
  ⟨0x78, 0x0, 1, 0x0, 0x0, true, 0x0, 0x0, []⟩,
  ⟨0x80, 0x0, 1, 0x0, 0x800000000, false, 0x0, 0x0, []⟩,
  ⟨0x88, 0x0, 1, 0x0, 0x0, false, 0x0, 0x0, []⟩,
  ⟨0x90, 0x0, 1, 0x0, 0x0, false, 0x0, 0x0, []⟩,
  ⟨0x98, 0x0, 1, 0x0, 0x0, false, 0x0, 0x0, []⟩,
  ⟨0xa0, 0x0, 1, 0x0, 0x0, false, 0x0, 0x0, []⟩,
  ⟨0xa8, 0x0, 1, 0x0, 0x0, false, 0x0, 0x0, []⟩,
  ⟨0xb0, 0x0, 1, 0x0, 0x0, false, 0x0, 0x9c18f00, []⟩,
  ⟨0xb8, 0x0, 1, 0x0, 0x0, false, 0x0, 0x9c18f, []⟩]
/-- Part 2 of the register rows of block `glb` (R518). -/
def rows_glb_1 : List RegRow := [
  ⟨0x100, 0x8, 8, 0x0, 0x0, false, 0x0, 0x0, []⟩,
  ⟨0x140, 0x8, 16, 0xfffffffff, 0x0, false, 0x0, 0x0, []⟩,
  ⟨0x200, 0x8, 16, 0x0, 0x0, false, 0x0, 0x0, []⟩]
/-- The register rows of block `glb` (R518). -/
def rows_glb : List RegRow := rows_glb_0 ++ rows_glb_1

/-- Part 1 of the register rows of block `hif` (R433). -/
def rows_hif_0 : List RegRow := [
  ⟨0x0, 0x0, 1, 0x0, 0x0, false, 0x0, 0x0, []⟩,
  ⟨0x8, 0x0, 1, 0x0, 0x0, false, 0x0, 0x0, []⟩,
  ⟨0x10, 0x0, 1, 0x0, 0x3f, false, 0x0, 0x0, []⟩,
  ⟨0x18, 0x0, 1, 0x0, 0x1e, false, 0x0, 0x0, []⟩,
  ⟨0x20, 0x0, 1, 0xf1f, 0x0, false, 0x0, 0x31e, [.range 11 8 0 4]⟩,
  ⟨0x28, 0x0, 1, 0xf, 0x0, false, 0x0, 0x0, [.range 3 0 0 4]⟩,
  ⟨0x30, 0x0, 1, 0x0, 0x0, false, 0x0, 0x1, []⟩,
  ⟨0x38, 0x0, 1, 0x0, 0x0, false, 0x0, 0x0, []⟩,
  ⟨0x40, 0x0, 1, 0x0, 0x0, true, 0x0, 0x0, []⟩,
  ⟨0x48, 0x0, 1, 0x0, 0x0, true, 0x0, 0x0, []⟩,
  ⟨0x50, 0x0, 1, 0x0, 0x0, true, 0x0, 0x0, []⟩,
  ⟨0x58, 0x0, 1, 0x0, 0x0, false, 0x0, 0x0, []⟩,
  ⟨0x60, 0x0, 1, 0x0, 0x0, false, 0x0, 0x0, []⟩,
  ⟨0x68, 0x0, 1, 0x0, 0x0, false, 0x0, 0x0, []⟩,
  ⟨0x70, 0x0, 1, 0x0, 0x0, true, 0x0, 0x0, []⟩,
  ⟨0x78, 0x0, 1, 0x0, 0x0, true, 0x0, 0x0, []⟩,
  ⟨0x80, 0x0, 1, 0x0, 0x0, false, 0x0, 0x0, []⟩,
  ⟨0x88, 0x0, 1, 0x0, 0x0, true, 0x0, 0x0, []⟩,
  ⟨0x90, 0x0, 1, 0x0, 0x0, true, 0x0, 0x0, []⟩,
  ⟨0x98, 0x0, 1, 0x0, 0x0, true, 0x0, 0x0, []⟩,
  ⟨0xa0, 0x0, 1, 0x0, 0x0, true, 0x0, 0x0, []⟩,
  ⟨0xa8, 0x0, 1, 0x0, 0x0, true, 0x0, 0x0, []⟩,
  ⟨0xb0, 0x0, 1, 0x0, 0x0, false, 0x0, 0x0, []⟩,
  ⟨0xb8, 0x0, 1, 0x7ff, 0x0, false, 0x0, 0x7be, []⟩]
/-- Part 2 of the register rows of block `hif` (R433). -/
def rows_hif_1 : List RegRow := [
  ⟨0xc0, 0x0, 1, 0x0, 0x0, false, 0x0, 0x0, []⟩,
  ⟨0xc8, 0x0, 1, 0x0, 0x0, false, 0x0, 0x0, []⟩,
  ⟨0xd0, 0x0, 1, 0x0, 0xffffffff, false, 0x0, 0x0, []⟩,
  ⟨0xd8, 0x0, 1, 0x0, 0x0, false, 0x0, 0x0, []⟩,
  ⟨0x100, 0x8, 34, 0x0, 0x0, true, 0x0, 0x0, []⟩,
  ⟨0x280, 0x8, 34, 0x0, 0x0, true, 0x0, 0x0, []⟩]
/-- The register rows of block `hif` (R433). -/
def rows_hif : List RegRow := rows_hif_0 ++ rows_hif_1

/-- Part 1 of the register rows of block `cur` (R494). -/
def rows_cur_0 : List RegRow := [
  ⟨0x0, 0x0, 1, 0x0, 0xff, false, 0x0, 0x0, []⟩,
  ⟨0x8, 0x0, 1, 0xfffffff, 0x0, false, 0x0, 0xfffffff, []⟩,
  ⟨0x10, 0x0, 1, 0x0, 0x0, false, 0x0, 0x0, []⟩,
  ⟨0x18, 0x0, 1, 0x0, 0x0, false, 0x0, 0x0, []⟩,
  ⟨0x20, 0x0, 1, 0x0, 0x0, false, 0x0, 0x0, []⟩,
  ⟨0x28, 0x0, 1, 0x0, 0x0, false, 0x0, 0x0, []⟩,
  ⟨0x30, 0x0, 1, 0xffff, 0x0, false, 0x0, 0x6e64, [.range 15 8 70 110, .range 7 0 60 100]⟩,
  ⟨0x38, 0x0, 1, 0x0, 0x0, false, 0x0, 0x0, []⟩,
  ⟨0x40, 0x0, 1, 0xf, 0x0, false, 0x0, 0x3, [.range 3 0 0 4]⟩,
  ⟨0x48, 0x0, 1, 0x0, 0x0, false, 0x0, 0x0, []⟩,
  ⟨0x50, 0x0, 1, 0x0, 0x0, true, 0x0, 0x0, []⟩,
  ⟨0x58, 0x0, 1, 0x0, 0x0, false, 0x0, 0x0, []⟩,
  ⟨0x60, 0x0, 1, 0x0, 0x0, true, 0x0, 0x0, []⟩,
  ⟨0x68, 0x0, 1, 0x0, 0x0, false, 0x0, 0x0, []⟩,
  ⟨0x70, 0x0, 1, 0x0, 0x0, false, 0x0, 0x0, []⟩,
  ⟨0x78, 0x0, 1, 0x7fff, 0x0, false, 0x0, 0x0, [.range 14 10 0 19, .range 9 0 0 727]⟩,
  ⟨0x80, 0x0, 1, 0x0, 0x0, false, 0x0, 0x0, []⟩,
  ⟨0x88, 0x0, 1, 0x0, 0x0, false, 0x0, 0x0, []⟩,
  ⟨0x90, 0x0, 1, 0x0, 0x0, false, 0x0, 0x0, []⟩,
  ⟨0x100, 0x8, 32, 0x0, 0x0, false, 0x0, 0x0, []⟩]
/-- The register rows of block `cur` (R494). -/
def rows_cur : List RegRow := rows_cur_0

/-- Part 1 of the register rows of block `sens` (R494). -/
def rows_sens_0 : List RegRow := [
  ⟨0x0, 0x0, 1, 0x0, 0x0, false, 0x0, 0x0, []⟩,
  ⟨0x8, 0x0, 1, 0x0, 0x0, true, 0x0, 0x0, []⟩,
  ⟨0x10, 0x0, 1, 0xffffff, 0x0, false, 0x0, 0x0, []⟩]
/-- The register rows of block `sens` (R494). -/
def rows_sens : List RegRow := rows_sens_0

/-- Part 1 of the register rows of block `syn` (R122). -/
def rows_syn_0 : List RegRow := [
  ⟨0x0, 0x0, 1, 0x3ffffff, 0x0, false, 0x0, 0x989680, [.range 25 0 10000000 52000000]⟩,
  ⟨0x8, 0x0, 1, 0x1f, 0x0, false, 0x0, 0x10, [.oneOf 3 2 [0, 1, 2], .oneOf 1 0 [0, 1]]⟩,
  ⟨0x10, 0x0, 1, 0x0, 0x0, false, 0x0, 0x0, []⟩,
  ⟨0x18, 0x0, 1, 0x0, 0x0, false, 0x0, 0x0, []⟩,
  ⟨0x20, 0x0, 1, 0x0, 0x0, false, 0x0, 0x0, []⟩,
  ⟨0x28, 0x0, 1, 0xfffffff, 0x0, false, 0x0, 0x3e8064, [.range 27 12 1 65535, .range 11 0 1 4095]⟩,
  ⟨0x30, 0x0, 1, 0x0, 0x0, false, 0x0, 0x0, []⟩,
  ⟨0x38, 0x0, 1, 0x1, 0x0, false, 0x0, 0x0, []⟩,
  ⟨0x40, 0x0, 1, 0x0, 0x0, false, 0x3, 0x0, []⟩,
  ⟨0x48, 0x0, 1, 0x0, 0x0, false, 0x0, 0x0, []⟩,
  ⟨0x50, 0x0, 1, 0x0, 0x3f, false, 0x0, 0x0, []⟩,
  ⟨0x58, 0x0, 1, 0xd, 0x0, false, 0x0, 0x8, []⟩,
  ⟨0x60, 0x0, 1, 0xffff00ff, 0x0, false, 0x0, 0x4000004, [.range 31 16 16 65535, .range 7 0 1 255]⟩,
  ⟨0x68, 0x0, 1, 0x0, 0x0, false, 0x0, 0x0, []⟩,
  ⟨0x70, 0x0, 1, 0x0, 0x0, false, 0x0, 0x0, []⟩,
  ⟨0x78, 0x0, 1, 0x0, 0x0, false, 0x0, 0x0, []⟩,
  ⟨0x80, 0x0, 1, 0x0, 0x0, false, 0x0, 0x0, []⟩,
  ⟨0x88, 0x0, 1, 0x0, 0x0, false, 0x0, 0x0, []⟩,
  ⟨0x90, 0x0, 1, 0x0, 0x0, true, 0x0, 0x0, []⟩,
  ⟨0x98, 0x0, 1, 0x0, 0x0, true, 0x0, 0x0, []⟩,
  ⟨0xa0, 0x0, 1, 0x0, 0x0, true, 0x0, 0x0, []⟩,
  ⟨0xa8, 0x0, 1, 0x0, 0x0, false, 0x0, 0x0, []⟩,
  ⟨0xb0, 0x0, 1, 0x0, 0x0, false, 0x0, 0x0, []⟩,
  ⟨0xb8, 0x0, 1, 0x0, 0x0, false, 0x0, 0x0, []⟩]
/-- Part 2 of the register rows of block `syn` (R122). -/
def rows_syn_1 : List RegRow := [
  ⟨0xc0, 0x0, 1, 0x0, 0x0, false, 0x0, 0x0, []⟩,
  ⟨0xc8, 0x0, 1, 0x0, 0x0, false, 0x0, 0x0, []⟩,
  ⟨0xd0, 0x0, 1, 0x0, 0x0, false, 0x0, 0x0, []⟩,
  ⟨0xd8, 0x0, 1, 0x0, 0x0, false, 0x0, 0x0, []⟩,
  ⟨0xe0, 0x0, 1, 0x0, 0x0, false, 0x0, 0x0, []⟩,
  ⟨0xe8, 0x0, 1, 0x3fff, 0x0, false, 0x0, 0x3fff, []⟩,
  ⟨0xf0, 0x0, 1, 0x0, 0x0, false, 0x0, 0x0, []⟩,
  ⟨0xf8, 0x0, 1, 0x0, 0x0, false, 0x0, 0x0, []⟩,
  ⟨0x100, 0x8, 32, 0x0, 0x0, true, 0x0, 0x0, []⟩]
/-- The register rows of block `syn` (R122). -/
def rows_syn : List RegRow := rows_syn_0 ++ rows_syn_1

/-- Part 1 of the register rows of block `lo` (R122). -/
def rows_lo_0 : List RegRow := [
  ⟨0x0, 0x0, 1, 0x0, 0x0, false, 0x1, 0x0, []⟩,
  ⟨0x8, 0x0, 1, 0x0, 0x0, false, 0x0, 0x0, []⟩,
  ⟨0x10, 0x0, 1, 0x0, 0xf, false, 0x0, 0x0, []⟩,
  ⟨0x18, 0x0, 1, 0xd, 0x0, false, 0x0, 0x9, []⟩,
  ⟨0x20, 0x0, 1, 0xffff00ff, 0x0, false, 0x0, 0x4000004, [.range 31 16 16 65535, .range 7 0 1 255]⟩,
  ⟨0x28, 0x0, 1, 0x0, 0x0, false, 0x0, 0x0, []⟩,
  ⟨0x30, 0x0, 1, 0x0, 0x0, false, 0x0, 0x0, []⟩,
  ⟨0x38, 0x0, 1, 0x0, 0x0, false, 0x0, 0x0, []⟩,
  ⟨0x40, 0x0, 1, 0x0, 0x0, false, 0x0, 0x0, []⟩,
  ⟨0x48, 0x0, 1, 0x0, 0x0, false, 0x0, 0x0, []⟩,
  ⟨0x50, 0x0, 1, 0x0, 0x0, false, 0x0, 0x0, []⟩,
  ⟨0x58, 0x0, 1, 0x0, 0x0, true, 0x0, 0x0, []⟩,
  ⟨0x60, 0x0, 1, 0x3f, 0x0, false, 0x0, 0x0, [.oneOf 5 4 [0, 1, 2]]⟩,
  ⟨0x68, 0x0, 1, 0xfffffffff, 0x0, false, 0x0, 0x0, []⟩,
  ⟨0x70, 0x0, 1, 0xfffffffff, 0x0, false, 0x0, 0x0, []⟩,
  ⟨0x78, 0x0, 1, 0x0, 0x0, false, 0x0, 0x0, []⟩,
  ⟨0x80, 0x8, 16, 0xfffffffff, 0x0, false, 0x0, 0x0, [.range 7 0 1 255]⟩]
/-- The register rows of block `lo` (R122). -/
def rows_lo : List RegRow := rows_lo_0

/-- Part 1 of the register rows of block `fe` (R98). -/
def rows_fe_0 : List RegRow := [
  ⟨0x0, 0x0, 1, 0x0, 0x0, false, 0x7, 0x0, []⟩,
  ⟨0x8, 0x0, 1, 0x0, 0x0, false, 0x0, 0x0, []⟩,
  ⟨0x10, 0x0, 1, 0x0, 0x3ff, false, 0x0, 0x0, []⟩,
  ⟨0x18, 0x0, 1, 0x3, 0x0, false, 0x0, 0x3, []⟩,
  ⟨0x20, 0x0, 1, 0x7fffffff, 0x0, false, 0x0, 0x5e69ec00, [.range 30 0 1150000000 1620000000]⟩,
  ⟨0x28, 0x0, 1, 0x0, 0x0, false, 0x0, 0x0, []⟩,
  ⟨0x30, 0x0, 1, 0xffff, 0x0, false, 0x0, 0x1448, [.oneOf 15 14 [0, 1, 2], .range 13 8 8 48, .range 7 0 0 144]⟩,
  ⟨0x38, 0x0, 1, 0x0, 0x0, false, 0x0, 0x0, []⟩,
  ⟨0x40, 0x0, 1, 0x0, 0x0, true, 0x0, 0x0, []⟩,
  ⟨0x48, 0x0, 1, 0xfff, 0x0, false, 0x0, 0x210, [.oneOf 11 10 [0, 1, 2]]⟩,
  ⟨0x50, 0x0, 1, 0x0, 0x0, false, 0x0, 0x0, []⟩,
  ⟨0x58, 0x0, 1, 0xfffffff, 0x0, false, 0x0, 0x281803c, [.range 11 0 0 3600]⟩,
  ⟨0x60, 0x0, 1, 0x3ffffffff, 0x0, false, 0x0, 0x7d0c80f0, [.range 33 21 100 5000, .range 20 13 10 200, .range 12 1 32 3600]⟩,
  ⟨0x68, 0x0, 1, 0x0, 0x0, false, 0x0, 0x0, []⟩,
  ⟨0x70, 0x0, 1, 0x0, 0x0, true, 0x0, 0x0, []⟩,
  ⟨0x78, 0x0, 1, 0xff7f, 0x0, false, 0x0, 0x7f, [.range 15 8 0 50]⟩,
  ⟨0x80, 0x0, 1, 0x0, 0x0, false, 0x0, 0x0, []⟩,
  ⟨0x88, 0x0, 1, 0x0, 0x0, true, 0x0, 0x0, []⟩,
  ⟨0x90, 0x0, 1, 0x3, 0x0, false, 0x0, 0x0, []⟩,
  ⟨0x98, 0x0, 1, 0x0, 0x0, true, 0x0, 0x0, []⟩,
  ⟨0xa0, 0x38, 2, 0xf, 0x0, false, 0x0, 0x0, [.oneOf 3 2 [0, 1], .oneOf 1 0 [0, 1, 2]]⟩,
  ⟨0xa8, 0x38, 2, 0xffffffff, 0x0, false, 0x0, 0x0, []⟩,
  ⟨0xb0, 0x38, 2, 0xfffffffff, 0x0, false, 0x0, 0x0, []⟩,
  ⟨0xb8, 0x38, 2, 0xfffffffff, 0x0, false, 0x0, 0x0, []⟩]
/-- Part 2 of the register rows of block `fe` (R98). -/
def rows_fe_1 : List RegRow := [
  ⟨0xc0, 0x38, 2, 0xfffffffff, 0x0, false, 0x0, 0x0, []⟩,
  ⟨0xc8, 0x38, 2, 0xfffffffff, 0x0, false, 0x0, 0x0, []⟩,
  ⟨0xd0, 0x38, 2, 0x0, 0x30, false, 0x0, 0x0, []⟩,
  ⟨0x110, 0x0, 1, 0x0, 0x0, false, 0x0, 0x0, []⟩,
  ⟨0x118, 0x0, 1, 0x0, 0x0, false, 0x0, 0x0, []⟩,
  ⟨0x120, 0x0, 1, 0x0, 0x0, false, 0x0, 0x0, []⟩,
  ⟨0x128, 0x0, 1, 0x0, 0x0, false, 0x0, 0x0, []⟩,
  ⟨0x130, 0x0, 1, 0x0, 0x0, false, 0x0, 0x0, []⟩,
  ⟨0x138, 0x0, 1, 0x0, 0x0, false, 0x0, 0x0, []⟩,
  ⟨0x140, 0x0, 1, 0x0, 0x0, false, 0x0, 0x0, []⟩,
  ⟨0x148, 0x0, 1, 0x0, 0x0, false, 0x0, 0x0, []⟩,
  ⟨0x150, 0x0, 1, 0xff, 0x0, false, 0x0, 0x0, [.range 7 0 0 144]⟩,
  ⟨0x158, 0x0, 1, 0x0, 0x0, false, 0x0, 0x0, []⟩,
  ⟨0x160, 0x0, 1, 0x0, 0x0, false, 0x0, 0x0, []⟩,
  ⟨0x168, 0x0, 1, 0x0, 0x0, false, 0x0, 0x0, []⟩,
  ⟨0x170, 0x0, 1, 0x0, 0x0, false, 0x0, 0x0, []⟩,
  ⟨0x178, 0x0, 1, 0x0, 0x0, false, 0x0, 0x0, []⟩,
  ⟨0x180, 0x0, 1, 0x0, 0x0, false, 0x0, 0x0, []⟩,
  ⟨0x188, 0x0, 1, 0x0, 0x0, true, 0x0, 0xffff, []⟩,
  ⟨0x190, 0x0, 1, 0x0, 0x0, true, 0x0, 0x0, []⟩,
  ⟨0x198, 0x0, 1, 0x3fff, 0x0, false, 0x0, 0x2ffe, []⟩,
  ⟨0x1a0, 0x0, 1, 0x0, 0x0, false, 0x0, 0x0, []⟩,
  ⟨0x1a8, 0x0, 1, 0x0, 0x0, false, 0x0, 0x0, []⟩,
  ⟨0x1b0, 0x0, 1, 0x2, 0x0, false, 0x1, 0x0, []⟩]
/-- Part 3 of the register rows of block `fe` (R98). -/
def rows_fe_2 : List RegRow := [
  ⟨0x1b8, 0x0, 1, 0x0, 0x0, false, 0x0, 0x0, []⟩,
  ⟨0x200, 0x8, 64, 0x0, 0x0, false, 0x0, 0x0, []⟩]
/-- The register rows of block `fe` (R98). -/
def rows_fe : List RegRow := rows_fe_0 ++ rows_fe_1 ++ rows_fe_2

/-- Part 1 of the register rows of block `chz` (R147). -/
def rows_chz_0 : List RegRow := [
  ⟨0x0, 0x0, 1, 0x0, 0x0, false, 0x3, 0x0, []⟩,
  ⟨0x8, 0x0, 1, 0x0, 0xff, false, 0x0, 0x0, []⟩,
  ⟨0x10, 0x0, 1, 0x0, 0x0, false, 0x0, 0x40, []⟩,
  ⟨0x18, 0x0, 1, 0xffff, 0x0, false, 0x0, 0xde0, [.range 6 0 1 127]⟩,
  ⟨0x20, 0x0, 1, 0xfff001f, 0x0, false, 0x0, 0x100004, [.range 4 0 0 16]⟩,
  ⟨0x28, 0x0, 1, 0x0, 0x0, true, 0x0, 0x0, []⟩,
  ⟨0x30, 0x0, 1, 0x0, 0x0, true, 0x0, 0x0, []⟩,
  ⟨0x38, 0x0, 1, 0x0, 0x0, false, 0x0, 0x0, []⟩,
  ⟨0x40, 0x0, 1, 0x3f, 0x0, false, 0x0, 0x0, []⟩,
  ⟨0x48, 0x0, 1, 0x0, 0x0, false, 0x0, 0x0, []⟩,
  ⟨0x50, 0x0, 1, 0x0, 0x0, true, 0x0, 0x0, []⟩,
  ⟨0x58, 0x0, 1, 0x11f, 0x0, false, 0x0, 0x0, []⟩,
  ⟨0x60, 0x0, 1, 0x0, 0x0, false, 0x0, 0x0, []⟩,
  ⟨0x68, 0x0, 1, 0x0, 0x0, false, 0x0, 0x0, []⟩,
  ⟨0x70, 0x0, 1, 0x0, 0x0, false, 0x0, 0x0, []⟩,
  ⟨0x78, 0x0, 1, 0x0, 0x0, true, 0x0, 0x0, []⟩,
  ⟨0x80, 0x0, 1, 0x0, 0x0, true, 0x0, 0x0, []⟩,
  ⟨0x88, 0x0, 1, 0x0, 0x0, true, 0x0, 0x0, []⟩,
  ⟨0x90, 0x0, 1, 0x0, 0x0, false, 0x0, 0x0, []⟩,
  ⟨0x98, 0x0, 1, 0x0, 0x0, true, 0x0, 0x0, []⟩,
  ⟨0xa0, 0x0, 1, 0x0, 0x0, false, 0x0, 0x0, []⟩,
  ⟨0xa8, 0x0, 1, 0x1fffff, 0x0, false, 0x0, 0x28100, [.range 19 12 8 100, .range 11 0 1 4095]⟩,
  ⟨0xb0, 0x0, 1, 0x3ff, 0x0, false, 0x0, 0x3fe, []⟩,
  ⟨0xb8, 0x0, 1, 0x0, 0x0, false, 0x0, 0x0, []⟩]
/-- Part 2 of the register rows of block `chz` (R147). -/
def rows_chz_1 : List RegRow := [
  ⟨0x100, 0x28, 16, 0xfde1, 0x0, false, 0x0, 0x0, []⟩,
  ⟨0x108, 0x28, 16, 0xfffffffff, 0x0, false, 0x0, 0x0, []⟩,
  ⟨0x110, 0x28, 16, 0x0, 0x0, false, 0x0, 0x0, []⟩,
  ⟨0x118, 0x28, 16, 0x0, 0x0, false, 0x0, 0x0, []⟩,
  ⟨0x120, 0x28, 16, 0x0, 0x0, true, 0x0, 0x0, []⟩,
  ⟨0x380, 0x20, 4, 0xfff, 0x0, false, 0x0, 0x3c4, [.range 11 4 8 160, .oneOf 1 0 [0, 1, 2]]⟩,
  ⟨0x388, 0x20, 4, 0xfffffffff, 0x0, false, 0x0, 0x0, []⟩,
  ⟨0x390, 0x20, 4, 0x0, 0x0, false, 0x0, 0x0, []⟩,
  ⟨0x398, 0x20, 4, 0x0, 0x0, false, 0x0, 0x0, []⟩]
/-- The register rows of block `chz` (R147). -/
def rows_chz : List RegRow := rows_chz_0 ++ rows_chz_1

/-- Part 1 of the register rows of block `acq` (R185). -/
def rows_acq_0 : List RegRow := [
  ⟨0x0, 0x0, 1, 0x0, 0x0, false, 0x1, 0x0, []⟩,
  ⟨0x8, 0x0, 1, 0x3f0043, 0x0, false, 0x0, 0x100040, []⟩,
  ⟨0x10, 0x0, 1, 0x0, 0x7f, false, 0x0, 0x0, []⟩,
  ⟨0x18, 0x0, 1, 0x0, 0x0, false, 0x0, 0x0, []⟩,
  ⟨0x20, 0x0, 1, 0x0, 0x0, false, 0x0, 0x0, []⟩,
  ⟨0x28, 0x0, 1, 0x0, 0x0, false, 0x0, 0x1, []⟩,
  ⟨0x30, 0x0, 1, 0x0, 0x0, false, 0x0, 0x0, []⟩,
  ⟨0x38, 0x0, 1, 0xfffff80ff, 0x0, false, 0x0, 0x5c00000a, [.range 35 28 1 255, .range 27 22 1 60, .oneOf 21 20 [0, 1, 2], .range 7 0 0 180]⟩,
  ⟨0x40, 0x0, 1, 0xfffffffff, 0x0, false, 0x0, 0xa03c3e8, [.range 35 24 1 600, .range 23 12 1 3600, .range 11 0 250 4095]⟩,
  ⟨0x48, 0x0, 1, 0x0, 0x0, false, 0x0, 0x0, []⟩,
  ⟨0x50, 0x0, 1, 0x0, 0x0, false, 0x0, 0x0, []⟩,
  ⟨0x58, 0x0, 1, 0x0, 0x0, false, 0x0, 0x0, []⟩,
  ⟨0x60, 0x0, 1, 0x0, 0x0, false, 0x0, 0x0, []⟩,
  ⟨0x68, 0x0, 1, 0x0, 0x0, true, 0x0, 0x0, []⟩,
  ⟨0x70, 0x0, 1, 0xfffffffff, 0x0, false, 0x0, 0x800040, []⟩,
  ⟨0x78, 0x0, 1, 0xfffffffff, 0x0, false, 0x0, 0x5dc00064, [.range 35 18 100 100000, .range 17 0 10 10000]⟩,
  ⟨0x80, 0x0, 1, 0x3f, 0x0, false, 0x0, 0xc, [.range 5 0 4 48]⟩,
  ⟨0x88, 0x0, 1, 0x0, 0x0, true, 0x0, 0x0, []⟩,
  ⟨0x90, 0x0, 1, 0x0, 0x0, true, 0x0, 0x0, []⟩,
  ⟨0x98, 0x0, 1, 0x0, 0x0, true, 0x0, 0x0, []⟩,
  ⟨0xa0, 0x0, 1, 0x0, 0x0, true, 0x0, 0x0, []⟩,
  ⟨0xa8, 0x0, 1, 0x0, 0x0, true, 0x0, 0x0, []⟩,
  ⟨0xb0, 0x0, 1, 0x0, 0x0, true, 0x0, 0x0, []⟩,
  ⟨0xb8, 0x0, 1, 0x0, 0x0, true, 0x0, 0x0, []⟩]
/-- Part 2 of the register rows of block `acq` (R185). -/
def rows_acq_1 : List RegRow := [
  ⟨0xc0, 0x0, 1, 0x7ff, 0x0, false, 0x0, 0x7fe, []⟩,
  ⟨0xc8, 0x0, 1, 0x0, 0x0, true, 0x0, 0x0, []⟩,
  ⟨0xd0, 0x0, 1, 0x0, 0x0, false, 0x0, 0x0, []⟩,
  ⟨0xd8, 0x0, 1, 0x0, 0x0, false, 0x0, 0x0, []⟩,
  ⟨0xe0, 0x0, 1, 0x0, 0x0, true, 0x0, 0x0, []⟩,
  ⟨0xe8, 0x0, 1, 0x2, 0x0, false, 0x1, 0x0, []⟩,
  ⟨0xf0, 0x0, 1, 0x0, 0x0, true, 0x0, 0x0, []⟩,
  ⟨0xf8, 0x0, 1, 0x0, 0x0, true, 0x0, 0x0, []⟩,
  ⟨0x200, 0x10, 32, 0x0, 0x0, false, 0x0, 0x0, []⟩,
  ⟨0x208, 0x10, 32, 0x0, 0x0, false, 0x0, 0x0, []⟩,
  ⟨0x400, 0x8, 32, 0x0, 0x0, true, 0x0, 0x0, []⟩,
  ⟨0x500, 0x40, 4, 0x3, 0x0, false, 0x0, 0x2, []⟩,
  ⟨0x508, 0x40, 4, 0x0, 0x0, true, 0x0, 0x0, []⟩,
  ⟨0x510, 0x40, 4, 0x0, 0x0, true, 0x0, 0x0, []⟩,
  ⟨0x518, 0x40, 4, 0x0, 0x0, true, 0x0, 0x0, []⟩,
  ⟨0x520, 0x40, 4, 0x0, 0x0, false, 0x0, 0x0, []⟩,
  ⟨0x528, 0x40, 4, 0x0, 0x0, false, 0x0, 0x0, []⟩,
  ⟨0x530, 0x40, 4, 0x0, 0x0, false, 0x0, 0x0, []⟩,
  ⟨0x538, 0x40, 4, 0x0, 0x0, false, 0x0, 0x0, []⟩]
/-- The register rows of block `acq` (R185). -/
def rows_acq : List RegRow := rows_acq_0 ++ rows_acq_1

/-- Part 1 of the register rows of block `half` (R185). -/
def rows_half_0 : List RegRow := [
  ⟨0x0, 0x0, 1, 0x0, 0x0, false, 0x0, 0x0, []⟩,
  ⟨0x8, 0x0, 1, 0x0, 0x7, false, 0x0, 0x0, []⟩,
  ⟨0x10, 0x0, 1, 0x0, 0x0, false, 0x0, 0x0, []⟩,
  ⟨0x18, 0x0, 1, 0x0, 0x0, false, 0x0, 0x0, []⟩,
  ⟨0x20, 0x0, 1, 0x0, 0x0, true, 0x0, 0x0, []⟩,
  ⟨0x28, 0x0, 1, 0x0, 0x0, true, 0x0, 0x0, []⟩,
  ⟨0x30, 0x0, 1, 0x0, 0x0, true, 0x0, 0x0, []⟩,
  ⟨0x38, 0x0, 1, 0x0, 0x0, true, 0x0, 0x0, []⟩,
  ⟨0x40, 0x0, 1, 0x0, 0x0, true, 0x0, 0x0, []⟩,
  ⟨0x48, 0x0, 1, 0x0, 0x0, true, 0x0, 0x0, []⟩,
  ⟨0x50, 0x0, 1, 0x0, 0x0, true, 0x0, 0x0, []⟩,
  ⟨0x58, 0x0, 1, 0x0, 0x0, true, 0x0, 0x0, []⟩,
  ⟨0x60, 0x0, 1, 0x0, 0x0, false, 0x0, 0x0, []⟩,
  ⟨0x68, 0x0, 1, 0x0, 0x0, false, 0x0, 0x0, []⟩,
  ⟨0x70, 0x0, 1, 0x0, 0x0, false, 0x0, 0x0, []⟩,
  ⟨0x78, 0x0, 1, 0x0, 0x0, false, 0x0, 0x0, []⟩]
/-- The register rows of block `half` (R185). -/
def rows_half : List RegRow := rows_half_0

/-- Part 1 of the register rows of block `mem` (R409). -/
def rows_mem_0 : List RegRow := [
  ⟨0x0, 0x0, 1, 0x0, 0x0, false, 0x3, 0x0, []⟩,
  ⟨0x8, 0x0, 1, 0x0, 0x3ff, false, 0x0, 0x0, []⟩,
  ⟨0x10, 0x0, 1, 0x7fff, 0x0, false, 0x0, 0x3ffe, []⟩,
  ⟨0x18, 0x0, 1, 0x1fff, 0x0, false, 0x0, 0x103c, [.range 11 0 1 4095]⟩,
  ⟨0x20, 0x0, 1, 0x0, 0x0, false, 0x0, 0x0, []⟩,
  ⟨0x28, 0x0, 1, 0x0, 0x0, true, 0x0, 0x0, []⟩,
  ⟨0x30, 0x0, 1, 0x1fff, 0x0, false, 0x0, 0x100a, [.range 11 0 1 4095]⟩,
  ⟨0x38, 0x0, 1, 0x0, 0x0, false, 0x0, 0x0, []⟩,
  ⟨0x40, 0x0, 1, 0x0, 0x0, true, 0x0, 0x0, []⟩,
  ⟨0x48, 0x0, 1, 0x0, 0x0, true, 0x0, 0x0, []⟩,
  ⟨0x50, 0x0, 1, 0x0, 0x0, true, 0x0, 0x0, []⟩,
  ⟨0x58, 0x0, 1, 0x0, 0x0, false, 0x0, 0x0, []⟩,
  ⟨0x60, 0x0, 1, 0x0, 0x0, true, 0x0, 0x0, []⟩,
  ⟨0x68, 0x0, 1, 0x0, 0x0, true, 0x0, 0x0, []⟩,
  ⟨0x70, 0x0, 1, 0x0, 0x0, true, 0x0, 0x0, []⟩,
  ⟨0x78, 0x0, 1, 0x0, 0x0, true, 0x0, 0x0, []⟩,
  ⟨0x80, 0x0, 1, 0x0, 0x0, false, 0x0, 0x0, []⟩,
  ⟨0x88, 0x0, 1, 0x0, 0x0, false, 0x0, 0x0, []⟩,
  ⟨0x90, 0x0, 1, 0x0, 0x0, false, 0x0, 0x0, []⟩,
  ⟨0x98, 0x0, 1, 0xfffffffff, 0x0, false, 0x0, 0x0, []⟩,
  ⟨0xa0, 0x0, 1, 0x7f, 0x0, false, 0x0, 0x0, []⟩,
  ⟨0xa8, 0x0, 1, 0xffff, 0x0, false, 0x0, 0x0, []⟩,
  ⟨0xb0, 0x0, 1, 0x0, 0x0, false, 0x0, 0x0, []⟩,
  ⟨0xb8, 0x0, 1, 0x0, 0x0, false, 0x0, 0x0, []⟩]
/-- Part 2 of the register rows of block `mem` (R409). -/
def rows_mem_1 : List RegRow := [
  ⟨0xc0, 0x0, 1, 0x0, 0x0, false, 0x0, 0x0, []⟩,
  ⟨0xc8, 0x0, 1, 0x0, 0x0, false, 0x0, 0x0, []⟩,
  ⟨0xd0, 0x0, 1, 0xfffff, 0x0, false, 0x0, 0x3c10, [.range 19 8 1 4095, .range 7 0 2 255]⟩,
  ⟨0xd8, 0x0, 1, 0xffff, 0x0, false, 0x0, 0x3e8, [.range 15 0 1 65535]⟩,
  ⟨0xe0, 0x0, 1, 0x0, 0x0, true, 0x0, 0x0, []⟩,
  ⟨0xe8, 0x0, 1, 0x0, 0x0, true, 0x0, 0x0, []⟩,
  ⟨0xf0, 0x0, 1, 0x0, 0x0, true, 0x0, 0x0, []⟩,
  ⟨0xf8, 0x0, 1, 0x0, 0x0, true, 0x0, 0x0, []⟩]
/-- The register rows of block `mem` (R409). -/
def rows_mem : List RegRow := rows_mem_0 ++ rows_mem_1

/-- Part 1 of the register rows of block `bank` (R409). -/
def rows_bank_0 : List RegRow := [
  ⟨0x0, 0x0, 1, 0x3f, 0x0, false, 0x0, 0x0, [.oneOf 5 0 [0, 1, 2, 3, 4, 5, 6, 16, 17, 18, 19, 20, 21, 22, 23, 24, 25, 26, 27, 28, 29, 30, 31]]⟩,
  ⟨0x8, 0x0, 1, 0x0, 0x0, false, 0x0, 0x0, []⟩,
  ⟨0x10, 0x0, 1, 0x7, 0x0, false, 0x0, 0x0, []⟩,
  ⟨0x18, 0x0, 1, 0x7, 0x0, false, 0x0, 0x0, [.oneOf 2 0 [0, 1, 2]]⟩,
  ⟨0x20, 0x0, 1, 0x3fff, 0x0, false, 0x0, 0xfa0, [.oneOf 1 0 [0, 1, 2]]⟩,
  ⟨0x28, 0x0, 1, 0x0, 0x1ff, false, 0x0, 0x0, []⟩,
  ⟨0x30, 0x0, 1, 0x0, 0x0, true, 0x0, 0x0, []⟩,
  ⟨0x38, 0x0, 1, 0x0, 0x0, true, 0x0, 0x0, []⟩,
  ⟨0x40, 0x0, 1, 0x0, 0x0, false, 0x0, 0x0, []⟩,
  ⟨0x48, 0x0, 1, 0x0, 0x0, true, 0x0, 0x0, []⟩,
  ⟨0x50, 0x0, 1, 0x0, 0x0, false, 0x0, 0x0, []⟩,
  ⟨0x58, 0x0, 1, 0x0, 0x0, false, 0x0, 0x0, []⟩,
  ⟨0x60, 0x0, 1, 0x3, 0x0, false, 0x0, 0x0, []⟩,
  ⟨0x68, 0x0, 1, 0x0, 0x0, false, 0x0, 0x0, []⟩,
  ⟨0x70, 0x0, 1, 0x0, 0x0, true, 0x0, 0x0, []⟩,
  ⟨0x78, 0x0, 1, 0x0, 0x0, true, 0x0, 0x0, []⟩,
  ⟨0x80, 0x0, 1, 0x0, 0x0, true, 0x0, 0x0, []⟩,
  ⟨0x88, 0x0, 1, 0x0, 0x0, false, 0x0, 0x0, []⟩,
  ⟨0x90, 0x0, 1, 0x0, 0x0, false, 0x0, 0x0, []⟩,
  ⟨0x98, 0x0, 1, 0x0, 0x0, false, 0x0, 0x0, []⟩]
/-- The register rows of block `bank` (R409). -/
def rows_bank : List RegRow := rows_bank_0

/-- Part 1 of the register rows of block `ring` (R434). -/
def rows_ring_0 : List RegRow := [
  ⟨0x0, 0x0, 1, 0xffffffff, 0x0, false, 0x0, 0x0, []⟩,
  ⟨0x8, 0x0, 1, 0xffffffff, 0x0, false, 0x0, 0x0, []⟩,
  ⟨0x10, 0x0, 1, 0x1ffe00, 0x0, false, 0x0, 0x0, [.range 20 17 0 14, .range 16 12 4 16]⟩,
  ⟨0x18, 0x0, 1, 0x0, 0x0, false, 0x3, 0x0, []⟩,
  ⟨0x20, 0x0, 1, 0x0, 0x0, false, 0x0, 0x0, []⟩,
  ⟨0x28, 0x0, 1, 0x1ffff, 0x0, false, 0x0, 0x0, []⟩,
  ⟨0x30, 0x0, 1, 0x1ffff, 0x0, false, 0x0, 0x0, []⟩,
  ⟨0x38, 0x0, 1, 0xffff0ffff, 0x0, false, 0x0, 0x1, [.range 15 0 1 65535]⟩,
  ⟨0x40, 0x0, 1, 0x1ffff, 0x0, false, 0x0, 0x0, []⟩,
  ⟨0x48, 0x0, 1, 0x0, 0x0, true, 0x0, 0x0, []⟩,
  ⟨0x50, 0x0, 1, 0x0, 0x1f, false, 0x0, 0x0, []⟩,
  ⟨0x58, 0x0, 1, 0xffffffff, 0x0, false, 0x0, 0x0, []⟩,
  ⟨0x60, 0x0, 1, 0xffffffff, 0x0, false, 0x0, 0x0, []⟩,
  ⟨0x68, 0x0, 1, 0x0, 0x0, true, 0x0, 0x0, []⟩]
/-- The register rows of block `ring` (R434). -/
def rows_ring : List RegRow := rows_ring_0

/-- Part 1 of the register rows of block `tpc` (R317). -/
def rows_tpc_0 : List RegRow := [
  ⟨0x0, 0x0, 1, 0x0, 0x3f, false, 0x0, 0x0, []⟩,
  ⟨0x8, 0x0, 1, 0x3ff, 0x0, false, 0x0, 0x1ff, []⟩,
  ⟨0x10, 0x0, 1, 0x0, 0x0, false, 0x0, 0x0, []⟩,
  ⟨0x18, 0x0, 1, 0x0, 0x0, false, 0x0, 0x0, []⟩,
  ⟨0x20, 0x0, 1, 0x1f1f, 0x0, false, 0x0, 0x0, []⟩,
  ⟨0x28, 0x0, 1, 0x0, 0x0, false, 0x0, 0x0, []⟩,
  ⟨0x30, 0x0, 1, 0x0, 0x0, false, 0x0, 0x0, []⟩,
  ⟨0x38, 0x0, 1, 0x0, 0x0, false, 0x0, 0x0, []⟩,
  ⟨0x40, 0x0, 1, 0x0, 0x0, true, 0x0, 0x0, []⟩,
  ⟨0x48, 0x0, 1, 0x0, 0x0, true, 0x0, 0x0, []⟩,
  ⟨0x50, 0x0, 1, 0x0, 0x0, false, 0x0, 0x0, []⟩]
/-- The register rows of block `tpc` (R317). -/
def rows_tpc : List RegRow := rows_tpc_0

/-- Part 1 of the register rows of block `tp` (R317). -/
def rows_tp_0 : List RegRow := [
  ⟨0x0, 0x0, 1, 0x0, 0x0, false, 0x0, 0x100040000, []⟩,
  ⟨0x8, 0x0, 1, 0x0, 0x0, false, 0x0, 0x3e8, []⟩,
  ⟨0x10, 0x0, 1, 0x0, 0x0, false, 0x0, 0x186a0, []⟩,
  ⟨0x18, 0x0, 1, 0x0, 0x0, false, 0x0, 0x0, []⟩,
  ⟨0x20, 0x0, 1, 0x0, 0x0, false, 0x0, 0x2710, []⟩,
  ⟨0x28, 0x0, 1, 0x0, 0x0, false, 0x0, 0x10c6f, []⟩,
  ⟨0x30, 0x0, 1, 0x0, 0x0, false, 0x0, 0x0, []⟩,
  ⟨0x38, 0x0, 1, 0x0, 0x3f, false, 0x0, 0x0, []⟩,
  ⟨0x40, 0x0, 1, 0x0, 0x0, false, 0x0, 0x0, []⟩,
  ⟨0x48, 0x0, 1, 0x0, 0x0, false, 0x0, 0x0, []⟩,
  ⟨0x50, 0x0, 1, 0x0, 0x0, false, 0x0, 0x0, []⟩,
  ⟨0x58, 0x0, 1, 0x0, 0x0, false, 0x0, 0x0, []⟩,
  ⟨0x60, 0x0, 1, 0x0, 0x0, false, 0x0, 0x0, []⟩,
  ⟨0x68, 0x0, 1, 0x0, 0x0, false, 0x0, 0x0, []⟩,
  ⟨0x70, 0x0, 1, 0x0, 0x0, false, 0x0, 0x0, []⟩,
  ⟨0x78, 0x0, 1, 0x0, 0x0, true, 0x0, 0x0, []⟩,
  ⟨0x80, 0x0, 1, 0x0, 0x0, true, 0x0, 0x0, []⟩,
  ⟨0x88, 0x0, 1, 0x0, 0x0, true, 0x0, 0x0, []⟩,
  ⟨0x90, 0x0, 1, 0x0, 0x0, false, 0x1, 0x0, []⟩,
  ⟨0x98, 0x0, 1, 0x0, 0x0, false, 0x0, 0x0, []⟩]
/-- The register rows of block `tp` (R317). -/
def rows_tp : List RegRow := rows_tp_0

/-- Part 1 of the register rows of block `cap` (R317). -/
def rows_cap_0 : List RegRow := [
  ⟨0x0, 0x0, 1, 0x1f8, 0x0, false, 0x0, 0x20, []⟩,
  ⟨0x8, 0x0, 1, 0x0, 0x7, false, 0x0, 0x0, []⟩,
  ⟨0x10, 0x0, 1, 0x0, 0x0, false, 0x0, 0x0, []⟩,
  ⟨0x18, 0x0, 1, 0x0, 0x0, false, 0x0, 0x0, []⟩,
  ⟨0x20, 0x0, 1, 0x0, 0x0, true, 0x0, 0x0, []⟩,
  ⟨0x28, 0x0, 1, 0x0, 0x0, true, 0x0, 0x0, []⟩,
  ⟨0x30, 0x0, 1, 0x0, 0x0, false, 0x0, 0x0, []⟩,
  ⟨0x38, 0x0, 1, 0x0, 0x0, false, 0x0, 0x0, []⟩,
  ⟨0x40, 0x0, 1, 0x0, 0x0, false, 0x0, 0x0, []⟩,
  ⟨0x48, 0x0, 1, 0x0, 0x0, true, 0x0, 0x0, []⟩,
  ⟨0x50, 0x0, 1, 0x0, 0x0, true, 0x0, 0xfffffffff, []⟩,
  ⟨0x58, 0x0, 1, 0x0, 0x0, true, 0x0, 0x0, []⟩,
  ⟨0x60, 0x0, 1, 0x0, 0x0, false, 0x0, 0x0, []⟩,
  ⟨0x68, 0x0, 1, 0x0, 0x0, false, 0x0, 0x0, []⟩]
/-- The register rows of block `cap` (R317). -/
def rows_cap : List RegRow := rows_cap_0

/-- Part 1 of the register rows of block `oss` (R298). -/
def rows_oss_0 : List RegRow := [
  ⟨0x0, 0x0, 1, 0x3fffff, 0x0, false, 0x0, 0x20140, [.range 21 14 4 255, .oneOf 11 5 [1, 2, 4, 5, 10, 20, 25, 50, 100], .oneOf 4 3 [0, 1, 2], .oneOf 2 1 [0, 1]]⟩,
  ⟨0x8, 0x0, 1, 0x3fffffff, 0x0, false, 0x0, 0x18000000, []⟩,
  ⟨0x10, 0x0, 1, 0xffffff, 0x0, false, 0x0, 0x8000, []⟩,
  ⟨0x18, 0x0, 1, 0xfffffffff, 0x0, false, 0x0, 0x0, []⟩,
  ⟨0x20, 0x0, 1, 0xffffff, 0x0, false, 0x0, 0x0, []⟩,
  ⟨0x28, 0x0, 1, 0xffffff, 0x0, false, 0x0, 0xffff, []⟩,
  ⟨0x30, 0x0, 1, 0xffffff, 0x0, false, 0x0, 0x8000, []⟩,
  ⟨0x38, 0x0, 1, 0x0, 0x0, false, 0x0, 0x0, []⟩,
  ⟨0x40, 0x0, 1, 0x0, 0x0, false, 0x0, 0x0, []⟩,
  ⟨0x48, 0x0, 1, 0x0, 0x7, false, 0x0, 0x0, []⟩,
  ⟨0x50, 0x0, 1, 0x0, 0x0, true, 0x0, 0x0, []⟩,
  ⟨0x58, 0x0, 1, 0x0, 0x0, true, 0x0, 0x0, []⟩,
  ⟨0x60, 0x0, 1, 0x0, 0x0, false, 0x0, 0x0, []⟩]
/-- The register rows of block `oss` (R298). -/
def rows_oss : List RegRow := rows_oss_0

/-- Part 1 of the register rows of block `cal` (R348). -/
def rows_cal_0 : List RegRow := [
  ⟨0x0, 0x0, 1, 0x1f, 0x0, false, 0x0, 0x0, []⟩,
  ⟨0x8, 0x0, 1, 0x0, 0x0, false, 0x0, 0x0, []⟩,
  ⟨0x10, 0x0, 1, 0x0, 0xf, false, 0x0, 0x0, []⟩,
  ⟨0x18, 0x0, 1, 0xfff, 0x0, false, 0x0, 0xffe, []⟩,
  ⟨0x20, 0x0, 1, 0x0, 0x0, false, 0x0, 0x0, []⟩,
  ⟨0x28, 0x0, 1, 0x0, 0x0, true, 0x0, 0x0, []⟩,
  ⟨0x30, 0x0, 1, 0x0, 0x0, true, 0x0, 0x0, []⟩,
  ⟨0x38, 0x0, 1, 0x3fff, 0x0, false, 0x0, 0x32, [.range 13 0 1 10000]⟩]
/-- The register rows of block `cal` (R348). -/
def rows_cal : List RegRow := rows_cal_0

/-- Part 1 of the register rows of block `caln` (R348). -/
def rows_caln_0 : List RegRow := [
  ⟨0x0, 0x0, 1, 0x0, 0x0, false, 0x3, 0x0, []⟩,
  ⟨0x8, 0x0, 1, 0x0, 0x0, false, 0x0, 0x143000, []⟩,
  ⟨0x10, 0x0, 1, 0x0, 0x0, false, 0x0, 0x0, []⟩,
  ⟨0x18, 0x0, 1, 0x0, 0x7f, false, 0x0, 0x0, []⟩,
  ⟨0x20, 0x0, 1, 0x0, 0x0, false, 0x0, 0x3ff, []⟩,
  ⟨0x28, 0x0, 1, 0x0, 0x0, false, 0x0, 0x0, []⟩,
  ⟨0x30, 0x0, 1, 0x0, 0x0, false, 0x0, 0x0, []⟩,
  ⟨0x38, 0x0, 1, 0x0, 0x0, false, 0x0, 0x182800000, []⟩,
  ⟨0x40, 0x0, 1, 0x0, 0x0, false, 0x0, 0x0, []⟩,
  ⟨0x48, 0x0, 1, 0x0, 0x0, false, 0x0, 0x0, []⟩,
  ⟨0x50, 0x0, 1, 0x0, 0x0, false, 0x0, 0x0, []⟩,
  ⟨0x58, 0x0, 1, 0x0, 0x0, false, 0x0, 0x0, []⟩,
  ⟨0x60, 0x0, 1, 0x0, 0x0, false, 0x0, 0x0, []⟩,
  ⟨0x68, 0x0, 1, 0x0, 0x0, false, 0x0, 0x0, []⟩,
  ⟨0x70, 0x0, 1, 0x0, 0x0, false, 0x0, 0x0, []⟩,
  ⟨0x78, 0x0, 1, 0x0, 0x0, true, 0x0, 0x0, []⟩,
  ⟨0x80, 0x0, 1, 0x0, 0x0, true, 0x0, 0x0, []⟩,
  ⟨0x88, 0x0, 1, 0x0, 0x0, true, 0x0, 0x0, []⟩,
  ⟨0x90, 0x0, 1, 0x0, 0x0, false, 0x0, 0x0, []⟩,
  ⟨0x98, 0x0, 1, 0x0, 0x0, false, 0x0, 0x0, []⟩,
  ⟨0xa0, 0x0, 1, 0x0, 0x0, false, 0x0, 0x0, []⟩,
  ⟨0xa8, 0x0, 1, 0x0, 0x0, false, 0x0, 0x0, []⟩,
  ⟨0xb0, 0x0, 1, 0x0, 0x0, false, 0x0, 0x0, []⟩,
  ⟨0xb8, 0x0, 1, 0x0, 0x0, false, 0x0, 0x0, []⟩]
/-- Part 2 of the register rows of block `caln` (R348). -/
def rows_caln_1 : List RegRow := [
  ⟨0xc0, 0x8, 4, 0x0, 0x0, false, 0x0, 0x0, []⟩,
  ⟨0xe0, 0x0, 1, 0x7f, 0x0, false, 0x0, 0x0, []⟩,
  ⟨0xe8, 0x0, 1, 0x0, 0x0, false, 0x0, 0x0, []⟩]
/-- The register rows of block `caln` (R348). -/
def rows_caln : List RegRow := rows_caln_0 ++ rows_caln_1

/-- Part 1 of the register rows of block `obs` (R268). -/
def rows_obs_0 : List RegRow := [
  ⟨0x0, 0x0, 1, 0x0, 0x0, false, 0x0, 0x6, []⟩,
  ⟨0x8, 0x0, 1, 0x1f1f1f, 0x0, false, 0x0, 0x0, []⟩,
  ⟨0x10, 0x0, 1, 0xff, 0x0, false, 0x0, 0x1, [.range 7 0 1 255]⟩,
  ⟨0x18, 0x0, 1, 0x0, 0x3f, false, 0x0, 0x0, []⟩,
  ⟨0x20, 0x0, 1, 0x0, 0x0, false, 0x0, 0x0, []⟩,
  ⟨0x28, 0x0, 1, 0x0, 0x0, false, 0x0, 0x0, []⟩,
  ⟨0x30, 0x0, 1, 0x0, 0x0, false, 0x0, 0x0, []⟩,
  ⟨0x38, 0x0, 1, 0x0, 0x0, false, 0x0, 0x0, []⟩,
  ⟨0x40, 0x0, 1, 0x0, 0x0, false, 0x0, 0x0, []⟩,
  ⟨0x48, 0x0, 1, 0x0, 0x0, false, 0x0, 0x0, []⟩,
  ⟨0x50, 0x0, 1, 0x0, 0x0, false, 0x0, 0x0, []⟩,
  ⟨0x58, 0x0, 1, 0x0, 0x0, true, 0x0, 0x0, []⟩,
  ⟨0x60, 0x0, 1, 0x0, 0x0, true, 0x0, 0x0, []⟩,
  ⟨0x68, 0x0, 1, 0x0, 0x0, true, 0x0, 0x0, []⟩,
  ⟨0x70, 0x0, 1, 0x0, 0x0, true, 0x0, 0x0, []⟩,
  ⟨0x78, 0x0, 1, 0x0, 0x0, true, 0x0, 0x0, []⟩,
  ⟨0x80, 0x0, 1, 0x0, 0x0, true, 0x0, 0x0, []⟩,
  ⟨0x88, 0x0, 1, 0x0, 0x0, true, 0x0, 0x0, []⟩,
  ⟨0x90, 0x0, 1, 0xf, 0x0, false, 0x0, 0xf, []⟩,
  ⟨0x98, 0x0, 1, 0x0, 0x0, false, 0x0, 0x0, []⟩]
/-- The register rows of block `obs` (R268). -/
def rows_obs : List RegRow := rows_obs_0

/-- Part 1 of the register rows of block `sol` (R298). -/
def rows_sol_0 : List RegRow := [
  ⟨0x100, 0x0, 1, 0x0, 0x0, false, 0x0, 0x1805187f, []⟩,
  ⟨0x108, 0x0, 1, 0x0, 0x0, false, 0x0, 0x14783e800, []⟩,
  ⟨0x110, 0x0, 1, 0x0, 0x0, false, 0x0, 0x7d00000, []⟩,
  ⟨0x118, 0x0, 1, 0x0, 0x0, false, 0x0, 0x0, []⟩,
  ⟨0x120, 0x0, 1, 0x0, 0x7f, false, 0x0, 0x0, []⟩,
  ⟨0x128, 0x0, 1, 0x1f, 0x0, false, 0x0, 0x0, []⟩,
  ⟨0x130, 0x0, 1, 0x0, 0x0, false, 0x0, 0x0, []⟩,
  ⟨0x138, 0x0, 1, 0x0, 0x0, false, 0x0, 0x2, []⟩,
  ⟨0x140, 0x0, 1, 0x0, 0x0, false, 0x0, 0x0, []⟩,
  ⟨0x148, 0x0, 1, 0x0, 0x0, false, 0x0, 0x0, []⟩,
  ⟨0x150, 0x0, 1, 0x0, 0x0, false, 0x0, 0x0, []⟩,
  ⟨0x158, 0x0, 1, 0x0, 0x0, false, 0x0, 0x0, []⟩,
  ⟨0x160, 0x0, 1, 0x0, 0x0, false, 0x0, 0x0, []⟩,
  ⟨0x168, 0x0, 1, 0x0, 0x0, false, 0x0, 0x0, []⟩,
  ⟨0x170, 0x0, 1, 0x0, 0x0, false, 0x0, 0x0, []⟩,
  ⟨0x178, 0x0, 1, 0x0, 0x0, false, 0x0, 0x0, []⟩,
  ⟨0x180, 0x0, 1, 0x0, 0x0, false, 0x0, 0x0, []⟩,
  ⟨0x188, 0x0, 1, 0x0, 0x0, false, 0x0, 0x0, []⟩,
  ⟨0x190, 0x0, 1, 0x0, 0x0, false, 0x0, 0x0, []⟩,
  ⟨0x198, 0x0, 1, 0x0, 0x0, false, 0x0, 0x0, []⟩,
  ⟨0x1a0, 0x0, 1, 0x0, 0x0, false, 0x0, 0x0, []⟩,
  ⟨0x1a8, 0x0, 1, 0x0, 0x0, true, 0x0, 0x0, []⟩,
  ⟨0x1b0, 0x0, 1, 0x0, 0x0, true, 0x0, 0x0, []⟩,
  ⟨0x1b8, 0x0, 1, 0x0, 0x0, true, 0x0, 0x0, []⟩]
/-- Part 2 of the register rows of block `sol` (R298). -/
def rows_sol_1 : List RegRow := [
  ⟨0x1c0, 0x0, 1, 0x0, 0x0, true, 0x0, 0x0, []⟩,
  ⟨0x1c8, 0x0, 1, 0x0, 0x0, true, 0x0, 0x0, []⟩,
  ⟨0x1d0, 0x0, 1, 0x0, 0x0, true, 0x0, 0x0, []⟩,
  ⟨0x1d8, 0x0, 1, 0x7ff, 0x0, false, 0x0, 0x7ff, []⟩,
  ⟨0x200, 0x18, 16, 0x0, 0x0, false, 0x0, 0x0, []⟩,
  ⟨0x208, 0x18, 16, 0x0, 0x0, false, 0x0, 0x0, []⟩,
  ⟨0x210, 0x18, 16, 0x0, 0x0, false, 0x0, 0x0, []⟩]
/-- The register rows of block `sol` (R298). -/
def rows_sol : List RegRow := rows_sol_0 ++ rows_sol_1

/-- Part 1 of the register rows of block `wg` (R220). -/
def rows_wg_0 : List RegRow := [
  ⟨0x0, 0x0, 1, 0x0, 0x0, false, 0x3, 0x0, []⟩,
  ⟨0x8, 0x0, 1, 0x0, 0x0, false, 0x0, 0x0, []⟩,
  ⟨0x10, 0x0, 1, 0x0, 0x7f, false, 0x0, 0x0, []⟩,
  ⟨0x18, 0x0, 1, 0x3ff01, 0x0, false, 0x0, 0x1, [.range 17 8 0 512]⟩,
  ⟨0x20, 0x0, 1, 0x0, 0x0, false, 0x0, 0x0, []⟩,
  ⟨0x28, 0x0, 1, 0x0, 0x0, false, 0x0, 0x0, []⟩,
  ⟨0x30, 0x0, 1, 0x0, 0x0, true, 0x0, 0x0, []⟩,
  ⟨0x38, 0x0, 1, 0x0, 0x0, false, 0x0, 0x0, []⟩,
  ⟨0x40, 0x0, 1, 0x0, 0x0, true, 0x0, 0x0, []⟩,
  ⟨0x48, 0x0, 1, 0x0, 0x0, true, 0x0, 0x0, []⟩,
  ⟨0x50, 0x0, 1, 0x0, 0x0, true, 0x0, 0x0, []⟩,
  ⟨0x58, 0x0, 1, 0x0, 0x0, true, 0x0, 0x0, []⟩,
  ⟨0x60, 0x0, 1, 0x0, 0x0, true, 0x0, 0x0, []⟩,
  ⟨0x68, 0x0, 1, 0x0, 0x0, true, 0x0, 0x0, []⟩,
  ⟨0x70, 0x0, 1, 0x0, 0x0, true, 0x0, 0x0, []⟩,
  ⟨0x78, 0x0, 1, 0x0, 0x0, true, 0x0, 0x0, []⟩,
  ⟨0x80, 0x0, 1, 0x0, 0x0, true, 0x0, 0x0, []⟩,
  ⟨0x88, 0x0, 1, 0x7ff, 0x0, false, 0x0, 0x3ff, []⟩,
  ⟨0x90, 0x0, 1, 0x0, 0x0, false, 0x0, 0x0, []⟩,
  ⟨0x98, 0x0, 1, 0x0, 0x0, true, 0x0, 0x0, []⟩,
  ⟨0xa0, 0x0, 1, 0x0, 0x0, false, 0x0, 0x0, []⟩,
  ⟨0xa8, 0x0, 1, 0x0, 0x0, false, 0x0, 0x0, []⟩,
  ⟨0xb0, 0x0, 1, 0x0, 0x0, false, 0x0, 0x0, []⟩,
  ⟨0xb8, 0x0, 1, 0x0, 0x0, false, 0x0, 0x0, []⟩]
/-- Part 2 of the register rows of block `wg` (R220). -/
def rows_wg_1 : List RegRow := [
  ⟨0xc0, 0x0, 1, 0x0, 0x0, false, 0x0, 0x0, []⟩,
  ⟨0xc8, 0x0, 1, 0x0, 0x0, true, 0x0, 0x0, []⟩,
  ⟨0xd0, 0x0, 1, 0x0, 0x0, true, 0x0, 0x0, []⟩,
  ⟨0xd8, 0x0, 1, 0x0, 0x0, true, 0x0, 0x0, []⟩,
  ⟨0x100, 0x8, 4, 0x0, 0x0, false, 0x0, 0x0, []⟩,
  ⟨0x120, 0x8, 4, 0x0, 0x0, false, 0x0, 0x0, []⟩,
  ⟨0x140, 0x8, 4, 0x0, 0x0, false, 0x0, 0x0, []⟩,
  ⟨0x160, 0x8, 4, 0x0, 0x0, false, 0x0, 0x0, []⟩,
  ⟨0x180, 0x8, 16, 0x0, 0x0, true, 0x0, 0x0, []⟩,
  ⟨0x400, 0x8, 128, 0x0, 0x0, false, 0x0, 0x0, []⟩]
/-- The register rows of block `wg` (R220). -/
def rows_wg : List RegRow := rows_wg_0 ++ rows_wg_1

/-- The rows of a template. -/
def rowsOf : Blk → List RegRow
  | .glb => rows_glb | .hif => rows_hif | .cur => rows_cur | .sens => rows_sens | .syn => rows_syn | .lo => rows_lo
  | .fe => rows_fe | .chz => rows_chz | .acq => rows_acq | .half => rows_half | .mem => rows_mem | .bank => rows_bank
  | .ring => rows_ring | .tpc => rows_tpc | .tp => rows_tp | .cap => rows_cap | .oss => rows_oss | .cal => rows_cal
  | .caln => rows_caln | .obs => rows_obs | .sol => rows_sol | .wg => rows_wg

/-- A register found: its template, the unit, and the row with the instance number. -/
structure RegLoc where
  blk : Blk
  unit : Nat
  row : RegRow
  inst : Nat
deriving DecidableEq, Repr

/-- The template, unit and offset in the template of a BAR0 byte offset (R512, R522); a hole gives none. -/
def blkOf (o : Nat) : Option (Blk × Nat × Nat) :=
  if o < 0x800 then some (.glb, 0, o)
  else if o < 0x1000 then some (.hif, 0, o - 0x800)
  else if o < 0x1200 then some (.cur, 0, o - 0x1000)
  else if o < 0x2000 then some (.sens, (o - 0x1200) / 0x18, (o - 0x1200) % 0x18)
  else if o < 0x2200 then some (.syn, 0, o - 0x2000)
  else if o < 0x2A00 then some (.lo, (o - 0x2200) / 0x100, (o - 0x2200) % 0x100)
  else if o < 0x3000 then none
  else if o < 0x4000 then some (.fe, (o - 0x3000) / 0x400, (o - 0x3000) % 0x400)
  else if o < 0x5000 then some (.chz, (o - 0x4000) / 0x400, (o - 0x4000) % 0x400)
  else if o < 0x5100 then some (.acq, 0, o - 0x5000)
  else if o < 0x5200 then some (.half, (o - 0x5100) / 0x80, (o - 0x5100) % 0x80)
  else if o < 0x6000 then some (.acq, 0, o - 0x5000)
  else if o < 0x6100 then some (.mem, 0, o - 0x6000)
  else if o < 0x6D00 then some (.bank, (o - 0x6100) / 0xC0, (o - 0x6100) % 0xC0)
  else if o < 0x7000 then none
  else if o < 0x8000 then some (.ring, (o - 0x7000) / 0x80, (o - 0x7000) % 0x80)
  else if o < 0x8100 then some (.tpc, 0, o - 0x8000)
  else if o < 0x8500 then some (.tp, (o - 0x8100) / 0x100, (o - 0x8100) % 0x100)
  else if o < 0x8600 then none
  else if o < 0x8800 then some (.cap, (o - 0x8600) / 0x80, (o - 0x8600) % 0x80)
  else if o < 0x8E00 then none
  else if o < 0x9000 then some (.oss, 0, o - 0x8E00)
  else if o < 0x9100 then some (.cal, 0, o - 0x9000)
  else if o < 0x9500 then some (.caln, (o - 0x9100) / 0x100, (o - 0x9100) % 0x100)
  else if o < 0xA000 then none
  else if o < 0xA100 then some (.obs, 0, o - 0xA000)
  else if o < 0xB000 then some (.sol, 0, o - 0xA000)
  else if o < 0x10000 then none
  else if o < 0x20000 then some (.wg, (o - 0x10000) / 0x1000, (o - 0x10000) % 0x1000)
  else none

/-- Does template offset `o` name an instance of this row? -/
def RegRow.hit (r : RegRow) (o : Nat) : Bool :=
  if r.stride = 0 then o == r.off
  else decide (r.off ≤ o) && (o - r.off) % r.stride == 0 && decide ((o - r.off) / r.stride < r.cnt)

/-- The register at a BAR0 byte offset; none is an undefined offset (R512, R513). -/
def regAt (o : Nat) : Option RegLoc :=
  if o % 8 ≠ 0 then none else
  match blkOf o with
  | none => none
  | some (b, u, t) =>
    if b = .sens ∧ 46 < u then none else
    match (rowsOf b).find? (fun r => r.hit t) with
    | none => none
    | some r => some ⟨b, u, r, if r.stride = 0 then 0 else (t - r.off) / r.stride⟩

/-- Warning and reset levels of the supply sensors, mV (R495): CUR_S*i*_CFG holds warning in [23:12], reset in [11:0].
Sensor 23 (VDD_IOB) holds its 1.8 V row until the release of the power-on reset chooses (R496). -/
def supplyLevels (i : Nat) : Nat × Nat :=
  if i < 12 then (0, 0) else if i < 16 then (680, 620) else if i < 18 then (740, 700) else if i < 20 then (1120, 1050)
  else if i < 24 then (1680, 1600) else if i = 24 then (840, 800) else if i = 25 then (1680, 1600) else (0, 0)

/-- Offset and register count of the blocks of R512, for GLB_BLKMAP (R518). -/
def blkMap : List (Nat × Nat) :=
  [(0x0, 64), (0x800, 96), (0x1000, 192), (0x2000, 320), (0x3000, 480), (0x4000, 480), (0x5000, 192), (0x6000, 352),
   (0x7000, 448), (0x8000, 160), (0x9000, 128), (0xA000, 96), (0x10000, 3008)]

/-- The reset value of the register at a BAR0 offset, where it differs from unit to unit. -/
def regResetAt (l : RegLoc) : Nat :=
  match l.blk with
  | .bank => if l.row.off = 0 ∧ l.unit = 15 then 2 else l.row.reset
  | .ring => if l.row.off = 0x10 then (if l.unit = 0 then 0x6800 else if l.unit = 1 then 0x26800 else if l.unit = 2 then 0x4A000 else 0)
             else l.row.reset
  | .caln => if l.row.off = 0x08 then 0x143000 + 0x8000 * l.unit else l.row.reset
  | .sens => if l.row.off = 0x10 then (supplyLevels l.unit).1 * 4096 + (supplyLevels l.unit).2 else l.row.reset
  | .glb => if l.row.off = 0x200 then
        (match blkMap[l.inst]? with | some (o, n) => o * 524288 + n * 64 + 1 | none => 0)
      else l.row.reset
  | _ => l.row.reset

/-- What a register reads as when nothing has changed it since reset; zero at an undefined offset (R513). -/
def regReset (o : Nat) : Word :=
  match regAt o with
  | none => 0#36
  | some l => wd (regResetAt l)

/-- R515: the value lies in every range and among every list of values its register states. -/
def rulesOk (rules : List FieldRule) (v : Word) : Bool :=
  rules.all fun
    | .range hi lo mn mx => decide (mn ≤ fld v hi lo ∧ fld v hi lo ≤ mx)
    | .oneOf hi lo vs => vs.contains (fld v hi lo)

end Sys2Proof.Machine
end

