-- ==== Sys2Proof/Machine/RfTypes.lean ====
section
/-! DEFINITION. RfTypes.lean: the hidden state of synthesis, front ends, channelisers and calibration units (R66 to
R147, R318 to R348). -/

namespace Sys2Proof.Machine

/-! ## Synthesis (R99 to R120) -/

/-- An unlock episode in progress (R111): its start, e_before in 2^-8 tick, what it has included,
and whether R113 has declared it. -/
structure Episode where
  start : Dt
  startN : Nat
  eBefore : Int
  refLost : Bool
  clkAbsent : Bool
  declared : Bool
deriving DecidableEq, Repr

/-- The sample synthesiser beyond its registers: LOCKED since power-on, the episode, the sample clock declared absent,
the sample cycle of the last entry to LOCKED, the cycle at which the loop last closed, the cycle at which
qualification may next count a window (R108), and the episodes ended, newest first: the sample cycle of the end, SYN_DISC_CNT
from it on, and the step S (R112, R114). -/
structure SmpSt where
  everLocked : Bool
  epi : Option Episode
  absent : Bool
  lockedN : Nat
  closedN : Nat
  qualN : Nat
  ended : List (Nat × Nat × Int)
deriving DecidableEq, Repr

/-- The idle value of SmpSt. -/
def SmpSt.idle : SmpSt := ⟨false, none, false, 0, 0, 0, []⟩

/-- The comparisons of a synthesiser (R105): how many in a row lay within WIN and the error of the first of them, how many in a row
lay beyond it, and the error of the last comparison, in 2^-8 tick. -/
structure PllSt where
  good : Nat
  first : Int
  bad : Nat
  last : Int
deriving DecidableEq, Repr

/-- The idle value of PllSt. -/
def PllSt.idle : PllSt := ⟨0, 0, 0, 0⟩

/-- A ramp generator (R117 to R119): armed start DT, active, running backwards, first cycle of the segment in
progress, and the update point at which RAMP_STOP ends it. -/
structure RampSt where
  armed : Option Dt
  active : Bool
  back : Bool
  segN : Nat
  stopN : Option Nat
deriving DecidableEq, Repr

/-- The idle value of RampSt. -/
def RampSt.idle : RampSt := ⟨none, false, false, 0, none⟩

/-! ## Front ends (R66 to R98) -/

/-- A calibration run (R83 to R86): steps left, done and failed masks, whether it is the start-up run, suspension
cycles so far and the open suspension, the tuner codes before the run, the cycle at which the step began, whether the
step is being repeated, and whether step 5 has ended. -/
structure CalRun where
  left : List Nat
  done : Nat
  failed : Nat
  startup : Bool
  susp : Nat
  suspN : Option Nat
  tuner : Nat
  stepN : Nat
deriving DecidableEq, Repr

/-- Aerial bias (R79 to R81), timed by its samples, one every 10 µs: the switch, samples since the last switch-on, consecutive
samples above LIMIT, below 2 mA, and at or above 2 mA, the short history newest first, the retry due, and forced low until the host
sets EN. -/
structure BiasSt where
  on : Bool
  onCnt : Nat
  overCnt : Nat
  lowCnt : Nat
  okCnt : Nat
  shorts : List Dt
  retryAt : Option Dt
  forced : Bool
deriving DecidableEq, Repr

/-- The idle value of BiasSt. -/
def BiasSt.off : BiasSt := ⟨false, 0, 0, 0, 0, [], none, false⟩

/-- A stream-point sample in the pipeline: its sample cycle, its codes, its tags (bit 3 U, 2 C, 1 G, 0 B; R133), whether its G tag
comes only from a loud sweep of the front end (R337), the ADC codes it was made from, and how many of them were clipped. -/
structure PipeS where
  n : Nat
  i : Int
  q : Int
  tags : Nat
  own : Bool
  ai : Int
  aq : Int
  clip : Nat
deriving DecidableEq, Repr

/-- An entry of the tag-run table (R135): its first and last cycle, its tag bits, and the tags of the run that it last took, whose
next sample extends it. -/
structure TagRun where
  a : Nat
  z : Nat
  bits : Nat
  cur : Nat
deriving DecidableEq, Repr

/-- Sums over an AGC block (R71, R73, R136): untagged samples, sums of squares and sums of I and Q, clipped values,
blanked samples and samples in all. -/
structure BlkSums where
  cnt : Nat
  ssI : Nat
  ssQ : Nat
  smI : Int
  smQ : Int
  clip : Nat
  blanked : Nat
  all : Nat
deriving DecidableEq, Repr

/-- The idle value of BlkSums. -/
def BlkSums.zero : BlkSums := ⟨0, 0, 0, 0, 0, 0, 0, 0⟩

/-- A sample waiting for its stream block: its cycle, its payload bytes, the run kinds it carries (bit 3 U, 2 C, 1 G, 0 B;
R141), and SYN_DISC_CNT when it was taken. -/
structure StrS where
  n : Nat
  bytes : List Nat
  kinds : Nat
  disc : Nat
deriving DecidableEq, Repr

/-- A stream to the host (R140 to R142): running, the cycle from which its first block may begin, whether a block has begun since the
samples last started, the samples not yet sent (newest first), DROP due, and blocks dropped since the last event 0x304. -/
structure StreamSt where
  on : Bool
  firstN : Nat
  going : Bool
  q : List StrS
  drop : Bool
  dropped : Nat
deriving DecidableEq, Repr

/-- The idle value of StreamSt. -/
def StreamSt.idle : StreamSt := ⟨false, 0, false, [], false, 0⟩

/-- A tap (R124 to R139): its regions in order of the buffer, tap samples of the present block with X = 0 and in all and the sum of
their scaled squares (`tapValue`), those of the block just ended, SCALE values due with their sample cycles, the first and the newest
sample cycle written, the instant at which it stopped, its stream and the tap-stream SEQ, and the spans of sample cycles whose samples
were lost with a retired region (R139). -/
structure TapSt where
  regions : List Nat
  used : Nat
  all : Nat
  ss : Nat
  usedL : Nat
  allL : Nat
  ssL : Nat
  scales : List (Nat × Nat)
  firstN : Nat
  newest : Option Nat
  stopN : Option Nat
  strm : StreamSt
  seq : Word
  lost : List (Nat × Nat)
deriving DecidableEq, Repr

/-- The idle value of TapSt. -/
def TapSt.off : TapSt := ⟨[], 0, 0, 0, 0, 0, 0, [], 0, none, none, .idle, 0, []⟩

/-- A notch (R137): an engagement due (cycle, frequency, level), a release due, quiet blocks in a row, blocks
engaged, and the memory of its filter and gradient loop. -/
structure NotchSt where
  engage : Option (Nat × Word × Nat)
  release : Option Nat
  quiet : Nat
  blocks : Nat
  mem : List Int
deriving DecidableEq, Repr

/-- The idle value of NotchSt. -/
def NotchSt.idle : NotchSt := ⟨none, none, 0, 0, []⟩

/-- Replayed samples waiting to be written: the first one's cycle, how many alike follow one another (a filled gap), their tap
(16 for the stream point), codes and tags. -/
structure RepS where
  n : Nat
  len : Nat
  tap : Nat
  i : Int
  q : Int
  tags : Nat
deriving DecidableEq, Repr

/-- Replay (R143 to R145): samples waiting, oldest first, and the cycle expected next on each tap (key 16 for the
stream point), whether it is paused, the SEQ of the last block, the cycle of sample time that tap-point replay writes next, and the
cause and tap of a block at which replay stops once the samples before it are written. -/
structure ReplaySt where
  buf : List RepS
  expect : List (Nat × Nat)
  paused : Bool
  lastSeq : Word
  now : Nat
  bad : Option (Nat × Nat)
deriving DecidableEq, Repr

/-- The idle value of ReplaySt. -/
def ReplaySt.idle : ReplaySt := ⟨[], [], false, 0, 0, none⟩

/-! ## Calibration units (R318 to R348) -/

/-- A sweep in progress (R335 to R337): loud, its first cycle, the cycle after its last, SW_OFS, slope, and the prompt sums of its 1 ms
blocks, newest first: number, I and Q. -/
structure SweepSt where
  loud : Bool
  startN : Nat
  endN : Nat
  ofs : Int
  slope : Nat
  blks : List (Nat × Int × Int)
deriving DecidableEq, Repr

/-- A start of injection waiting to be ready (R324, R325): the command as held, the DT of its boundary and its limit in
ms; `from_` is when it became ready. -/
structure InjWait where
  op : Nat
  pk : Packet
  cidx : Nat
  late : Bool
  at_ : Dt
  limit : Nat
deriving DecidableEq, Repr

/-- What a correlator made of a second (R329, R330): enabled, unit and code listened to, valid, r, |C(m)|, the noise, BASE + s × m. -/
structure CcEst where
  en : Bool
  src : Nat
  scode : Nat
  valid : Bool
  r : Int
  peak : Nat
  noise : Nat
  pabs : Int
deriving DecidableEq, Repr

/-- The estimates of a second, kept until sample time k + 2 s (R331, R344): the second, G, whether a used sample carried U, the
fraction used in 2^-12, and the four correlators. -/
structure CalEst where
  sec : Nat
  g : Int
  unlk : Bool
  used : Nat
  cc : List CcEst
deriving DecidableEq, Repr

/-- The calibration unit beyond its registers: the waiting start, N0, the sweep
in progress, the completed sweeps whose tables are due, the table in force, its SW_OFS and its origin, BASE by correlator, BASE changes due, estimate seen since the injection started and
since power-on, the DT second of the last valid estimate and of the injection start for R332, whether this second has
been touched, its used sample cycles, a used sample carried U, the drift event's last DT, the cycle to
which a loud sweep's gap tags reach, the same counts of the second just ended, the sums of R331's G of this second and of
the last with whether this block has had a used sample, the gain code of the block, the second whose estimate is due, the estimates waiting to take effect, BASE by correlator in the second just
ended, the signals already reported outside the table, the second of the last periodic sweep, the phases of the correlators' NCOs in
2^-5 cycle / fs, and the tap sums of the second and of the second just ended, by correlator (R328, R329). -/
structure CalSt where
  wait : Option InjWait
  n0 : Nat
  sweep : Option SweepSt
  tblDue : List SweepSt
  tbl : List Int
  tblOfs : Int
  tblSrc : Nat
  base : List (Nat × Int)
  baseDue : List (Nat × Nat × Int)
  lastM : Nat
  seen : Bool
  everValid : Bool
  noEst : Nat
  noEstSaid : Bool
  touched : Bool
  used : Nat
  unlk : Bool
  driftAt : Option Dt
  gapTo : Nat
  usedL : Nat
  unlkL : Bool
  touchedL : Bool
  gSum : Int
  gCnt : Nat
  gSumL : Int
  gCntL : Nat
  blkUsed : Bool
  gCode : Nat
  due : Option Nat
  est : List CalEst
  baseL : List (Nat × Int)
  outSaid : List Nat
  sweepSec : Option Nat
  ph : List (Nat × Nat)
  sums : List (Nat × List (Int × Int))
  sumsL : List (Nat × List (Int × Int))
deriving DecidableEq, Repr

/-- The idle value of CalSt. -/
def CalSt.idle : CalSt :=
  { wait := none, n0 := 0, sweep := none, tblDue := [], tbl := [], tblOfs := 0, tblSrc := 0,
    base := [], baseDue := [], lastM := 24, seen := false, everValid := false, noEst := 0, noEstSaid := false,
    touched := false, used := 0, unlk := false, driftAt := none, gapTo := 0, usedL := 0, unlkL := false,
    touchedL := true, gSum := 0, gCnt := 0, gSumL := 0, gCntL := 0, blkUsed := false, gCode := 0, due := none,
    est := [], baseL := [], outSaid := [], sweepSec := none, ph := [], sums := [], sumsL := [] }

/-- What the delay applied on a front end depends on beside its tuning (R332): MODE, PATH, INJ_OFS in kHz, D_PATH and L in 2^-4 tick, whether a
valid estimate has been made since power-on, DELAY of the gain code in ticks, the table in force and its SW_OFS. -/
structure DelayIn where
  mode : Nat
  path : Nat
  inj : Int
  dPath : Int
  live : Int
  valid : Bool
  agc : Int
  tbl : List Int
  tblOfs : Int
deriving DecidableEq, Repr

/-- Everything a front end holds beyond its registers: the calibration run, a retry in progress (R29), gap tags owed to
an LO or injection synthesiser that must relock (R116), the cycle of the enable boundary, the mismatch check in progress
(its first cycle, and whether a coexistence request was active), gain codes due with their cycles, the AGC table, bias,
the pipeline of R38 (newest first), samples still to blank (POST), whether the pulse detector is inside a pulse, the
tags of the last 32 stream-point samples, the samples that left the notch filters (newest first: cycle, I and Q in 2^-8 LSB), the
tag-run table (newest first), the sums of the block in progress and of the block completed with its number, the spectrum of the block
in progress and of the block completed (R137), taps, notches, the full-rate stream, replay, the calibration unit, whether the last
return loss lay below WARN (R78), and what the applied delay depended on before its last changes, newest first, with the cycle of each
change (R332). -/
structure RfSt where
  run : Option CalRun
  retry : Bool
  loGap : Bool
  injGap : Bool
  enN : Nat
  check : Option (Nat × Bool)
  codes : List (Nat × Nat)
  agc : List (Nat × Word)
  bias : BiasSt
  pipe : List PipeS
  post : Nat
  inPulse : Bool
  tagHist : List Nat
  clean : List (Nat × Int × Int)
  runs : List TagRun
  blk : BlkSums
  done : Option (Nat × BlkSums)
  spec : List Int
  specL : List Int
  taps : List (Nat × TapSt)
  notch : List (Nat × NotchSt)
  strm : StreamSt
  rep : ReplaySt
  cal : CalSt
  poor : Bool
  delays : List (Nat × DelayIn)
deriving DecidableEq, Repr

/-- The idle value of RfSt. -/
def RfSt.idle : RfSt :=
  ⟨none, false, false, false, 0, none, [], [], .off, [], 0, false, [], [], [], .zero, none, [], [], [], [], .idle, .idle, .idle, false, []⟩

/-- A coexistence pair (R88 to R94): the levels of REQ and GNT at the pins, the first cycle of the next or present
window, whether a window is in progress, whether a request is withheld, the cycle at which REQ is
released after the last window, and the intervals blanked (first cycle, first cycle after; open while none). -/
structure CoexSt where
  req : Bool
  gnt : Bool
  winN : Option Nat
  inWin : Bool
  withheld : Bool
  relN : Nat
  ivs : List (Nat × Option Nat)
deriving DecidableEq, Repr

/-- The idle value of CoexSt. -/
def CoexSt.idle : CoexSt := ⟨false, false, none, false, false, 0, []⟩

end Sys2Proof.Machine
end

