-- ==== Sys2Proof/Machine/WgTypes.lean ====
section
/-! DEFINITION. WgTypes.lean: the hidden state of acquisition, channels, loops, observables, the solution cores and the
timing unit (R148 to R317). -/

namespace Sys2Proof.Machine

/-! ## Channels and loops (R186 to R244) -/

/-- A decoded navigation message awaiting its record (R264): DT of its first symbol, DT of its last symbol's end, length,
CHECK, INVERTED, CORR, message words. -/
structure NavMsg where
  start : Dt
  last : Dt
  len : Nat
  check : Nat
  inverted : Bool
  corr : Nat
  words : List Word
deriving DecidableEq, Repr, Inhabited

/-- What the decoder of a channel gives for one integration, by the system's interface specification (R228, R230, R231, R251): loop-state
word 28 as it becomes, a sign transition after the GLONASS meander is removed, frame sync, the polarity of a preamble, sync
pattern or time mark decoded (inverted or not), messages decoded, a GLONASS slot identified, and the count of code periods from the
week's or day's start to this integration's first sample (decoded here, or from the Catalogue). -/
structure NavOut where
  search : Word
  flip : Bool
  frame : Bool
  half : Option Bool
  msgs : List NavMsg
  slotId : Option Nat
  periods : Option (Bool × Nat)
deriving DecidableEq, Repr, Inhabited

/-- An integration that contributes to the next observable record (R245, R256): number, first cycle and first cycle after it, the
latched slot, carrier phase, position (2^-36 chip), code periods and accumulated carrier phase (2^-36 cycle) at its first sample,
its result buffer, samples in all and excluded, and after processing: done, coasted, loop state, C/N0, lock start, the phase
added by resolved half cycles (2^-36 cycle), whether that happened at this integration, half cycle resolved, loss of lock to
report, TX_AMB. -/
structure Contrib where
  j : Nat
  startN : Nat
  endN : Nat
  slot : List Word
  phi : Nat
  pos : Nat
  per : Nat
  nco : Int
  buf : List Word
  all : Nat
  excl : Nat
  done : Bool
  coast : Bool
  state : Nat
  cn0 : Int
  lockN : Option Nat
  half : Int
  hcNow : Bool
  hcRes : Bool
  lli : Bool
  amb : Nat
deriving DecidableEq, Repr

/-- A CH_MOVE that waits for its boundary (R213, R240): the integration at whose start it happens, and the command to
answer (opcode, entry, ring index, late, DT). -/
structure MoveSt where
  j : Nat
  op : Nat
  pk : Packet
  cidx : Nat
  late : Bool
  at_ : Dt
deriving DecidableEq, Repr

/-- A correlator channel beyond its words of channel state memory. `cond` is 0 FREE, 1 STARTING, 2 RUNNING, 3 WAITING, 4 FREERUN,
5 RETIRED (R220). Identity: `sig` to `acqValid`; `units` held; `prof`, `wide`, `freerun` the settings. Correlator: whether
the assignment has entered, its grid point and order, the integration `j` in progress or to begin, its slot, carrier phase,
position in 2^-36 chip, code periods and accumulated carrier phase at its first sample `nextN`, its end `endN`, the next sample
needed `segN`, the accumulators so far, samples used and excluded, tag kinds met, RANGE, PROF, WIDE and TD of it, and the release
waiting for its boundary. Commands due at an integration: release with its ACTION, configurations in order, move. Loop program: integrations
processed, the I and Q of the prompt of the last one not coasted, parameter set, state (R234), FLL stage, PLL engaged, PLI to be initialised, start of the PULL_MAX interval and of PULL-IN,
flags, filters, and the rest of words 16 to 31 (R242); the search for a boundary (R228): prompt signs, newest first, transition
bins, the last sign, periods searched. Records: the contributing integrations, messages decoded, the slot identified with the
cycle of its decoding, the cycle since which a message is unbroken (R265), and the containing integration of the last record. A
channel that is FREE or retired still holds `units` up to the sample cycle `drainN` (R213, R216). -/
structure Chan where
  cond : Nat
  sig : Nat
  svk : Nat
  fcn : Nat
  fe : Nat
  tap : Nat
  ring : Nat
  tag : Nat
  sched : Bool
  direct : Bool
  prov : Bool
  gen : Word
  acqSeq : Word
  acqValid : Bool
  units : Nat
  prof : Bool
  wide : Bool
  freerun : Bool
  entered : Bool
  entryN : Nat
  order : Nat
  j : Nat
  running : Bool
  slot : List Word
  phi : Nat
  pos : Nat
  per : Nat
  nco : Int
  nextN : Nat
  endN : Nat
  segN : Nat
  accs : List (Int × Int)
  used : Nat
  excl : Nat
  kinds : Nat
  range : Bool
  runProf : Bool
  runWide : Bool
  runTd : Bool
  lastProf : Bool
  tdLast : Bool
  waited : Bool
  tdSaid : Option Word
  stopAct : Option Nat
  relAt : Option (Nat × Nat)
  cfgAt : List (Nat × Bool × Bool × Bool)
  mv : Option MoveSt
  proc : Nat
  prevP : Option (Int × Int)
  set : Nat
  state : Nat
  fll : Bool
  eng : Bool
  fresh : Bool
  fllN : Nat
  pullN : Nat
  sync : Bool
  noSync : Bool
  frame : Bool
  hcRes : Bool
  hcAdded : Bool
  hcNow : Bool
  lli : Bool
  bwLim : Bool
  hookOff : Bool
  consec : Nat
  bump : Nat
  bumpSide : Bool
  vel : Word
  acc : Word
  dopp0 : Int
  pAvg : Word
  nAvg : Word
  num : Word
  den : Word
  bal : Word
  search : Word
  n30 : Nat
  lockN : Option Nat
  coastN : Option Nat
  weakN : Option Nat
  cn0 : Int
  cjump : Int
  half : Int
  amb : Nat
  week : Bool
  firstRec : Bool
  reported : Bool
  ovr : Bool
  breakN : Nat
  lastCont : Option Nat
  signs : List Int
  bins : List Nat
  prevSign : Int
  searched : Nat
  contribs : List Contrib
  nav : List NavMsg
  idDue : Option (Nat × Nat)
  fb : Option Nat
  drainN : Nat
deriving DecidableEq, Repr

/-- The idle value of Chan. -/
def Chan.free : Chan :=
  { cond := 0, sig := 0, svk := 0, fcn := 0, fe := 0, tap := 0, ring := 0, tag := 0, sched := false, direct := false,
    prov := false, gen := 0, acqSeq := 0, acqValid := false, units := 0, prof := false, wide := false, freerun := false,
    entered := false, entryN := 0, order := 0, j := 0, running := false, slot := [], phi := 0, pos := 0, per := 0, nco := 0,
    nextN := 0, endN := 0, segN := 0, accs := [], used := 0, excl := 0, kinds := 0, range := false, runProf := false,
    runWide := false, runTd := false, lastProf := false, tdLast := false, waited := false, tdSaid := none, stopAct := none,
    relAt := none, cfgAt := [], mv := none, proc := 0, prevP := none, set := 0, state := 0, fll := false, eng := false, fresh := false,
    fllN := 0, pullN := 0, sync := false, noSync := false, frame := false, hcRes := false, hcAdded := false, hcNow := false,
    lli := true, bwLim := false, hookOff := false, consec := 0, bump := 0, bumpSide := false, vel := 0, acc := 0,
    dopp0 := 0, pAvg := 0, nAvg := 0, num := 0, den := 0, bal := 0, search := 0, n30 := 0, lockN := none, coastN := none,
    weakN := none, cn0 := 0, cjump := 0, half := 0, amb := 0, week := false, firstRec := true, reported := false,
    ovr := false, breakN := 0, lastCont := none, signs := [], bins := [], prevSign := 0, searched := 0, contribs := [], nav := [], idDue := none, fb := none, drainN := 0 }

/-- An assignment waiting for its grid point (R209): the channel where it is chosen (the scheduler's is chosen at the grid point), the
parameters (`prim` after a search without secondary alignment, R211), the place of the command that made it, and the TX_AMB it begins with:
with 2, after a direct handover, CODE counts from the start of the week or day (R251). -/
structure Assign where
  n : Nat
  chan : Option Nat
  sig : Nat
  svk : Nat
  fcn : Nat
  fe : Nat
  tap : Nat
  prof : Bool
  wide : Bool
  freerun : Bool
  ring : Nat
  tag : Nat
  sched : Bool
  direct : Bool
  prov : Bool
  code : Nat
  prim : Bool
  dopp : Int
  ref : Dt
  acqSeq : Word
  acqValid : Bool
  order : Nat
  amb : Nat
deriving DecidableEq, Repr

/-- A parameter change of the loop program not yet in force for every channel (R224): set, seven words, effective DT;
`chan` for a LOOP_SELECT. -/
structure LoopChg where
  set : Nat
  chan : Option Nat
  words : List Word
  hook : Option Nat
  at_ : Dt
deriving DecidableEq, Repr

/-- The loop program's device-wide state: parameter sets (seven words by set), default sets by front end, hook entries by
set, pending changes in order, user images by wing (length, CRC), and the hook running on a wing (channel, integration,
ENTRY). -/
structure LoopSt where
  sets : List (Nat × List Word)
  dflt : List (Nat × Nat)
  hooks : List (Nat × Nat)
  chg : List LoopChg
  user : List (Nat × List Word)
  hookRun : List (Nat × (Nat × Nat × Nat))
deriving DecidableEq, Repr

/-- The idle value of LoopSt. -/
def LoopSt.idle : LoopSt := ⟨[], [], [], [], [], []⟩

/-! ## Acquisition (R148 to R185) -/

/-- A snapshot (R154 to R156) beside its descriptor register: first cycle, nominal end, and its shared-store pages (bank × 64 + page), in order. -/
structure Snap where
  startN : Nat
  endN : Nat
  pages : List Nat
deriving DecidableEq, Repr

/-- The idle value of Snap. -/
def Snap.free : Snap := ⟨0, 0, []⟩

/-- A job (R157 to R166), with its snapshot's first sample, pages, tap rate and tap centre (2^-36 Hz). `stage` is 0 admitted, 1 searching, 2
ended and waiting for its turn, 3 with its record written. `half` is the half that began it, 3 for none. `res` is the result record
without SEQ. -/
structure Job where
  seq : Word
  host : Bool
  tag : Nat
  sig : Nat
  svk : Nat
  fcn : Nat
  fe : Nat
  tap : Nat
  prov : Bool
  snap : Nat
  startN : Nat
  pages : List Nat
  rate : Nat
  ftap : Int
  tcoh : Nat
  nnc : Nat
  pfa : Nat
  ring : Nat
  dopp : Int
  span : Nat
  bin : Nat
  code : Nat
  cwin : Nat
  entryN : Nat
  nomEnd : Nat
  cells : Nat
  gen : Word
  age : Nat
  td : Bool
  aged : Bool
  widened : Bool
  stage : Nat
  half : Nat
  status : Nat
  res : List Word
deriving DecidableEq, Repr

/-- What the orbits of the Catalogue predict for a satellite and signal at a front end (R170): code phase and its uncertainty, Doppler, its
rate and its uncertainty, elevation and azimuth, in the units of a plan entry. -/
structure PlanPred where
  code : Nat
  cunc : Nat
  dopp : Int
  drate : Int
  dunc : Nat
  el : Int
  az : Nat
deriving DecidableEq, Repr, Inhabited

/-- An entry of a visibility plan (R170): the combination, what is predicted for it, and its flags: orbit from an ephemeris, healthy,
tracked. -/
structure PlanEnt where
  svk : Nat
  sig : Nat
  fcn : Nat
  fe : Nat
  code : Nat
  cunc : Nat
  dopp : Int
  drate : Int
  dunc : Nat
  el : Int
  az : Nat
  eph : Bool
  health : Bool
  tracked : Bool
deriving DecidableEq, Repr, Inhabited

/-- A plan generation: number, reference sample cycle, the sample cycle from which jobs use it, entries (R171, R172). -/
structure Plan where
  gen : Word
  aN : Nat
  fromN : Nat
  ents : List PlanEnt
deriving DecidableEq, Repr

/-- A plan rebuild: its E_k and A_k, complete, its entries, declared late, and abandoned (R171, R172, R270). -/
structure Rebuild where
  eN : Nat
  aN : Nat
  complete : Bool
  ents : List PlanEnt
  late : Bool
  dead : Bool
deriving DecidableEq, Repr

/-- What a search finds (R151, R162): the largest fraction of excluded samples of a block (2^-12), code phase (2^-12 chip) and Doppler (2^-12 Hz) of the
peak, the normalised peak and second peak (2^-12), and the floor. -/
structure SearchOut where
  excl : Nat
  code : Nat
  dopp : Int
  peak : Nat
  second : Nat
  floorM : Nat
  floorE : Nat
deriving DecidableEq, Repr, Inhabited

/-- The idle value of SearchOut. -/
def SearchOut.none : SearchOut := ⟨0, 0, 0, 0, 0, 0, 0⟩

/-- A fall-back search (R179): its job, its channel, dwells done and dwells in all, start of the dwell in progress, its blocks of T_COH done,
the powers of its profile taps and of its noise correlator so far, the noise powers of the dwells before it and their number, the
cells tested (step from the window start, bin, normalised value), and the largest excluded fraction of a block (2^-12). -/
structure FbSearch where
  job : Job
  chan : Nat
  dwell : Nat
  dwells : Nat
  dwellN : Nat
  blk : Nat
  pows : List Nat
  noise : Nat
  nsum : Nat
  ncnt : Nat
  cells : List (Nat × Int × Nat)
  excl : Nat
deriving DecidableEq, Repr

/-- A candidate that missed (R174 step 2): front end, SIG, SVK, FCN, and the cycle of the search. -/
structure Miss where
  fe : Nat
  sig : Nat
  svk : Nat
  fcn : Nat
  n : Nat
deriving DecidableEq, Repr

/-- Acquisition beyond its registers: jobs in order, snapshots, the latest nominal end, the generation active, the one before it, and the
rebuilds, the last generation number, the sample cycles between which jobs entered carry TD (no end while TD is in force), an extra
rebuild asked for, the generation whose age was reported, the scheduler lists and those due by front end with the tick of each, fall-back
searches, whether fall-back is active and searches completed in it, misses, the state each paused half goes back to, the ticks and the
E_k whose sample time has come and which have not been run, cells below the units of the counters (east, west, all), and the number of
the next assignment record. -/
structure AcqSt where
  jobs : List Job
  snaps : List (Nat × Snap)
  lastEnd : Nat
  plan : Option Plan
  planOld : Option Plan
  rebuilds : List Rebuild
  lastGen : Word
  td : Option (Nat × Option Nat)
  planNow : Bool
  agedSaid : Word
  lists : List (Nat × List Nat)
  listDue : List (Nat × Nat × List Nat)
  fb : List FbSearch
  fbOn : Bool
  fbDone : Nat
  misses : List Miss
  pausedFrom : List (Nat × Nat)
  ticks : List Nat
  eks : List Nat
  cellRem : List (Nat × Nat)
  asgSeq : Word
deriving DecidableEq, Repr

/-- The idle value of AcqSt. -/
def AcqSt.idle : AcqSt :=
  { jobs := [], snaps := [], lastEnd := 0, plan := none, planOld := none, rebuilds := [], lastGen := 0, td := none, planNow := false,
    agedSaid := 0, lists := [], listDue := [], fb := [], fbOn := false, fbDone := 0, misses := [], pausedFrom := [], ticks := [], eks := [],
    cellRem := [], asgSeq := 0 }

/-! ## Observables (R245 to R268) -/

/-- What is behind the observables: settings that wait with the DT from which each applies (R48); the DT of the last epoch closed, and of
the last system epoch its scale and label in ms; the sample cycle from which sample time has run on without a jump (R15); whether the fall-back of R47 is in force; the ring settings still in force for epochs up to a DT, oldest first (R268); and channels released
since the last epoch, each with its number and the cycle of its release. -/
structure ObsSt where
  chg : List (Word × Dt)
  closed : Option Dt
  label : Option (Nat × Int)
  from_ : Nat
  nsa : Bool
  ringsOld : List (Word × Dt)
  gone : List (Nat × Nat × Chan)
deriving DecidableEq, Repr

/-- The idle value of ObsSt. -/
def ObsSt.idle : ObsSt := ⟨[], none, none, 0, false, [], []⟩

/-! ## Solution cores (R269 to R298) -/

/-- A time scale (R279 to R281): available, offset O from DT at `at_` in 2^-4 tick, rate in 2^-48, source (0 measured, 1 propagated, 3
derived), and the leap second pending on a UTC scale or GLONASS time (end of its day in the scale's time, 2^-4 tick, inserted or
deleted). -/
structure ScaleM where
  avail : Bool
  off : Int
  rate : Int
  at_ : Dt
  src : Nat
  leap : Option (Int × Bool)
deriving DecidableEq, Repr, Inhabited

/-- The idle value of ScaleM. -/
def ScaleM.unset : ScaleM := ⟨false, 0, 0, 0, 0, Option.none⟩

/-- A fit of the solution cores (R274) to the pseudoranges and Doppler measurements of the satellites used: position and velocity words,
the offsets measured (scale of the system, O in 2^-4 tick), the weighted sum of squared residuals T in 2^-12 (R275), DRIFT (2^-44), and the
accuracies in the units of the record. -/
structure SolFit where
  pos : List Word
  vel : List Word
  clocks : List (Nat × Int)
  t : Nat
  drift : Int
  pacc : Nat
  tacc : Nat
  pdop : Nat
  tdop : Nat
  facc : Nat
  rms : Nat
deriving DecidableEq, Repr, Inhabited

/-- A solution epoch closed and not yet solved (R271): epoch number, DT, its sample cycle, SYN_DISC_CNT at it, the observable records, and
the interval in sample cycles. -/
structure SolEp where
  num : Nat
  dt : Dt
  cyc : Nat
  disc : Nat
  recs : List (List Word)
  iv : Nat
deriving DecidableEq, Repr

/-- The weighted mean of a static position or a survey (R277, R278): the sum of the weights, the sums of the weighted coordinates (2^-10 m),
and the weighted squares of the accuracies (mm). -/
structure SolMean where
  w : Rat
  p : List Rat
  v : Rat
deriving DecidableEq, Repr

/-- The idle value of SolMean. -/
def SolMean.none : SolMean := ⟨0, [0, 0, 0], 0⟩

/-- A Catalogue entry (R290, R291): SIG, SVK, FCN, the kind of set it replaces, its reference time, whether it is the predecessor of
the set in use, whether it calls its satellite healthy, and its message. A kind of the form 4 i is an ephemeris and clock set, 4 i + 1 an almanac, 4 i + 2 health; the system
parameters are 3 ionosphere, 7 UTC and 11 inter-system offset. -/
structure CatEnt where
  sig : Nat
  svk : Nat
  fcn : Nat
  kind : Nat
  ref : Nat
  pred : Bool
  healthy : Bool
  words : List Word
  len : Nat
deriving DecidableEq, Repr

/-- Parsing of a navigation message for the Catalogue (R290 to R292): whether it passes its check, whether it holds a set, the satellite
and frequency number the set is of, the kind of set, its reference time, and whether it calls the satellite healthy. -/
structure CatParse where
  ok : Bool
  holds : Bool
  svk : Nat
  fcn : Nat
  kind : Nat
  ref : Nat
  healthy : Bool
deriving DecidableEq, Repr, Inhabited

/-- The steering loop (R287, R288): enabled, SCALE, TAU, HOLD_AVG, O_ref (2^-4 tick), i (2^-76 s^2), the epoch of its last step,
codes due with the cycle from which each may be written, and codes written with their cycles, newest first. -/
structure SteerSt where
  en : Bool
  scale : Nat
  tau : Nat
  avg : Nat
  oRef : Option Int
  i : Int
  lastDt : Option Dt
  due : List (Nat × Nat)
  codes : List (Nat × Nat)
deriving DecidableEq, Repr

/-- The idle value of SteerSt. -/
def SteerSt.idle : SteerSt := ⟨false, 0xE, 300, 600, none, 0, none, [], []⟩

/-- The solution cores beyond their registers: time scales, the steering loop, holdover with t0 and the sums of DRIFT over HOLD_AVG
before it, the DRIFT history, the survey, FDE failures in a row in HOLD, the oscillator model, the Catalogue and aiding, a
takeover whose epoch is to be marked, solution epochs closed and not yet solved, the held position, the ends of the episodes whose partial
step is to be resolved (R282), the rate r and presence of the composite scale with the DT of its update, whether there has been a fix
with the accuracy of the last one in mm, the inter-system offsets measured (scale, β in 2^-4 tick; R280), and the mean of R277. -/
structure SolSt where
  scales : List (Nat × ScaleM)
  steer : SteerSt
  holdover : Bool
  everValid : Bool
  t0 : Dt
  tacc0 : Nat
  hSum : Int
  hSq : Int
  hCnt : Nat
  drifts : List (Dt × Int)
  surveyMin : Nat
  surveyMax : Nat
  surveyAcc : Nat
  surveySave : Bool
  surveyFrom : Dt
  fdeRun : Nat
  osc : List Word
  cat : List CatEnt
  timeAid : List Word
  posAid : List Word
  takeover : Bool
  epochs : List SolEp
  held : List Word
  pfdPend : List Nat
  cRate : Int
  cAt : Option Dt
  fixed : Bool
  pacc : Nat
  betas : List (Nat × Int)
  mean : SolMean
deriving DecidableEq, Repr

/-- The idle value of SolSt. -/
def SolSt.idle : SolSt :=
  { scales := [], steer := .idle, holdover := false, everValid := false, t0 := 0, tacc0 := 0, hSum := 0, hSq := 0, hCnt := 0, drifts := [],
    surveyMin := 60, surveyMax := 1440, surveyAcc := 1000, surveySave := false, surveyFrom := 0, fdeRun := 0, osc := [], cat := [], timeAid := [],
    posAid := [], takeover := false, epochs := [], held := [], pfdPend := [], cRate := 0, cAt := none,
    fixed := false, pacc := 0, betas := [], mean := .none }

/-! ## Timing unit (R299 to R317) -/

/-- The offset model of a scale in TPC (R301, R303), with a leap second to come: the end of its day in the scale's own
numbering, 2^-4 tick, and whether it is inserted. -/
structure TModel where
  avail : Bool
  off : Int
  rate : Int
  at_ : Dt
  tacc : Nat
  hold : Bool
  holdS : Nat
  leap : Option (Int × Bool)
deriving DecidableEq, Repr

/-- The idle value of TModel. -/
def TModel.unset : TModel := ⟨false, 0, 0, 0, 0, false, 0, Option.none⟩

/-- A committed leading edge (R302, R305): its label in milliseconds of the scale since its origin, the DT at which it is
emitted and the DT of its schedule, both in 2^-4 tick, whether it is late and whether it is the first of an alignment; the scale, the
leap second to come and the numbering of the label in force at its commitment, the label as a number that grows with the scale, and the
label's two words. -/
structure TEdge where
  label : Int
  at16 : Int
  due16 : Int
  late : Bool
  first : Bool
  scale : Nat
  leap : Option (Int × Bool)
  num : Int
  code : Int
  words : List (BitVec 36)
deriving DecidableEq, Repr

/-- An output beyond its registers (R299 to R309): Δ in 2^-4 tick at `dAt` and whether it slews, since when, the last label
emitted (its period number and milliseconds within it), the committed edge, the trailing edge due and the last one, the
level driven, pulses since RUN, what the next report carries, and whether the sample clock has returned since the last
commit (R307). -/
structure TpSt where
  delta : Int
  dAt : Dt
  slewAt : Dt
  lastLabel : Option Int
  edge : Option TEdge
  trail : Option Int
  lastTrail : Option Int
  level : Bool
  pulses : Word
  first : Bool
  jump : Bool
  step : Bool
  skip : Nat
  stopping : Bool
  returned : Bool
deriving DecidableEq, Repr

/-- The idle value of TpSt. -/
def TpSt.idle : TpSt := ⟨0, 0, 0, none, none, none, none, false, 0, false, false, false, 0, false, false⟩

/-- A stamped edge waiting for its record (R311, R312): the record without SEQ. -/
structure CapEnt where
  words : List Word
deriving DecidableEq, Repr

/-- A capture input beyond its registers: its FIFO, the DT of the last stamped edge in ticks, edges lost since the last
record, edges ignored in dead time not yet reported, the second being counted and its edges, and those of the second
before it; and the configuration that holds for edges before a DT (R311). -/
structure CapSt where
  fifo : List CapEnt
  last : Option Dt
  lost : Nat
  dead : Nat
  sec : Word
  secCnt : Nat
  prevCnt : Nat
  level : Bool
  prev : Option (BitVec 36 × BitVec 72)
deriving DecidableEq, Repr

/-- The idle value of CapSt. -/
def CapSt.idle : CapSt := ⟨[], none, 0, 0, 0, 0, 0, false, none⟩

/-- The timing unit. -/
structure TpcSt where
  models : List (Nat × TModel)
  upd : List (Nat × Dt × List (Nat × TModel))
  outs : List (Nat × TpSt)
  caps : List (Nat × CapSt)
deriving DecidableEq, Repr

/-- The idle value of TpcSt. -/
def TpcSt.idle : TpcSt := ⟨[], [], [], []⟩

end Sys2Proof.Machine

namespace Sys2Proof.Config

/-- The decoding of a channel's symbols by the system's interface specification (R231): from the loop-state words, the result buffer and the
circumstances. -/
opaque navStep : List (BitVec 36) → List (BitVec 36) → List Nat → Machine.NavOut

/-- The block-floating form of loop-state words 23 to 26 (R242): the word for a value, and the value of a word. The spec does not give its
layout. -/
opaque floatWord : Rat → BitVec 36
opaque floatVal : BitVec 36 → Rat

/-- A quotient of the loop program whose divisor is zero, for which the rules state no value: 0 D of R225, 1 cross / dot of R225, 2 the
E/L balance and 3 PLI of R233, 4 p_avg / n_avg of R232; and 5 a
coordinate of the mean of no solution (R278). -/
opaque atZero : Nat → Rat

/-- The phase of a data component's carrier from that of its pilot partner, in turns, that the system's interface specification defines
(R230). -/
opaque partnerPhase : Nat → Rat

/-- The iterated weighted least squares of the solution cores (R273, R274): from the mode (is the position held, is velocity solved), the
held position, t_e and the aiding, and for each satellite used its ephemeris message and ionosphere messages with its transmit time (2^-52
s), its Doppler (fraction of the carrier), σ before its elevation factor (mm), the scale of its clock unknown, and its carriers in Hz (one or
two). The broadcast corrections, the tropospheric model and the orbits are those of the interface specifications R273 names. -/
opaque lsq : List (BitVec 36) → List (List (List (BitVec 36)) × List Rat) → Machine.SolFit

/-- By the interface specification of a message's system: is an ephemeris valid at a DT (R272); a satellite's elevation in degrees from an
ephemeris at a DT and position (R272); the offset of a system's UTC scale from its time in 2^-4 tick, and the leap second announced (end of
its day in that scale's time in 2^-4 tick, inserted or deleted) (R53, R280); the broadcast offset of a system's time from GPS time in
2^-4 tick (R280). -/
opaque ephValid : List (BitVec 36) → List (BitVec 36) → Bool
opaque elev : List (BitVec 36) → List (BitVec 36) → List (BitVec 36) → Rat
opaque utcOf : List (BitVec 36) → List (BitVec 36) → Int
opaque utcLeap : List (BitVec 36) → List (BitVec 36) → Option (Int × Bool)
opaque isbOf : List (BitVec 36) → List (BitVec 36) → Int

/-- The weight of a solution in a mean, by its accuracy in mm (R277); the spec does not give it. -/
opaque meanWeight : Nat → Rat

/-- The parsing of a navigation message of a SIG, SVK and FCN (R291, R292): its words and length. -/
opaque catParse : Nat → Nat → Nat → List (BitVec 36) → Nat → Machine.CatParse

/-- The predictions of a visibility plan (R170): from the Catalogue's messages, for a satellite key, SIG, frequency number and front end at
a sample cycle. The orbit model of each system is that of its interface specification. -/
opaque orbit : List (List (BitVec 36)) → Nat → Nat → Nat → Nat → Nat → Machine.PlanPred

end Sys2Proof.Config
end

