-- ==== Sys2Proof/Machine/State.lean ====
section
/-! DEFINITION. State.lean: everything the spec gives the SLS4620, as plain data, and the state at reset.
Every BAR0 register has its one home in `regs`; the structures below hold what is behind the registers. Tables are
sparse lists in the canonical form of Table.lean: an unlisted key reads as its reset value. -/

namespace Sys2Proof.Machine

/-- What stops the model. Raised by SUPPLY_WARNING when VDD_CORE stands between its reset level and 0.65 V, where
R497 guarantees no result (safe). -/
inductive Fault where
  /-- VDD_CORE above 0.62 V and below 0.65 V: no result is guaranteed and no reset is raised (R497). Safe. -/
  | coreBelowFunctional
deriving DecidableEq, Repr

/-- Why a command has no meaning here. -/
inductive Refusal where
  /-- The command of this mnemonic has no meaning yet. Safe. -/
  | notModelled (mnemonic : String)
  /-- A diagnostic test-port instruction of life-cycle state RETURNED, which R531 puts outside the manual. Raised by
  TCK_EDGE. Safe. -/
  | jtagDiagnostic
deriving DecidableEq, Repr

/-- What the device has sent out, newest first in `State.out`: entries written to host memory, write-backs,
messages, data returned to accesses, console lines, frames. A stream block is a header of words and byte-packed samples (R8, R140). -/
inductive Out where
  | ringEntry (ring idx : Nat) (words : List Word)
  | ringBlock (ring idx : Nat) (header : List Word) (payload : List (BitVec 8))
  | writeBack (ring idx : Nat)
  | msi (vector : Nat)
  | buffer (addr : Nat) (words : List Word)
  | readData (src : Src) (v : Word)
  | readDword (src : Src) (v : BitVec 32)
  | readBytes (src : Src) (n v : Nat)
  | poisoned
  | spiData (stat : Nat) (v : Word)
  | spiStatus (b : BitVec 8)
  | spiIgnored
  | aer
  | console (words : List Word)
  | oss (len bits : Nat)
  | tdo (b : Bool)
deriving DecidableEq, Repr

/-! ## Apone cores (R350, R368) -/

/-- A product in flight: instructions completed since its issue, whether it accumulates, and its value (R355). -/
structure Product where
  age : Nat
  mac : Bool
  val : BitVec 72
deriving DecidableEq, Repr

/-- The architectural and hidden state of one Apone core. -/
structure ApCore where
  started : Bool
  stopped : Bool
  waiting : Bool
  w : List (Nat × Word)
  p0 : Word
  p1 : Word
  p2 : Word
  p3 : Word
  pc : Addr24
  rs : List (Nat × Addr24)
  rsp : BitVec 4
  status : Word
  tstat : Word
  tpc : Addr24
  tcause : Word
  taddr : Addr24
  trep : Word
  tvec : Addr24
  budget : Word
  ipend : BitVec 8
  imask : BitVec 8
  icount : Word
  flight : List Product
  rep : Option Nat
  repMul : Bool
deriving DecidableEq, Repr

/-- A core that has not been started; every register at its reset value (R368). -/
def ApCore.off : ApCore :=
  ⟨false, false, false, [], 0, 0, 0, 0, 0, [], 0, 0, 0, 0, 0, 0, 0, 0, 0, 0, 0, 0, [], none, false⟩

/-! ## Memory system (R375 to R406) -/

/-- Hidden state of a shared-store bank: a held Curator handover (R381), a power request waiting for activation
(R402), whether an access woke it from RETAIN (R402), a Vault wipe in progress with its cause (R384), the DT_SEC of the last delegate
access passed over and those counted in that second (R396), and whether the Conservator woke it for a pass (R393). -/
structure BankH where
  held : Option Nat
  powReq : Option Word
  woken : Bool
  wiping : Option Nat
  starveSec : Word
  starve : Nat
  scrubbing : Bool
deriving DecidableEq, Repr

/-- The idle value of BankH. -/
def BankH.idle : BankH := ⟨none, none, false, none, 0, 0, false⟩

/-- An entry of a repeat filter: the word, and whether it is marked HARD (R390). -/
structure FiltEntry where
  word : Nat
  hard : Bool
deriving DecidableEq, Repr

/-- The error record of a memory: bucket level and overflow, and the repeat filter, oldest first (R390, R392). -/
structure MemErr where
  level : Nat
  ovf : Bool
  filt : List FiltEntry
deriving DecidableEq, Repr

/-- The idle value of MemErr. -/
def MemErr.clear : MemErr := ⟨0, false, []⟩

/-- The Conservator: next word to scrub, priority scrubs requested (oldest first), the region borrowed, the next
region to test, and the DT_SEC of the last leak of the buckets (R390, R392, R393, R397). -/
structure ConsSt where
  scrubPos : Nat
  prio : List Nat
  borrowed : Option Nat
  testNext : Nat
  leakSec : Option Word
deriving DecidableEq, Repr

/-- The idle value of ConsSt. -/
def ConsSt.idle : ConsSt := ⟨0, [], none, 0, none⟩

/-! ## Host interface (R410 to R434) -/

/-- The moderation state of a ring: U, T0, the HWM trigger, drops since the last event 0x042 (R424, R428), and a
host read in flight that will fail, with its cause (R414). -/
structure RingH where
  u : Nat
  t0 : Dt
  hwmArmed : Bool
  drops : Nat
  stall : Bool
deriving DecidableEq, Repr

/-- The idle value of RingH. -/
def RingH.idle : RingH := ⟨0, 0, true, 0, false⟩

/-- A rate limit: whether an event was raised, in which second, and whether one was suppressed since (R424, R431). -/
structure RateRec where
  seen : Bool
  sec : Word
  supp : Bool
deriving DecidableEq, Repr

/-- The idle value of RateRec. -/
def RateRec.none : RateRec := ⟨false, 0, false⟩

/-- The host links: high-dword hold and low-dword latch with their slots (R415, R416); SPI error state (R420); the
MSI-X table as dwords and its pending bits (R412); bytes carried below the units of HIF_TX_CNT and HIF_RX_CNT. -/
structure HifSt where
  hiSlot : Option Nat
  hiBits : Nat
  loSlot : Option Nat
  loBits : Nat
  spiErr : Bool
  spiSub : Nat
  msix : List (Nat × BitVec 32)
  msixPend : List (Nat × Bool)
  txRem : Nat
  rxRem : Nat
deriving DecidableEq, Repr

/-- The idle value of HifSt. -/
def HifSt.reset : HifSt := ⟨none, 0, none, 0, false, 0, [], [], 0, 0⟩

/-- A device-time snapshot of GLB_DT_SEC (R519). -/
structure DtSnap where
  sec : Word
  frac : Word
  sub : Word
deriving DecidableEq, Repr

/-- The idle value of DtSnap. -/
def DtSnap.zero : DtSnap := ⟨0, 0, 0⟩

/-! ## Commands held (R440, R441) -/

/-- A command that waits for its boundary, or is parked: opcode, entry, ring-0 index, whether it was late and applies anyway,
whether it was parked, the DT of its consumption, the units it names (R442), and the sample cycle of its boundary where its
kind fixes one (R49, R153, R438). -/
structure HeldCmd where
  op : Nat
  pk : Packet
  cidx : Nat
  late : Bool
  waited : Bool
  at_ : Dt
  units : List Nat
  bnd : Option Nat
deriving DecidableEq, Repr

/-! ## Curator (R460 to R491) -/

/-- A Provenance entry queued for the store (R472). -/
structure ProvEntry where
  words : List Word
  lost : Bool
deriving DecidableEq, Repr

/-- A Provenance entry in the store (R473). -/
structure ProvStored where
  words : List Word
  pseq : Word
  powerOn : Nat
  lost : Bool
  crcOk : Bool
deriving DecidableEq, Repr

/-- An A/B record of the store: validity and SEQ of each copy, and the body in force (R476). -/
structure NvsRec where
  validA : Bool
  validB : Bool
  seqA : Word
  seqB : Word
  body : List Word
deriving DecidableEq, Repr

/-- The idle value of NvsRec. -/
def NvsRec.blank : NvsRec := ⟨false, false, 0, 0, []⟩

/-- A record write waiting or in progress (R477). -/
structure NvsWrite where
  kind : Nat
  body : List Word
  begun : Bool
deriving DecidableEq, Repr

/-- A firmware slot: the words last written to it (none: the image it shipped with, `good` telling whether that one passes the
checks of R486 but the anti-rollback one), its version, anti-rollback step and CRC-32, and whether it is marked invalid (R485 to
R488). -/
structure FwSlot where
  image : Option (List Word)
  good : Bool
  version : Word
  arb : Nat
  crc : Word
  failed : Bool
deriving DecidableEq, Repr

/-- The fuses (R403, R461, R490): life-cycle state, anti-rollback count, customer key hash, serial, date, and the spare columns that the
fuse repair map assigns, as the unit of their memory and their sub-bank. -/
structure Fuses where
  life : Nat
  arb : Nat
  cosign : Option (List Word)
  serial0 : Word
  serial1 : Word
  date : Word
  spares : List (Nat × Nat)
deriving DecidableEq, Repr

/-- Thermal supervision (R467 to R469): DT of the last change of shed step, DT since which Tj has stayed at or
above SHED, below SHED - 5 °C, and Tj_all below 105 °C; sums for the history entries (R484). -/
structure ThermSt where
  stepAt : Dt
  aboveSince : Option Dt
  belowSince : Option Dt
  coolSince : Option Dt
deriving DecidableEq, Repr

/-- The Curator's own state: the DT of boot complete, whether the boot is confirmed, the ROM firmware running, the slot running, a
warm reset asked for, the Provenance queue and ring, entries lost and the mark of a loss, console lines, thermal supervision, the
history ring and its next place, sums of Tj since the last ageing and the last delay entry, live delay sums and valid seconds by front
end since the last delay entry (R484), milliseconds of powered time below a second, whether TAMPER_N has passed, the sector
refreshed last. -/
structure CurSt where
  bootDone : Option Dt
  confirmed : Bool
  runningRom : Bool
  running : Nat
  resetReq : Option Nat
  provQ : List ProvEntry
  provRing : List (Nat × ProvStored)
  provLost : Nat
  provMark : Bool
  consoleQ : List (List Word)
  therm : ThermSt
  hist : List (Nat × List Word)
  histNext : Nat
  tjSum : Int
  tjCnt : Nat
  tjSumD : Int
  tjCntD : Nat
  live : List (Nat × (Int × Nat))
  ms : Nat
  tamperPassed : Bool
  refreshPart : Nat
  senAt : List (Nat × Dt)
  ageTemp : Word
  pciIds : Word
deriving DecidableEq, Repr

/-- The idle value of CurSt. -/
def CurSt.reset : CurSt :=
  ⟨none, false, false, 0, none, [], [], 0, false, [], ⟨0, none, none, none⟩, [], 0, 0, 0, 0, 0, [], 0, false, 0, [], 0, 0⟩

/-- The non-volatile store: A/B records by KIND, writes waiting (front first), firmware slots A and B. -/
structure NvsSt where
  recs : List (Nat × NvsRec)
  writes : List NvsWrite
  slotA : FwSlot
  slotB : FwSlot
deriving DecidableEq, Repr

/-- A supply-warning interval of a rail: open, start, sensor, least value, last rise above the level plus hysteresis
(µs from the start) (R504, R505). -/
structure SupplyIv where
  isOpen : Bool
  start : Dt
  sensor : Nat
  least : Nat
deriving DecidableEq, Repr

/-- The idle value of SupplyIv. -/
def SupplyIv.none : SupplyIv := ⟨false, 0, 0, 0⟩

/-- Supply and reset: whether the power-on reset is still held, RESET_N, the intervals by rail (0 VDD_CORE, 1 VDD_MEM,
2 VDD_RF, 3 VDD_ANA, 4 VDD_NVS, 5 VDD_IOA, 6 VDD_IOB, 7 VDD_PCI, 8 VDD_PCIH), the closed intervals with their rails
(newest first), the VDD_IOB row chosen (R496), and the rail of a supply reset (R503). -/
structure PwrSt where
  inReset : Bool
  warmHeld : Bool
  ivs : List (Nat × SupplyIv)
  closed : List (Nat × Dt × Dt)
  iob33 : Bool
  rail : Option Nat
  cause : Nat
deriving DecidableEq, Repr

/-- A fault policy: K and window in seconds (R30). -/
structure Policy where
  k : Nat
  win : Nat
deriving DecidableEq, Repr

/-- The states of the IEEE 1149.1 test-access-port controller (R531). -/
inductive Tap where
  | testLogicReset | runTestIdle | selectDr | captureDr | shiftDr | exit1Dr | pauseDr | exit2Dr | updateDr
  | selectIr | captureIr | shiftIr | exit1Ir | pauseIr | exit2Ir | updateIr
deriving DecidableEq, Repr

/-- The test-port instructions (R531). -/
inductive JInstr where
  | bypass | idcode | sample | extest | clamp | highz | diagnostic
deriving DecidableEq, Repr

/-- The test port: controller state, instruction in force, the shift register in use, and the boundary cells held. -/
structure JtagSt where
  tap : Tap
  ir : JInstr
  shift : List Bool
  cells : List Bool
deriving DecidableEq, Repr

/-- An event to be raised: code, severity, unit identifier, parameters and its DT (R431). -/
structure EvReq where
  code : Nat
  sev : Nat
  unit : Nat
  params : List Word
  dt : Dt
deriving DecidableEq, Repr

/-- What reading a stored word gives (R388). -/
inductive EccRes where
  | clean (d : Word)
  | corrected (d : Word) (pos : Nat)
  | poisoned
  | uncorrectable
deriving DecidableEq, Repr

/-- What an access to memory gives: the word, a stall (the access cannot be served yet), or the bus-error sub-code of
R363. -/
inductive Acc where
  | ok (d : Word)
  | stall
  | err (sub : Nat)
deriving DecidableEq, Repr

/-- The state of the device. -/
structure State where
  /-- commands and events waiting, first in, first out -/
  pending : List Instr
  /-- how many free values have been taken: the model's own counter (Config.freeWord) -/
  freeCtr : Nat
  /-- device time (R40) -/
  dt : Dt
  /-- the hidden sub-tick accumulator A (R41) -/
  acc : Nat
  /-- sample cycles since the reset named in R40 -/
  cycle : Nat
  /-- every BAR0 register that differs from its reset value, by byte offset -/
  regs : List (Nat × Word)
  /-- least/greatest-value registers cleared by a read and not loaded since -/
  fresh : List (Nat × Bool)
  /-- the SRAM of the device, by index in the order of the table of SRAM (R375) -/
  mem : List (Nat × Stored)
  /-- the banks beside their registers: handovers, power, delegates (R377 to R384, R399) -/
  bankH : List (Nat × BankH)
  /-- error filters of the memories by index (R392, R393) -/
  memErr : List (Nat × MemErr)
  /-- the Conservator (R390, R397) -/
  cons : ConsSt
  /-- the Apone cores by number: 0-15 wings, 16 and 17 SOL0 and SOL1, 18 the Curator (R349) -/
  cores : List (Nat × ApCore)
  /-- the host links (R410 to R424) -/
  hif : HifSt
  /-- the rings beside their registers (R425 to R429) -/
  ringH : List (Nat × RingH)
  /-- event rate limits (R433) -/
  rate : List (Nat × RateRec)
  /-- snapshots of GLB_DT_SEC by requester (R519) -/
  dtSnap : List (Nat × DtSnap)
  /-- snapshots of the last event by requester (R520) -/
  evtSnap : List (Nat × List Word)
  /-- what the device has sent, newest first -/
  out : List Out
  /-- commands that wait for their boundary, in ring order (R438, R440, R442) -/
  cmdPend : List HeldCmd
  /-- commands parked (R441) -/
  cmdPark : List HeldCmd
  /-- commands taken up whose reply waits for an event, by a key: 0-15 handover of a bank, 16-31 power of a bank, 64 measurement epoch -/
  waitReply : List (Nat × HeldCmd)
  /-- WAIT_MAX in milliseconds (R441) -/
  waitMax : Nat
  /-- fault policies by unit kind (R30) -/
  policy : List (Nat × Policy)
  /-- device times of the recent permanent-fault candidates by unit identifier (R30) -/
  faults : List (Nat × List Dt)
  /-- units retired now, by unit identifier (R34) -/
  retiredNow : List (Nat × Bool)
  /-- the volatile record of retirements, newest last (R35) -/
  retiredVol : List (List Word)
  /-- the Curator (R460 to R491) -/
  cur : CurSt
  /-- the non-volatile store (R476 to R488) -/
  nvs : NvsSt
  /-- the fuses (R461, R490) -/
  fuses : Fuses
  /-- supply and reset (R495 to R511) -/
  pwr : PwrSt
  /-- the test port (R531) -/
  jtag : JtagSt
  /-- the sample synthesiser -/
  smp : SmpSt
  /-- ramp generators by synthesiser: LO 0-3, injection 4-7 -/
  ramp : List (Nat × RampSt)
  /-- phase comparisons by synthesiser: LO 0-3, injection 4-7, sample 8 (R105) -/
  pll : List (Nat × PllSt)
  /-- front ends -/
  fes : List (Nat × RfSt)
  /-- coexistence pairs -/
  coex : List (Nat × CoexSt)
  /-- the device is in keep-time (R509) -/
  keepTime : Bool
  /-- correlator channels by global channel -/
  chans : List (Nat × Chan)
  /-- assignments waiting for their grid point, in order -/
  assignQ : List Assign
  /-- tracking loops and hooks (R221 to R244) -/
  loop : LoopSt
  /-- the acquisition engine (R148 to R185) -/
  acq : AcqSt
  /-- observables (R245 to R268) -/
  obs : ObsSt
  /-- solutions (R269 to R298) -/
  sol : SolSt
  /-- time pulses and captures (R299 to R317) -/
  tpc : TpcSt
deriving DecidableEq, Repr

/-- The state right after a power-on reset, before its release (R498, R499): every register at its reset value, DT
zero (R40), memories filled with zero (R401), rings OFF, nothing pending. The non-volatile store and the fuses hold what
the model names (notes/assumptions). -/
def State.reset : State :=
  { pending := []
    freeCtr := 0
    dt := 0
    acc := 0
    cycle := 0
    regs := []
    fresh := []
    mem := []
    bankH := []
    memErr := []
    cons := .idle
    cores := []
    hif := .reset
    ringH := []
    rate := []
    dtSnap := []
    evtSnap := []
    out := []
    cmdPend := []
    cmdPark := []
    waitReply := []
    waitMax := 1000
    policy := []
    faults := []
    retiredNow := []
    retiredVol := []
    cur := .reset
    nvs := ⟨[1, 2, 3, 4, 5].map (fun k => (k, ⟨true, true, 1, 0, []⟩)), [], ⟨none, true, 0, 0, 0, false⟩, ⟨none, false, 0, 0, 0, false⟩⟩
    fuses := ⟨1, 0, none, 0, 0, 0, []⟩
    pwr := ⟨true, false, [], [], false, none, 0⟩
    jtag := ⟨.testLogicReset, .idcode, [], []⟩
    smp := .idle
    ramp := []
    pll := []
    fes := []
    coex := []
    keepTime := false
    chans := []
    assignQ := []
    loop := .idle
    acq := .idle
    obs := .idle
    sol := .idle
    tpc := .idle
  }

end Sys2Proof.Machine
end

