-- ==== Sys2Proof/Machine/Table.lean ====
section
/-! DEFINITION. Table.lean: sparse tables in one canonical form. A table is a list of (key, value) pairs with
strictly rising keys and no value equal to what an unlisted key reads as. Registers, memories and per-unit state
are held so, and equal contents are equal lists. -/

namespace Sys2Proof.Machine

/-- The value at key `k`; `d k` is what an unlisted key reads as. -/
def tget {α : Type} (d : Nat → α) : List (Nat × α) → Nat → α
  | [], k => d k
  | (k', v) :: t, k => if k' = k then v else tget d t k

/-- A table without key `k`. -/
def terase {α : Type} : List (Nat × α) → Nat → List (Nat × α)
  | [], _ => []
  | (k', v) :: t, k => if k' = k then terase t k else (k', v) :: terase t k

/-- A table with `(k, v)` put before the first greater key. -/
def tput {α : Type} : List (Nat × α) → Nat → α → List (Nat × α)
  | [], k, v => [(k, v)]
  | (k', v') :: t, k, v => if k < k' then (k, v) :: (k', v') :: t else (k', v') :: tput t k v

/-- Write `v` at key `k`, keeping the canonical form: a value equal to the default removes the entry. -/
def tset {α : Type} [DecidableEq α] (d : Nat → α) (t : List (Nat × α)) (k : Nat) (v : α) : List (Nat × α) :=
  if v = d k then terase t k else tput (terase t k) k v

/-- Change the value at key `k` by a function. -/
def tmod {α : Type} [DecidableEq α] (d : Nat → α) (t : List (Nat × α)) (k : Nat) (f : α → α) : List (Nat × α) :=
  tset d t k (f (tget d t k))

/-- Keys strictly rise, all above `lo`. -/
def tsorted {α : Type} : Option Nat → List (Nat × α) → Bool
  | _, [] => true
  | none, (k, _) :: t => tsorted (some k) t
  | some l, (k, _) :: t => decide (l < k) && tsorted (some k) t

/-- The canonical form: keys strictly rise and no entry holds the default. -/
def twf {α : Type} [DecidableEq α] (d : Nat → α) (t : List (Nat × α)) : Bool :=
  tsorted none t && t.all (fun p => !decide (p.2 = d p.1))

end Sys2Proof.Machine
end

