-- ==== Sys2Proof/Machine/Ops.lean ====
section
/-! DEFINITION. Ops.lean: the operations over registers, units, memory words, rings and events that every family shares. -/

namespace Sys2Proof.Machine

/-! ## Registers -/

/-- The value a register holds. -/
def State.reg (s : State) (o : Nat) : Word := tget regReset s.regs o

/-- Put a value into a register. -/
def State.setReg (s : State) (o : Nat) (v : Word) : State := { s with regs := tset regReset s.regs o v }

/-- A field of a register, as a number. -/
def State.rf (s : State) (o hi lo : Nat) : Nat := fld (s.reg o) hi lo

/-- Replace a field of a register. -/
def State.setF (s : State) (o hi lo v : Nat) : State := s.setReg o (setFld (s.reg o) hi lo v)

/-- Advance a saturating counter (R36). -/
def State.cnt (s : State) (o : Nat) (n : Nat := 1) : State := s.setReg o (bump (s.reg o) n)

/-- Set a sticky bit. -/
def State.sticky (s : State) (o i : Nat) : State := s.setReg o (setBit (s.reg o) i true)

/-- Advance a modular 36-bit register by one (R36). -/
def State.incr (s : State) (o : Nat) : State := s.setReg o (incMod (s.reg o))

/-- Store a device time in a register pair (R42). -/
def State.setDt (s : State) (oSec oFrac : Nat) (d : Dt) : State := (s.setReg oSec (dtSec d)).setReg oFrac (dtFrac d)

/-- Record a greatest value in a register field; `fresh` marks one cleared by a read. -/
def State.maxF (s : State) (o hi lo v : Nat) : State := if s.rf o hi lo < v then s.setF o hi lo v else s

/-- Record a least value: the first value after a read-clear loads. -/
def State.minF (s : State) (o hi lo v : Nat) : State :=
  if tget (fun _ => false) s.fresh o then { s.setF o hi lo v with fresh := tset (fun _ => false) s.fresh o false }
  else if v < s.rf o hi lo then s.setF o hi lo v else s

/-- Take a fresh free value's index: the counter is read and advanced. -/
def State.takeFree (s : State) : Nat × State := (s.freeCtr, { s with freeCtr := s.freeCtr + 1 })

/-- Put a message on the way out. -/
def State.emit (s : State) (o : Out) : State := { s with out := o :: s.out }

/-! ## Units (R12, R13) -/

/-- The unit identifier word. -/
def unitId (subsys cls idx : Nat) : Nat := subsys * 4194304 + cls * 65536 + idx
def uFe (n : Nat) : Nat := unitId (1 + n) 0 0
def uTap (n t : Nat) : Nat := unitId (1 + n) 1 t
def uLo (n : Nat) : Nat := unitId (1 + n) 2 0
def uChz (n : Nat) : Nat := unitId (1 + n) 3 0
def uCal (n : Nat) : Nat := unitId (1 + n) 4 0
def uInj (n : Nat) : Nat := unitId (1 + n) 5 0
def uNf (n k : Nat) : Nat := unitId (1 + n) 7 k
def uBias (n : Nat) : Nat := unitId (1 + n) 8 0
def uTbr (n r : Nat) : Nat := unitId (1 + n) 9 r
def uAcq : Nat := unitId 5 0 0
def uHalf (h : Nat) : Nat := unitId 5 1 h
def uQueue : Nat := unitId 5 2 0
def uSolk (k : Nat) : Nat := unitId (6 + k) 0 0
def uMem : Nat := unitId 8 0 0
def uBank (b : Nat) : Nat := unitId 8 1 b
def uCons : Nat := unitId 8 2 0
def uRgn (r : Nat) : Nat := unitId 8 12 r
def uHif : Nat := unitId 9 0 0
def uRing (q : Nat) : Nat := unitId 9 1 q
def uSpi : Nat := unitId 9 2 0
def uPcie : Nat := unitId 9 3 0
def uTpc : Nat := unitId 10 0 0
def uTp (n : Nat) : Nat := unitId 10 1 n
def uCap (n : Nat) : Nat := unitId 10 2 n
def uOss : Nat := unitId 10 3 0
def uSmp : Nat := unitId 11 1 0
def uRef : Nat := unitId 11 2 0
def uCur : Nat := unitId 12 0 0
def uCurCore : Nat := unitId 12 1 0
def uSens (i : Nat) : Nat := unitId 12 2 i
def uNvs : Nat := unitId 12 3 0
def uWg (w : Nat) : Nat := unitId (16 + w) 0 0
def uCh (c : Nat) : Nat := unitId (16 + c / 128) 1 (c % 128)
def uWgCore (w : Nat) : Nat := unitId (16 + w) 2 0
def uCsm (w : Nat) : Nat := unitId (16 + w) 3 0

/-- The unit of an Apone core (R349). -/
def uCore (c : Nat) : Nat := if c < 16 then uWgCore c else if c < 18 then uSolk (c - 16) else uCurCore

/-- The unit named for an access by a source. -/
def uSrc : Src → Nat
  | .pcie => uPcie
  | .spi => uSpi
  | .core c => uCore c.val

/-- Is a unit identifier word one of those R13 defines? -/
def unitDefined (u : Nat) : Bool :=
  let sub := u / 4194304
  let cls := u / 65536 % 64
  let i := u % 65536
  if 64 ≤ sub then false else
  if sub = 0 then cls == 0 && i == 0
  else if sub ≤ 4 then
    (cls == 0 && i == 0) || (cls == 1 && decide (i < 16)) || ((cls == 2 || cls == 3 || cls == 4 || cls == 5 || cls == 8) && i == 0)
      || ((cls == 6 || cls == 7) && decide (i < 4)) || (cls == 9 && decide (i < 2560))
  else if sub = 5 then (cls == 0 && i == 0) || (cls == 1 && decide (i < 2)) || (cls == 2 && i == 0)
  else if sub ≤ 7 then (cls == 0 && i == 0) || (cls == 10 && decide (i < 2048)) || (cls == 11 && decide (i < 512))
  else if sub = 8 then (cls == 0 && i == 0) || (cls == 1 && decide (i < 16)) || (cls == 2 && i == 0) || cls == 12
  else if sub = 9 then (cls == 0 && i == 0) || (cls == 1 && decide (i < 32)) || ((cls == 2 || cls == 3) && i == 0)
  else if sub = 10 then (cls == 0 && i == 0) || ((cls == 1 || cls == 2) && decide (i < 4)) || (cls == 3 && i == 0)
  else if sub = 11 then decide (cls ≤ 2) && i == 0
  else if sub = 12 then ((cls == 0 || cls == 1 || cls == 3) && i == 0) || (cls == 2 && decide (i < 47))
  else if sub < 16 then false
  else if sub < 32 then
    ((cls == 0 || cls == 2 || cls == 3) && i == 0) || (cls == 1 && decide (i < 128)) || (cls == 10 && decide (i < 512))
      || (cls == 11 && decide (i < 256))
  else false

/-- Is the unit RETIRED? -/
def State.isRetired (s : State) (u : Nat) : Bool := tget (fun _ => false) s.retiredNow u

/-! ## Host mode and link (R410, R414) -/

/-- HIF_MODE.HOST: the host link is SPI. -/
def State.spiMode (s : State) : Bool := bit (s.reg R.HIF_MODE) 0

/-- The PCI Express link is up. -/
def State.linkUp (s : State) : Bool := bit (s.reg R.HIF_LINK_STAT) 0

/-- Boot is complete (HIF_BOOT.DONE). -/
def State.booted (s : State) : Bool := bit (s.reg R.HIF_BOOT) 0

/-! ## Stored words and their code (R388, R389) -/

/-- The column of data bit `i` (R388): three ones for bits 0 to 34 in ascending order, 0x1F for bit 35. -/
def eccCols : List Nat :=
  [0x07, 0x0B, 0x0D, 0x0E, 0x13, 0x15, 0x16, 0x19, 0x1A, 0x1C, 0x23, 0x25, 0x26, 0x29, 0x2A, 0x2C, 0x31, 0x32, 0x34, 0x38, 0x43, 0x45, 0x46, 0x49, 0x4A, 0x4C, 0x51, 0x52, 0x54, 0x58, 0x61, 0x62, 0x64, 0x68, 0x70, 0x1F]

/-- The check bits of a data word: the XOR of the columns of its set bits. -/
def eccCheckFrom : List Nat → Nat → Nat → Nat
  | [], _, acc => acc
  | c :: cs, d, acc => eccCheckFrom cs (d / 2) (if d % 2 = 1 then acc ^^^ c else acc)

/-- The check bits c6..c0 of a data word (R388). -/
def eccCheck (d : Word) : Nat := eccCheckFrom eccCols d.toNat 0

/-- A data word stored with its check bits. -/
def eccEnc (d : Word) : Stored := BitVec.ofNat 43 (eccCheck d * 68719476736 + d.toNat)

/-- The data bits of a stored word. -/
def storedData (x : Stored) : Word := x.extractLsb' 0 36

/-- The stored check bits. -/
def storedCheck (x : Stored) : Nat := x.toNat / 68719476736

/-- The poisoned word: zero data, check bits 0x7F (R389). -/
def poisonWord : Stored := BitVec.ofNat 43 (0x7F * 68719476736)

/-- The syndrome of a stored word (R388). -/
def syndrome (x : Stored) : Nat := eccCheck (storedData x) ^^^ storedCheck x

/-- Syndrome decoding (R388). -/
def eccDec (x : Stored) : EccRes :=
  let y := syndrome x
  let d := storedData x
  if y = 0 then .clean d
  else if y = 0x7F then .poisoned
  else match eccCols.findIdx? (· == y) with
    | some i => .corrected (d ^^^ (1#36 <<< i)) i
    | none => match [1, 2, 4, 8, 16, 32, 64].findIdx? (· == y) with
      | some j => .corrected d (36 + j)
      | none => .uncorrectable

/-! ## The SRAM of the device: indices in the order of the table of SRAM -/

/-- The memory index of a word of a bank. -/
def kBank (b a : Nat) : Nat := b * 262144 + a
def kWim (w a : Nat) : Nat := 4194304 + w * 16384 + a
def kWdm (w a : Nat) : Nat := 4456448 + w * 32768 + a
def kCsm (w a : Nat) : Nat := 4980736 + w * 16384 + a
def kSim (k a : Nat) : Nat := 5242880 + k * 32768 + a
def kSdm (k a : Nat) : Nat := 5308416 + k * 131072 + a
def kCim (a : Nat) : Nat := 5570560 + a
def kCdm (a : Nat) : Nat := 5586944 + a
def kTap (n a : Nat) : Nat := 5619712 + n * 163840 + a
def kCode (a : Nat) : Nat := 6275072 + a
/-- Words of SRAM in all. -/
def sramWords : Nat := 6340608

/-- The memory holding index `k`: its number (banks 0-15, wing instruction memories 16-31, wing data 32-47, channel
state 48-63, solution instruction 64-65, solution data 66-67, Curator 68, tap buffers 69-72, code RAM 73) and the word
within it. -/
def memOf (k : Nat) : Nat × Nat :=
  if k < 4194304 then (k / 262144, k % 262144)
  else if k < 4456448 then (16 + (k - 4194304) / 16384, (k - 4194304) % 16384)
  else if k < 4980736 then (32 + (k - 4456448) / 32768, (k - 4456448) % 32768)
  else if k < 5242880 then (48 + (k - 4980736) / 16384, (k - 4980736) % 16384)
  else if k < 5308416 then (64 + (k - 5242880) / 32768, (k - 5242880) % 32768)
  else if k < 5570560 then (66 + (k - 5308416) / 131072, (k - 5308416) % 131072)
  else if k < 5619712 then (68, k - 5570560)
  else if k < 6275072 then (69 + (k - 5619712) / 163840, (k - 5619712) % 163840)
  else (73, k - 6275072)

/-- The unit of a memory, as the table of SRAM names it (R13, R375): a memory known by its regions takes their class with index 0
(DEDUCED: notes/assumptions/54.md). -/
def uMemory (m : Nat) : Nat :=
  if m < 16 then uBank m else if m < 32 then unitId m 11 0 else if m < 48 then unitId (m - 16) 10 0
  else if m < 64 then uCsm (m - 48) else if m < 66 then unitId (6 + (m - 64)) 11 0 else if m < 68 then unitId (6 + (m - 66)) 10 0
  else if m = 68 then uCurCore else if m < 73 then uTbr (m - 69) 0 else uMem

/-- The memory-region unit holding index `k` (R13, R376); local memories without a region class name their unit. -/
def uRegion (k : Nat) : Nat :=
  let m := (memOf k).1
  let a := (memOf k).2
  if m < 16 then uRgn (4096 * m + a / 64) else if m < 32 then unitId m 11 (a / 64)
  else if m < 48 then unitId (m - 16) 10 (a / 64) else if m < 64 then uCsm (m - 48)
  else if m < 66 then unitId (6 + (m - 64)) 11 (a / 64) else if m < 68 then unitId (6 + (m - 66)) 10 (a / 64)
  else if m = 68 then uCurCore else if m < 73 then uTbr (m - 69) (a / 64) else uMem

/-- What is stored at index `k`. -/
def State.stored (s : State) (k : Nat) : Stored := tget (fun _ => 0#43) s.mem k

/-- Store bits at index `k`. -/
def State.putStored (s : State) (k : Nat) (x : Stored) : State := { s with mem := tset (fun _ => 0#43) s.mem k x }

/-- A write of stored bits, with the error injection of R400 for a bank that is armed. -/
def State.storeBits (s : State) (k : Nat) (x : Stored) : State :=
  if k < 4194304 ∧ bit (s.reg R.MEM_FLIP_ARM) (k / 262144) then
    let b := k / 262144
    let mask : Stored := BitVec.ofNat 43 ((s.rf R.MEM_FLIP_CHECK 6 0) * 68719476736 + (s.reg R.MEM_FLIP_DATA).toNat)
    let s := s.putStored k (x ^^^ mask)
    (s.setReg R.MEM_FLIP_ARM (setBit (s.reg R.MEM_FLIP_ARM) b false)).sticky (R.BANK_STATUS b) 6
  else s.putStored k x

/-- A requester's write of a word (R377). -/
def State.store (s : State) (k : Nat) (d : Word) : State := s.storeBits k (eccEnc d)

/-- The data stored at index `k` as the code delivers it, with no error handling; an uncorrectable word gives zero. -/
def State.peek (s : State) (k : Nat) : Word :=
  match eccDec (s.stored k) with
  | .clean d => d
  | .corrected d _ => d
  | _ => 0#36

/-- Store words from index `k` on, ascending. -/
def storeList (k : Nat) : List Word → State → State
  | [], s => s
  | w :: ws, s => storeList (k + 1) ws (s.store k w)

/-- Fill `n` words from index `k` with zero data and valid check bits (R401): the entries are removed. -/
def State.zeroMem (s : State) (k n : Nat) : State :=
  { s with mem := s.mem.filter (fun p => decide (p.1 < k ∨ k + n ≤ p.1)) }

/-! ## Messages and alerts (R412, R428, R429) -/

/-- Is MSI-X vector `v` masked (bit 0 of its vector-control dword, 1 at reset)? -/
def State.msixMasked (s : State) (v : Nat) : Bool :=
  (tget (fun k => if k % 4 = 3 then 1#32 else 0#32) s.hif.msix (4 * v + 3)).getLsbD 0

/-- A message of vector `v` falls due: counted, then sent, or pending where the vector is masked or the link is down. -/
def msiDue (v : Nat) (s : State) : State :=
  let s := s.cnt (R.HIF_VEC_CNT v)
  if s.spiMode then s
  else if s.msixMasked v || !s.linkUp then { s with hif := { s.hif with msixPend := tset (fun _ => false) s.hif.msixPend v true } }
  else s.emit (.msi v)

/-- Set bit `i` of HIF_ALERT_STAT; from 0 to 1 with its MASK bit set it sends the alert vector (R429). -/
def alertSet (i : Nat) (s : State) : State :=
  if bit (s.reg R.HIF_ALERT_STAT) i then s else
  let s := s.sticky R.HIF_ALERT_STAT i
  if bit (s.reg R.HIF_ALERT_CFG) i then msiDue 32 s else s

/-- The level of ALERT_N (R429): low until boot is complete, then low while a masked-in bit stands. -/
def State.alertN (s : State) : Bool :=
  s.booted && (s.rf R.HIF_ALERT_STAT 4 0 &&& s.rf R.HIF_ALERT_CFG 4 0) == 0

/-- Whole microseconds of DT between two instants. -/
def dtMicros (a b : Dt) : Nat := (b - a).toNat * 1000000 / 68719476736

/-- Record the latency of a message of vector `v` counted from `t0`, µs, clamped with RANGE (R36, R433). -/
def vecLat (v us : Nat) (s : State) : State :=
  let s := if 1048575 < us then s.sticky (R.HIF_VEC_LAT v) 20 else s
  s.maxF (R.HIF_VEC_LAT v) 19 0 (min us 1048575)

/-! ## Rings (R421 to R428) -/

/-- The hidden state of ring `q`. -/
def State.rh (s : State) (q : Nat) : RingH := tget (fun _ => RingH.idle) s.ringH q

/-- Set what lies behind a ring. -/
def State.setRh (s : State) (q : Nat) (r : RingH) : State := { s with ringH := tset (fun _ => RingH.idle) s.ringH q r }

/-- RINGq_STATE: 0 OFF, 1 ON, 2 HALT. -/
def State.ringState (s : State) (q : Nat) : Nat := s.rf (R.RING_STATE q) 1 0
def State.ringOn (s : State) (q : Nat) : Bool := s.ringState q == 1
/-- RINGq_CFG.CLASS. -/
def State.ringClass (s : State) (q : Nat) : Nat := s.rf (R.RING_CFG q) 20 17
/-- The ring's size S in entries (R422). -/
def State.ringSize (s : State) (q : Nat) : Nat := 2 ^ s.rf (R.RING_CFG q) 16 12
/-- Bytes of an entry (R434). -/
def State.ringEntry (s : State) (q : Nat) : Nat :=
  match s.rf (R.RING_CFG q) 11 10 with
  | 0 => 64
  | 1 => 128
  | 2 => 256
  | _ => 4096
/-- Occupancy: (PROD − CONS) mod 2S (R422). -/
def State.ringOcc (s : State) (q : Nat) : Nat :=
  let m := 2 * s.ringSize q
  (s.rf (R.RING_PROD q) 16 0 + m - s.rf (R.RING_CONS q) 16 0 % m) % m
/-- The base address of a ring: a host byte address, or a shared-store word address in SPI mode (R422). -/
def State.ringBase (s : State) (q : Nat) : Nat :=
  if s.spiMode then s.rf (R.RING_BASE_LO q) 21 0
  else s.rf (R.RING_BASE_HI q) 31 0 * 4294967296 + s.rf (R.RING_BASE_LO q) 31 0

/-- Mirror a ring's state in RINGq_STATE, HIF_RING_ON and HIF_RING_HALT. -/
def setRingState (q v : Nat) (s : State) : State :=
  let s := s.setF (R.RING_STATE q) 1 0 v
  let s := s.setReg R.HIF_RING_ON (setBit (s.reg R.HIF_RING_ON) q (v == 1))
  s.setReg R.HIF_RING_HALT (setBit (s.reg R.HIF_RING_HALT) q (v == 2))

/-- Mirror fullness in HIF_RING_FULL. -/
def syncFull (q : Nat) (s : State) : State :=
  s.setReg R.HIF_RING_FULL (setBit (s.reg R.HIF_RING_FULL) q (s.ringOcc q == s.ringSize q))

/-- Keep HIF_ALERT_STAT.RING equal to the OR of HIF_RING_IRQ (R429). -/
def syncRingBit (s : State) : State :=
  if s.reg R.HIF_RING_IRQ = 0#36 then s.setReg R.HIF_ALERT_STAT (setBit (s.reg R.HIF_ALERT_STAT) 0 false)
  else alertSet 0 s

/-- A ring's message (R428): U clears, HIF_RING_IRQ bit q is set, vector q is sent. -/
def ringMessage (q : Nat) (s : State) : State :=
  let r := s.rh q
  let s := vecLat q (dtMicros r.t0 s.dt) s
  let s := s.setRh q { r with u := 0 }
  let s := s.sticky R.HIF_RING_IRQ q
  msiDue q (syncRingBit s)

/-- Count one entry written or consumed towards the ring's message, and send it when due (R428). -/
def ringModerate (q : Nat) (written : Bool) (s : State) : State :=
  if s.ringClass q = 14 then s else
  let r := s.rh q
  let r := if r.u = 0 then { r with u := 1, t0 := s.dt } else { r with u := r.u + 1 }
  let hwm := s.rf (R.RING_HWM q) 16 0
  let hit := written && hwm != 0 && s.ringOcc q == hwm && r.hwmArmed
  let r := if hit then { r with hwmArmed := false } else r
  let s := s.setRh q r
  let s := if hit then s.sticky (R.RING_STATUS q) 3 else s
  if hit || decide (s.rf (R.RING_MOD q) 15 0 ≤ r.u) then ringMessage q s else s

/-- Count bytes towards HIF_TX_CNT (`tx`) or HIF_RX_CNT, in units of 2^20. -/
def countBytes (tx : Bool) (n : Nat) (s : State) : State :=
  if tx then
    let t := s.hif.txRem + n
    (if t / 1048576 = 0 then s else s.cnt R.HIF_TX_CNT (t / 1048576)) |> fun s => { s with hif := { s.hif with txRem := t % 1048576 } }
  else
    let t := s.hif.rxRem + n
    (if t / 1048576 = 0 then s else s.cnt R.HIF_RX_CNT (t / 1048576)) |> fun s => { s with hif := { s.hif with rxRem := t % 1048576 } }

/-- In SPI mode, a word of the shared store that the device may access for the host: its bank is on loan to HOST, not OFF, and
in no handover, and its region is not retired (R380, R385, R450). -/
def spiBankOk (wordAddr : Nat) (s : State) : Bool :=
  let b := wordAddr / 262144 % 16
  s.rf (R.BANK_OWNER b) 5 0 == 1 && s.rf (R.BANK_STATE b) 3 0 == 0 && s.rf (R.BANK_STATE b) 10 8 != 3
    && !s.isRetired (uRgn (wordAddr / 64))

/-- A DMA access in SPI mode to a bank that cannot serve yet waits until it can (R384, R402): a wake, a refill or a wipe in
progress completes first. Answers the events of it. -/
def bankServe (b : Nat) (s : State) : State × List EvReq :=
  let x := tget (fun _ => BankH.idle) s.bankH b
  let p := s.rf (R.BANK_STATE b) 10 8
  let ev (o v : Nat) : EvReq := ⟨0x90E, 0, uBank b, [wd b, wd o, wd v], s.dt⟩
  if p = 3 || (p == 0 && x.wiping.isNone) then (s, []) else
  let s := if p = 4 ∨ x.wiping.isSome then s.zeroMem (kBank b 0) 262144 else s
  let s := (s.setF (R.BANK_STATE b) 10 8 0)
  let s := { s with bankH := tset (fun _ => BankH.idle) s.bankH b { x with wiping := none, woken := x.woken || p == 1 } }
  let es := if p = 1 then [ev 1 2, ev 2 0] else if p = 0 then [] else [ev p 0]
  match x.wiping with
  | none => (s, es)
  | some c => ((s.cnt R.MEM_VAULT_WIPE_CNT).sticky R.MEM_STATUS 6, es ++ [⟨0x90C, 1, uBank b, [wd b, wd c], s.dt⟩])

/-- The write-back of the index the device owns, when WB_EN is 1 (R425). -/
def ringWriteBack (q idx : Nat) (s : State) : State :=
  if bit (s.reg (R.RING_CFG q)) 9 then
    if s.spiMode then (if spiBankOk (s.rf (R.RING_WB_LO q) 21 0) s then s.store (s.rf (R.RING_WB_LO q) 21 0) (wd idx) else s)
    else s.emit (.writeBack q idx)
  else s

/-- The rate limit of a key: may the event be raised in second `sec`, once in each (DEDUCED: notes/assumptions/61.md)? -/
def rateOkAt (sec : Word) (key : Nat) (s : State) : Bool × State :=
  let r := tget (fun _ => RateRec.none) s.rate key
  if r.seen && r.sec == sec then (false, { s with rate := tset (fun _ => RateRec.none) s.rate key { r with supp := true } })
  else (true, { s with rate := tset (fun _ => RateRec.none) s.rate key ⟨true, sec, r.supp⟩ })

/-- The rate limit "at most once per second of DT" of a key (R424, R387). -/
def rateOk (key : Nat) (s : State) : Bool × State := rateOkAt (dtSec s.dt) key s

/-- The rate-limit key of an event code from a unit. -/
def rateKey (code unit : Nat) : Nat := code * 68719476736 + unit

/-- Drop a record for ring `q` (R424): counted, STATUS.DROP, and event 0x042 at most once per second of DT. -/
def ringDrop (q : Nat) (s : State) : State × List EvReq :=
  let s := (s.cnt (R.RING_DROP_CNT q)).sticky (R.RING_STATUS q) 2
  let r := s.rh q
  let s := s.setRh q { r with drops := r.drops + 1 }
  if !bit (s.reg R.HIF_EVT_MASK) 2 then (s, []) else
  let (ok, s) := rateOk (rateKey 0x042 (uRing q)) s
  if ok then (s.setRh q { s.rh q with drops := 0 }, [⟨0x042, 2, uRing q, [wd (r.drops + 1)], s.dt⟩]) else (s, [])

/-- HIF_DMA_ERR_* take the ring, the cause and, where an access failed, its address (R414). -/
def dmaCapture (q cause : Nat) (addr : Option Nat) (s : State) : State :=
  let s := (s.setReg R.HIF_DMA_ERR_INFO (wd (q * 256 + cause))).sticky R.HIF_STATUS 1
  match addr with
  | some a => (s.setReg R.HIF_DMA_ERR_LO (wd (a % 4294967296))).setReg R.HIF_DMA_ERR_HI (wd (a / 4294967296 % 4294967296))
  | none => s

/-- A ring enters HALT (R427): event 0x041, the error vector, HIF_ALERT_STAT.HALT. -/
def ringHaltEv (q cause : Nat) (addr : Option Nat) (s : State) : State × List EvReq :=
  let s := dmaCapture q cause addr (setRingState q 2 s)
  let s := s.setRh q { s.rh q with stall := false }
  let s := s.sticky (R.RING_STATUS q) 4
  let s := msiDue 33 s
  (alertSet 3 s, [⟨0x041, 3, uRing q, [wd cause], s.dt⟩])

/-- Pad or cut a list of words to `n` words. -/
def padTo (n : Nat) (ws : List Word) : List Word := (ws ++ List.replicate n 0#36).take n

/-- Byte-packed samples as the words of their eight-byte slots in SPI mode: the spec gives a slot one word, which holds the low 36 bits
(R422; notes/assumptions/81.md). -/
def slotWords (bytes : List (BitVec 8)) : List Word :=
  (List.range (bytes.length / 8)).map (fun i =>
    wd (((bytes.drop (8 * i)).take 5).zipIdx.foldl (fun a (p : BitVec 8 × Nat) => a + p.1.toNat * 256 ^ p.2) 0))

/-- Put an entry into host memory, or into the shared store in SPI mode (R8, R422): its words and, for a stream block, its byte-packed
samples after them. Answers the events of it. -/
def ringPlace (q slot at_ : Nat) (ws : List Word) (bytes : List (BitVec 8)) (s : State) : State × List EvReq :=
  if s.spiMode then
    let x := bankServe (at_ / 262144 % 16) s
    (storeList at_ (ws ++ slotWords bytes) x.1, x.2)
  else (s.emit (if bytes.isEmpty then .ringEntry q slot ws else .ringBlock q slot ws bytes), [])

/-- An entry written: the index moves on to `p`, is written back, and counts towards the message (R424, R425, R428). -/
def ringCommit (q p : Nat) (s : State) : State :=
  let s := s.setF (R.RING_PROD q) 16 0 p
  let s := countBytes true (s.ringEntry q) s
  let s := s.maxF (R.RING_OCC_MAX q) 16 0 (s.ringOcc q)
  let s := if s.ringOcc q = s.ringSize q then s.sticky (R.RING_STATUS q) 0 else s
  ringModerate q true (ringWriteBack q p (syncFull q s))

/-- The word address (SPI mode) or byte address of the entry the device writes next. -/
def State.ringAt (s : State) (q : Nat) : Nat :=
  s.ringBase q + (s.rf (R.RING_PROD q) 16 0 % s.ringSize q) * (if s.spiMode then s.ringEntry q / 8 else s.ringEntry q)

/-- Deliver an entry of a class to ring `q` (R424, R425), words and byte-packed samples: written in full, the index written back, the
message sent; or dropped. Answers the events to raise and whether it was written. -/
def ringPutB (q cls : Nat) (ws : List Word) (bytes : List (BitVec 8)) (s : State) : State × List EvReq × Bool :=
  if s.ringClass q ≠ cls then
    ((s.cnt R.HIF_MISROUTE_CNT).sticky R.HIF_STATUS 4, [⟨0x049, 2, uRing q, [wd cls], s.dt⟩], false)
  else if !s.ringOn q || (!s.spiMode && !s.linkUp) || decide (s.ringSize q ≤ s.ringOcc q) then
    let x := ringDrop q s
    (x.1, x.2, false)
  else if s.spiMode && !(spiBankOk (s.ringAt q) s && spiBankOk (s.ringAt q + s.ringEntry q / 8 - 1) s) then
    let x := ringHaltEv q 5 (some (s.ringAt q)) s
    (x.1, x.2, false)
  else
    let x := ringPlace q (s.rf (R.RING_PROD q) 16 0 % s.ringSize q) (s.ringAt q) (padTo (s.ringEntry q / 8 - bytes.length / 8) ws) bytes s
    (ringCommit q ((s.rf (R.RING_PROD q) 16 0 + 1) % (2 * s.ringSize q)) x.1, x.2, true)

/-- Deliver a record, an entry of words alone. -/
def ringPut (q cls : Nat) (ws : List Word) (s : State) : State × List EvReq × Bool := ringPutB q cls ws [] s

/-! ## Events (R430, R431, R472, R530) -/

/-- The event-mask register and bit that govern an event code of a unit; none: never masked. -/
def evMask (code unit : Nat) : Option (Nat × Nat) :=
  let n := unit / 4194304 - 1
  let w := unit / 4194304 - 16
  if 0x040 ≤ code ∧ code ≤ 0x04A then some (R.HIF_EVT_MASK, code - 0x040)
  else if 0x100 ≤ code ∧ code ≤ 0x10D then some (R.FE_EVT_MASK n, code - 0x100)
  else if 0x200 ≤ code ∧ code ≤ 0x20D then some (R.SYN_EVT_MASK, code - 0x200)
  else if 0x300 ≤ code ∧ code ≤ 0x309 then some (R.CHZ_EVT_MASK n, code - 0x300)
  else if 0x400 ≤ code ∧ code ≤ 0x40A then some (R.ACQ_EVT_MASK, code - 0x400)
  else if 0x500 ≤ code ∧ code ≤ 0x50A then some (R.WG_EVT_MASK w, code - 0x500)
  else if 0x600 ≤ code ∧ code ≤ 0x603 then some (R.OBS_EVT_MASK, code - 0x600)
  else if 0x610 ≤ code ∧ code ≤ 0x61A then some (R.SOL_EVT_MASK, code - 0x610)
  else if 0x700 ≤ code ∧ code ≤ 0x709 then some (R.TPC_EVT_MASK, code - 0x700)
  else if 0x800 ≤ code ∧ code ≤ 0x80B then some (R.CAL_EVT_MASK, code - 0x800)
  else if 0x900 ≤ code ∧ code ≤ 0x90E then some (R.MEM_EVT_MASK, code - 0x900)
  else if 0xA00 ≤ code ∧ code ≤ 0xA1B then some (R.CUR_EVT_MASK, code - 0xA00)
  else none

/-- Is the event enabled: of severity fault or above, unmaskable, or its mask bit set? -/
def evEnabled (e : EvReq) (s : State) : Bool :=
  match evMask e.code e.unit with
  | none => true
  | some (o, i) => decide (3 ≤ e.sev) || bit (s.reg o) i

/-- Queue an event for the Provenance record when R472 says it enters: by its severity, as event 0xA01, or from a supply monitor (sensors
12 to 25, R464); answers PROV. -/
def provQueue (e : EvReq) (mk : Bool → List Word) (s : State) : Bool × State :=
  if decide (s.rf R.CUR_PROV_CFG 3 0 ≤ e.sev) || e.code == 0xA01 || decide (uSens 12 ≤ e.unit ∧ e.unit ≤ uSens 25) then
    if s.cur.provQ.length < 64 then
      (true, { s with cur := { s.cur with provQ := s.cur.provQ ++ [⟨mk true, s.cur.provMark⟩], provMark := false } })
    else
      let s := (s.cnt R.CUR_PROV_LOST_CNT).sticky R.CUR_STATUS 3
      (false, { s with cur := { s.cur with provLost := s.cur.provLost + 1, provMark := true } })
  else (false, s)

/-- The eight words of an event record (R431). -/
def evWords (e : EvReq) (acc : Word) (prov rate : Bool) : List Word :=
  [acc, dtSec e.dt, dtFrac e.dt,
   wd (e.unit / 65536 % 4096 * 16777216 + e.code * 4096 + e.sev * 256 + b2n prov * 128 + b2n rate * 64)] ++ padTo 4 e.params

/-- The accession number after `a`: numbers run from 1 and skip zero (R431). -/
def accNext (a : Word) : Word := if a + 1#36 = 0#36 then 1#36 else a + 1#36

/-- An event is numbered: HIF_ACC_NEXT moves on, and RATE is given out (R424, R431). -/
def evNumber (e : EvReq) (s : State) : State :=
  let s := s.setReg R.HIF_ACC_NEXT (accNext (s.reg R.HIF_ACC_NEXT))
  let rr := tget (fun _ => RateRec.none) s.rate (rateKey e.code e.unit)
  if rr.supp then { s with rate := tset (fun _ => RateRec.none) s.rate (rateKey e.code e.unit) { rr with supp := false } } else s

/-- The record of an event goes to the Accession log in bank 15 (R470), the console queue (R530) and the alert (R429). -/
def evLog (e : EvReq) (acc : Word) (ws : List Word) (s : State) : State :=
  let s := storeList (kBank 15 (8 * (acc.toNat % 32768))) ws s
  let s := if 1 ≤ e.sev ∧ s.cur.consoleQ.length < 16 then { s with cur := { s.cur with consoleQ := s.cur.consoleQ ++ [ws] } } else s
  if s.rf R.HIF_ALERT_CFG 11 8 ≤ e.sev then alertSet 4 s else s

/-- The record of an event goes to ring 2 (R430, R431). -/
def evDeliver (e : EvReq) (ws : List Word) (s : State) : State × List EvReq :=
  if s.rf R.HIF_EVT_CFG 3 0 ≤ e.sev then
    let x := ringPut 2 2 ws s
    (if x.2.2 then x.1.cnt R.HIF_EVT_CNT else if s.ringOn 2 then alertSet 2 x.1 else x.1, x.2.1)
  else (s, [])

/-- Raise one event (R430, R431): accession number, Provenance queue, Accession log, console line, alert, ring 2. Answers the events
this gives rise to. -/
def postEvent (e : EvReq) (s : State) : State × List EvReq :=
  if !evEnabled e s then (s, []) else
  let acc := s.reg R.HIF_ACC_NEXT
  let rate := (tget (fun _ => RateRec.none) s.rate (rateKey e.code e.unit)).supp
  let pq := provQueue e (fun prov => evWords e acc prov rate) (evNumber e s)
  let ws := evWords e acc pq.1 rate
  evDeliver e ws (evLog e acc ws pq.2)

/-- Raise events and those they give rise to; a record of ring 2 raises at most three more, once (R402, R424), so the bound is
never met. -/
def raiseList : Nat → List EvReq → State → State
  | 0, _, s => s
  | _ + 1, [], s => s
  | n + 1, e :: es, s =>
    let x := postEvent e s
    raiseList n (x.2 ++ es) x.1

/-- Raise an event with the DT of now. -/
def raise (code sev unit : Nat) (params : List Word) (s : State) : State :=
  raiseList 8 [⟨code, sev, unit, params, s.dt⟩] s

/-- Raise an event with a stated DT (R431). -/
def raiseAt (d : Dt) (code sev unit : Nat) (params : List Word) (s : State) : State :=
  raiseList 8 [⟨code, sev, unit, params, d⟩] s

/-- Raise an event at most once for its code and unit in second `sec`. -/
def raiseIn (sec : Word) (code sev unit : Nat) (params : List Word) (s : State) : State :=
  let x := rateOkAt sec (rateKey code unit) s
  if x.1 then raise code sev unit params x.2 else x.2

/-- Raise an event at most once per second of DT for its code and unit. -/
def raiseLimited (code sev unit : Nat) (params : List Word) (s : State) : State := raiseIn (dtSec s.dt) code sev unit params s

/-- The second of sample time of sample cycle `n`. -/
def secOfCycle (n : Nat) : Word := dtSec (dtOfCycle n)

/-- Deliver a record to ring `q`; ring 0 means none and gives no record (R546). -/
def record (q cls : Nat) (ws : List Word) (s : State) : State :=
  if q = 0 then s else
  let x := ringPut q cls ws s
  raiseList 8 x.2.1 x.1

/-- A ring enters HALT. -/
def ringHalt (q cause : Nat) (addr : Option Nat) (s : State) : State :=
  let x := ringHaltEv q cause addr s
  raiseList 8 x.2 x.1

/-- Write a record of a sequence series: with a ring named, the record carries the next number of register `seqReg` and
the series advances, written or dropped (R424, R546). -/
def recordSeq (q cls seqReg : Nat) (mk : Word → List Word) (s : State) : State :=
  if q = 0 then s else
  let n := s.reg seqReg
  record q cls (mk n) (s.incr seqReg)

/-- The device consumes the next entry of a host-to-device ring (R422, R425, R428): CONS moves on, its write-back and
message follow. -/
def ringConsume (q : Nat) (s : State) : State :=
  let m := 2 * s.ringSize q
  let c := (s.rf (R.RING_CONS q) 16 0 + 1) % m
  let s := s.setF (R.RING_CONS q) 16 0 c
  let s := countBytes false (s.ringEntry q) s
  let s := syncFull q s
  let s := ringWriteBack q c s
  ringModerate q false s

/-- May the device take an entry of a host-to-device ring now: ON, not empty, the link up, no read in flight failing. -/
def State.ringReady (s : State) (q : Nat) : Bool :=
  s.ringOn q && decide (0 < s.ringOcc q) && (s.spiMode || s.linkUp) && !(s.rh q).stall

/-! ## Apone cores: request lines -/

/-- An Apone core. -/
def State.core (s : State) (c : Nat) : ApCore := tget (fun _ => ApCore.off) s.cores c
def State.setCore (s : State) (c : Nat) (x : ApCore) : State := { s with cores := tset (fun _ => ApCore.off) s.cores c x }

/-- Latch interrupt line `l` of core `c` (R366). -/
def pendLine (c l : Nat) (s : State) : State :=
  let x := s.core c
  if x.started then s.setCore c { x with ipend := x.ipend ||| (1#8 <<< l) } else s

/-- A core as it starts: reset registers, its reset entry (R349, R368). -/
def ApCore.start (c : Nat) : ApCore := { ApCore.off with started := true, pc := if c = 18 then 0x008000#24 else 0#24 }

/-- The snapshots of a requester (R519, R520; key 0 PCI Express, 1 SPI, 2 + c core c) go at its reset. -/
def dropSnaps (keys : Nat → Bool) (s : State) : State :=
  { s with dtSnap := s.dtSnap.filter (fun p => !keys p.1), evtSnap := s.evtSnap.filter (fun p => !keys p.1) }

/-- Core `c` starts. -/
def startCore (c : Nat) (s : State) : State := dropSnaps (fun k => k == 2 + c) (s.setCore c (ApCore.start c))

/-! ## Errors met on reading SRAM (R385, R390 to R392) -/

/-- The error record of a memory. -/
def State.merr (s : State) (m : Nat) : MemErr := tget (fun _ => MemErr.clear) s.memErr m

/-- Put a memory's error record back, mirrored in BANKb_BUCKET for a bank. -/
def State.setMerr (s : State) (m : Nat) (e : MemErr) : State :=
  let s := { s with memErr := tset (fun _ => MemErr.clear) s.memErr m e }
  if m < 16 then s.setReg (R.BANK_BUCKET m) (wd (b2n e.ovf * 256 + e.level)) else s

/-- R390 step 2 for a correctable error at index `k`: counted, the bucket, the filter, a priority scrub (R392). -/
def ceCount (k syn : Nat) (s : State) : State :=
  let m := (memOf k).1
  let a := (memOf k).2
  let e := s.merr m
  let depth := s.rf R.MEM_BUCKET_CFG 7 0
  let ovr := decide (depth < e.level + 1)
  let first := ovr && !e.ovf
  let filt := if e.filt.any (fun f => f.word == k) then e.filt else (if 4 ≤ e.filt.length then e.filt.drop 1 else e.filt) ++ [⟨k, false⟩]
  let s := s.cnt R.MEM_CE_CNT
  let s := if m < 16 then
      ((s.cnt (R.BANK_CE_CNT m)).setReg (R.BANK_ERR_ADDR m) (wd (syn * 16777216 + a))).setReg (R.BANK_ERR_SEC m) (dtSec s.dt) else s
  let s := s.setMerr m ⟨if ovr then depth else e.level + 1, e.ovf || ovr, filt⟩
  let s := { s with cons := { s.cons with prio := s.cons.prio ++ [k] } }
  if first then
    let s := s.sticky R.MEM_STATUS 1
    let s := if m < 16 then s.sticky (R.BANK_STATUS m) 2 else s
    raise 0x903 2 (uMemory m) [wd (uMemory m), wd depth] s
  else s

/-- A correctable error found by a read at index `k` (R390): nothing more for a word in the filter. -/
def ceFound (k syn : Nat) (s : State) : State :=
  if (s.merr (memOf k).1).filt.any (fun f => f.word == k) then s else ceCount k syn s

/-- An uncorrectable or poisoned word met on a read by a requester: counters, capture, event 0x905 (R386, R409). -/
def ueFound (k : Nat) (requester : Nat) (s : State) : State :=
  let m := (memOf k).1
  let a := (memOf k).2
  let syn := syndrome (s.stored k)
  let s := (s.cnt R.MEM_UE_CNT).sticky R.MEM_STATUS 0
  let s := s.setReg R.MEM_ERR_UNIT (wd (uMemory m))
  let s := s.setReg R.MEM_ERR_ADDR (wd (syn * 16777216 + a))
  let s := s.setDt R.MEM_ERR_SEC R.MEM_ERR_FRAC s.dt
  let s := if m < 16 then
      (((s.cnt (R.BANK_UE_CNT m)).sticky (R.BANK_STATUS m) 1).setReg (R.BANK_ERR_ADDR m) (wd (syn * 16777216 + 8388608 + a))).setReg
        (R.BANK_ERR_SEC m) (dtSec s.dt)
    else s
  raise 0x905 2 (uMemory m) [wd (uMemory m), wd a, wd requester, wd syn] s

/-- A demand read of index `k` (R388, R390): corrected data is delivered and not written back; a word in a retired
region, or uncorrectable, gives sub-code 0x3, a poisoned word 0x4 (R385). -/
def memRead (k requester : Nat) (s : State) : State × Acc :=
  if s.isRetired (uRegion k) && (k < 4194304 || decide (68 < (memOf k).1 ∧ (memOf k).1 < 73)) then (ueFound k requester s, .err 3) else
  match eccDec (s.stored k) with
  | .clean d => (s, .ok d)
  | .corrected d _ => (ceFound k (syndrome (s.stored k)) s, .ok d)
  | .poisoned => (ueFound k requester s, .err 4)
  | .uncorrectable => (ueFound k requester s, .err 3)

/-! ## Shared-store banks: who may access (R378, R380, R385, R398, R402) -/

/-- What lies behind a bank. -/
def State.bh (s : State) (b : Nat) : BankH := tget (fun _ => BankH.idle) s.bankH b
def State.setBh (s : State) (b : Nat) (x : BankH) : State := { s with bankH := tset (fun _ => BankH.idle) s.bankH b x }

/-- BANKb_STATE.STAGE: 0 active, 1 drain, 2 wipe. -/
def State.bankStage (s : State) (b : Nat) : Nat := s.rf (R.BANK_STATE b) 3 0
/-- BANKb_STATE.POWER: 0 ON, 1 RETAIN, 2 WAKING, 3 OFF, 4 FILLING. -/
def State.bankPower (s : State) (b : Nat) : Nat := s.rf (R.BANK_STATE b) 10 8

/-- The owner code a source acts as (R378). -/
def ownerCode : Src → Nat
  | .pcie => 1
  | .spi => 1
  | .core c => if c.val < 16 then 16 + c.val else if c.val < 18 then 3 + (c.val - 16) else 2

/-- A change of a bank's power state, with event 0x90E (R402). -/
def setBankPower (b v : Nat) (s : State) : State :=
  let o := s.bankPower b
  if o = v then s else raise 0x90E 0 (uBank b) [wd b, wd o, wd v] (s.setF (R.BANK_STATE b) 10 8 v)

/-- A non-owner access (R387): counted, event 0x902 at most once per second of DT per bank. -/
def nonOwner (b a requester : Nat) (s : State) : State :=
  let s := (s.cnt (R.BANK_NONOWNER_CNT b)).sticky (R.BANK_STATUS b) 0
  let s := (s.cnt R.MEM_NONOWNER_CNT).sticky R.MEM_STATUS 8
  raiseLimited 0x902 2 (uBank b) [wd b, wd requester, wd a] s

/-- The Conservator writes a shadow back and ends the borrowing (R397, R398); its first write fires an armed flip. -/
def shadowBack (r : Nat) (s : State) : State :=
  let k := kBank (r / 4096) (64 * (r % 4096))
  let s := if bit (s.reg R.MEM_FLIP_ARM) (r / 4096) then s.storeBits k (s.stored k) else s
  ({ s with cons := { s.cons with borrowed := none } }).setReg R.MEM_TEST_STAT (setBit (s.reg R.MEM_TEST_STAT) 16 false)

/-- An access to a borrowed region is served from the shadow; the first one abandons the test (R398). -/
def touchBorrowed (b a : Nat) (s : State) : State :=
  if s.cons.borrowed = some (4096 * b + a / 64) then
    let s := (s.cnt R.MEM_SHADOW_CNT).cnt R.MEM_TEST_ABANDON_CNT
    shadowBack (4096 * b + a / 64) s
  else s

/-- May owner code `own` (or delegate code `del`, 0 for none) access word `a` of bank `b` now? -/
def bankGate (own del b a requester : Nat) (s : State) : State × Option Acc :=
  let allowed := s.bankStage b == 0 && ((s.rf (R.BANK_OWNER b) 5 0 == own && own != 0) || (del != 0 && s.rf (R.BANK_DELEGATE b) 2 0 == del))
  if !allowed then (nonOwner b a requester s, some (.err 2))
  else if s.bankPower b = 3 then (s, some (.err 7))
  else if s.bankPower b = 1 then (({ setBankPower b 2 s with bankH := s.bankH }).setBh b { s.bh b with woken := true }, some .stall)
  else if s.bankPower b ≠ 0 || (s.bh b).wiping.isSome then (s, some .stall)
  else (touchBorrowed b a s, none)

/-- A read of word `a` of bank `b` by a requester acting as owner `own` or delegate `del`. -/
def bankRead (own del b a requester : Nat) (s : State) : State × Acc :=
  match bankGate own del b a requester s with
  | (s, some r) => (s, r)
  | (s, none) => memRead (kBank b a) requester s

/-- A write of word `a` of bank `b`; a store to a poisoned word is never an error (R385). -/
def bankWrite (own del b a : Nat) (d : Word) (requester : Nat) (s : State) : State × Acc :=
  match bankGate own del b a requester s with
  | (s, some r) => (s, r)
  | (s, none) =>
    if s.isRetired (uRegion (kBank b a)) then (s, .err 3) else (s.store (kBank b a) d, .ok d)

end Sys2Proof.Machine
end

