-- ==== Sys2Proof/Machine/Signals.lean ====
section
/-! DEFINITION. Signals.lean: the signal catalogue, satellite keys, code lengths and code stores (R54 to R65, R128,
R194, R201, R544). -/

namespace Sys2Proof.Machine

/-- A row of the signal catalogue (R59): SIG, carrier in Hz, FDMA step in Hz, component chip rate in Hz, primary chips,
secondary chips (0 none), held as memory (source M), catalogue tap RATE, replica mode of R195 (0 BPSK, 1 BOC11, 2 TMBOC,
3 CBOC E1-B, 4 CBOC E1-C, 5 ALTBOC), TDM, odd slots (R194), pilot component (R157). -/
structure Sig where
  id : Nat
  carrier : Nat
  step : Nat
  chip : Nat
  prim : Nat
  sec : Nat
  srcM : Bool
  rate : Nat
  mode : Nat
  tdm : Bool
  odd : Bool
  pilot : Bool
deriving DecidableEq, Repr

/-- The signal catalogue (R59). -/
def sigTable : List Sig := [
  ⟨0x00, 1575420000, 0, 1023000, 1023, 0, false, 4, 0, false, false, false⟩,
  ⟨0x01, 1575420000, 0, 1023000, 10230, 0, true, 4, 1, false, false, false⟩,
  ⟨0x02, 1575420000, 0, 1023000, 10230, 1800, true, 2, 2, false, false, true⟩,
  ⟨0x03, 1227600000, 0, 511500, 10230, 0, false, 4, 0, true, false, false⟩,
  ⟨0x04, 1227600000, 0, 511500, 767250, 0, false, 4, 0, true, true, true⟩,
  ⟨0x05, 1176450000, 0, 10230000, 10230, 10, false, 2, 0, false, false, false⟩,
  ⟨0x06, 1176450000, 0, 10230000, 10230, 20, false, 2, 0, false, false, true⟩,
  ⟨0x20, 1602000000, 562500, 511000, 511, 0, false, 3, 0, false, false, false⟩,
  ⟨0x21, 1246000000, 437500, 511000, 511, 0, false, 3, 0, false, false, false⟩,
  ⟨0x22, 1600995000, 0, 511500, 1023, 0, false, 4, 0, true, false, false⟩,
  ⟨0x23, 1600995000, 0, 511500, 4092, 0, false, 4, 1, true, true, true⟩,
  ⟨0x24, 1248060000, 0, 511500, 10230, 0, false, 4, 1, true, true, true⟩,
  ⟨0x25, 1202025000, 0, 10230000, 10230, 5, false, 2, 0, false, false, false⟩,
  ⟨0x26, 1202025000, 0, 10230000, 10230, 10, false, 2, 0, false, false, true⟩,
  ⟨0x40, 1575420000, 0, 1023000, 4092, 0, true, 2, 3, false, false, false⟩,
  ⟨0x41, 1575420000, 0, 1023000, 4092, 25, true, 2, 4, false, false, true⟩,
  ⟨0x42, 1176450000, 0, 10230000, 10230, 20, false, 2, 0, false, false, false⟩,
  ⟨0x43, 1176450000, 0, 10230000, 10230, 100, false, 2, 0, false, false, true⟩,
  ⟨0x44, 1207140000, 0, 10230000, 10230, 4, false, 2, 0, false, false, false⟩,
  ⟨0x45, 1207140000, 0, 10230000, 10230, 100, false, 2, 0, false, false, true⟩,
  ⟨0x46, 1191795000, 0, 10230000, 10230, 100, false, 0, 5, false, false, true⟩,
  ⟨0x47, 1278750000, 0, 5115000, 5115, 0, true, 3, 0, false, false, false⟩,
  ⟨0x48, 1278750000, 0, 5115000, 5115, 100, true, 3, 0, false, false, true⟩,
  ⟨0x60, 1561098000, 0, 2046000, 2046, 20, false, 4, 0, false, false, false⟩,
  ⟨0x61, 1575420000, 0, 1023000, 10230, 0, true, 4, 1, false, false, false⟩,
  ⟨0x62, 1575420000, 0, 1023000, 10230, 1800, true, 2, 1, false, false, true⟩,
  ⟨0x63, 1176450000, 0, 10230000, 10230, 5, false, 2, 0, false, false, false⟩,
  ⟨0x64, 1176450000, 0, 10230000, 10230, 100, false, 2, 0, false, false, true⟩,
  ⟨0x65, 1207140000, 0, 10230000, 10230, 0, false, 2, 0, false, false, false⟩,
  ⟨0x66, 1268520000, 0, 10230000, 10230, 20, false, 2, 0, false, false, false⟩,
  ⟨0x80, 1575420000, 0, 1023000, 1023, 0, false, 4, 0, false, false, false⟩,
  ⟨0x81, 1575420000, 0, 1023000, 10230, 0, true, 4, 1, false, false, false⟩,
  ⟨0x82, 1575420000, 0, 1023000, 10230, 1800, true, 2, 2, false, false, true⟩,
  ⟨0x83, 1575420000, 0, 1023000, 1023, 0, false, 4, 0, false, false, false⟩,
  ⟨0x84, 1227600000, 0, 511500, 10230, 0, false, 4, 0, true, false, false⟩,
  ⟨0x85, 1227600000, 0, 511500, 767250, 0, false, 4, 0, true, true, true⟩,
  ⟨0x86, 1176450000, 0, 10230000, 10230, 10, false, 2, 0, false, false, false⟩,
  ⟨0x87, 1176450000, 0, 10230000, 10230, 20, false, 2, 0, false, false, true⟩,
  ⟨0x88, 1176450000, 0, 10230000, 10230, 10, false, 2, 0, false, false, false⟩,
  ⟨0x89, 1176450000, 0, 10230000, 10230, 20, false, 2, 0, false, false, true⟩,
  ⟨0x8A, 1278750000, 0, 2557500, 10230, 0, false, 3, 0, true, false, false⟩,
  ⟨0x8B, 1278750000, 0, 2557500, 10230, 0, false, 3, 0, true, true, false⟩,
  ⟨0xA0, 1176450000, 0, 1023000, 1023, 0, false, 4, 0, false, false, false⟩,
  ⟨0xA1, 1575420000, 0, 1023000, 10230, 0, true, 4, 1, false, false, false⟩,
  ⟨0xA2, 1575420000, 0, 1023000, 10230, 1800, true, 2, 1, false, false, true⟩,
  ⟨0xC0, 1575420000, 0, 1023000, 1023, 0, false, 4, 0, false, false, false⟩,
  ⟨0xC1, 1176450000, 0, 10230000, 10230, 10, false, 2, 0, false, false, false⟩,
  ⟨0xC2, 1176450000, 0, 10230000, 10230, 20, false, 2, 0, false, false, true⟩]

/-- The catalogue row of a SIG; calibration signals (SYS 7) have none. -/
def sigOf (n : Nat) : Option Sig := sigTable.find? (fun r => r.id == n)

/-- A SIG value R54 defines: a catalogue row, or a calibration signal 0xE0 to 0xEF. -/
def sigDefined (n : Nat) : Bool := (sigOf n).isSome || (decide (0xE0 ≤ n) && decide (n ≤ 0xEF))

/-- SYS of a SIG (R54) and of an SVK (R55). -/
def sigSys (n : Nat) : Nat := n / 32
def svkSys (k : Nat) : Nat := k / 256

/-- A satellite key in its system's range (R55). -/
def svkOk (k : Nat) : Bool :=
  let n := k % 256
  match k / 256 with
  | 0 | 2 | 3 => decide (1 ≤ n ∧ n ≤ 63)
  | 1 => decide (1 ≤ n ∧ n ≤ 32)
  | 4 => decide (183 ≤ n ∧ n ≤ 206)
  | 5 => decide (1 ≤ n ∧ n ≤ 14)
  | 6 => decide (120 ≤ n ∧ n ≤ 158)
  | 7 => decide (n ≤ 7)
  | _ => false

/-- FCN with its signal (R56): -7 to +6 for GLONASS FDMA, zero otherwise. -/
def fcnOk (sig fcn : Nat) : Bool :=
  if sig = 0x20 ∨ sig = 0x21 then fcn % 16 != 8 && fcn % 16 != 7 else fcn == 0

/-- Carrier frequency in Hz with the frequency number (R59). -/
def carrierHz (g : Sig) (fcn : Nat) : Int := g.carrier + g.step * sext 4 fcn

/-- Decimation, rate in Hz, units and passband of a tap RATE (R124). -/
def tapDec (rate : Nat) : Nat := 2 ^ (rate + 1)
def tapHz (rate : Nat) : Nat := 163680000 / tapDec rate
def tapUnits (rate : Nat) : Nat := 16 / 2 ^ rate
def tapPass (rate : Nat) : Nat := 32736000 / 2 ^ rate

/-- A geostationary BeiDou satellite (R544). -/
def beidouGeo (svk : Nat) : Bool :=
  let n := svk % 256
  svk / 256 == 3 && (decide (1 ≤ n ∧ n ≤ 5) || decide (59 ≤ n ∧ n ≤ 63))

/-- Secondary length in force for a satellite, 1 where it carries none (R61, R544). -/
def secLen (g : Sig) (svk : Nat) : Nat :=
  if (g.id = 0x60 ∨ g.id = 0x66) ∧ beidouGeo svk then 1 else if g.sec = 0 then 1 else g.sec

/-- Primary length in chips or slots (R194). -/
def primLen (g : Sig) : Nat := if g.tdm then 2 * g.prim else g.prim

/-- Code length L in chips or slots (R61, R193). -/
def codeLen (g : Sig) (svk : Nat) : Nat := primLen g * secLen g svk

/-- Code NCO rate in chips or slots per second (R194). -/
def codeHz (g : Sig) : Nat := if g.tdm then 2 * g.chip else g.chip

/-- The integration unit U in chips or slots (R201): 20 ms for L2C-L. -/
def unitLen (g : Sig) : Nat := if g.id = 0x04 ∨ g.id = 0x85 then 20460 else primLen g

/-- Duration of LEN units in microseconds, for the bounds of R201, exact as a fraction: LEN × U × 1000 / rate in ms is
compared by cross-multiplication. -/
def lenOk (g : Sig) (len : Nat) : Bool :=
  decide (codeHz g ≤ len * unitLen g * 1000) && decide (len * unitLen g * 10 ≤ codeHz g)

/-! ## Code stores (R62 to R65) -/

/-- An entry of the code-RAM image: SIG, SVK, KIND, first chip word, LENGTH (R63). -/
structure CodeEntry where
  sig : Nat
  svk : Nat
  kind : Nat
  at_ : Nat
  len : Nat
deriving DecidableEq, Repr

/-- The entries of a code image given as a function of word number, from word `p` (R63): a zero header ends it. -/
def codeEntries (rd : Nat → Word) : Nat → Nat → List CodeEntry
  | 0, _ => []
  | n + 1, p =>
    let h := rd p
    if 65534 ≤ p ∨ h = 0#36 ∧ rd (p + 1) = 0#36 then [] else
    let len := fld (rd (p + 1)) 19 0
    ⟨fld h 28 21, fld h 20 10, fld h 9 8, p + 2, len⟩ :: codeEntries rd n (p + 2 + ceilDiv len 36)

/-- The code RAM's entries in force. -/
def State.codeRam (s : State) : List CodeEntry := codeEntries (fun p => s.peek (kCode p)) 21846 0

/-- The code-RAM entry of a SIG, SVK and KIND. -/
def State.codeFind (s : State) (sig svk kind : Nat) : Option CodeEntry :=
  s.codeRam.find? (fun e => e.sig == sig && e.svk == svk && e.kind == kind)

/-- Does the code ROM hold the primary code of a source-M signal for a satellite (R62)? -/
def romHas (sig svk : Nat) : Bool :=
  let n := svk % 256
  match sig / 32 with
  | 0 => decide (1 ≤ n ∧ n ≤ 63)
  | 4 => decide (193 ≤ n ∧ n ≤ 202)
  | 2 => decide (1 ≤ n ∧ n ≤ 50)
  | 3 => decide (1 ≤ n ∧ n ≤ 63)
  | 5 => decide (1 ≤ n ∧ n ≤ 14)
  | _ => false

/-- The primary code is in a store or generated (R65). -/
def State.codeKnown (s : State) (g : Sig) (svk : Nat) : Bool :=
  !g.srcM || romHas g.id svk || (s.codeFind g.id svk 0).isSome

/-- Chip `i` of a code entry in the code RAM (R63). How an entry is read whose LENGTH is not the code's length the spec leaves open: it is
read modulo its LENGTH (DESIGN CHOICE; notes/assumptions/69.md). -/
def State.ramChip (s : State) (e : CodeEntry) (i : Nat) : Bool :=
  bit (s.peek (kCode (e.at_ + i % e.len / 36))) (i % e.len % 36)

/-- Primary chip value (true = 1), with the precedence of R65. -/
def State.primChip (s : State) (sig svk i : Nat) : Bool :=
  match s.codeFind sig svk 0 with
  | some e => s.ramChip e i
  | none => Config.primChip sig svk i

/-- Secondary chip value (true = 1), with the precedence of R65. -/
def State.secChip (s : State) (sig svk i : Nat) : Bool :=
  match s.codeFind sig svk 1 with
  | some e => s.ramChip e i
  | none => Config.secChip sig svk i

/-- Chip value as ±1 (R60). -/
def pm (b : Bool) : Int := if b then -1 else 1

/-- The ten statuses a naming of SIG, SVK and FCN can meet first: 7 RESERVED_FIELD where R54, R55 or R56 is broken, 3
BAD_PARAM where R57 is. -/
def namesReserved (sig svk fcn : Nat) : Bool := !sigDefined sig || !svkOk svk || !fcnOk sig fcn
def namesBad (sig svk : Nat) : Bool := sigSys sig != svkSys svk || sigSys sig == 7

/-- Word 1 of the result and observable records: SIG, SVK, FCN, FE, TAP. -/
def sigWord (sig svk fcn fe tap : Nat) : Nat := sig * 16777216 + svk % 2048 * 8192 + fcn % 16 * 512 + fe * 128 + tap * 8

end Sys2Proof.Machine
end

