-- ==== Sys2Proof/Machine/Units.lean ====
section
/-! DEFINITION. Units.lean: faults, retry and retirement of units (R29 to R35), and the non-volatile store's queue of
record writes (R476, R477). -/

namespace Sys2Proof.Machine

/-! ## CRC-32 (IEEE 802.3 polynomial), used by R64, R140, R473 and R476 -/

/-- One bit step of the reflected CRC-32. -/
def crcBits : Nat → Nat → Nat
  | 0, c => c
  | n + 1, c => crcBits n (if c % 2 = 1 then (c / 2) ^^^ 0xEDB88320 else c / 2)

/-- CRC-32 over bytes, from a running value. -/
def crcRun : List Nat → Nat → Nat
  | [], c => c
  | b :: bs, c => crcRun bs (crcBits 8 (c ^^^ (b % 256)))

/-- CRC-32 (IEEE 802.3) of a list of bytes. -/
def crc32 (bs : List Nat) : Nat := crcRun bs 0xFFFFFFFF ^^^ 0xFFFFFFFF

/-- The `n` little-endian bytes of a number. -/
def leBytes : Nat → Nat → List Nat
  | 0, _ => []
  | n + 1, v => v % 256 :: leBytes n (v / 256)

/-- Words in 8-byte slots, slot bits 63:36 zero (R8). -/
def slotBytes (ws : List Word) : List Nat := (ws.map (fun w => leBytes 8 w.toNat)).flatten

/-- Words packed two to nine bytes (R474). -/
def packBytes : List Word → List Nat
  | [] => []
  | [a] => leBytes 9 a.toNat
  | a :: b :: t => leBytes 9 (a.toNat + b.toNat * 68719476736) ++ packBytes t

/-! ## The non-volatile store: record writes (R476, R477) -/

/-- A configuration record of the store (R476). -/
def State.nvsRec (s : State) (kind : Nat) : NvsRec := tget (fun _ => NvsRec.blank) s.nvs.recs kind

/-- SEQ in force: the later of the valid copies by R37; unordered or only one valid as R476 says. -/
def NvsRec.seq (r : NvsRec) : Word :=
  if r.validA && r.validB then (if later 36 r.seqB r.seqA then r.seqB else r.seqA)
  else if r.validB then r.seqB else r.seqA

/-- Is the copy in force copy B? -/
def NvsRec.isB (r : NvsRec) : Bool := r.validB && (!r.validA || later 36 r.seqB r.seqA)

/-- Is a supply monitor below its warning level (R477, R504)? -/
def State.supplyLow (s : State) : Bool := s.pwr.ivs.any (fun p => p.2.isOpen)

/-- The body a record will have once every queued write is done. -/
def State.nvsBody (s : State) (kind : Nat) : List Word :=
  match (s.nvs.writes.reverse).find? (fun w => w.kind == kind) with
  | some w => w.body
  | none => (s.nvsRec kind).body

/-- The validity bits of CUR_NVS_STAT, from bit 2 × (KIND − 1) on. -/
def nvsSync (s : State) : State :=
  let v (k : Nat) : Nat := (b2n (s.nvsRec k).validA + 2 * b2n (s.nvsRec k).validB) * 4 ^ (k - 1)
  let held := match s.nvs.writes with
    | [] => false
    | w :: _ => s.supplyLow && !w.begun
  s.setReg R.CUR_NVS_STAT
    (wd (v 1 + v 2 + v 3 + v 4 + v 5 + b2n held * 65536 + b2n (!s.nvs.writes.isEmpty && !held) * 131072))

/-- Queue a new version of a record (R477). It begins, or where no write is in progress it is deferred with event 0xA0A while a supply is
below its warning level. -/
def nvsQueue (kind : Nat) (body : List Word) (s : State) : State :=
  let free := s.nvs.writes.all (fun w => !w.begun)
  let low := free && s.supplyLow
  let s := { s with nvs := { s.nvs with writes := s.nvs.writes ++ [⟨kind, body, !s.supplyLow && s.nvs.writes.isEmpty⟩] } }
  let s := nvsSync s
  if low then raise 0xA0A 1 uNvs [wd kind] s else s

/-! ## Faults and retirement (R29 to R35) -/

/-- Unit kinds of the fault policy: 0 channel, 1 wing core, 2 front end, 3 acquisition half, 4 solution core, 5 memory
region. -/
def State.policyOf (s : State) (kind : Nat) : Policy := tget (fun _ => ⟨3, 10⟩) s.policy kind

/-- The faults recorded of a unit, newest first. -/
def State.faultsOf (s : State) (u : Nat) : List Dt := tget (fun _ => ([] : List Dt)) s.faults u

/-- R29, R30: a fault of unit `u` of a kind at DT `d`. Answers the retirement cause (0 the retry failed, 1 the K-th
within the window) when it is permanent, and records it. -/
def faultJudge (u kind : Nat) (retryOk : Bool) (d : Dt) (s : State) : Option Nat × State :=
  let p := s.policyOf kind
  let h := s.faultsOf u
  let before := h.take (p.k - 1)
  let inWindow := before.length == p.k - 1 && before.all (fun f => dtGe f (d - BitVec.ofNat 72 (p.win * 68719476736)))
  let s := { s with faults := tset (fun _ => ([] : List Dt)) s.faults u ((d :: h).take 15) }
  (if !retryOk then some 0 else if inWindow then some 1 else none, s)

/-- Remove a unit from the retired map as it is to be written. -/
def mapWithout (u : Nat) : List Word → List Word
  | a :: b :: c :: t => if a.toNat = u then mapWithout u t else a :: b :: c :: mapWithout u t
  | ws => ws

/-- Is a unit in a retired-unit map body? -/
def mapHas (u : Nat) : List Word → Bool
  | a :: _ :: _ :: t => a.toNat == u || mapHas u t
  | _ => false

/-- The units of a retired-unit map body. -/
def mapUnits : List Word → List Nat
  | a :: _ :: _ :: t => a.toNat :: mapUnits t
  | _ => []

/-- Enter a unit in the retired-unit map with the code of its event (R34); a full map holds it for this power-on only,
with event 0xA1B (R35). -/
def retireUnit (u code : Nat) (s : State) : State :=
  let s := { s with retiredNow := tset (fun _ => false) s.retiredNow u true }
  let body := s.nvsBody 4
  let entry := [wd u, dtSec s.dt, wd ((s.reg R.CUR_POWER_ON).toNat % 1048576 * 65536 + code)]
  if body.length / 3 < 1024 then nvsQueue 4 (body ++ entry) s
  else raise 0xA1B 4 uCur [wd u] { s with retiredVol := s.retiredVol ++ [entry] }

end Sys2Proof.Machine
end

