-- ==== Sys2Proof/Machine/Cmd.lean ====
section
/-! DEFINITION. Cmd.lean: how a command entry is consumed, checked, held and answered (R435 to R451, R545). Each family
gives its commands a CmdSpec. -/

namespace Sys2Proof

/-- Parameter word `i`; words past LEN are ignored (R435). -/
def Packet.par (p : Packet) (i : Nat) : Word := if i < p.len.toNat then p.params.getD i 0#36 else 0#36

/-- FIELD[hi:lo] of parameter word `i`. -/
def Packet.pf (p : Packet) (i hi lo : Nat) : Nat := Machine.fld (p.par i) hi lo

/-- Does parameter word `i` have a bit set outside a mask of its fields (R447: nonzero reserved field)? -/
def Packet.outside (p : Packet) (i mask : Nat) : Bool := ((p.par i).toNat &&& (68719476735 - mask)) != 0

end Sys2Proof

namespace Sys2Proof.Machine

/-! ## The sample clock -/

/-- Sample cycles occur: the sample synthesiser is not OFF and the clock is not absent (R115, R545). -/
def State.fsOn (s : State) : Bool := s.rf R.SYN_SMP_STATE 2 0 != 0 && !s.smp.absent

/-- The DT `n` sample cycles from now. -/
def State.dtAfter (s : State) (n : Nat) : Dt := dtOfCycle (s.cycle + n)

/-- The two words of a device time (R42). -/
def dtWords (d : Dt) : List Word := [dtSec d, dtFrac d]

/-- Does a word meant for the register at an offset have a reserved bit or a reserved value (R447, R515)? -/
def wordResv (o : Nat) (v : Word) : Bool :=
  match regAt o with
  | none => true
  | some l => (v.toNat &&& (68719476735 - (l.row.rw ||| l.row.w1c ||| l.row.wo))) != 0 || !rulesOk l.row.rules v

/-- SYN_DISC_CNT at sample cycle `c` (R112). -/
def State.discAt (s : State) (c : Nat) : Nat :=
  match s.smp.ended.find? (fun e => decide (e.1 ≤ c)) with
  | some e => e.2.1
  | none => 0

/-- SYN_DISC_CNT at a DT of this part's own time (R308, R312). -/
def State.discAtDt (s : State) (d : Dt) : Nat :=
  match s.smp.ended.find? (fun e => dtGe d (dtOfCycle e.1)) with
  | some e => e.2.1
  | none => 0

/-! ## Buffers (R449 to R451) -/

/-- A2 of a buffer descriptor at parameter words `i` to `i` + 2. -/
def bufReserved (i : Nat) (p : Packet) (s : State) : Bool :=
  p.outside i 0xFFFFFFFF || p.outside (i + 1) 0xFFFFFFFF || p.outside (i + 2) 0xFFFFFF
    || (if s.spiMode then p.pf i 31 22 != 0 || p.pf (i + 1) 31 0 != 0 else p.pf i 2 0 != 0)

/-- A3 of a buffer descriptor: a zero LEN (R450). -/
def bufEmpty (i : Nat) (p : Packet) : Bool := p.pf (i + 2) 23 0 == 0

/-- The word address (SPI) or host address of a buffer, and its length. -/
def bufAddr (i : Nat) (p : Packet) (s : State) : Nat :=
  if s.spiMode then p.pf i 21 0 else p.pf (i + 1) 31 0 * 4294967296 + p.pf i 31 0
/-- The length of a buffer that an entry names (R451). -/
def bufLen (i : Nat) (p : Packet) : Nat := p.pf (i + 2) 23 0

/-- C3 in SPI mode: the buffer lies outside one bank on loan to HOST (R450). -/
def bufUnowned (i : Nat) (p : Packet) (s : State) : Bool :=
  s.spiMode && (bufAddr i p s / 262144 != (bufAddr i p s + bufLen i p - 1) / 262144
    || !(s.rf (R.BANK_OWNER (bufAddr i p s / 262144 % 16)) 5 0 == 1 && s.bankStage (bufAddr i p s / 262144 % 16) == 0))

/-- Wait until the bank of a word serves (R384, R402). -/
def serveFor (a : Nat) (s : State) : State :=
  if !spiBankOk a s then s else
  let (s, es) := bankServe (a / 262144 % 16) s
  raiseList 8 es s

/-- Read `n` words of a bank as requester HOST; none on a bus error. -/
def readHostWords : Nat → Nat → State → List Word × Bool × State
  | 0, _, s => ([], true, s)
  | n + 1, a, s =>
    match bankRead 1 0 (a / 262144 % 16) (a % 262144) uSpi s with
    | (s, .ok w) =>
      let (ws, ok, s) := readHostWords n (a + 1) s
      (w :: ws, ok, s)
    | (s, _) => ([], false, s)

/-- The cause of a buffer failure as HIF_DMA_ERR_INFO.CAUSE codes it for a bus error in SPI mode (R451). -/
def causeBus : Nat := 5

/-- The device reads a buffer: the words, or the cause of the failure. -/
def bufFetch (i : Nat) (p : Packet) (s : State) : BufRes × State :=
  if s.spiMode then
    match readHostWords (bufLen i p) (bufAddr i p s) (serveFor (bufAddr i p s) s) with
    | (ws, true, s) => (.ok ws, s)
    | (_, false, s) => (.failed 5#4, s)
  else match p.buf with
    | .ok ws => (.ok (padTo (bufLen i p) ws), s)
    | .failed c => (.failed c, s.cnt R.HIF_DMA_ERR_CNT)

/-- The words of a buffer already fetched. -/
def Packet.words (p : Packet) : List Word :=
  match p.buf with
  | .ok ws => ws
  | .failed _ => []

/-- Would the device's write of a buffer in SPI mode meet a bus error: its bank OFF, or a retired region within it (R385, R451)? A
posted write to host memory reports none (R414). -/
def bufWriteFails (i : Nat) (p : Packet) (s : State) : Bool :=
  let a := bufAddr i p s
  s.spiMode && !bufUnowned i p s && (!spiBankOk a s
    || s.retiredNow.any (fun r => r.2 && decide (uRgn (a / 64) ≤ r.1 ∧ r.1 ≤ uRgn ((a + bufLen i p - 1) / 64))))

/-- The device writes words into the buffer described at parameter word `i`. -/
def bufPut (i : Nat) (p : Packet) (ws : List Word) (s : State) : State :=
  if s.spiMode then storeList (bufAddr i p s) ws (serveFor (bufAddr i p s) s) else s.emit (.buffer (bufAddr i p s) ws)

/-! ## The reply (R445, R446) -/

/-- The words of a reply entry. -/
def replyWords (h : HeldCmd) (status : Nat) (eff : Dt) (res : List Word) : List Word :=
  [wd (h.op * 16777216 + h.pk.tag.toNat * 4096 + status),
   wd (min res.length 16 * 1048576 + b2n h.late * 524288 + b2n h.waited * 262144 + h.cidx % 131072)]
  ++ (if status = 0 then dtWords eff else [0#36, 0#36]) ++ padTo 28 (res.take 16)

/-- Answer a command. A start-up command (its `cidx` is 131072 plus its position) has no ring entry: only a refusal of it
is reported, by event 0xA1A (R464); a register write that acts as an immediate command (its `cidx` is 262144, R346) has no reply. -/
def reply (h : HeldCmd) (status : Nat) (eff : Dt) (res : List Word) (s : State) : State :=
  if 262144 ≤ h.cidx then s
  else if 131072 ≤ h.cidx then
    if status = 0 then s else raise 0xA1A 2 uCur [wd (h.cidx - 131072), wd status] s
  else if h.pk.noReply && status == 0 then s
  else record 1 1 (replyWords h status eff res) s

/-! ## What a command is -/

/-- What a command's effect gives: a reply with its result words, no reply yet (the effect replies later), or none. -/
inductive EffRes where
  | done (ws : List Word)
  | doneAt (d : Dt) (ws : List Word)
  | later
deriving DecidableEq, Repr

/-- A command of the opcode map (R452): the LENs it takes, its A2 and A3 checks, the parameter word of a buffer
descriptor and whether the device reads it, its B2 and B3 status, whether it is late when stamped, the units it names
(R442), the sample cycle of its boundary where its kind fixes one at consumption (from the entry, and whether it keeps its stamp),
the clock and the spacing of its boundaries in sample cycles, the conditions of phase C that hold, the DT of its boundary, its
effect, the result words and the effect a refusal has where a chapter gives them (R446, R448), whether WAIT parks it, the KIND of the
store record it writes, which a supply dip defers (R457, R477), and when a stamped command without a fixed boundary falls due. -/
structure CmdSpec where
  op : Nat
  lens : Nat → Bool
  resv : Packet → State → Bool := fun _ _ => false
  parm : Packet → State → Bool := fun _ _ => false
  buf : Option (Nat × Bool) := none
  bufSt : Packet → State → Nat := fun _ _ => 0
  late : Packet → State → Bool
  units : Packet → List Nat := fun _ => []
  bnd : Packet → Bool → State → Option Nat := fun _ _ _ => none
  clock : Packet → State → Nat := fun _ s => s.cycle
  grid : Nat := 1
  chk : HeldCmd → State → List (Bool × Nat) := fun _ _ => []
  at_ : HeldCmd → State → Dt
  eff : HeldCmd → State → EffRes × State
  refuse : HeldCmd → Nat → State → List Word × State := fun _ _ s => ([], s)
  parks : Bool := true
  store : Option Nat := none
  due : HeldCmd → State → Bool := fun h s => dtGe s.dt h.pk.epoch

/-- The first sample cycle at or after a stamp. -/
def State.stampCycle (s : State) (p : Packet) : Nat := cycleOf s.cycle p.epoch

/-- R438, R545: a stamped command whose boundary is a sample cycle is late when that cycle precedes the commit point; a stamp
unordered with it is stale (R37). -/
def lateSample (p : Packet) (s : State) : Bool := s.fsOn && !later 72 p.epoch (dtOfCycle (s.cycle + 16367))

/-- R438: a stamped command of the processing kind is late when its stamp precedes the DT its processing begins. -/
def lateProc (p : Packet) (s : State) : Bool := !dtGe p.epoch s.dt

/-- The boundary of a sample-cycle command (R438): the first sample cycle at or after its stamp, or the commit point, 16,368
sample cycles after its processing. While no sample cycle occurs it acts on completion of its processing, unless its stamp is later
than the DT held (R545). -/
def bndSample (p : Packet) (stamped : Bool) (s : State) : Option Nat :=
  if stamped then (if !s.fsOn && dtGe s.dt p.epoch then none else some (s.stampCycle p))
  else if s.fsOn then some (s.cycle + 16368) else none

/-- The sample cycle of the boundary of a command whose kind fixes it, or now for one that acts at once (R545). -/
def HeldCmd.n (h : HeldCmd) (s : State) : Nat := h.bnd.getD s.cycle

/-- The DT of the boundary of a command whose kind fixes it, or of now for one that acts at once (R438, R545). -/
def atSample (h : HeldCmd) (s : State) : Dt :=
  match h.bnd with
  | some n => dtOfCycle n
  | none => s.dt

/-- The DT of the boundary of a command that takes effect on completion of its processing. -/
def atProc (_ : HeldCmd) (s : State) : Dt := s.dt

/-- The order of R447 within phase C after C1, what phase B gives first, where its access falls at the boundary (a buffer that the
device writes, R451; an image check, R488): TIMEOUT, INTEGRITY, NOT_PERMITTED, OWNERSHIP, RETIRED, BAD_PARAM, NOT_READY, BUSY, NO_RESOURCE. -/
def phaseC : List Nat := [8, 10, 7, 12, 11, 3, 5, 4, 6]

/-- The first status, in the order of R447, among the conditions that hold. -/
def firstStatus (l : List (Bool × Nat)) : Nat :=
  match phaseC.find? (fun st => l.any (fun c => c.1 && c.2 == st)) with
  | some st => st
  | none => 0

/-- Phase C conditions common to every command: a buffer outside a bank on loan (R450), or whose write fails (R451); firmware running
from ROM takes groups 0x0, 0xA and 0xB only (R463). -/
def chkCommon (c : CmdSpec) (h : HeldCmd) (s : State) : List (Bool × Nat) :=
  [(match c.buf with
    | some (i, _) => bufUnowned i h.pk s
    | none => false, 12),
   (match c.buf with
    | some (i, false) => bufWriteFails i h.pk s
    | _ => false, 8),
   (s.cur.runningRom && !(c.op / 256 == 0 || c.op / 256 == 10 || c.op / 256 == 11), 5)]

/-- The first boundary of a command's kind at or after sample cycle `n`. -/
def gridAt (g n : Nat) : Nat := ceilDiv n g * g

/-- A command that waits takes effect at the first boundary of its kind at or after cycle `n`, or later (R442). -/
def HeldCmd.after (grid : Nat) (n : Nat) (h : HeldCmd) : HeldCmd :=
  { h with bnd := h.bnd.map (fun b => max b (gridAt grid n)) }

/-- A command meets its boundary: refused, parked (R441; a store write that a supply dip defers is parked whatever WAIT holds, R457), or it
takes effect. -/
def applyCmd (c : CmdSpec) (h : HeldCmd) (s : State) : State :=
  let st := firstStatus (chkCommon c h s ++ c.chk h s)
  let deferred := st == 4 && c.store.isSome && s.supplyLow
  let s := if deferred then raise 0xA0A 1 uNvs [wd (c.store.getD 0)] s else s
  if st = 4 ∧ (h.pk.wait ∨ deferred) ∧ c.parks ∧ s.cmdPark.length < 8 then
    { s with cmdPark := s.cmdPark ++ [{ h with waited := true }] }
  else if st ≠ 0 then
    let (ws, s) := c.refuse h st s
    reply h st 0 (if st = 8 then [wd causeBus] else ws) s
  else
    let d := c.at_ h s
    match c.eff h s with
    | (.done ws, s) => reply h 0 d ws s
    | (.doneAt d ws, s) => reply h 0 d ws s
    | (.later, s) => s

/-- Does an earlier command that is held name a unit this one names (R442)? -/
def blockedBy (us : List Nat) (held : List HeldCmd) : Bool :=
  held.any (fun g => g.units.any (fun u => us.contains u))

/-- Phase A (R447): header and inline parameters; 0 when they pass. -/
def phaseA (c : CmdSpec) (p : Packet) (s : State) : Nat :=
  if 16 < p.len.toNat || (p.lateOk && !p.atEpoch) || c.resv p s
      || (match c.buf with
          | some (i, _) => bufReserved i p s
          | none => false) then 2
  else if !c.lens p.len.toNat || c.parm p s
      || (p.atEpoch && later 72 p.epoch s.dt && decide (86400 * 68719476736 ≤ (p.epoch - s.dt).toNat))
      || (match c.buf with
          | some (i, _) => bufEmpty i p
          | none => false) then 3
  else 0

/-- Phase B (R447, R451): the buffer access, then the checks of its contents. -/
def phaseB (c : CmdSpec) (p : Packet) (s : State) : Nat × List Word × Packet × State :=
  match c.buf with
  | none => (0, [], p, s)
  | some (_, false) => (0, [], p, s)
  | some (i, true) =>
    if bufUnowned i p s then (0, [], p, s) else
    let (r, s) := bufFetch i p s
    match r with
    | .failed cause => (8, [wd cause.toNat], p, s)
    | .ok ws =>
      let p' := { p with buf := .ok ws }
      (c.bufSt p' s, [], p', s)

/-- Does a command keep its stamp (it is not late), and so count among the pending commands that R440 limits? -/
def HeldCmd.stamped (h : HeldCmd) : Bool := h.pk.atEpoch && !h.late

/-- The channel moves that wait for their boundary, as the commands they are (R213, R442). -/
def State.heldMoves (s : State) : List HeldCmd :=
  s.chans.filterMap (fun p => p.2.mv.map (fun m =>
    ⟨m.op, m.pk, m.cidx, m.late, false, m.at_, uCh p.1 :: (if bit (m.pk.par 0) 22 then [] else [uCh (m.pk.pf 0 21 11)]), none⟩))

/-- Has the boundary of a command come, by its kind's clock, or by its kind's own condition for a stamped one (R438, R440)? -/
def boundaryCome (c : CmdSpec) (h : HeldCmd) (s : State) : Bool :=
  match h.bnd with
  | some n => decide (n ≤ c.clock h.pk s)
  | none => !h.stamped || c.due h s

/-- Must a command wait: for its boundary (R438, R440), or for an earlier command that names a unit it names (R442)? -/
def cmdWaits (c : CmdSpec) (h : HeldCmd) (s : State) : Bool :=
  !boundaryCome c h s || blockedBy h.units (s.cmdPend ++ s.cmdPark ++ s.heldMoves)

/-- A command whose header and parameters have been read: phases A and B, lateness, and then its boundary or the list of
commands that wait for theirs (R437 to R442, R447). -/
def admitCmd (c : CmdSpec) (h : HeldCmd) (s : State) : State :=
  let a := phaseA c h.pk s
  if a ≠ 0 then reply h a 0 [] s else
  match phaseB c h.pk s with
  | (b, ws, p, s) =>
    let h := { h with pk := p }
    if b ≠ 0 then reply h b 0 ws s else
    let late := p.atEpoch && c.late p s
    if late && !p.lateOk then reply h 9 0 [] s else
    let h := { h with late := late, bnd := c.bnd p (p.atEpoch && !late) s }
    if cmdWaits c h s then
      if h.stamped && decide (64 ≤ s.cmdPend.countP HeldCmd.stamped) then reply h 6 0 [] s else { s with cmdPend := s.cmdPend ++ [h] }
    else applyCmd c h s

/-- The words of a command entry that its header accounts for (R435). -/
def entryWords (op : Nat) (p : Packet) : List Word :=
  [wd (op * 16777216 + p.tag.toNat * 4096 + p.len.toNat * 16 + b2n p.wait * 8 + b2n p.atEpoch * 4 + b2n p.lateOk * 2 + b2n p.noReply)]
    ++ (if p.atEpoch then dtWords p.epoch else []) ++ padTo (min p.len.toNat 16) p.params

/-- In SPI mode the entry at the head of ring 0 lies in the shared store (R422): does it hold this command? A bus error on it
halts the ring (R427). -/
def spiEntry (op : Nat) (p : Packet) (s : State) : Bool × State :=
  let a := s.ringBase 0 + s.rf (R.RING_CONS 0) 16 0 % s.ringSize 0 * 32
  match readHostWords 32 a (serveFor a s) with
  | (ws, true, s) => (decide (ws.take (entryWords op p).length = entryWords op p), s)
  | (_, false, s) => (false, ringHalt 0 5 (some a) s)

/-- The device consumes the entry at the head of ring 0 (R436) and admits the command; with ring 0 not ON, empty or
stalled, or boot not complete, nothing is consumed. -/
def consumeCmd (c : CmdSpec) (p : Packet) (s : State) : State :=
  if !(s.booted && s.ringReady 0) then s else
  let (there, s) := if s.spiMode then spiEntry c.op p s else (true, s)
  if !there then s else
  let h : HeldCmd := ⟨c.op, p, s.rf (R.RING_CONS 0) 16 0, false, false, s.dt, c.units p, none⟩
  admitCmd c h ((ringConsume 0 s).cnt R.HIF_CMD_CNT)

end Sys2Proof.Machine
end

