-- ==== Sys2Proof/Machine/AcqBase.lean ====
section
/-! DEFINITION. AcqBase.lean: snapshots and their pages, and the ends of acquisition jobs (R154 to R156, R165, R166). -/

namespace Sys2Proof.Machine

/-! ## Snapshots (R154 to R156) -/

/-- A snapshot (R154). -/
def State.snap (s : State) (i : Nat) : Snap := tget (fun _ => Snap.free) s.acq.snaps i
def State.setSnap (s : State) (i : Nat) (x : Snap) : State := { s with acq := { s.acq with snaps := tset (fun _ => Snap.free) s.acq.snaps i x } }

/-- ACQ_SNAPs_DESC.STATE: 0 free, 1 capturing, 2 complete, 3 failed. -/
def State.snapState (s : State) (i : Nat) : Nat := s.rf (R.ACQ_SNAP_DESC i) 35 34
def State.snapFe (s : State) (i : Nat) : Nat := s.rf (R.ACQ_SNAP_DESC i) 31 30
def State.snapTap (s : State) (i : Nat) : Nat := s.rf (R.ACQ_SNAP_DESC i) 29 26
def State.snapRate (s : State) (i : Nat) : Nat := s.rf (R.ACQ_SNAP_DESC i) 25 23
def State.snapLen (s : State) (i : Nat) : Nat := s.rf (R.ACQ_SNAP_DESC i) 22 10

/-- Bank and word of word `w` of a list of pages. -/
def pageAt (pages : List Nat) (w : Nat) : Nat × Nat :=
  let p := pages.getD (w / 4096) 0
  (p / 64, p % 64 * 4096 + w % 4096)

/-- Index in the memories of word `w` of a list of pages. -/
def kPage (pages : List Nat) (w : Nat) : Nat := kBank (pageAt pages w).1 (pageAt pages w).2

/-- An access of ACQ to a bank waits until the bank serves (R385, R402). -/
def acqServe (b : Nat) (s : State) : State :=
  let (s, es) := bankServe b s
  raiseList 8 es s

/-- The capture writes a word of a snapshot as owner ACQ. -/
def snapPut (pages : List Nat) (w : Nat) (d : Word) (s : State) : State :=
  (bankWrite 5 0 (pageAt pages w).1 (pageAt pages w).2 d uAcq (acqServe (pageAt pages w).1 s)).1

/-- Put sample `k` of a snapshot: its code byte and X. -/
def snapSample (pages : List Nat) (k code : Nat) (x : Bool) (s : State) : State :=
  let j := k % 4
  let old := s.peek (kPage pages (k / 4))
  snapPut pages (k / 4) (setFld (setFld old (8 * j + 7) (8 * j) code) (32 + j) (32 + j) (b2n x)) s

/-- A tap sample of cycle `c` goes into every snapshot that captures the tap (R154). -/
def snapFeed (n t c code : Nat) (x : Bool) (s : State) : State :=
  s.acq.snaps.foldl (fun a p =>
    if a.snapState p.1 = 1 ∧ a.snapFe p.1 = n ∧ a.snapTap p.1 = t ∧ p.2.startN ≤ c ∧ c < p.2.endN
    then snapSample p.2.pages ((c - p.2.startN) / tapDec (a.snapRate p.1)) code x a else a) s

/-- Release a snapshot and its pages. -/
def snapFree (i : Nat) (s : State) : State := ((s.setSnap i Snap.free).setReg (R.ACQ_SNAP_DESC i) 0).setReg (R.ACQ_SNAP_SEC i) 0

/-! ## Jobs (R165, R166) -/

/-- The result record of a job after SEQ. `det`, `range`, `cn0` (2^-8 dB-Hz), threshold and cells tested as found. -/
def jobWords (j : Job) (status half : Nat) (det range : Bool) (cn0 thresh tested : Nat) (o : SearchOut) : List Word :=
  [wd (sigWord j.sig j.svk j.fcn j.fe j.tap), dtSec (dtOfCycle j.startN), dtFrac (dtOfCycle j.startN),
   wd (status * 4294967296 + b2n det * 2147483648 + b2n j.td * 1073741824 + b2n j.aged * 536870912 + b2n j.widened * 268435456
     + b2n (!j.host) * 134217728 + half * 33554432 + b2n range * 16777216 + o.excl * 4096 + j.tag % 4096),
   wd o.code, wdI o.dopp, wd o.peak, wd o.second, wd thresh, wd (o.floorE * 1073741824 + o.floorM),
   wd (cn0 * 1048576 + j.pfa * 16384 + j.nnc * 128 + j.tcoh), wd tested, wd j.cells, j.gen, wd (j.age * 65536 + o.code / 68719476736 * 32768)]

/-- Replace a job by its sequence number. -/
def State.setJob (s : State) (j : Job) : State := { s with acq := { s.acq with jobs := s.acq.jobs.map (fun k => if k.seq = j.seq then j else k) } }

/-- A job ends with a status other than DONE; `excl` where the search got that far. HALF names the half that began it (R166). -/
def jobEnd (j : Job) (status half excl : Nat) (s : State) : State :=
  s.setJob { j with stage := 2, status := status, half := half, res := jobWords j status half false false 0 0 0 { SearchOut.none with excl := excl } }

/-- A job ends OVERRUN, with event 0x404 (R155, R159). -/
def jobOverrun (j : Job) (s : State) : State :=
  let s := ((jobEnd j 3 j.half 0 s).cnt R.ACQ_OVERRUN_CNT).sticky R.ACQ_STATUS 3
  raise 0x404 2 uQueue [j.seq, wd j.snap] s

/-- The jobs not ended that name a snapshot. -/
def snapJobs (i : Nat) (s : State) : List Job := s.acq.jobs.filter (fun j => decide (j.stage < 2) && j.snap == i && j.startN == (s.snap i).startN)

/-- A snapshot is lost with a bank (R156). -/
def snapLose (i : Nat) (s : State) : State :=
  let js := snapJobs i s
  let s := js.foldl (fun s j => (jobEnd j 2 j.half 0 s).cnt R.ACQ_LOST_CNT) s
  raise 0x405 2 uAcq [wd i, wd js.length] ((snapFree i s).sticky R.ACQ_STATUS 2)

/-- Every snapshot with a page in a bank that is taken away from ACQ is lost. -/
def snapsLost (b : Nat) (s : State) : State :=
  (List.range 32).foldl (fun a i => if a.snapState i ≠ 0 ∧ (a.snap i).pages.any (fun p => p / 64 == b) then snapLose i a else a) s

/-- Banks on loan to ACQ, in ascending order (R154). -/
def acqBanks (s : State) : List Nat := (List.range 16).filter (fun b => s.rf (R.BANK_OWNER b) 5 0 == 5 && s.bankStage b == 0)

/-- Pages held by snapshots. -/
def acqHeld (s : State) : List Nat := (s.acq.snaps.map (fun p => p.2.pages)).flatten

/-- A page that holds a retired region is not handed out (R406). -/
def pageRetired (p : Nat) (s : State) : Bool := (List.range 64).any (fun i => s.isRetired (uRgn (4096 * (p / 64) + p % 64 * 64 + i)))

/-- Has the last admitted job that names a snapshot with AUTO_REL reached its nominal end by cycle `g` (R156)? -/
def snapDone (g i : Nat) (s : State) : Bool :=
  let mine := s.acq.jobs.filter (fun j => j.snap == i && j.startN == (s.snap i).startN)
  s.snapState i != 0 && bit (s.reg (R.ACQ_SNAP_DESC i)) 33 && !mine.isEmpty && mine.all (fun j => decide (j.nomEnd ≤ g))

/-- The pages that the nominal schedule has released by cycle `g` are free (R156, R159). -/
def snapsRelease (g : Nat) (s : State) : State := (List.range 32).foldl (fun a i => if snapDone g i a then snapFree i a else a) s

/-- The free pages of the banks on loan to ACQ, ascending. -/
def acqFree (s : State) : List Nat :=
  let held := acqHeld s
  ((acqBanks s).map (fun b => (List.range 64).map (fun p => b * 64 + p))).flatten.filter (fun p => !held.contains p && !pageRetired p s)

end Sys2Proof.Machine
end

