-- ==== Sys2Proof/Machine/Banks.lean ====
section
/-! DEFINITION. Banks.lean: owners, delegates, handovers, wipes and power states of the shared store (R378 to R384, R402, R407). -/

namespace Sys2Proof.Machine

/-! ## Who may write a bank's registers (R378, R379) -/

/-- An owner code that is not reserved (R378). -/
def ownerOk (v : Nat) : Bool := decide (v ≤ 6) || (decide (16 ≤ v) && decide (v ≤ 31))

/-- R379: may a requester that acts as owner code `own` write the bank's registers? -/
def bankMay (own b : Nat) (s : State) : Bool :=
  let o := s.rf (R.BANK_OWNER b) 5 0
  (own == o && own != 0) || (own == 1 && o == 0) || own == 2

/-- A write to a bank's register by another requester: discarded, DENIED, event 0x901. -/
def bankDenied (b requester off : Nat) (s : State) : State :=
  raise 0x901 1 (uBank b) [wd b, wd requester, wd off] (s.sticky (R.BANK_STATUS b) 8)

/-- The core that acts as an owner code, if it is an Apone core. -/
def ownerCore (v : Nat) : Option Nat :=
  if 16 ≤ v then some (v - 16) else if v = 2 then some 18 else if v = 3 ∨ v = 4 then some (13 + v) else none

/-- Interrupt line 2 at an owner's core (R366, R380). -/
def ownerLine (v : Nat) (s : State) : State :=
  match ownerCore v with
  | some c => pendLine c 2 s
  | none => s

/-! ## Replies that wait -/

/-- Take the first command waiting under a key. -/
def takeReply (k : Nat) (s : State) : Option HeldCmd × State :=
  match s.waitReply.find? (fun p => p.1 == k) with
  | none => (none, s)
  | some p => (some p.2, { s with waitReply := s.waitReply.erase p })

/-- Answer the commands waiting under a key, OK, with the DT of now as their EFFECT and their words. -/
def replyNow (k : Nat) (s : State) : State :=
  (s.waitReply.filter (fun p => p.1 == k)).foldl (fun a p => reply p.2 0 a.dt (dtWords a.dt) a) { s with waitReply := s.waitReply.filter (fun p => p.1 != k) }

/-! ## Power states (R402) -/

/-- Carry out the request held in BANKb_POWER. RETAIN from OFF refills first; RETAIN asked of a bank that is waking for an access is
answered at once, for it returns there after that access (DESIGN CHOICE: notes/assumptions/26.md). -/
def bankPowerGo (b : Nat) (s : State) : State :=
  let p := s.bankPower b
  let s := s.setBh b { s.bh b with woken := false, scrubbing := false }
  match s.rf (R.BANK_POWER b) 1 0 with
  | 0 => if p = 3 then setBankPower b 4 s else if p = 1 then setBankPower b 2 s else if p = 0 then replyNow (16 + b) s else s
  | 1 =>
    if p = 3 then setBankPower b 4 s
    else if p = 0 then replyNow (16 + b) (setBankPower b 1 s)
    else if p = 1 then replyNow (16 + b) s
    else if p = 2 then replyNow (16 + b) (s.setBh b { s.bh b with woken := true })
    else s
  | _ =>
    let s := if p = 3 then s else setBankPower b 3 (s.zeroMem (kBank b 0) 262144)
    replyNow (16 + b) (s.setBh b { s.bh b with wiping := none })

/-- A permitted power request: during a handover it waits for activation. -/
def bankPowerSet (b : Nat) (v : Word) (s : State) : State :=
  let s := s.setReg (R.BANK_POWER b) v
  if s.bankStage b ≠ 0 then s.setBh b { s.bh b with powReq := some v } else bankPowerGo b s

/-- A write to BANKb_POWER (R379, R402). -/
def bankPowerWrite (own requester b : Nat) (v : Word) (s : State) : State :=
  if !bankMay own b s then bankDenied b requester (R.BANK_POWER b) s else bankPowerSet b v s

/-- BANK_WAKE_COMPLETE; a bank that a waiting access has already woken answers its BANK_POWER here. -/
def execBankWakeComplete (b : Fin 16) (s : State) : Host.Outcome State Fault Refusal :=
  if s.bankPower b = 2 ∨ s.bankPower b = 0 then .next (replyNow (16 + b) (setBankPower b 0 s)) else .next s

/-- BANK_REFILL_COMPLETE: zero data everywhere, then ON, or RETAIN where that was asked for. -/
def execBankRefillComplete (b : Fin 16) (s : State) : Host.Outcome State Fault Refusal :=
  if s.bankPower b ≠ 4 then .next s else
  let s := s.zeroMem (kBank b 0) 262144
  .next (replyNow (16 + b) (setBankPower b (if s.rf (R.BANK_POWER b) 1 0 = 1 then 1 else 0) s))

/-- BANK_IDLE_TIMEOUT: a bank woken by an access goes back to RETAIN. -/
def execBankIdleTimeout (b : Fin 16) (s : State) : Host.Outcome State Fault Refusal :=
  let x := s.bh b
  if s.bankPower b = 0 && x.woken && s.rf (R.BANK_POWER b) 1 0 == 1 && s.rf (R.BANK_POWER b) 13 2 != 0 && s.bankStage b == 0
  then .next (setBankPower b 1 (s.setBh b { x with woken := false })) else .next s

/-! ## Wipes (R384) -/

/-- A Vault wipe is done: counted, with event 0x90C. -/
def vaultWiped (b cause : Nat) (s : State) : State :=
  raise 0x90C 1 (uBank b) [wd b, wd cause] ((s.cnt R.MEM_VAULT_WIPE_CNT).sticky R.MEM_STATUS 6)

/-- Is a bank one that a wipe of the Vault wipes now? A bank in the wipe step of a handover is being wiped, an OFF or filling one holds
nothing. -/
def vaultDue (b : Nat) (s : State) : Bool :=
  bit (s.reg (R.BANK_CFG b)) 1 && !(s.bankStage b == 2 || s.bankPower b == 3 || s.bankPower b == 4)

/-- A Vault bank's wipe falls due outside a handover's wipe step. -/
def vaultWipe (cause b : Nat) (s : State) : State := if vaultDue b s then s.setBh b { s.bh b with wiping := some cause } else s

/-- Every Vault bank's wipe falls due (1 tamper, 2 life cycle). -/
def vaultWipeAll (cause : Nat) (s : State) : State := (List.range 16).foldl (fun s b => vaultWipe cause b s) s

/-- At a reset, Vault banks are wiped before any processor is released. -/
def vaultReset (s : State) : State :=
  (List.range 16).foldl (fun s b => if bit (s.reg (R.BANK_CFG b)) 1 && s.bankPower b != 3 then vaultWiped b 3 (s.zeroMem (kBank b 0) 262144) else s) s

/-- VAULT_WIPE_COMPLETE. -/
def execVaultWipeComplete (b : Fin 16) (s : State) : Host.Outcome State Fault Refusal :=
  match (s.bh b).wiping with
  | none => .next s
  | some cause => .next (vaultWiped b cause ((s.zeroMem (kBank b 0) 262144).setBh b { s.bh b with wiping := none }))

/-! ## Handovers (R380 to R382) -/

/-- Accept a handover to owner `v`; a bank that leaves ACQ takes its snapshots with it (R156). -/
def handoverStart (b v : Nat) (s : State) : State :=
  let s := if s.rf (R.BANK_OWNER b) 5 0 = 5 ∧ v ≠ 5 then snapsLost b s else s
  (s.setF (R.BANK_STATE b) 3 0 1).setF (R.BANK_STATE b) 21 16 v

/-- R380, R381: a write to BANKb_OWNER by a requester that acts as owner code `own`. -/
def bankOwnerWrite (own requester b v : Nat) (s : State) : State :=
  if !ownerOk v then s
  else if !bankMay own b s then bankDenied b requester (R.BANK_OWNER b) s
  else if s.bankStage b ≠ 0 then
    if own = 2 then (s.setBh b { s.bh b with held := some v }).setF (R.BANK_STATE b) 4 4 1
    else s.sticky (R.BANK_STATUS b) 8
  else handoverStart b v s

/-- The Curator hands a bank over (R382). -/
def curatorHandover (b v : Nat) (s : State) : State := bankOwnerWrite 2 uCurCore b v s

/-- Every bank with owner `o`, or about to have it, goes to `v` (R382). -/
def handoverFrom (o v : Nat) (s : State) : State :=
  (List.range 15).foldl (fun s b =>
    if s.rf (R.BANK_OWNER b) 5 0 = o ∨ (s.bankStage b ≠ 0 ∧ s.rf (R.BANK_STATE b) 21 16 = o) then curatorHandover b v s else s) s

/-- The handover needs a wipe. -/
def needsWipe (b : Nat) (s : State) : Bool := bit (s.reg (R.BANK_CFG b)) 1 || bit (s.reg (R.BANK_CFG b)) 0

/-- A borrowed region of the bank goes back (R380 step 2). -/
def drainBorrowed (b : Nat) (s : State) : State :=
  match s.cons.borrowed with
  | some r => if r / 4096 = b then shadowBack r (s.cnt R.MEM_TEST_ABANDON_CNT) else s
  | none => s

/-- HANDOVER_DRAIN_COMPLETE: the drain ends, and the wipe begins where one is needed. -/
def execHandoverDrainComplete (b : Fin 16) (s : State) : Host.Outcome State Fault Refusal :=
  if s.bankStage b ≠ 1 then .next s else
  let s := drainBorrowed b s
  .next (if needsWipe b s then (s.setF (R.BANK_STATE b) 3 0 2).setBh b { s.bh b with wiping := none } else s)

/-- Is a bank on loan to STREAM (R426)? -/
def State.streamBank (s : State) : Bool := (List.range 16).any (fun b => s.rf (R.BANK_OWNER b) 5 0 == 6)

/-- STREAM's last bank is handed over: every stream ring that is ON enters HALT, staging lost (R426, R427). -/
def streamsHalt (s : State) : State :=
  if s.streamBank then s else
  (List.range 32).foldl (fun s q => if s.ringOn q && (s.ringClass q == 0xC || s.ringClass q == 0xD) then ringHalt q 6 none s else s) s

/-- HANDOVER_ACTIVATE: the new owner is in place (R380 step 4); a power request and a held handover that waited follow (R381, R402). -/
def execHandoverActivate (b : Fin 16) (s : State) : Host.Outcome State Fault Refusal :=
  let st := s.bankStage b
  if st = 0 || (st == 1 && needsWipe b s) then .next s else
  let s := drainBorrowed b s
  let x := s.bh b
  let wiped := st == 2
  let old := s.rf (R.BANK_OWNER b) 5 0
  let new := s.rf (R.BANK_STATE b) 21 16
  let s := if wiped then s.zeroMem (kBank b 0) 262144 else s
  let s := (s.setF (R.BANK_OWNER b) 5 0 new).setReg (R.BANK_DELEGATE b) 0
  let s := (s.setF (R.BANK_STATE b) 3 0 0).setF (R.BANK_STATE b) 21 16 0
  let s := (s.setDt (R.BANK_HO_SEC b) (R.BANK_HO_FRAC b) s.dt).cnt (R.BANK_HO_CNT b)
  let s := ownerLine new (ownerLine old s)
  let s := if old = 6 ∧ new ≠ 6 then streamsHalt s else s
  let s := raise 0x900 0 (uBank b) [wd b, wd old, wd new, wd (b2n wiped)] s
  let s := if wiped && bit (s.reg (R.BANK_CFG b)) 1 then vaultWiped b 0 s else s
  let s := replyNow b s
  let s := if x.powReq.isSome then bankPowerGo b (s.setBh b { s.bh b with powReq := none }) else s
  match x.held with
  | none => .next s
  | some v => .next (handoverStart b v ((s.setBh b { s.bh b with held := none }).setF (R.BANK_STATE b) 4 4 0))

/-! ## Commands (R407) -/

/-- The bank a memory command names, and whether the host may not write it. -/
def hostDenied (b : Nat) (s : State) : Bool := !bankMay 1 b s

/-- BANK_HANDOVER: replied to at activation. -/
def bankHandoverSpec : CmdSpec where
  op := 0x900
  lens := fun n => n == 1
  resv := fun p _ => p.outside 0 0x3FF || !ownerOk (p.pf 0 5 0)
  late := lateProc
  units := fun p => [uBank (p.pf 0 9 6)]
  chk := fun h s =>
    let b := h.pk.pf 0 9 6
    [(hostDenied b s, 12), (s.bankStage b != 0, 4)]
  at_ := atProc
  eff := fun h s =>
    let b := h.pk.pf 0 9 6
    let s := bankOwnerWrite 1 uHif b (h.pk.pf 0 5 0) s
    (.later, { s with waitReply := s.waitReply ++ [(b, h)] })

/-- The fields of a bank's configuration that a requester may set: VAULT stays while VLOCK is 1, VLOCK stays once 1 (R384). -/
def bankCfgSet (b : Nat) (v : Nat) (s : State) : State :=
  let o := s.reg (R.BANK_CFG b)
  let lock := bit o 2
  let vault := if lock then fld o 1 1 else v / 2 % 2
  s.setReg (R.BANK_CFG b) (wd (b2n (lock || v / 4 % 2 == 1) * 4 + vault * 2 + v % 2))

/-- BANK_CONFIG (R384, R407). -/
def bankConfigSpec : CmdSpec where
  op := 0x901
  lens := fun n => n == 1
  resv := fun p _ => p.outside 0 0xF707 || decide (3 ≤ p.pf 0 10 8)
  late := lateProc
  units := fun p => [uBank (p.pf 0 15 12)]
  chk := fun h s =>
    let b := h.pk.pf 0 15 12
    [(hostDenied b s, 12), (bit (s.reg (R.BANK_CFG b)) 2 && h.pk.pf 0 1 1 != s.rf (R.BANK_CFG b) 1 1, 7)]
  at_ := atProc
  eff := fun h s =>
    let b := h.pk.pf 0 15 12
    (.done [], (bankCfgSet b (h.pk.pf 0 2 0) s).setReg (R.BANK_DELEGATE b) (wd (h.pk.pf 0 10 8)))
  refuse := fun h st s =>
    let b := h.pk.pf 0 15 12
    ([], if st = 7 ∧ !hostDenied b s then (bankCfgSet b (h.pk.pf 0 2 0) s).setReg (R.BANK_DELEGATE b) (wd (h.pk.pf 0 10 8)) else s)

/-- BANK_POWER: replied to when the state is reached. -/
def bankPowerSpec : CmdSpec where
  op := 0x902
  lens := fun n => n == 1
  resv := fun p _ => p.outside 0 0xF3FFF || p.pf 0 1 0 == 3
  late := lateProc
  units := fun p => [uBank (p.pf 0 19 16)]
  chk := fun h s => [(hostDenied (h.pk.pf 0 19 16) s, 12)]
  at_ := atProc
  eff := fun h s =>
    let b := h.pk.pf 0 19 16
    (.later, bankPowerSet b (wd (h.pk.pf 0 13 0)) { s with waitReply := s.waitReply ++ [(16 + b, h)] })

/-- The field repair map, two words an entry. -/
def State.repairMap (s : State) : List Word := s.nvsBody 3

/-- MEM_REPAIR_READ. -/
def memRepairReadSpec : CmdSpec where
  op := 0x903
  lens := fun n => n == 3
  buf := some (0, false)
  late := lateProc
  at_ := atProc
  eff := fun h s =>
    let n := min (s.repairMap.length / 2) (bufLen 0 h.pk / 2)
    (.done [wd n], bufPut 0 h.pk (s.repairMap.take (2 * n)) s)

/-- BANK_HANDOVER. -/
def execBankHandover (p : Packet) (s : State) : Host.Outcome State Fault Refusal := .next (consumeCmd bankHandoverSpec p s)
/-- BANK_CONFIG. -/
def execBankConfig (p : Packet) (s : State) : Host.Outcome State Fault Refusal := .next (consumeCmd bankConfigSpec p s)
/-- BANK_POWER. -/
def execBankPower (p : Packet) (s : State) : Host.Outcome State Fault Refusal := .next (consumeCmd bankPowerSpec p s)
/-- MEM_REPAIR_READ. -/
def execMemRepairRead (p : Packet) (s : State) : Host.Outcome State Fault Refusal := .next (consumeCmd memRepairReadSpec p s)

end Sys2Proof.Machine
end

