-- ==== Sys2Proof/Machine/Timing.lean ====
section
/-! DEFINITION. Timing.lean: time scales (R50 to R53), the timing unit's time pulses and capture inputs (R299 to R317). -/

namespace Sys2Proof.Machine

/-! ## Scale time -/

/-- One second in 2^-4 tick. -/
def sec16 : Int := 1099511627776

/-- The period of a scale in seconds: week scales, day scales (R50). -/
def scalePeriod (k : Nat) : Int := if (1 ≤ k ∧ k ≤ 3) ∨ k = 5 ∨ k = 6 ∨ k = 14 then 604800 else 86400

/-- A defined time-scale identifier (R50). -/
def scaleOk (k : Nat) : Bool := k < 16 && k != 7 && k != 15

/-- Division rounded to the nearest, halves up. -/
def divRound (a b : Int) : Int := (2 * a + b) / (2 * b)

/-- The offset of a model at DT `t16` (2^-4 tick): off + rate × (t − t_e) (R303). -/
def TModel.o (m : TModel) (t16 : Int) : Int := m.off + divRound (m.rate * (t16 - 16 * m.at_.toNat)) (2 ^ 48)

/-- Period number, seconds and 2^-4 tick within the second of a scale time, with the leap second to come (R51, R53): a
day that ends at `e` runs one second longer or shorter. -/
def scaleParts (k : Nat) (leap : Option (Int × Bool)) (t : Int) : Int × Int × Int :=
  let p := scalePeriod k * sec16
  let plain (x : Int) : Int × Int × Int := (x / p, x % p / sec16, x % sec16)
  match leap with
  | none => plain t
  | some (e, true) =>
    if t < e then plain t
    else if t < e + sec16 then (e / p - 1, p / sec16 + (t - e) / sec16, (t - e) % sec16)
    else plain (t - sec16)
  | some (e, false) => if t < e - sec16 then plain t else plain (t + sec16)

/-- The scale-time words of a scale time in 2^-4 tick, rounded to the tick (R44, R51). -/
def scaleWords (k : Nat) (leap : Option (Int × Bool)) (t : Int) : List Word :=
  let r := scaleParts k leap (16 * ((t + 8) / 16))
  [wd ((r.1 % 65536).toNat * 1048576 + r.2.1.toNat), wd (r.2.2 / 16).toNat]

/-- Milliseconds in the period that contains a scale time, leap second included. -/
def periodMs (k : Nat) (leap : Option (Int × Bool)) (t : Int) : Int :=
  let p := scalePeriod k * sec16
  match leap with
  | some (e, ins) => if e - p ≤ t ∧ t < (if ins then e + sec16 else e) then scalePeriod k * 1000 + (if ins then 1000 else -1000) else scalePeriod k * 1000
  | none => scalePeriod k * 1000

/-- Milliseconds within the period (R300), rounded up to the next whole millisecond. -/
def withinMs (k : Nat) (leap : Option (Int × Bool)) (t : Int) : Int :=
  let r := scaleParts k leap t
  r.2.1 * 1000 + (r.2.2 * 1000 + sec16 - 1) / sec16

/-- A label as one number that grows with the scale: period number, then milliseconds within it. -/
def labelCode (k : Nat) (leap : Option (Int × Bool)) (ms : Int) : Int :=
  let t := ms * sec16 / 1000 + 8
  if k = 0 then ms else (scaleParts k leap t).1 * 1099511627776 + (scaleParts k leap t).2.1 * 1000 + ms % 1000

/-- The first label of period `P` ms at or after a scale time, in milliseconds of the scale (R300). -/
def firstLabel (k : Nat) (leap : Option (Int × Bool)) (pms t : Int) : Int :=
  let ms := (t * 1000 + sec16 - 1) / sec16
  if k = 0 then (ms + pms - 1) / pms * pms
  else
    let w := withinMs k leap t
    let d := periodMs k leap t
    let w' := (w + pms - 1) / pms * pms
    if w' < d then ms + (w' - w) else ms + (d - w)

/-- The label that follows a label. -/
def nextLabel (k : Nat) (leap : Option (Int × Bool)) (pms ms : Int) : Int := firstLabel k leap pms ((ms * sec16 + 999) / 1000 + 16)

/-- Labels from one to another (from counted, to not), by their codes; a day that the leap second ends has labels of its own length. -/
def labelCount (k : Nat) (leap : Option (Int × Bool)) (pms a b : Int) : Nat :=
  if k = 0 then ((b - a) / pms).toNat
  else
    let per (ms : Int) : Int := (ms + pms - 1) / pms
    let day := scalePeriod k * 1000
    let i (c : Int) : Int := c / 1099511627776 * per day + c % 1099511627776 / pms
    let extra : Int :=
      match leap with
      | none => 0
      | some (e, ins) =>
        let d := e / (scalePeriod k * sec16) - 1
        if a / 1099511627776 ≤ d ∧ d < b / 1099511627776 then per (if ins then day + 1000 else day - 1000) - per day else 0
    (i b - i a + extra).toNat

/-! ## Registers and state of the outputs -/

/-- A time-pulse output. -/
def State.tp (s : State) (n : Nat) : TpSt := tget (fun _ => TpSt.idle) s.tpc.outs n
def State.setTp (s : State) (n : Nat) (x : TpSt) : State := { s with tpc := { s.tpc with outs := tset (fun _ => TpSt.idle) s.tpc.outs n x } }
def State.cap (s : State) (n : Nat) : CapSt := tget (fun _ => CapSt.idle) s.tpc.caps n
def State.setCap (s : State) (n : Nat) (x : CapSt) : State := { s with tpc := { s.tpc with caps := tset (fun _ => CapSt.idle) s.tpc.caps n x } }
def State.model (s : State) (k : Nat) : TModel := if k = 0 then { TModel.unset with avail := true } else tget (fun _ => TModel.unset) s.tpc.models k
def State.tpState (s : State) (n : Nat) : Nat := s.rf (R.TP_STATE n) 2 0
def State.tpScale (s : State) (n : Nat) : Nat := s.rf (R.TP_CFG n) 35 32

/-- DT now in 2^-4 tick. -/
def State.now16 (s : State) : Int := 16 * s.dt.toNat

/-- The sample synthesiser is LOCKED (R110). -/
def State.smpLocked (s : State) : Bool := s.rf R.SYN_SMP_STATE 3 0 == 2

/-- Change an output's state, mirrored in TPC_STATE, with event 0x700 (R299, R316). -/
def tpSetState (n v : Nat) (s : State) : State :=
  let o := s.tpState n
  if o = v then s else
  let s := (s.setF (R.TP_STATE n) 2 0 v).setF R.TPC_STATE (3 * n + 2) (3 * n) v
  raise 0x700 0 (uTp n) [wd o, wd v] s

/-- Δ at DT `t16`: it has moved towards zero at SLEW ps/s since `dAt` (R303). -/
def tpDelta (n : Nat) (t16 : Int) (s : State) : Int :=
  let x := s.tp n
  let moved := (t16 - 16 * x.dAt.toNat) * s.rf (R.TP_SLEW n) 19 0 / 1000000000000
  if x.delta < 0 then min 0 (x.delta + max 0 moved) else max 0 (x.delta - max 0 moved)

/-- The model's offset as numbered now: past the end of a leap day it takes the leap second (R53). -/
def TModel.oNow (k : Nat) (m : TModel) (t16 : Int) : Int :=
  let o := m.o t16
  match m.leap with
  | some (e, true) => if e + sec16 ≤ t16 + o then o - sec16 else o
  | some (e, false) => if e - sec16 ≤ t16 + o then o + sec16 else o
  | none => if k = 0 then 0 else o

/-- The DT (2^-4 tick) at which t + A(t) = Λ − OFS (R301), by iteration on the slowly changing A. -/
def tpSolve (n : Nat) (m : TModel) (target : Int) (s : State) : Int :=
  let a (t : Int) : Int := m.o t + tpDelta n t s
  let t1 := target - a s.now16
  let t2 := target - a t1
  let t3 := target - a t2
  target - a t3

/-- A label in milliseconds as scale time in 2^-4 tick. -/
def labelTime (ms : Int) : Int := divRound (ms * sec16) 1000

/-- The DT of the edge of a label (R301). -/
def tpEdgeAt (n : Nat) (m : TModel) (ms : Int) (s : State) : Int :=
  tpSolve n m (labelTime ms - 16 * sfld (s.reg (R.TP_OFS n)) 35 0) s

/-- 1 ns in 2^-4 tick, rounded up. -/
def ns16 : Int := 1100

/-- A jump (R304): Δ becomes zero; event 0x704 with its cause. Answers the Δ removed. -/
def tpJump (n cause : Nat) (s : State) : Int × State :=
  let d := tpDelta n s.now16 s
  let s := s.setTp n { s.tp n with delta := 0, jump := true }
  let s := (s.setF (R.TP_STATE n) 3 3 0).setReg (R.TP_SLEW_END_SEC n) 0
  let s := ((s.sticky (R.TP_STATUS n) 2).sticky R.TPC_STATUS 2).cnt R.TPC_JUMP_CNT
  (d, raise 0x704 2 (uTp n) [wdI d, wd cause] s)

/-- The ticks in which Δ reaches zero at SLEW (R303). -/
def tpSlewTicks (n : Nat) (d : Int) (s : State) : Nat := ceilDiv (d.natAbs * 1000000000000) (16 * max (s.rf (R.TP_SLEW n) 19 0) 1)

/-- Δ is `d` at DT `u` and slews from there at the SLEW in force. -/
def tpSlewFrom (n : Nat) (d : Int) (u : Dt) (s : State) : State :=
  let s := s.setTp n { s.tp n with delta := d, dAt := u }
  let s := s.setF (R.TP_STATE n) 3 3 (b2n (d != 0))
  s.setReg (R.TP_SLEW_END_SEC n) (if d = 0 then 0 else dtSec (u + BitVec.ofNat 72 (tpSlewTicks n d s)))

/-- Δ takes a value at DT `u` and slews from there. Event 0x702 marks an update that takes |Δ| from at most 1 ns to more (R303; DEDUCED:
notes/assumptions/51.md). -/
def tpSetDelta (n : Nat) (d : Int) (was : Int) (u : Dt) (s : State) : State :=
  let s := if was = 0 then s.setTp n { s.tp n with slewAt := u } else s
  let s := tpSlewFrom n d u s
  if (was.natAbs : Int) < ns16 ∧ ns16 ≤ (d.natAbs : Int) then raise 0x702 1 (uTp n) [wdI d, wd (tpSlewTicks n d s * 1000 / 68719476736)] s else s

/-- How far O falls from one model to the next at DT `t16`, by the numbering of one of them (R303, R53). -/
def TModel.drop (k : Nat) (a b : TModel) (t16 : Int) : Int :=
  if a.leap = b.leap then a.o t16 - b.o t16 else a.oNow k t16 - b.oNow k t16

/-- One output at a model update: A is continuous (R303); the jump policy of R304 follows. -/
def tpUpdateOne (old : List (Nat × TModel)) (n : Nat) (s : State) : State :=
  if s.tpState n ≠ 2 then s else
  let k := s.tpScale n
  let m0 := tget (fun _ => TModel.unset) old k
  let m1 := s.model k
  let s := s.setF (R.TP_STATE n) 4 4 (b2n m1.hold)
  if k = 0 || !m0.avail then s else
  let was := tpDelta n s.now16 s
  let d := was + m0.drop k m1 s.now16
  if bit (s.reg (R.TP_CFG n)) 30 && decide (16 * (s.reg (R.TP_JUMP_TH n)).toNat < d.natAbs) then
    (tpJump n 1 (s.setTp n { s.tp n with delta := d, dAt := s.dt })).2
  else tpSetDelta n d was s.dt s

/-- Put models over others by scale. -/
def overModels (old new : List (Nat × TModel)) : List (Nat × TModel) :=
  new.foldl (fun a p => tset (fun _ => TModel.unset) a p.1 p.2) old

/-- TP_MODEL_UPDATE: the oldest model update takes effect at u = t_e + 327,360 sample cycles (R303). -/
def execTpModelUpdate (s : State) : Host.Outcome State Fault Refusal :=
  match s.tpc.upd with
  | [] => .next s
  | (u, _, ms) :: rest =>
    if !s.fsOn || decide (s.cycle < u) then .next s else
    let old := s.tpc.models
    let s := { s with tpc := { s.tpc with models := overModels old ms, upd := rest } }
    .next (tpUpdateOne old 3 (tpUpdateOne old 2 (tpUpdateOne old 1 (tpUpdateOne old 0 s))))

/-- Place the first pulse of an alignment: Δ = 0 and FIRST set; on a scale of which no label has been emitted yet, any label will do
(R304). -/
def tpAlign (n : Nat) (fresh : Bool) (s : State) : State :=
  let x := s.tp n
  (s.setTp n { x with delta := 0, first := true, lastLabel := if fresh then none else x.lastLabel }).sticky (R.TP_STATUS n) 0

/-- TP_FIRST_ALIGNMENT: an output in WAIT whose scale is available enters RUN (R299, R304). -/
def execTpFirstAlignment (n : Fin 4) (s : State) : Host.Outcome State Fault Refusal :=
  let k := s.tpScale n
  let m := s.model k
  if s.tpState n ≠ 1 || !m.avail || !s.fsOn then .next s else
  let s := tpSetState n 2 s
  let s := tpAlign n true (s.setTp n { s.tp n with pulses := 0, skip := 0, jump := false, step := false })
  let s := s.setF (R.TP_STATE n) 4 4 (b2n m.hold)
  let lo := 16 * (dtOfCycle (s.cycle + 64)).toNat
  let l := firstLabel k m.leap (s.rf (R.TP_PERIOD n) 15 0) (lo + m.o lo + 16 * sfld (s.reg (R.TP_OFS n)) 35 0)
  .next (raise 0x701 1 (uTp n) [(scaleWords k m.leap (labelTime l)).headD 0] s)

/-- The next edge of an output in RUN: the first label whose edge lies 64 sample cycles ahead or more and 64 after the last
trailing edge, later than the last label emitted; and how many labels it skips (R302): none before the first of an alignment. -/
def tpNext (n : Nat) (s : State) : Int × Int × Nat :=
  let k := s.tpScale n
  let m := s.model k
  let x := s.tp n
  let pms : Int := s.rf (R.TP_PERIOD n) 15 0
  let lo0 : Int := 16 * (dtOfCycle (s.cycle + 63)).toNat + 1
  let gap : Int := 16 * 26870
  let lo := match x.trail.orElse (fun _ => x.lastTrail) with
    | some t => max lo0 (t + gap)
    | none => lo0
  let l := firstLabel k m.leap pms (lo + m.o lo + tpDelta n lo s + 16 * sfld (s.reg (R.TP_OFS n)) 35 0)
  match x.lastLabel with
  | none => (l, tpEdgeAt n m l s, 0)
  | some last =>
    let code := labelCode k m.leap l
    if code ≤ last then
      let l' := firstLabel k m.leap pms (labelTime l + (last - code) * sec16 / 1000 + 16)
      let l' := (List.range 8).foldl (fun a _ => if labelCode k m.leap a ≤ last then nextLabel k m.leap pms a else a) l'
      (l', tpEdgeAt n m l' s, if x.first then 0 else labelCount k m.leap pms code last + 1)
    else (l, tpEdgeAt n m l s, if x.first then 0 else labelCount k m.leap pms last code - 1)

/-- The label of a pulse on its scale, as two words (R308): DT for scale 0 (R51). -/
def labelWords (k : Nat) (m : TModel) (ms : Int) : List Word :=
  let frac := wd ((ms % 1000).toNat * 68719476736 / 1000)
  if k = 0 then [wdI (ms / 1000), frac]
  else
    let r := scaleParts k m.leap (labelTime ms + 8)
    [wd ((r.1 % 65536).toNat * 1048576 + r.2.1.toNat), frac]

/-- An edge committed: its label, the DT at which it is emitted and the one of its schedule. -/
def tpCommit (n : Nat) (l at16 due16 : Int) (late : Bool) (s : State) : TEdge :=
  let k := s.tpScale n
  let m := s.model k
  ⟨l, at16, due16, late, (s.tp n).first, k, m.leap, m.o at16 - m.oNow k at16, labelCode k m.leap l, labelWords k m l⟩

/-- TP_EDGE_COMMIT: an edge is committed 64 sample cycles before its DT; labels that fail R302 are skipped. -/
def execTpEdgeCommit (n : Fin 4) (s : State) : Host.Outcome State Fault Refusal :=
  let x := s.tp n
  if s.tpState n ≠ 2 || x.edge.isSome || x.stopping || !s.fsOn || !(s.model (s.tpScale n)).avail then .next s else
  let (l, t, skips) := tpNext n s
  if 16 * (dtOfCycle (s.cycle + 64)).toNat < t then .next s else
  let s := s.setTp n { x with edge := some (tpCommit n l t t false s), skip := x.skip + skips, returned := false }
  if skips = 0 then .next s else
  let s := ((s.cnt (R.TP_SKIP_CNT n) skips).sticky (R.TP_STATUS n) 3).sticky R.TPC_STATUS 3
  let s := if x.returned then s.sticky (R.TP_STATUS n) 5 else s
  .next (raise 0x705 1 (uTp n) [wd skips] s)

/-- The square root of a² + b² rounded to the nearest. -/
def hypot (a b : Nat) : Nat := (Nat.sqrt (4 * (a * a + b * b)) + 1) / 2

/-- ERR in ps (R309, R310): clamped to all ones while the sample synthesiser is not LOCKED. -/
def timeErr (k : Nat) (m : TModel) (floorPs : Nat) (s : State) : Nat :=
  if !s.smpLocked then 68719476735 else min 68719476735 (hypot (if k = 0 then 0 else 100 * m.tacc) floorPs)

/-- Does this pulse of an output give a report: every RPT_DIV-th, counted from the first after entering RUN (R308)? -/
def tpReports (n : Nat) (s : State) : Bool :=
  let div := s.rf (R.TP_CFG n) 27 18
  div != 0 && (s.tp n).pulses.toNat % div == 0

/-- The pulse report of R308 on the ring of TPC_RINGS. -/
def tpReport (n : Nat) (e : TEdge) (tick : Int) (resid d : Int) (m : TModel) (err : Nat) (x : TpSt) (s : State) : State :=
  if !tpReports n s then s else
  let k := e.scale
  let range := !s.smpLocked || clampS 36 resid != resid || clampS 36 d != d
  recordSeq (s.rf R.TPC_RINGS 4 0) 9 R.TPC_TP_SEQ (fun seq =>
    [seq,
     wd (n * 1073741824 + k * 67108864 + (e.label % 1000).toNat * 65536 + b2n e.first * 32768 + b2n (d != 0) * 16384 + b2n x.jump * 8192
       + b2n m.hold * 4096 + b2n (!s.smpLocked) * 2048 + b2n x.step * 1024 + b2n e.late * 512 + b2n range * 256 + min x.skip 255)]
    ++ e.words ++ dtWords (BitVec.ofInt 72 tick)
    ++ [wdI (clampS 36 resid), wdI (clampS 36 d), s.reg (R.TP_OFS n), wd err,
        wd (s.discAtDt (BitVec.ofInt 72 tick) * 1048576 + (if m.hold then min m.holdS 65535 else 0)), x.pulses + 1#36]) s

/-- TP_LEADING_EDGE: the committed edge appears at the ball; the trailing edge is placed WIDTH later (R301, R308). -/
def execTpLeadingEdge (n : Fin 4) (s : State) : Host.Outcome State Fault Refusal :=
  let x := s.tp n
  match x.edge with
  | none => .next s
  | some e =>
    let tick := (e.at16 + 8) / 16
    if !s.fsOn || decide ((s.dt.toNat : Int) < tick) || s.tpState n == 3 then .next s else
    let k := e.scale
    let m := s.model k
    let d := tpDelta n e.at16 s
    let o := if m.leap = e.leap then m.o (16 * tick) else m.oNow k (16 * tick) + e.num
    let resid := 16 * tick + o - (labelTime e.label - 16 * sfld (s.reg (R.TP_OFS n)) 35 0)
    let err := timeErr k m 30 s
    let width := divRound ((s.reg (R.TP_WIDTH n)).toNat * sec16) 1000000000
    let lbl := e.words
    let rep := tpReports n s
    let s := s.setDt (R.TP_LAST_SEC n) (R.TP_LAST_FRAC n) (BitVec.ofInt 72 tick)
    let s := (s.setReg (R.TP_LAST_LBL0 n) (lbl.getD 0 0)).setReg (R.TP_LAST_LBL1 n) (lbl.getD 1 0)
    let s := (s.setReg (R.TP_RESID n) (wdI (clampS 36 resid))).setReg (R.TP_ERR n) (wd err)
    let s := s.cnt (R.TP_PULSE_CNT n)
    let s := tpReport n e tick resid d m err x s
    let s := s.setTp n { x with edge := none, lastLabel := if k = s.tpScale n then some e.code else x.lastLabel, trail := some (e.at16 + width),
                                level := true, pulses := x.pulses + 1#36, first := x.first && !e.first, jump := x.jump && !rep,
                                step := x.step && !rep, skip := if rep then 0 else x.skip }
    if e.late then
      let s := ((s.cnt (R.TP_LATE_CNT n)).sticky (R.TP_STATUS n) 4).sticky R.TPC_STATUS 4
      .next (raise 0x706 2 (uTp n) [wd (ceilDiv (e.at16 - e.due16).toNat 16)] s)
    else .next s

/-- TP_TRAILING_EDGE: the pulse ends; an output being stopped goes OFF (R299, R301). -/
def execTpTrailingEdge (n : Fin 4) (s : State) : Host.Outcome State Fault Refusal :=
  let x := s.tp n
  match x.trail with
  | none => .next s
  | some t =>
    if !s.fsOn || decide ((s.dt.toNat : Int) < (t + 8) / 16) || s.tpState n == 3 then .next s else
    let s := s.setTp n { x with trail := none, lastTrail := some t, level := false, stopping := false }
    .next (if x.stopping then tpSetState n 0 (s.setTp n TpSt.idle) else s)

/-- SLEW_COMPLETE: Δ has reached zero (R303). -/
def execSlewComplete (n : Fin 4) (s : State) : Host.Outcome State Fault Refusal :=
  let x := s.tp n
  if s.tpState n ≠ 2 || x.delta == 0 || tpDelta n s.now16 s != 0 || !s.fsOn then .next s else
  let s := s.setTp n { x with delta := 0 }
  let s := (s.setF (R.TP_STATE n) 3 3 0).setReg (R.TP_SLEW_END_SEC n) 0
  .next (raise 0x703 0 (uTp n) [wd ((s.dt - x.slewAt).toNat * 1000 / 68719476736)] s)

/-- The episode-end feed-forward to the timing unit (R305): O of every scale changes by −S; the next edge, where the step moves it before
its commit point, is emitted 64 sample cycles from now, late. Scale 0x0 is DT itself, so its O stays zero; of several edges that one step
moves there, the later ones are skipped by R302 (DESIGN CHOICE: notes/assumptions/51.md). -/
def tpFeedOne (step : Int) (before : State) (n : Nat) (s : State) : State :=
  if s.tpState n ≠ 2 ∨ s.tpScale n = 0 then s else
  let x := s.tp n
  let s := s.sticky (R.TP_STATUS n) 1
  let c := 16 * ((dtOfCycle (s.cycle + 64)).toNat : Int)
  let (l, _, _) := tpNext n before
  let t := tpEdgeAt n (s.model (s.tpScale n)) l s
  if x.edge.isNone && !x.stopping && (s.model (s.tpScale n)).avail && decide (t < c) && decide (step < 0) then
    s.setTp n { x with step := true, edge := some (tpCommit n l c t true s) }
  else s.setTp n { x with step := true }

/-- The step of an episode reaches the pulse outputs (R114, R305). -/
def tpFeed (step : Int) (s : State) : State :=
  let before := s
  let sub (m : TModel) : TModel := { m with off := m.off - 16 * step }
  let subAll (l : List (Nat × TModel)) : List (Nat × TModel) := l.map (fun p => (p.1, sub p.2))
  let upd := s.tpc.upd.map (fun (u : Nat × Dt × List (Nat × TModel)) => (u.1, u.2.1, subAll u.2.2))
  let s := { s with tpc := { s.tpc with models := subAll s.tpc.models, upd := upd } }
  let s := (s.sticky R.TPC_STATUS 1).cnt R.TPC_FF_CNT
  let s := tpFeedOne step before 3 (tpFeedOne step before 2 (tpFeedOne step before 1 (tpFeedOne step before 0 s)))
  raise 0x707 0 uTpc [wdI step] s

/-- Thermal shutdown of the timing unit (R299, R469): every output but those OFF goes to SHUT. -/
def tpShutOne (n : Nat) (s : State) : State :=
  if s.tpState n = 0 ∨ s.tpState n = 3 then s else
  tpSetState n 3 ((s.setTp n TpSt.idle).sticky R.TPC_STATUS 0)

/-- Every pulse output shuts down (R299). -/
def tpShut (s : State) : State := tpShutOne 3 (tpShutOne 2 (tpShutOne 1 (tpShutOne 0 s)))

/-! ## Commands (R315) -/

/-- The defined bits of TPn_CFG. -/
def tpCfgMask : Nat := 0xF_DFFC_0000

/-- TP_CONFIG (R299, R304, R315). -/
def tpConfigSpec : CmdSpec where
  op := 0x700
  lens := fun n => n == 7
  resv := fun p _ => p.outside 0 3 || p.outside 1 tpCfgMask || !scaleOk (p.pf 1 35 32) || decide (1000 < p.pf 1 27 18)
    || p.outside 2 0xFFFF || p.outside 5 0xFFFFF
  parm := fun p _ =>
    let pms := p.pf 2 15 0
    let w := (p.par 3).toNat
    decide (pms < 1 ∨ 60000 < pms) || decide (w < 10 ∨ pms * 1000000 - 500 < w) || decide (68719476 < (sfld (p.par 4) 35 0).natAbs)
      || decide (p.pf 5 19 0 < 1 ∨ 1000000 < p.pf 5 19 0) || p.par 6 == 0
  late := lateSample
  bnd := bndSample
  units := fun p => [uTp (p.pf 0 1 0)]
  chk := fun h s =>
    let n := h.pk.pf 0 1 0
    [(s.tpState n == 3 && bit (h.pk.par 1) 28, 5),
     (s.tpState n != 0 && bit (h.pk.par 1) 31 != bit (s.reg (R.TP_CFG n)) 31, 4)]
  at_ := atSample
  eff := fun h s =>
    let p := h.pk
    let n := p.pf 0 1 0
    let st := s.tpState n
    let en := bit (p.par 1) 28
    let again := s.tpScale n != p.pf 1 35 32 || s.rf (R.TP_PERIOD n) 15 0 != p.pf 2 15 0
    let d := tpDelta n s.now16 s
    let slews := p.par 5 != s.reg (R.TP_SLEW n) && st == 2
    let fresh := s.tpScale n != p.pf 1 35 32
    let s := ((s.setReg (R.TP_CFG n) (p.par 1)).setReg (R.TP_PERIOD n) (p.par 2)).setReg (R.TP_WIDTH n) (p.par 3)
    let s := ((s.setReg (R.TP_OFS n) (p.par 4)).setReg (R.TP_SLEW n) (p.par 5)).setReg (R.TP_JUMP_TH n) (p.par 6)
    let s := if slews then tpSlewFrom n d s.dt s else s
    let s :=
      if st = 0 then (if en then tpSetState n 1 s else s)
      else if !en then
        if st = 2 ∧ ((s.tp n).edge.isSome ∨ (s.tp n).trail.isSome) then s.setTp n { s.tp n with stopping := true }
        else tpSetState n 0 (s.setTp n TpSt.idle)
      else
        let s := s.setTp n { s.tp n with stopping := false }
        if st = 2 ∧ again then tpAlign n fresh (tpSlewFrom n 0 s.dt s) else s
    (.done (dtWords (atSample h s)), s)

/-- TP_JUMP over the outputs of a mask: Δ removed, zero outside RUN. -/
def tpJumpMask (mask : Nat) : List Nat → State → List Word × State
  | [], s => ([], s)
  | n :: ns, s =>
    if tbit mask n ∧ s.tpState n = 2 then
      let (d, s) := tpJump n 0 s
      let (ws, s) := tpJumpMask mask ns s
      (wdI d :: ws, s)
    else
      let (ws, s) := tpJumpMask mask ns s
      (0#36 :: ws, s)

/-- TP_JUMP (R304, R315). -/
def tpJumpSpec : CmdSpec where
  op := 0x701
  lens := fun n => n == 1
  resv := fun p _ => p.outside 0 15
  late := lateSample
  bnd := bndSample
  units := fun p => ((List.range 4).filter (fun n => tbit (p.pf 0 3 0) n)).map uTp
  chk := fun h s => [(!((List.range 4).any (fun n => tbit (h.pk.pf 0 3 0) n && s.tpState n == 2)), 5)]
  at_ := atSample
  eff := fun h s =>
    let (ws, s) := tpJumpMask (h.pk.pf 0 3 0) [0, 1, 2, 3] s
    (.done ws, s)

/-- A new configuration of a capture input, from the next sample cycle: earlier edges still meet the old one (R311). -/
def capCfgSet (n : Nat) (v : Word) (s : State) : State :=
  (s.setCap n { s.cap n with prev := some (s.reg (R.CAP_CFG n), s.dt) }).setReg (R.CAP_CFG n) v

/-- The configuration that an edge at DT `d` meets. -/
def capCfgAt (n : Nat) (d : Dt) (s : State) : Word :=
  match (s.cap n).prev with
  | some (w, u) => if dtGe d u then s.reg (R.CAP_CFG n) else w
  | none => s.reg (R.CAP_CFG n)

/-- CAP_CONFIG (R311, R315). -/
def capConfigSpec : CmdSpec where
  op := 0x702
  lens := fun n => n == 2
  resv := fun p _ => p.outside 0 3 || p.outside 1 0x1F8 || !scaleOk (p.pf 1 8 5)
  late := lateSample
  bnd := bndSample
  units := fun p => [uCap (p.pf 0 1 0)]
  at_ := atSample
  eff := fun h s => (.done (dtWords (atSample h s)), capCfgSet (h.pk.pf 0 1 0) (h.pk.par 1) s)

/-! ## Capture (R310 to R312) -/

/-- The record of an edge without its SEQ. -/
def capWords (n : Nat) (rising : Bool) (d : Dt) (lost : Nat) (s : State) : List Word :=
  let k := fld (capCfgAt n d s) 8 5
  let m := s.model k
  let t : Int := 16 * d.toNat
  let err := timeErr k m 40 s
  let time := if !m.avail then [0#36, 0#36] else if k = 0 then dtWords d else scaleWords k m.leap (t + m.o t)
  [wd (n * 1073741824 + b2n (!rising) * 536870912 + k * 33554432 + b2n m.avail * 16777216 + b2n m.hold * 8388608
     + b2n (!s.smpLocked) * 4194304 + b2n (lost != 0) * 2097152 + b2n (err == 68719476735) * 1048576 + min lost 255 * 4096)]
  ++ dtWords d ++ time ++ [wd (s.discAtDt d * 1048576), wd err]

/-- An edge within the dead time: counted, event 0x709 at most once per second. -/
def capDead (n : Nat) (s : State) : State :=
  let c := s.cap n
  let s := (s.cnt (R.CAP_DEAD_CNT n)).sticky (R.CAP_STATUS n) 2
  let (ok, s) := rateOk (rateKey 0x709 (uCap n)) s
  if ok then raise 0x709 0 (uCap n) [wd (c.dead + 1)] (s.setCap n { c with dead := 0 })
  else s.setCap n { c with dead := c.dead + 1 }

/-- An edge that finds the FIFO full: lost and counted, event 0x708 at most once per second of sample time. -/
def capLose (n : Nat) (s : State) : State :=
  let c := s.cap n
  let s := ((s.cnt (R.CAP_LOST_CNT n)).sticky (R.CAP_STATUS n) 1).sticky R.TPC_STATUS 5
  let s := s.setCap n { c with lost := c.lost + 1 }
  raiseLimited 0x708 2 (uCap n) [wd (c.lost + 1)] s

/-- A stamped edge enters the FIFO, or is lost where that is full (R311). The record of the next edge that enters carries what was lost
(DEDUCED: notes/assumptions/51.md). -/
def capStamp (n : Nat) (rising : Bool) (d : Dt) (s : State) : State :=
  let c := s.cap n
  if 64 ≤ c.fifo.length then capLose n s else
  let c := { c with fifo := c.fifo ++ [⟨capWords n rising d c.lost s⟩], lost := 0 }
  let s := s.setCap n c
  (s.setReg (R.CAP_FIFO n) (wd c.fifo.length)).maxF (R.CAP_FIFO_MAX n) 6 0 c.fifo.length

/-- CAPTURE_EDGE: an edge at CAPn, its DT at the ball given; ignored in the dead time, or stamped. -/
def execCaptureEdge (n : Fin 4) (rising : Bool) (d : Dt) (s : State) : Host.Outcome State Fault Refusal :=
  let s := s.setReg (R.CAP_LEVEL n) (wd (b2n rising))
  let sel := fld (capCfgAt n d s) 4 3
  if !s.fsOn || !(if rising then sel % 2 == 1 else decide (2 ≤ sel)) then .next s else
  let c := s.cap n
  let dead := match c.last with
    | some l => decide ((d - l).toNat < Config.deadTicks % 6872)
    | none => false
  if dead then .next (capDead n s) else
  let s := match c.last with
    | some l =>
      let iv := min (d - l).toNat 68719476735
      (s.minF (R.CAP_INTV_MIN n) 35 0 iv).maxF (R.CAP_INTV_MAX n) 35 0 iv
    | none => s
  let sec := dtSec d
  let c := if c.sec = sec then { c with secCnt := c.secCnt + 1 }
    else { c with prevCnt := if c.sec + 1#36 = sec then c.secCnt else 0, sec := sec, secCnt := 1 }
  let s := (s.setCap n { c with last := some d, level := rising }).incr (R.CAP_EDGE_CNT n)
  .next (capStamp n rising d ((s.setDt (R.CAP_LAST_SEC n) (R.CAP_LAST_FRAC n) d).sticky (R.CAP_STATUS n) 0))

/-- CAPTURE_RECORD_WRITE: the oldest stamped edge of an input gives its record (R311, R312, R546). -/
def execCaptureRecordWrite (n : Fin 4) (s : State) : Host.Outcome State Fault Refusal :=
  let c := s.cap n
  match c.fifo with
  | [] => .next s
  | e :: rest =>
    let s := s.setCap n { c with fifo := rest }
    let s := s.setReg (R.CAP_FIFO n) (wd rest.length)
    let q := s.rf R.TPC_RINGS 12 8
    let s := if q = 0 then s else s.setReg (R.CAP_SEQ_LAST n) (s.reg R.TPC_CAP_SEQ)
    .next (recordSeq q 8 R.TPC_CAP_SEQ (fun seq => seq :: e.words) s)

/-- The effect of a write of JUMP to TPn_CTRL: as an immediate TP_JUMP for this output, at the boundary of such a command (R49, R304, R317). -/
def tpCtrl (n v : Nat) (s : State) : State :=
  if v % 2 = 0 then s else
  let p : Packet := ⟨0, 1, false, false, false, true, 0, [wd (2 ^ n)], .ok []⟩
  admitCmd tpJumpSpec ⟨0x701, p, 262144, false, false, s.dt, [uTp n], none⟩ s

/-- TP_CONFIG. -/
def execTpConfig (p : Packet) (s : State) : Host.Outcome State Fault Refusal := .next (consumeCmd tpConfigSpec p s)

/-- TP_JUMP. -/
def execTpJump (p : Packet) (s : State) : Host.Outcome State Fault Refusal := .next (consumeCmd tpJumpSpec p s)

/-- CAP_CONFIG. -/
def execCapConfig (p : Packet) (s : State) : Host.Outcome State Fault Refusal := .next (consumeCmd capConfigSpec p s)

end Sys2Proof.Machine
end

