-- ==== Sys2Proof/Machine/Rf.lean ====
section
/-! DEFINITION. Rf.lean: the operations front ends, synthesisers, channelisers and calibration units share: state changes,
synthesiser plans, tap units and regions, faults, bias, injection (R66 to R147, R318 to R348, R508, R509). -/

namespace Sys2Proof.Machine

/-- A front end. -/
def State.fe (s : State) (n : Nat) : RfSt := tget (fun _ => RfSt.idle) s.fes n
def State.setFe (s : State) (n : Nat) (x : RfSt) : State := { s with fes := tset (fun _ => RfSt.idle) s.fes n x }
/-- FEn_STATE (R95). -/
def State.feState (s : State) (n : Nat) : Nat := s.rf (R.FE_STATE n) 3 0
def feOff : Nat := 0
def feStarting : Nat := 1
def feCal : Nat := 2
def feRun : Nat := 3
def feRecal : Nat := 4
def feSurvey : Nat := 5
def feReplay : Nat := 6
def feRetired : Nat := 7
/-- The states in which taps produce samples (R130). -/
def feProduces (st : Nat) : Bool := decide (2 ≤ st ∧ st ≤ 6)
/-- The filter bandwidth in force, Hz. -/
def State.bwHz (s : State) (n : Nat) : Nat := 20000000 * (s.rf (R.FE_CFG n) 1 0 + 1)
/-- FEn_LO_ACT in 2^-5 Hz. -/
def State.loAct (s : State) (n : Nat) : Nat := (s.reg (R.FE_LO_ACT n)).toNat
def State.loState (s : State) (u : Nat) : Nat := s.rf (R.LO_STATE u) 3 0
def State.smpState (s : State) : Nat := s.rf R.SYN_SMP_STATE 3 0
def State.tapEn (s : State) (n t : Nat) : Bool := bit (s.reg (R.CHZ_TAP_CFG n t)) 0
def State.tapRate (s : State) (n t : Nat) : Nat := s.rf (R.CHZ_TAP_CFG n t) 7 5
def State.tapState (s : State) (n t : Nat) : Nat := s.rf (R.CHZ_TAP_STAT n t) 19 18
/-! ## Sample time (R15, R153) -/

/-- Do the samples of a front end come from the host? -/
def State.replays (s : State) (n : Nat) : Bool := s.feState n == feReplay && bit (s.reg (R.CHZ_REPLAY_STAT n)) 0

/-- The sample cycle of now on the clock that paces a front end: that of the replayed samples in REPLAY (R15, R326). -/
def calClock (n : Nat) (s : State) : Nat :=
  if s.replays n then cycleOf s.cycle (dtOf (s.reg (R.CHZ_REPLAY_SEC n)) (s.reg (R.CHZ_REPLAY_FRAC n))) else s.cycle

/-- The sample time that paces work which names no front end: while front ends replay, that of the first of them (R15; DESIGN CHOICE,
notes/assumptions/84.md). -/
def State.smpNow (s : State) : Nat :=
  match ([0, 1, 2, 3] : List Nat).find? (fun n => s.replays n) with
  | some n => calClock n s
  | none => s.cycle

/-- The DT of now in that sample time. -/
def State.smpDt (s : State) : Dt := if ([0, 1, 2, 3] : List Nat).any (fun n => s.replays n) then dtOfCycle s.smpNow else s.dt

/-- The first point of the 1 ms grid at or after a cycle, and the first one after a cycle (R153). -/
def gridMs (c : Nat) : Nat := ceilDiv c 163680 * 163680
def gridNext (c : Nat) : Nat := (c / 163680 + 1) * 163680

/-- The boundary on the 1 ms grid of a command, by the sample cycle of now: the first point at or after its stamp, or the first one after
its processing (R153, R209). -/
def bndGrid (now : Nat) (p : Packet) (stamped : Bool) : Option Nat :=
  some (if stamped then gridMs (cycleOf now p.epoch) else gridNext now)

/-- A tap. -/
def State.tap (s : State) (n t : Nat) : TapSt := tget (fun _ => TapSt.off) (s.fe n).taps t
def State.setTap (s : State) (n t : Nat) (x : TapSt) : State :=
  s.setFe n { s.fe n with taps := tset (fun _ => TapSt.off) (s.fe n).taps t x }
/-- Milliseconds of sample time in sample cycles. -/
def msCycles : Nat := 163680
/-- An interval of a rail in 18_power_reset_supply.md's table (0 VDD_CORE ... ) is open. -/
def State.railOpen (s : State) (r : Nat) : Bool := (tget (fun _ => SupplyIv.none) s.pwr.ivs r).isOpen
/-- R508: an interval of VDD_RF or VDD_ANA is in progress or ended less than 1 ms of sample time ago. -/
def State.rfSupplyHold (s : State) : Bool :=
  s.railOpen 2 || s.railOpen 3
    || s.pwr.closed.any (fun c => (c.1 == 2 || c.1 == 3) && decide ((s.dt - c.2.2).toNat < 68719477))

/-! ## Keep-time (R509) -/

/-- The condition of keep-time. -/
def State.keepNow (s : State) : Bool :=
  (List.range 4).all (fun n => s.feState n == 0 || s.feState n == 7)
    && (List.range 16).all (fun w => s.rf (R.WG_STATE w) 1 0 == 0 || s.rf (R.WG_STATE w) 1 0 == 3)
    && (List.range 2).all (fun h => s.rf (R.ACQ_H_STATE h) 2 0 == 0 || s.rf (R.ACQ_H_STATE h) 2 0 == 4)
    && (List.range 4).all (fun n => !bit (s.reg (R.CHZ_STREAM_CFG n)) 5 && !bit (s.reg (R.CHZ_REPLAY_STAT n)) 0
        && (List.range 16).all (fun t => !(s.tapEn n t && bit (s.reg (R.CHZ_TAP_CFG n t)) 15)))
    && s.smpState != 0

/-- Event 0xA22 where keep-time begins or ends. -/
def keepSync (s : State) : State :=
  let k := s.keepNow
  if k = s.keepTime then s else raise 0xA22 0 uCur [wd (b2n k)] { s with keepTime := k }

/-! ## LO and injection synthesisers: plans (R104) -/

/-- The realised frequency of synthesiser `u`, 2^-5 Hz, in _ACT and for an LO in FEn_LO_ACT (R104). -/
def loSetAct (u : Nat) (w : Word) (s : State) : State :=
  let s := s.setReg (R.LO_ACT u) w
  if u < 4 then s.setReg (R.FE_LO_ACT u) w else s

/-- The comparisons of synthesiser `u` (R105). -/
def State.pllOf (s : State) (u : Nat) : PllSt := tget (fun _ => PllSt.idle) s.pll u
def State.setPll (s : State) (u : Nat) (x : PllSt) : State := { s with pll := tset (fun _ => PllSt.idle) s.pll u x }

/-- Both runs of consecutive comparisons start again from zero: a write of WIN, LOCK_N or LOSS_K, or a closing of the loop (R105, R111). -/
def pllRestart (u : Nat) (s : State) : State := s.setPll u { s.pllOf u with good := 0, bad := 0 }

/-- Compute the plan of synthesiser `u` for a target in Hz: TARGET, DIV, NUM, DEN and the realised frequency. -/
def loPlan (u target : Nat) (s : State) : State :=
  let s := s.setReg (R.LO_TARGET u) (wd target)
  let s :=
    if bit (s.reg (R.LO_CFG u)) 0 then
      let f := 40920000
      let g := max 1 (Nat.gcd (target % f) f)
      ((s.setReg (R.LO_DIV u) (wd (target / f * 4096 + 4))).setReg (R.LO_NUM u) (wd (target % f / g))).setReg (R.LO_DEN u) (wd (f / g))
    else
      ((s.setReg (R.LO_DIV u) (wd ((2 * target + 1023000) / 2046000 * 4096 + 160))).setReg (R.LO_NUM u) 0).setReg (R.LO_DEN u) 0
  let act := if bit (s.reg (R.LO_CFG u)) 0 then 32 * target else 32 * 1023000 * ((2 * target + 1023000) / 2046000)
  loSetAct u (wd act) s

/-- The injection synthesiser's aim: LO_ACT + INJ_OFS to the nearest hertz, halves up (R104). -/
def injAim (n : Nat) (s : State) : Nat :=
  (((s.loAct n : Int) + 32000 * sfld (s.reg (R.CALN_INJ_OFS n)) 17 0 + 16) / 32).toNat

/-- Start a synthesiser: its loop closes and it searches for lock. -/
def loStart (u target : Nat) (s : State) : State := pllRestart u ((loPlan u target s).setF (R.LO_STATE u) 3 0 1)

/-- Start FEn/LO and FEn/INJ. -/
def feSynthStart (n : Nat) (s : State) : State :=
  let s := loStart n (s.rf (R.FE_CENTRE n) 30 0) s
  loStart (4 + n) (injAim n s) s

/-- Stop a synthesiser; its realised frequency reads zero. -/
def loStop (u : Nat) (s : State) : State :=
  loSetAct u 0 (s.setF (R.LO_STATE u) 3 0 0)

/-- The ramp of a synthesiser (R117). -/
def State.rampOf (s : State) (u : Nat) : RampSt := tget (fun _ => RampSt.idle) s.ramp u
def State.setRamp (s : State) (u : Nat) (x : RampSt) : State := { s with ramp := tset (fun _ => RampSt.idle) s.ramp u x }

/-- The unit of synthesiser `u`. -/
def uSynth (u : Nat) : Nat := if u < 4 then uLo u else if u < 8 then uInj (u - 4) else uSmp

/-- A ramp, armed or active, is dropped: the frequency returns to TARGET and the ramp state of the synthesiser to LOCKED. -/
def rampClear (u : Nat) (s : State) : State :=
  let s := s.setRamp u .idle
  let s := s.setReg (R.LO_RAMP_STAT u) (setFld (s.reg (R.LO_RAMP_STAT u)) 1 0 0)
  if s.loState u = 4 then loSetAct u (wd (32 * s.rf (R.LO_TARGET u) 30 0)) (s.setF (R.LO_STATE u) 3 0 2) else s

/-- A ramp ends with its front end or its sweep: one that ran raises event 0x20A (R119). -/
def rampDrop (u : Nat) (s : State) : State :=
  let ended := (s.rampOf u).active
  let s := rampClear u s
  if ended then raise 0x20A 0 (uSynth u) [wd (s.rf (R.LO_RAMP_STAT u) 23 8)] s else s

/-! ## Taps: state, units and regions (R127, R130, R138, R139) -/

/-- A tap's state (0 off, 1 waiting, 2 producing, 3 replay), with event 0x300. -/
def tapSetState (n t v : Nat) (s : State) : State :=
  let o := s.tapState n t
  if o = v then s else raise 0x300 0 (uTap n t) [wd o, wd v] (s.setF (R.CHZ_TAP_STAT n t) 19 18 v)

/-- Units held by the enabled taps of a front end. -/
def unitsUsed (n : Nat) (s : State) : Nat :=
  ((List.range 16).map (fun t => if s.tapEn n t then tapUnits (s.tapRate n t) else 0)).sum

/-- AVAIL (R139). -/
def unitsAvail (n : Nat) (s : State) : Nat := (2560 - s.rf (R.CHZ_REGION_RET n) 11 0) / 40

/-- Mirror the budget and a tap's units. -/
def chzSync (n : Nat) (s : State) : State :=
  s.setReg (R.CHZ_BUDGET n) (wd (unitsUsed n s * 256 + unitsAvail n s))

/-- Regions held by the taps of a front end. -/
def regionsHeld (n : Nat) (s : State) : List Nat := ((s.fe n).taps.map (fun p => p.2.regions)).flatten

/-- Take the `k` lowest-numbered free regions, retired ones apart. -/
def takeRegions (n k : Nat) (s : State) : List Nat :=
  let held := regionsHeld n s
  ((List.range 2560).filter (fun r => !held.contains r && !s.isRetired (uTbr n r))).take k

/-- Start a tap's life: its units, regions and level (R132, R138); it waits for its front end (R130). -/
def tapEnable (n t : Nat) (s : State) : State :=
  let u := tapUnits (s.tapRate n t)
  let rs := takeRegions n (40 * u) s
  let s := s.setTap n t { TapSt.off with regions := rs, seq := (s.tap n t).seq, stopN := (s.tap n t).stopN }
  let s := s.setReg (R.CHZ_TAP_STAT n t) (setFld (s.reg (R.CHZ_TAP_STAT n t)) 17 13 u)
  let s := s.setReg (R.CHZ_TAP_LEVEL n t) (wd (s.rf (R.CHZ_LVL_CFG n) 11 0 * 4096))
  chzSync n (tapSetState n t 1 s)

/-- The first tap sample instant at which a tap that stops now produces no sample (R216). -/
def tapStopN (n t : Nat) (s : State) : Option Nat :=
  match (s.tap n t).newest with
  | some c => some (c + tapDec (s.tapRate n t))
  | none => (s.tap n t).stopN

/-- A tap goes off: its units and regions are freed. -/
def tapDisable (n t : Nat) (s : State) : State :=
  let s := s.setTap n t { TapSt.off with seq := (s.tap n t).seq, stopN := tapStopN n t s }
  let s := s.setF (R.CHZ_TAP_CFG n t) 0 0 0
  let s := s.setF (R.CHZ_TAP_STAT n t) 17 13 0
  chzSync n (tapSetState n t 0 s)

/-- The enabled taps of a front end stop producing and wait (R130). -/
def tapsWait (n : Nat) : List Nat → State → State
  | [], s => s
  | t :: ts, s =>
    let s := if s.tapEn n t && decide (2 ≤ s.tapState n t) then
        tapSetState n t 1 (s.setTap n t { s.tap n t with used := 0, all := 0, ss := 0, newest := none, stopN := tapStopN n t s, strm := { (s.tap n t).strm with q := [], going := false } })
      else s
    tapsWait n ts s

/-- Every tap of a front end is disabled, EN cleared (R95, retirement). -/
def tapsOff (n : Nat) : List Nat → State → State
  | [], s => s
  | t :: ts, s => tapsOff n ts (if s.tapEn n t then tapDisable n t s else s)

/-- The cycles of the samples that words 64j to 64j + 63 of a tap's buffer hold, given its newest sample (R134, R138): two spans where the
newest word lies among them. -/
def lostSpans (rate newest j : Nat) : List (Nat × Nat) :=
  let d := tapDec rate
  let words := 2560 * tapUnits rate
  let top := newest / d / 4
  let back := top % words
  let at_ (a n : Nat) : Nat × Nat := (4 * a * d, 4 * (a + n) * d)
  if 64 * j + 63 ≤ back then [at_ (top - back + 64 * j) 64]
  else if back < 64 * j then [at_ (top - back + 64 * j - words) 64]
  else [at_ (top - back + 64 * j) (back + 1 - 64 * j), at_ (top + 1 - words) (64 * j + 63 - back)]

/-- Region `r` of a tap's buffer gives way to region `r'`; the samples it held are gap samples (R139). -/
def regionSwap (n t r r' : Nat) (s : State) : State :=
  let x := s.tap n t
  let lost := match x.newest with
    | some c => lostSpans (s.tapRate n t) c (x.regions.findIdx (· == r))
    | none => []
  let s := storeList (kTap n (64 * r')) (List.replicate 64 0xF00000000#36) s
  s.setTap n t { x with regions := x.regions.map (fun q => if q = r then r' else q), lost := (lost ++ x.lost).take 64 }

/-- A tap-buffer region of front end `n` is retired (R139): replaced by the lowest-numbered free region, or the highest-numbered enabled
tap is disabled; event 0x308 reports AVAIL. The rule names an allocated region; the model raises the event for a free one too, AVAIL
counting every retired region (notes/assumptions/79.md). -/
def tapRegionRetired (n r : Nat) (s : State) : State :=
  let s := s.setReg (R.CHZ_REGION_RET n) (wd (s.rf (R.CHZ_REGION_RET n) 11 0 + 1))
  let s :=
    match (s.fe n).taps.find? (fun p => p.2.regions.contains r) with
    | none => s
    | some (t, _) =>
      match takeRegions n 1 s with
      | r' :: _ => regionSwap n t r r' s
      | [] =>
        match ((List.range 16).reverse).find? (fun t => s.tapEn n t) with
        | some u =>
          let s := tapDisable n u s
          match takeRegions n 1 s with
          | r' :: _ => if u = t then s else regionSwap n t r r' s
          | [] => s
        | none => s
  let s := chzSync n s
  raise 0x308 2 (uChz n) [wd (unitsAvail n s)] s

/-! ## Factory calibration data (R340) -/

/-- The calibration record is valid in some copy (R340, R476). -/
def State.facValid (s : State) : Bool := s.booted && ((s.nvsRec 2).validA || (s.nvsRec 2).validB)

/-- D_FAC for the bandwidth in force, 2^-4 tick; zero where there is no factory data. -/
def State.facD (s : State) (n : Nat) : Int := if s.facValid then (Config.factory n 2 (s.rf (R.FE_CFG n) 1 0)).toInt else 0

/-! ## Calibration units: states, stops, aborts (R324, R338) -/

/-- INJ_OFS in kHz. -/
def State.injOfs (s : State) (n : Nat) : Int := sfld (s.reg (R.CALN_INJ_OFS n)) 17 0

/-- The state of a calibration unit (R324). -/
def State.calState (s : State) (n : Nat) : Nat := s.rf (R.CALN_STATE n) 2 0
def State.calU (s : State) (n : Nat) : CalSt := (s.fe n).cal
def State.setCal (s : State) (n : Nat) (x : CalSt) : State := s.setFe n { s.fe n with cal := x }

/-- Change a calibration unit's state (0 OFF, 1 WAIT, 2 INJECT, 3 SWEEP, 4 SUSPENDED), with event 0x800. -/
def calSetState (n v : Nat) (s : State) : State :=
  let o := s.calState n
  let s := s.setF (R.CALN_STATE n) 3 3 (b2n (s.feState n == feReplay))
  if o = v then s else raise 0x800 0 (uCal n) [wd o, wd v] (s.setF (R.CALN_STATE n) 2 0 v)

/-- The second in progress of a unit is no longer one its injection ran through undisturbed (R330); none is in progress at a live whole
second. -/
def calDisturb (n : Nat) (s : State) : State :=
  if !s.replays n && s.cycle % 163680000 == 0 then s else s.setCal n { s.calU n with touched := true }

/-- A sweep is aborted with a cause (R338); a loud sweep's gap tags reach 2 ms past its end. -/
def sweepAbort (n cause : Nat) (s : State) : State :=
  let c := s.calU n
  match c.sweep with
  | none => s
  | some w =>
    let s := s.setCal n { c with sweep := none, gapTo := if w.loud then s.cycle + 327360 else c.gapTo }
    let s := rampDrop (4 + n) s
    let s := (s.sticky R.CAL_STATUS 1).sticky (R.CALN_STATUS n) 2
    let s := raise 0x807 2 (uCal n) [wd cause] s
    if s.calState n = 3 then calSetState n 2 s else s

/-- A waiting start is refused: counted, event 0x802, and NOT_READY replied with the time waited (R324, R325). -/
def injRefuse (n why : Nat) (w : InjWait) (s : State) : State :=
  let s := (s.cnt R.CAL_NOTREADY_CNT).sticky R.CAL_STATUS 2
  let s := s.sticky (R.CALN_STATUS n) 0
  let s := raise 0x802 2 (uCal n) [wd why] s
  reply ⟨w.op, w.pk, w.cidx, w.late, false, w.at_, [], none⟩ 5 0 [0, 0, wd ((s.dt - w.at_).toNat * 1000 / 68719476736)] s

/-- The unit stops: a sweep is aborted, a waiting start refused, injection ends. -/
def calStop (n : Nat) (s : State) : State :=
  if s.calState n = 0 then s else
  let s := sweepAbort n 2 s
  let s := match (s.calU n).wait with
    | some w => injRefuse n 2 w (s.setCal n { s.calU n with wait := none })
    | none => s
  calSetState n 0 (calDisturb n s)

/-- What a change of the front end's state does to its calibration unit (R324, R338). -/
def calOnFe (n old new : Nat) (s : State) : State :=
  let c := s.calState n
  if c = 0 then s
  else if (new = feOff ∨ new = feRetired) ∧ 2 ≤ old then calStop n s
  else if new = feRetired then calStop n s
  else if new = feCal ∨ new = feRecal then
    let s := sweepAbort n 0 s
    if s.calState n = 2 then calSetState n 4 (calDisturb n s) else s
  else if new = feRun ∧ c = 4 then calSetState n 2 s
  else if new = feSurvey then sweepAbort n 2 s
  else s

/-! ## What the applied delay depends on (R332) -/

/-- MODE of the receive delay (R332). -/
def State.calMode (s : State) (n : Nat) : Nat := s.rf (R.CALN_CFG n) 21 20
def State.calPath (s : State) (n : Nat) : Nat := s.rf (R.CALN_CFG n) 19 19

/-- D_PATH (R322). -/
def calPathDelay (n : Nat) (s : State) : Int :=
  if s.calPath n = 0 then (s.reg (R.CALN_FAC_DINJ n)).toInt
  else (s.reg (R.CALN_FAC_DOUT n)).toInt + divRound (s.rf (R.CALN_EXT_PATH n) 19 0 * 1099511627776) 1000000000000

/-- DELAY of the AGC table for a gain code, ticks. -/
def agcDelay (n code : Nat) (s : State) : Int := sfld (tget (fun _ => 0#36) (s.fe n).agc code) 35 24

/-- What the applied delay depends on now. -/
def State.delayIn (s : State) (n : Nat) : DelayIn :=
  let c := s.calU n
  ⟨s.calMode n, s.calPath n, s.injOfs n, calPathDelay n s, (s.reg (R.CALN_LIVE n)).toInt, c.everValid, agcDelay n (s.rf (R.FE_GAIN_STAT n) 23 16) s,
   c.tbl, c.tblOfs⟩

/-- It changes from sample cycle `c` on: what it was is kept. -/
def delayNote (n c : Nat) (s : State) : State := s.setFe n { s.fe n with delays := ((c, s.delayIn n) :: (s.fe n).delays).take 32 }

/-- What it depended on at sample cycle `c`: before the earliest change after it. -/
def State.delayInAt (s : State) (n : Nat) (c : Int) : DelayIn :=
  match ((s.fe n).delays.filter (fun p => decide (c < p.1))).getLast? with
  | some p => p.2
  | none => s.delayIn n

/-- The gain code of a front end is another one from sample cycle `c` on. -/
def gainCode (n code c : Nat) (s : State) : State := (delayNote n c s).setF (R.FE_GAIN_STAT n) 23 16 code

/-! ## Front-end states (R95) -/

/-- A front end changes state: STATE and its DT, event 0x100, its taps, its calibration unit, keep-time. -/
def feSetState (n v : Nat) (s : State) : State :=
  let o := s.feState n
  if o = v then s else
  let s := (s.setF (R.FE_STATE n) 3 0 v).setDt (R.FE_STATE_SEC n) (R.FE_STATE_FRAC n) s.dt
  let s := raise 0x100 (if v = feRetired then 3 else 0) (uFe n) [wd o, wd v] s
  let s := if v = feStarting ∨ v = feReplay then s.setFe n { s.fe n with delays := [] } else s
  let s := if feProduces v then s else tapsWait n (List.range 16) s
  let s := calOnFe n o v s
  let s := s.setF (R.CALN_STATE n) 3 3 (b2n (v == feReplay))
  keepSync s

/-- Durations of the calibration steps in ms (table of calibration steps). -/
def stepMs : List Nat := [2, 4, 6, 3, 12, 8, 5]

/-- The steps of a mask in bit order (R83). -/
def stepsOf (mask : Nat) : List Nat := (List.range 7).filter (fun b => tbit mask b)

/-- The three tones of a return-loss measurement, in the order they are driven (R75), Hz. -/
def matchTones (n : Nat) (s : State) : List Nat :=
  [s.loAct n / 32 - s.bwHz n / 4, s.loAct n / 32, s.loAct n / 32 + s.bwHz n / 4]

/-- FEn/INJ is aimed at the three tones one after another (R75, R104). When the aim moves from one to the next within a measurement is
not stated; the model moves it when the measurement is reported (notes/assumptions/71.md). -/
def tonesDrive (n : Nat) (s : State) : State := (matchTones n s).foldl (fun a f => loPlan (4 + n) f a) s

/-- The aim a step sets on FEn/INJ: the first tone of R75 for tuner match, the injection's own for step 6; the spec states none
for steps 0 to 4, so it is free (R104). -/
def stepAim (n step : Nat) (s : State) : State :=
  if step = 5 then loPlan (4 + n) ((matchTones n s).headD 0) s
  else if step = 6 then loPlan (4 + n) (injAim n s) s
  else
    let (i, s) := s.takeFree
    loPlan (4 + n) ((Config.freeWord i).toNat % 2147483648) s

/-- A coexistence pair mapped to the front end has its request active. -/
def State.coexActive (s : State) (n : Nat) : Bool :=
  (List.range 2).any (fun k => tbit (s.rf (R.FE_COEX_MAP n) 1 0) k && (tget (fun _ => CoexSt.idle) s.coex k).req)

/-- A calibration run begins, its first step suspended while the sample synthesiser is unlocked, or for tuner match while a mapped
request is active (R83, R84, R86). -/
def calRunBegin (n mask : Nat) (startup : Bool) (st : Nat) (s : State) : State :=
  let steps := stepsOf mask
  let hold := s.smpState != 2 || (steps.head? == some 5 && s.coexActive n)
  let s := feSetState n st s
  let s := s.setFe n { s.fe n with run := some ⟨steps, 0, 0, startup, 0, if hold then some s.cycle else none, s.rf (R.FE_TUNER n) 9 0, s.cycle⟩ }
  match steps with
  | b :: _ => stepAim n b s
  | [] => s

/-- A run is abandoned (R85). -/
def calRunAbort (n : Nat) (s : State) : State :=
  match (s.fe n).run with
  | none => s
  | some r =>
    let s := s.setFe n { s.fe n with run := none }
    s.setReg (R.FE_CAL_STAT n) (wd (3 * 16384 + r.done * 128 + r.failed))

/-- Mirror the bias state in BIAS_STAT. -/
def biasSync (n : Nat) (s : State) : State :=
  let b := (s.fe n).bias
  let w := s.reg (R.FE_BIAS_STAT n)
  let w := setFld w 18 18 (b2n (s.rf (R.FE_BIAS_STAT n) 18 18 == 1))
  let s := s.setReg (R.FE_BIAS_STAT n) (setFld w 17 17 (b2n b.retryAt.isSome))
  s.setReg (R.FE_BIAS_RETRY n) (match b.retryAt with
    | some d => dtSec d
    | none => 0)

/-- Bias is forced low until the host sets EN again (R79). -/
def biasForceOff (n : Nat) (s : State) : State :=
  let b := (s.fe n).bias
  biasSync n (s.setFe n { s.fe n with bias := { b with on := false, forced := true, retryAt := none, lowCnt := 0, overCnt := 0 } })

/-- The level ABIAS_ENn drives (R79). -/
def State.biasLevel (s : State) (n : Nat) : Bool := (s.fe n).bias.on

/-- Replay stops with a cause (R145): event 0x306. -/
def replayStop (n cause : Nat) (s : State) : State :=
  if !bit (s.reg (R.CHZ_REPLAY_STAT n)) 0 then s else
  let r := (s.fe n).rep
  let s := s.setReg (R.CHZ_REPLAY_STAT n) (wd (cause * 16))
  let s := s.setFe n { s.fe n with rep := { ReplaySt.idle with lastSeq := r.lastSeq } }
  keepSync (raise 0x306 2 (uChz n) [wd cause, r.lastSeq] s)

/-- REPLAY to OFF. -/
def feReplayDisable (n : Nat) (s : State) : State := feSetState n feOff (replayStop n 1 s)

/-- A front end leaves the air: run abandoned, replay stopped, synthesisers stopped, ramps dropped. REPLAY_STAT.CAUSE has no code for a
disable, a thermal shutdown or a retirement: the model shows a host stop (notes/assumptions/72.md). -/
def fePowerDown (n : Nat) (s : State) : State :=
  let s := replayStop n 1 (calRunAbort n s)
  let s := rampDrop (4 + n) (rampDrop n s)
  let s := loStop (4 + n) (loStop n s)
  s.setFe n { s.fe n with retry := false, loGap := false, injGap := false, check := none, codes := [] }

/-- The front end is retired (R34, R95). -/
def feRetire (n : Nat) (s : State) : State :=
  let s := fePowerDown n s
  let s := tapsOff n (List.range 16) s
  let s := biasForceOff n s
  let s := feSetState n feRetired s
  retireUnit (uFe n) 0x100 s

/-- A front-end fault (R29 to R31): permanent when it comes in a retry or is the K-th of its window; else the start-up
calibration is run again, or in STARTING the lock is sought again. -/
def feFault (n : Nat) (s : State) : State :=
  let (cause, s) := faultJudge (uFe n) 2 (!(s.fe n).retry) s.dt s
  match cause with
  | some _ => feRetire n s
  | none =>
    if s.feState n = feStarting then
      let s := s.setFe n { s.fe n with retry := true, enN := s.cycle }
      feSynthStart n s
    else
      let s := rampDrop (4 + n) (rampDrop n s)
      let s := calRunBegin n 127 true feCal (s.setFe n { s.fe n with run := none })
      s.setFe n { s.fe n with retry := true }

/-- Thermal shutdown of a front end (R95, R469). -/
def feThermal (n : Nat) (s : State) : State :=
  if s.feState n = feRetired then s else
  let s := fePowerDown n s
  let s := biasForceOff n s
  feSetState n feOff (s.sticky (R.FE_STATUS n) 9)

/-- Enable (R95): the analogue chain is powered and both synthesisers start. -/
def feEnable (n : Nat) (s : State) : State :=
  let s := feSetState n feStarting s
  let s := s.setFe n { s.fe n with enN := s.cycle, retry := false, loGap := false, injGap := false }
  feSynthStart n s

/-- Disable (R95): any run is abandoned and the taps stop. -/
def feDisable (n : Nat) (s : State) : State :=
  if s.feState n = feOff ∨ s.feState n = feRetired then s else
  if s.feState n = feReplay then feReplayDisable n s else
  feSetState n feOff (fePowerDown n s)

/-- May an enable be accepted; answers the status it meets (0 when it acts or changes nothing) (R95). -/
def feEnableStatus (n : Nat) (s : State) : Nat :=
  let st := s.feState n
  if st = feRetired then 11
  else if bit (s.reg R.CUR_THERM_STAT) 35 || s.smpState == 0 then 5
  else if st = feReplay then 5 else 0

/-- The sample synthesiser leaves LOCKED: the step in progress of every run is suspended (R86). -/
def suspendRuns : List Nat → State → State
  | [], s => s
  | n :: ns, s =>
    suspendRuns ns (match (s.fe n).run with
      | some r => if r.suspN.isSome then s else s.setFe n { s.fe n with run := some { r with suspN := some s.cycle } }
      | none => s)

end Sys2Proof.Machine
end

