-- ==== Sys2Proof/Machine/Coex.lean ====
section
/-! DEFINITION. Coex.lean: the two coexistence pairs: modes, grants, blanking and protected windows (R88 to R94). The pair's
registers are those of front end 0; the other instances are aliases. -/

namespace Sys2Proof.Machine

/-- A coexistence pair. -/
def State.coexP (s : State) (k : Nat) : CoexSt := tget (fun _ => CoexSt.idle) s.coex k
def State.setCoex (s : State) (k : Nat) (x : CoexSt) : State := { s with coex := tset (fun _ => CoexSt.idle) s.coex k x }
def State.coexMode (s : State) (k : Nat) : Nat := s.rf (R.FE_COEX_CFG 0 k) 1 0
def State.coexDeny (s : State) (k : Nat) : Bool := s.rf (R.FE_COEX_CFG 0 k) 3 2 == 1

/-- Mirror a pair's levels and window in COEXk_STAT. -/
def coexSync (k : Nat) (s : State) : State :=
  let x := s.coexP k
  let w := s.reg (R.FE_COEX_STAT 0 k)
  let w := setFld w 3 0 (b2n x.winN.isSome * 8 + b2n x.inWin * 4 + b2n x.gnt * 2 + b2n x.req)
  s.setReg (R.FE_COEX_STAT 0 k) w

/-- Close the open blanking intervals at a cycle, and forget intervals long past. -/
def ivsClose (n now : Nat) (ivs : List (Nat × Option Nat)) : List (Nat × Option Nat) :=
  (ivs.map (fun (p : Nat × Option Nat) => match p.2 with
    | none => (p.1, some n)
    | some e => (p.1, some e))).filter (fun (p : Nat × Option Nat) => match p.2 with
    | none => true
    | some e => decide (now < e + 64))

/-- A grant is given: blanking of mapped front ends starts at a cycle (R90, R91). -/
def coexGrant (k fromN : Nat) (s : State) : State :=
  let x := s.coexP k
  s.setCoex k { x with gnt := true, withheld := false, ivs := x.ivs ++ [(fromN, none)] }

/-- An arbiter pair answers an active request that it has not granted: withheld in a protected window under the deny policy, else
granted, with blanking from the grant on (R90, R91). -/
def coexDecide (k : Nat) (s : State) : State :=
  let x := s.coexP k
  if s.coexMode k ≠ 1 ∨ !x.req then s
  else if s.coexDeny k && x.inWin then s.setCoex k { x with gnt := false, withheld := true }
  else coexGrant k s.cycle s

/-- The level COEX_REQk drives in requester mode: LEAD before each window to TAIL after it, inactive with no sample clock
(R92, R94). -/
def State.coexReqOut (s : State) (k : Nat) : Bool :=
  let x := s.coexP k
  s.coexMode k == 2 && s.fsOn && (decide (s.cycle < x.relN) || (match x.winN with
    | some n => decide (n ≤ s.cycle + s.rf (R.FE_COEX_EXT 0 k) 31 16)
    | none => false))

/-- COEXk_STAT as read: REQ is the level of COEX_REQk, which a requester drives (R92). -/
def coexStatWord (k : Nat) (w : Word) (s : State) : Word :=
  if s.coexMode k = 2 then setBit w 0 (s.coexReqOut k) else w

/-- A request active on pair `k` marks the check in progress of a mapped front end and suspends its tuner match (R77, R86). -/
def coexHit (k n : Nat) (s : State) : State :=
  let f := s.fe n
  if tbit (s.rf (R.FE_COEX_MAP n) 1 0) k && (s.coexP k).req then
    let check := f.check.map (fun (c : Nat × Bool) => (c.1, true))
    let run := match f.run with
      | some r => if r.left.head? = some 5 ∧ r.suspN.isNone then some { r with suspN := some s.cycle } else some r
      | none => none
    s.setFe n { f with check := check, run := run }
  else s

/-- A request now active, on every front end. -/
def coexMark (k : Nat) (s : State) : State := coexHit k 3 (coexHit k 2 (coexHit k 1 (coexHit k 0 s)))

/-- A write to FEn_COEX_MAP: a pair it maps may have its request active (R77, R86). -/
def coexMapWrite (n : Nat) (v : Word) (s : State) : State := coexHit 1 n (coexHit 0 n (s.setReg (R.FE_COEX_MAP n) v))

/-- COEX_REQ_EDGE: COEX_REQk takes a level (R88, R90, R91). In requester mode the ball is an output. -/
def execCoexReqEdge (k : Fin 2) (level : Bool) (s : State) : Host.Outcome State Fault Refusal :=
  let mode := s.coexMode k
  let x := s.coexP k
  if mode = 2 ∨ x.req = level then .next s else
  let s := s.setCoex k { x with req := level }
  let s := if level then coexMark k s else s
  let x := s.coexP k
  if mode = 0 ∨ !s.fsOn then
    .next (coexSync k (s.setCoex k { x with gnt := level, withheld := false, ivs := ivsClose s.cycle s.cycle x.ivs }))
  else if level then
    if s.coexDeny k && x.inWin then .next (coexSync k (s.setCoex k { x with withheld := true }))
    else .next (coexSync k (coexGrant k (s.cycle - min (s.rf (R.FE_COEX_EXT 0 k) 31 16) 16) s))
  else
    let ivs := ivsClose (s.cycle + s.rf (R.FE_COEX_EXT 0 k) 15 0) s.cycle x.ivs
    .next (coexSync k (s.setCoex k { x with gnt := false, withheld := false, ivs := ivs }))

/-- A protected window was not granted (R92). The source is FE0, whose registers are the pair's. -/
def coexDenied (k : Nat) (start : Nat) (s : State) : State :=
  raise 0x10C 0 (uFe 0) [wd k, dtSec (dtOfCycle start)] (s.sticky (R.FE_COEX_STAT 0 k) 4)

/-- COEX_GNT_EDGE: COEX_GNTk, an input in requester mode, takes a level (R92). -/
def execCoexGntEdge (k : Fin 2) (level : Bool) (s : State) : Host.Outcome State Fault Refusal :=
  let x := s.coexP k
  if s.coexMode k ≠ 2 ∨ x.gnt = level then .next s else
  let s := coexSync k (s.setCoex k { x with gnt := level })
  match x.winN with
  | some n => .next (if x.inWin && !level then coexDenied k n s else s)
  | none => .next s

/-- A request withheld by a window that has ended is granted (R91). -/
def coexRelease (k : Nat) (s : State) : State := if (s.coexP k).withheld then coexDecide k s else s

/-- Arm protected windows at the DT of WIN_SEC and WIN_FRAC (R93); a window in progress ends with the arming. -/
def coexArm (k : Nat) (s : State) : State :=
  let len := (s.reg (R.FE_COEX_WIN_LEN 0 k)).toNat
  let per := (s.reg (R.FE_COEX_WIN_PER 0 k)).toNat
  let n0 := cycleOfI s.cycle (dtOf (s.reg (R.FE_COEX_WIN_SEC 0 k)) (s.reg (R.FE_COEX_WIN_FRAC 0 k)))
  let s := s.setCoex k { s.coexP k with inWin := false }
  let put (w : Option Nat) (s : State) : State := coexSync k (coexRelease k (s.setCoex k { s.coexP k with winN := w }))
  if len = 0 then put none s
  else if (s.cycle : Int) ≤ n0 then put (some n0.toNat) s
  else if per = 0 then raise 0x10D 1 (uFe 0) [wd k] ((put none s).sticky (R.FE_COEX_STAT 0 k) 5)
  else put (some (n0 + ceilDiv (s.cycle - n0).toNat per * per).toNat) s

/-- R93: windows longer than their period are a reserved value. -/
def coexWinBad (len per : Nat) : Bool := per != 0 && decide (per ≤ len)

/-- COEX_WINDOW_START: a protected window begins (R92). -/
def execCoexWindowStart (k : Fin 2) (s : State) : Host.Outcome State Fault Refusal :=
  let x := s.coexP k
  match x.winN with
  | none => .next s
  | some n =>
    if x.inWin || !s.fsOn || decide (s.cycle < n) then .next s else
    let s := coexSync k (s.setCoex k { x with inWin := true })
    .next (if s.coexMode k = 2 ∧ !x.gnt then coexDenied k n s else s)

/-- COEX_WINDOW_END: a protected window ends; REQ is released TAIL later, a withheld request is granted (R91, R92). -/
def execCoexWindowEnd (k : Fin 2) (s : State) : Host.Outcome State Fault Refusal :=
  let x := s.coexP k
  match x.winN with
  | none => .next s
  | some n =>
    let len := (s.reg (R.FE_COEX_WIN_LEN 0 k)).toNat
    let per := (s.reg (R.FE_COEX_WIN_PER 0 k)).toNat
    if !x.inWin || !s.fsOn || decide (s.cycle < n + len) then .next s else
    let s := s.setCoex k { x with inWin := false, winN := if per = 0 then none else some (n + per),
                                  relN := n + len + s.rf (R.FE_COEX_EXT 0 k) 15 0 }
    .next (coexSync k (coexRelease k s))

/-- A write to COEXk_CFG: blanking and grants follow the mode and the policy from now on (R88, R91). -/
def coexCfgWrite (k : Nat) (v : Word) (s : State) : State :=
  let old := s.coexMode k
  let s := s.setReg (R.FE_COEX_CFG 0 k) v
  let x := s.coexP k
  let new := s.coexMode k
  if old = new then coexSync k (coexRelease k s) else
  let x := { x with withheld := false, ivs := ivsClose s.cycle s.cycle x.ivs }
  if new = 0 ∨ (new = 1 ∧ !s.fsOn) then coexSync k (s.setCoex k { x with gnt := x.req })
  else if new = 1 then coexSync k (coexDecide k (s.setCoex k { x with gnt := false }))
  else coexSync k (s.setCoex k { x with req := false })

/-- R94: with no sample clock an arbiter pair passes the request through. -/
def coexAbsent (k : Nat) (s : State) : State :=
  let x := s.coexP k
  if s.coexMode k = 1 then coexSync k (s.setCoex k { x with gnt := x.req, withheld := false }) else s

/-- R94: the configured modes resume at the first sample cycle after the clock returns: an arbiter decides anew on a request active
then, whose blanking, if it had any, has gone on. -/
def coexResume (k : Nat) (s : State) : State :=
  let x := s.coexP k
  if s.coexMode k = 1 ∧ x.req ∧ x.ivs.all (fun p => p.2.isSome) then coexSync k (coexDecide k s) else s

end Sys2Proof.Machine
end

