-- ==== Sys2Proof/Machine/Syn.lean ====
section
/-! DEFINITION. Syn.lean: the reference input, the sample synthesiser, unlock episodes, LO and injection synthesisers and
their ramps (R99 to R122). -/

namespace Sys2Proof.Machine

/-! ## The reference and the plan (R100 to R103) -/

/-- Is the reference present (R100)? -/
def State.refPresent (s : State) : Bool := bit (s.reg R.SYN_REF_STAT) 0

/-- N of the integer-N plan (R102). -/
def smpGcd (s : State) : Nat := max 1 (Nat.gcd (s.rf R.SYN_REF_FREQ 25 0) 163680000)

/-- Is the plan of the sample synthesiser valid (R102, R103)? -/
def smpPlanOk (s : State) : Bool :=
  bit (s.reg R.SYN_SMP_CFG) 0 || decide (2618880000 / smpGcd s ≤ 65535)

/-- Compute the plan at a closing of the loop. -/
def smpPlan (s : State) : State :=
  let f := max 1 (s.rf R.SYN_REF_FREQ 25 0)
  if bit (s.reg R.SYN_SMP_CFG) 0 then
    let g := Nat.gcd (2618880000 % f) f
    ((s.setReg R.SYN_SMP_DIV (wd (2618880000 / f * 4096 + 1))).setReg R.SYN_SMP_NUM (wd (2618880000 % f / g))).setReg R.SYN_SMP_DEN (wd (f / g))
  else
    let g := smpGcd s
    ((s.setReg R.SYN_SMP_DIV (wd (2618880000 / g * 4096 + f / g))).setReg R.SYN_SMP_NUM 0).setReg R.SYN_SMP_DEN 0

/-- What REFOUT carries (R101): nothing, a low level while its source is absent, a copy of REFIN, or fs / 16. -/
inductive RefOut where
  | highZ | low | refin | fsBy16
deriving DecidableEq, Repr

/-- What the reference output shows (R101). -/
def State.refout (s : State) : RefOut :=
  match s.rf R.SYN_REF_CFG 3 2 with
  | 1 => if s.refPresent then .refin else .low
  | 2 => if s.fsOn then .fsBy16 else .low
  | _ => .highZ

/-! ## Sample synthesiser states (R106 to R109) -/

/-- Change the state; leaving LOCKED suspends the calibration steps in progress (R86). -/
def smpSetState (v : Nat) (s : State) : State :=
  let o := s.smpState
  let s := s.setF R.SYN_SMP_STATE 3 0 v
  let s := if o = 2 ∧ v ≠ 2 then suspendRuns [0, 1, 2, 3] s else s
  keepSync s

/-- The next sample cycle divisible by 1,636,800. -/
def nextWindow (c : Nat) : Nat := ceilDiv c 1636800 * 1636800

/-- Qualification restarts its count at the next window (R108). When SYN_REF_STAT.QUALIFIED clears is not stated: the model clears it at
every restart of qualification (notes/assumptions/73.md). -/
def qualRestart (s : State) : State :=
  let s := (s.setReg R.SYN_QUAL_ELAPSED 0).setF R.SYN_REF_STAT 2 2 0
  { s with smp := { s.smp with qualN := nextWindow s.cycle } }

/-- The DAC drives with a code (R107). -/
def smpHold (code : Nat) (s : State) : State := s.setReg R.SYN_SMP_HOLD (wd (65536 + code % 65536))

/-- The DAC takes over with the code it held 2 µs ago, 328 sample cycles to the next whole one (R107). -/
def smpHoldBack (s : State) : State := smpHold (Config.vcoCode (s.cycle - 328)).toNat s

/-- SYN_SMP_HOLD as read: the DAC's code follows the tuning voltage while the loop is closed (R107). -/
def smpHoldWord (w : Word) (s : State) : Word :=
  if s.smpState = 0 || bit w 16 then w else wd (Config.vcoCode s.cycle).toNat

/-- The loop closes: a new plan, the DAC released, comparisons counted anew. -/
def smpClose (v : Nat) (s : State) : State :=
  let s := pllRestart 8 (smpPlan s)
  let s := s.setF R.SYN_SMP_HOLD 16 16 0
  smpSetState v { s with smp := { s.smp with closedN := s.cycle } }

/-- An unlock episode begins; e_before is the error of the last comparison made (R111). -/
def episodeBegin (start : Dt) (startN : Nat) (refLost clkAbsent : Bool) (s : State) : State :=
  let s := { s with smp := { s.smp with epi := some ⟨start, startN, (s.pllOf 8).last, refLost, clkAbsent, false⟩ } }
  let s := s.setDt R.SYN_EPI_START_SEC R.SYN_EPI_START_FRAC start
  (s.cnt R.SYN_SMP_UNLOCK_CNT).sticky R.SYN_SMP_STATUS 0

/-- What enabling the sample synthesiser meets: 0, 3 for an invalid plan, 5 for a frequency mismatch (R102, R106). -/
def smpEnableStatus (s : State) : Nat :=
  if s.smpState ≠ 0 then 0
  else if !smpPlanOk s then 3
  else if s.refPresent && decide (6 * s.rf R.SYN_REF_FREQ 25 0 < 100 * ((1000 * s.rf R.SYN_REF_EST 15 0 : Int) - s.rf R.SYN_REF_FREQ 25 0).natAbs) then 5
  else 0

/-- The effect of an enable refused (R102, R106). -/
def smpEnableRefuse (st : Nat) (s : State) : State :=
  if st = 3 then s.sticky R.SYN_SMP_STATUS 2
  else if st = 5 then raise 0x20C 3 uRef [s.reg R.SYN_REF_EST] (s.sticky R.SYN_SMP_STATUS 3)
  else s

/-- The effect of an enable accepted (R106); with fs the coexistence pairs take their modes (R94). -/
def smpEnable (s : State) : State :=
  if s.smpState ≠ 0 then s
  else
    let s := if s.refPresent then smpClose 1 s else qualRestart (smpSetState 4 (smpHold Config.centreCode.toNat s))
    coexResume 1 (coexResume 0 s)

/-- What a REENGAGE meets (R106). -/
def smpReengageStatus (s : State) : Nat := if s.smpState ≠ 5 then 5 else if !smpPlanOk s then 3 else 0

/-- The effect of a REENGAGE refused: an invalid plan restarts qualification. -/
def smpReengageRefuse (st : Nat) (s : State) : State :=
  if st = 3 then qualRestart (smpSetState 4 (s.sticky R.SYN_SMP_STATUS 2)) else s

/-- A write to SYN_SMP_CTRL (R106). -/
def synSmpCtrl (v : Nat) (s : State) : State :=
  let s := if v % 2 = 1 then (if smpEnableStatus s = 0 then smpEnable s else smpEnableRefuse (smpEnableStatus s) s) else s
  if v / 2 % 2 = 1 then
    if smpReengageStatus s = 0 then smpClose 6 s else smpReengageRefuse (smpReengageStatus s) s
  else s

/-! ## Reference events -/

/-- Does a counted frequency, kHz, differ from SYN_REF_FREQ by more than 10 % (R100)? -/
def State.refGross (s : State) (est : Nat) : Bool :=
  decide (s.rf R.SYN_REF_FREQ 25 0 < 10 * ((1000 * est : Int) - s.rf R.SYN_REF_FREQ 25 0).natAbs)

/-- An episode in progress, or a new one from the next sample cycle where the synthesiser has been LOCKED, includes the loss of the
reference (R106, R111). -/
def episodeRefLost (s : State) : State :=
  match s.smp.epi with
  | some e => { s with smp := { s.smp with epi := some { e with refLost := true } } }
  | none => if s.smp.everLocked then episodeBegin (s.dtAfter 1) (s.cycle + 1) true false s else s

/-- REFERENCE_LOST: no REFIN edge for 1 µs, or (`gross`) a frequency counted in kHz that is off by more than 10 % (R100, R106, R107). In
OFF and COAST the loss is counted and shown and no event is raised, the table of states having no such row (notes/assumptions/74.md). -/
def execReferenceLost (gross : Bool) (est : BitVec 16) (s : State) : Host.Outcome State Fault Refusal :=
  if gross && !s.refGross est.toNat then .next s else
  if !s.refPresent then .next (if gross then s.setReg R.SYN_REF_EST (wd est.toNat) else s) else
  let st := s.smpState
  let s := s.setReg R.SYN_REF_STAT (wd (b2n gross * 8 + 2))
  let s := (s.setReg R.SYN_REF_EST (wd est.toNat)).cnt R.SYN_REF_LOSS_CNT
  let s := s.sticky R.SYN_SMP_STATUS 1
  let s := s.setReg R.SYN_QUAL_ELAPSED 0
  let ev (s : State) : State := raise 0x202 2 uRef [wd (b2n gross)] s
  if st = 1 ∨ st = 2 ∨ st = 3 ∨ st = 6 then .next (ev (qualRestart (smpSetState 4 (episodeRefLost (smpHoldBack s)))))
  else if st = 5 then .next (ev (qualRestart (smpSetState 4 (episodeRefLost s))))
  else .next s

/-- REFERENCE_RETURN: REFIN edges have been counted over 100 µs: SYN_REF_EST shows the count, kHz, and within 10 % of SYN_REF_FREQ the
reference is present, now or still (R100, R108). -/
def execReferenceReturn (est : BitVec 16) (s : State) : Host.Outcome State Fault Refusal :=
  let s := s.setReg R.SYN_REF_EST (wd est.toNat)
  if s.refPresent || s.refGross est.toNat then .next s else .next (qualRestart (s.setReg R.SYN_REF_STAT 1))

/-- QUAL_WINDOW_END: a whole qualification window has ended with an offset in 2^-40 (R108). -/
def execQualWindowEnd (offset : BitVec 36) (s : State) : Host.Outcome State Fault Refusal :=
  if s.smpState ≠ 4 || !s.refPresent || !s.fsOn || s.cycle % 1636800 != 0 || decide (s.cycle < s.smp.qualN + 1636800) then .next s else
  let s := s.setReg R.SYN_REF_OFS offset
  let tol := s.rf R.SYN_QUAL_CFG 27 12
  if tol * 1099511627776 < offset.toInt.natAbs * 100000000 then .next (qualRestart s) else
  let n := s.rf R.SYN_QUAL_ELAPSED 11 0 + 1
  let s := s.setReg R.SYN_QUAL_ELAPSED (wd n)
  if n < s.rf R.SYN_QUAL_CFG 11 0 then .next s else
  let s := s.setF R.SYN_REF_STAT 2 2 1
  let s := raise 0x203 1 uRef [offset] s
  if bit (s.reg R.SYN_POLICY) 0 then .next (smpSetState 5 s)
  else if smpPlanOk s then .next (smpClose 6 s)
  else .next (qualRestart (s.sticky R.SYN_SMP_STATUS 2))

/-! ## Episodes (R110 to R114) -/

/-- The step passed on at an episode end: every scale's offset, the steering reference and the timing unit (R114, R287,
R305). -/
def stepFeed (step : Int) (s : State) : State :=
  let scales := s.sol.scales.map (fun (p : Nat × ScaleM) => (p.1, { p.2 with off := p.2.off - 16 * step }))
  let steer := { s.sol.steer with oRef := s.sol.steer.oRef.map (fun o => o - 16 * step) }
  tpFeed step { s with sol := { s.sol with scales := scales, steer := steer } }

/-- An episode ends: the step S, the discontinuity counter, event 0x204, and the feed-forward (R111, R112, R114). -/
def episodeEnd (eAfter : Int) (slip : Int) (s : State) : State :=
  match s.smp.epi with
  | none => s
  | some e =>
    let slip := if e.refLost then 0 else slip
    let f : Int := max 1 (s.rf R.SYN_REF_FREQ 25 0)
    let m : Int := s.rf R.SYN_SMP_DIV 11 0
    let num : Int := (eAfter - e.eBefore) * f + 256 * slip * (68719476736 * m)
    let step := divRound num (256 * f)
    let len := s.cycle - e.startN
    let long := decide (16368000 < len)
    let disc := e.refLost || e.clkAbsent || long || slip != 0 || decide (68719476736 * 256 * f ≤ num.natAbs * 10000000000)
    let info := b2n e.refLost * 8 + b2n e.refLost * 4 + b2n long * 2 + b2n e.clkAbsent
    let s := { s with smp := { s.smp with epi := none } }
    let s := s.setDt R.SYN_EPI_END_SEC R.SYN_EPI_END_FRAC s.dt
    let s := (s.setReg R.SYN_EPI_LEN (wd len)).setReg R.SYN_STEP (wdI step)
    let s := s.setReg R.SYN_STEP_INFO (wd (info * 4294967296 + bitsS 32 slip))
    let s := if disc then s.setReg R.SYN_DISC_CNT (wd ((s.rf R.SYN_DISC_CNT 15 0 + 1) % 65536)) else s
    let s := { s with smp := { s.smp with ended := (s.cycle, s.rf R.SYN_DISC_CNT 15 0, step) :: s.smp.ended } }
    let s := if e.refLost then { s with sol := { s.sol with pfdPend := s.cycle :: s.sol.pfdPend } } else s
    let s := raise 0x204 1 uSmp [wdI step, wdI slip, wd info, s.reg R.SYN_DISC_CNT] s
    stepFeed step s

/-- The sample synthesiser enters LOCKED (R106): the first lock after power-on is recorded. -/
def smpLock (s : State) : State :=
  let first := !s.smp.everLocked
  let from1 := s.smpState == 1
  let s := { s with smp := { s.smp with everLocked := true, lockedN := s.cycle } }
  let s := smpSetState 2 s
  let s := if first then s.setDt R.SYN_LOCK_SEC R.SYN_LOCK_FRAC s.dt else s
  if first || from1 then raise 0x200 0 uSmp [wd (b2n first)] s else s

/-- A ramp ends (R119): event 0x20A with the passes completed; an LO's front end leaves SURVEY by steps 2, 3 and 6. -/
def rampLeave (u : Nat) (s : State) : State :=
  let s := rampClear u s
  if u < 4 ∧ s.feState u = feSurvey then calRunBegin u 76 false feRecal s else s

/-- A ramp ends, with its event (R119). -/
def rampEnd (u : Nat) (d : Dt) (s : State) : State :=
  let s := rampLeave u s
  raiseAt d 0x20A 0 (uSynth u) [wd (s.rf (R.LO_RAMP_STAT u) 23 8)] s

/-- A front end in STARTING with both synthesisers locked begins its start-up calibration (R95). -/
def feTryStart (n : Nat) (s : State) : State :=
  if s.feState n = feStarting ∧ s.loState n = 2 ∧ s.loState (4 + n) = 2 then
    let retry := (s.fe n).retry
    let s := calRunBegin n 127 true feCal s
    s.setFe n { s.fe n with retry := retry }
  else s

/-- An LO or injection synthesiser locks (R105, R116, R327). -/
def loLock (u : Nat) (s : State) : State :=
  if s.loState u ≠ 1 ∧ s.loState u ≠ 3 then s else
  let n := u % 4
  let s := s.setF (R.LO_STATE u) 3 0 2
  let s := s.setFe n (if u < 4 then { s.fe n with loGap := false } else { s.fe n with injGap := false })
  feTryStart n s

/-- LOCK_N of synthesiser `u` (R105). -/
def State.lockN (s : State) (u : Nat) : Nat := if u < 8 then s.rf (R.LO_LOCK u) 31 16 else s.rf R.SYN_SMP_LOCK 31 16

/-- LOSS_K of synthesiser `u` (R105). -/
def State.lossK (s : State) (u : Nat) : Nat := if u < 8 then s.rf (R.LO_LOCK u) 7 0 else s.rf R.SYN_SMP_LOCK 7 0

/-- SYNTH_LOCKED: synthesiser `which` (0 to 3 LO, 4 to 7 injection, 8 sample) has made LOCK_N comparisons in a row within WIN; `slip` is
the cycle accountant's count for an episode that ends (R105, R106, R111). -/
def execSynthLocked (which : Fin 9) (slip : BitVec 32) (s : State) : Host.Outcome State Fault Refusal :=
  let u := which.val
  if !s.fsOn || decide ((s.pllOf u).good < s.lockN u) then .next s else
  if u < 8 then .next (loLock u s)
  else
    let st := s.smpState
    if st = 1 ∨ st = 3 ∨ st = 6 then .next (episodeEnd (s.pllOf 8).first slip.toInt (smpLock s))
    else .next s

/-- R116, R508: a lock loss now is no front-end fault. -/
def State.lossExcused (s : State) : Bool := s.smpState != 2 || decide (s.cycle < s.smp.lockedN + 163680) || s.rfSupplyHold

/-- A ramp is aborted by a lock loss (R120): no fault. -/
def rampAbort (u : Nat) (e : Int) (s : State) : State :=
  let seg := s.rf (R.LO_RAMP_STAT u) 7 4
  let s := s.sticky (R.LO_STATUS u) 2
  let s := raise 0x20B 2 (uSynth u) [wd seg, wdI (divRound e 256)] s
  let s := if u < 4 then rampLeave u s else sweepAbort (u - 4) 1 (rampClear u s)
  s.setF (R.LO_STATE u) 3 0 3

/-- An LO loses lock: event 0x103; outside R116, R508 and a ramp it is a front-end fault (R95, R116, R120). -/
def loLost (n : Nat) (e : Int) (ramp excused : Bool) (s : State) : State :=
  let s := raise 0x103 2 (uFe n) [wdI (divRound e 256)] (s.sticky (R.FE_STATUS n) 0)
  let s := if ramp then rampAbort n e s else s.setF (R.LO_STATE n) 3 0 3
  let st := s.feState n
  if excused then s.setFe n { s.fe n with loGap := true }
  else if ramp then s
  else if st = feRun then feFault n s
  else if st = feCal ∨ st = feRecal then feFault n (calRunAbort n s)
  else s

/-- An injection synthesiser loses lock: event 0x208 (R116, R120, R327). -/
def injLost (n : Nat) (e : Int) (ramp excused : Bool) (s : State) : State :=
  let s := raise 0x208 2 (uInj n) [wdI (divRound e 256)] s
  let s := if ramp then rampAbort (4 + n) e s else s.setF (R.LO_STATE (4 + n)) 3 0 3
  let s := if s.smpState = 2 then calDisturb n s else s
  if excused then s.setFe n { s.fe n with injGap := true } else s

/-- An LO or injection synthesiser loses lock (R95, R116, R120, R327). -/
def loLoss (u : Nat) (s : State) : State :=
  let e := (s.pllOf u).last
  let excused := s.lossExcused
  let ramp := s.loState u == 4
  let s := pllRestart u ((s.cnt (R.LO_UNLOCK_CNT u)).sticky (R.LO_STATUS u) 0)
  if u < 4 then loLost u e ramp excused s else injLost (u - 4) e ramp excused s

/-- SYNTH_LOCK_LOST: LOSS_K comparisons in a row lay beyond WIN; the last of them is also the last before an episode that begins
(R105, R106, R111). -/
def execSynthLockLost (which : Fin 9) (s : State) : Host.Outcome State Fault Refusal :=
  let u := which.val
  if !s.fsOn || decide ((s.pllOf u).bad < s.lossK u) then .next s else
  if u < 8 then
    if s.loState u = 2 ∨ s.loState u = 4 then .next (loLoss u s) else .next s
  else if s.smpState ≠ 2 ∨ !s.refPresent then .next s
  else
    let s := smpSetState 3 (pllRestart 8 (episodeBegin (s.dtAfter 1) (s.cycle + 1) false false s))
    .next (raise 0x201 2 uSmp [wdI (divRound (s.pllOf 8).last 256)] s)

/-- LOCK_TIMEOUT: no lock of the sample synthesiser within 100 ms and LOCK_N comparison periods of the closing of the loop
(R106). The code held when RELOCKING fails is not stated: the model takes that of R107 (notes/assumptions/75.md). -/
def execLockTimeout (s : State) : Host.Outcome State Fault Refusal :=
  let st := s.smpState
  let f := max 1 (s.rf R.SYN_REF_FREQ 25 0)
  let wait := ceilDiv (s.rf R.SYN_SMP_LOCK 31 16 * s.rf R.SYN_SMP_DIV 11 0 * 163680000) f
  if !s.fsOn || !s.refPresent || decide (s.cycle < s.smp.closedN + 16368000 + wait) || !(st == 1 || st == 6) then .next s else
  if st = 1 then
    .next (raise 0x20D 2 uSmp [wdI (divRound (s.pllOf 8).last 256)] (qualRestart (smpSetState 4 (smpHold Config.centreCode.toNat s))))
  else .next (qualRestart (smpSetState 4 (smpHoldBack s)))

/-- DISC_DECLARED: an episode reaches 16,368,000 sample cycles (R113). -/
def execDiscDeclared (s : State) : Host.Outcome State Fault Refusal :=
  match s.smp.epi with
  | none => .next s
  | some e =>
    if e.declared || decide (s.cycle < e.startN + 16368000) then .next s else
    let s := { s with smp := { s.smp with epi := some { e with declared := true } } }
    .next (raise 0x205 2 uSmp [dtSec e.start] (s.sticky R.SYN_SMP_STATUS 4))

/-! ## Ramps (R117 to R120) -/

/-- Fields of a segment: OFFSET in kHz, SLOPE in 32 kHz/s, DUR in ramp epochs. -/
def segFields (u i : Nat) (s : State) : Int × Int × Nat :=
  let w := s.reg (R.LO_SEG u i)
  (sfld w 35 20, sfld w 19 8, fld w 7 0)

/-- R118: is a segment of the profile admissible? Frequencies are in units of 10 Hz. -/
def segOk (u i : Nat) (s : State) : Bool :=
  let (o, sl, d) := segFields u i s
  let a := 100 * o
  let b := 100 * o + 32 * sl * d
  let t : Int := 10 * (s.rf (R.LO_TARGET u) 30 0 : Int)
  let inBand (x : Int) : Bool := decide (x.natAbs ≤ 4000000) && decide (11500000000 ≤ t + 100 * x) && decide (t + 100 * x ≤ 16200000000)
  d != 0 && decide (sl.natAbs ≤ 1562) && inBand a && inBand b

/-- R118: may the profile be armed? -/
def rampOk (u : Nat) (s : State) : Bool :=
  bit (s.reg (R.LO_CFG u)) 0 && s.rf (R.LO_RAMP_CFG u) 5 4 != 3
    && (List.range (s.rf (R.LO_RAMP_CFG u) 3 0 + 1)).all (fun i => segOk u i s)

/-- Arm the profile at a DT; a DT already passed starts it at the next sample cycle with RAMP_LATE (R118). -/
def rampArm (u : Nat) (d : Dt) (s : State) : State :=
  let late := later 72 s.dt d
  let s := s.setRamp u { s.rampOf u with armed := some (if late then s.dtAfter 1 else d) }
  let s := s.setF (R.LO_RAMP_STAT u) 1 1 1
  if late then s.sticky (R.LO_STATUS u) 3 else s

/-- A host write to LOu_RAMP_FRAC: discarded as a reserved value where R118 says so (answered by the flag), armed only in RUN;
a write to an injection synthesiser is ignored. -/
def rampFracWrite (u : Nat) (v : Word) (s : State) : State × Bool :=
  if 4 ≤ u then (s, true)
  else if !rampOk u s then (s, false)
  else
    let s := s.setReg (R.LO_RAMP_FRAC u) v
    (if s.feState u = feRun ∧ !(s.rampOf u).active then rampArm u (dtOf (s.reg (R.LO_RAMP_SEC u)) v) s else s, true)

/-- OFFSET of segment `i` of a sweep's profile, from LO_ACT, kHz: 255 ramp epochs a segment, to the nearest kilohertz (R336). -/
def sweepOffset (w : SweepSt) (i : Nat) : Int := w.ofs - 25000 + divRound (816 * w.slope * i) 10

/-- The realised staircase of a sweep of unit `n` at a sample cycle, from LO_ACT, 2^-5 Hz: a function of the profile alone (R117, R336). -/
def sweepFreq (n : Nat) (w : SweepSt) (c : Nat) : Int :=
  let t := (c - w.startN) / 160 * 160
  32000 * sweepOffset w (t / 417384000) + 1024000 * w.slope * (t % 417384000 : Nat) / 163680000
    + max (-1600) (min 1600 (Config.rampDev (4 + n) (w.startN + t)))

/-- The frequency of a ramp in 2^-5 Hz at the present sample cycle (R117): from TARGET + OFFSET by SLOPE through the segment, or from its
end back; the realised value lies within 50 Hz. A sweep follows the staircase of its profile (R336). -/
def rampAct (u : Nat) (s : State) : Int :=
  match (if u < 4 then none else (s.calU (u - 4)).sweep) with
  | some w => 32 * (s.rf (R.LO_TARGET u) 30 0 : Int) - 32000 * s.injOfs (u - 4) + sweepFreq (u - 4) w s.cycle
  | none =>
  let r := s.rampOf u
  let (o, sl, d) := segFields u (s.rf (R.LO_RAMP_STAT u) 7 4) s
  let t := min (s.cycle - r.segN) (d * 1636800)
  let t : Int := if r.back then ((d * 1636800 - t : Nat) : Int) else t
  32 * (s.rf (R.LO_TARGET u) 30 0 : Int) + 32000 * o + 1024000 * sl * t / 163680000 + max (-1600) (min 1600 (Config.rampDev u s.cycle))

/-- A ramp at a sample cycle: it ends at the update point that RAMP_STOP chose, or its frequency is updated every 160 cycles (R117,
R119). -/
def rampTick (u : Nat) (s : State) : State :=
  let r := s.rampOf u
  if !r.active then s else
  match r.stopN with
  | some c => if c ≤ s.cycle then rampEnd u (dtOfCycle c) s
              else if (s.cycle - r.segN) % 160 = 0 then loSetAct u (wdI (rampAct u s)) s else s
  | none => if (s.cycle - r.segN) % 160 = 0 then loSetAct u (wdI (rampAct u s)) s else s

/-- The ramps at a sample cycle. -/
def rampTicks (s : State) : State := (List.range 8).foldl (fun a u => rampTick u a) s

/-- RAMP_START: an armed ramp starts at the first sample cycle at or after its DT (R118). -/
def execRampStart (u : Fin 8) (s : State) : Host.Outcome State Fault Refusal :=
  let r := s.rampOf u
  match r.armed with
  | none => .next s
  | some d =>
    if !s.fsOn || !dtGe s.dt d then .next s else
    if u.val < 4 ∧ s.feState u ≠ feRun then
      .next ((s.setRamp u { r with armed := none }).setF (R.LO_RAMP_STAT u) 1 1 0)
    else
      let s := s.setRamp u ⟨none, true, false, s.cycle, none⟩
      let s := (s.setReg (R.LO_RAMP_STAT u) 1).setF (R.LO_STATE u) 3 0 4
      let s := raise 0x209 0 (uSynth u) [dtSec s.dt] s
      .next (if u.val < 4 then feSetState u feSurvey s else s)

/-- RAMP_SEGMENT_END: the segment in progress has run its DUR ramp epochs; the next begins, or the profile ends or starts again
(R117, R119). -/
def execRampSegmentEnd (u : Fin 8) (s : State) : Host.Outcome State Fault Refusal :=
  let r := s.rampOf u
  if r.stopN.isSome then .next (rampTick u s) else
  let seg := s.rf (R.LO_RAMP_STAT u) 7 4
  let (_, _, d) := segFields u seg s
  let endN := r.segN + d * 1636800
  if !r.active || !s.fsOn || decide (s.cycle < endN) then .next s else
  let last := s.rf (R.LO_RAMP_CFG u) 3 0
  let profile := s.rf (R.LO_RAMP_CFG u) 5 4
  let pass (s : State) : State := s.setF (R.LO_RAMP_STAT u) 23 8 (s.rf (R.LO_RAMP_STAT u) 23 8 + 1)
  let go (i : Nat) (back : Bool) (s : State) : State := (s.setRamp u { r with segN := endN, back := back }).setF (R.LO_RAMP_STAT u) 7 4 i
  if profile = 2 then
    if r.back then (if seg = 0 then .next (pass (go 0 false s)) else .next (go (seg - 1) true s))
    else if seg < last then .next (go (seg + 1) false s) else .next (go last true s)
  else if seg < last then .next (go (seg + 1) false s)
  else if profile = 1 then .next (pass (go 0 false s))
  else if decide (4 ≤ u.val) && (match (s.calU (u.val - 4)).sweep with
      | some w => decide (endN < w.endN)
      | none => false) then .next (go last false s)
  else .next (rampEnd u (dtOfCycle endN) (pass s))

/-- A write of RAMP_STOP: a repeat or triangle profile of an LO is to end at its next update point (R119). -/
def loCtrl (u v : Nat) (s : State) : State :=
  let r := s.rampOf u
  if v % 2 = 1 ∧ u < 4 ∧ r.active ∧ r.stopN.isNone ∧ s.rf (R.LO_RAMP_CFG u) 5 4 ≠ 0 then
    s.setRamp u { r with stopN := some (r.segN + ceilDiv (s.cycle - r.segN) 160 * 160) }
  else s

/-! ## Commands (R455) -/

/-- SYN_SMP (R106, R545). -/
def synSmpSpec : CmdSpec where
  op := 0x200
  lens := fun n => n == 1
  resv := fun p _ => p.outside 0 3 || p.pf 0 1 0 == 3
  late := lateSample
  bnd := bndSample
  units := fun _ => [uSmp]
  chk := fun h s => [(h.pk.pf 0 0 0 == 1, smpEnableStatus s), (h.pk.pf 0 1 1 == 1, smpReengageStatus s)]
  at_ := atSample
  eff := fun h s =>
    let s := if h.pk.pf 0 0 0 = 1 then smpEnable s else if h.pk.pf 0 1 1 = 1 then smpClose 6 s else s
    (.done [s.reg R.SYN_SMP_STATE], s)
  refuse := fun h st s =>
    let s := if h.pk.pf 0 0 0 = 1 then smpEnableRefuse st s else if h.pk.pf 0 1 1 = 1 then smpReengageRefuse st s else s
    ([s.reg R.SYN_SMP_STATE], s)

/-- Registers that may change only in OFF, COAST and QUALIFIED (R109). -/
def smpFixed (s : State) : Bool := !(s.smpState == 0 || s.smpState == 4 || s.smpState == 5)

/-- A write to SYN_REF_FREQ, SYN_SMP_CFG or SYN_QUAL_CFG with its restart of qualification; WIN restarts the runs of comparisons (R105,
R108, R109). -/
def refFreqWrite (v : Word) (s : State) : State := if smpFixed s then s else qualRestart (s.setReg R.SYN_REF_FREQ v)
def smpCfgWrite (v : Word) (s : State) : State :=
  if smpFixed s then pllRestart 8 (s.setReg R.SYN_SMP_CFG (setBit v 0 (bit (s.reg R.SYN_SMP_CFG) 0)))
  else pllRestart 8 (qualRestart (s.setReg R.SYN_SMP_CFG v))
/-- A write of SYN_QUAL_CFG restarts qualification (R108). -/
def qualCfgWrite (v : Word) (s : State) : State := qualRestart (s.setReg R.SYN_QUAL_CFG v)

/-- SYN_REF_CONFIG (R99, R101, R105, R108, R109). -/
def synRefConfigSpec : CmdSpec where
  op := 0x201
  lens := fun n => n == 6
  resv := fun p _ => wordResv R.SYN_REF_FREQ (p.par 0) || wordResv R.SYN_REF_CFG (p.par 1) || wordResv R.SYN_QUAL_CFG (p.par 2)
    || wordResv R.SYN_POLICY (p.par 3) || wordResv R.SYN_SMP_CFG (p.par 4) || wordResv R.SYN_SMP_LOCK (p.par 5)
  late := lateSample
  bnd := bndSample
  units := fun _ => [uRef, uSmp]
  chk := fun _ s => [(smpFixed s, 4)]
  at_ := atSample
  eff := fun h s =>
    let p := h.pk
    let s := (refFreqWrite (p.par 0) s).setReg R.SYN_REF_CFG (p.par 1)
    let s := (qualCfgWrite (p.par 2) s).setReg R.SYN_POLICY (p.par 3)
    let s := pllRestart 8 ((smpCfgWrite (p.par 4) s).setReg R.SYN_SMP_LOCK (p.par 5))
    (.done (dtWords (atSample h s)), s)

/-- The synthesiser a SYN_LO_CONFIG names. -/
def loNamed (p : Packet) : Nat := p.pf 0 1 0 + 4 * p.pf 0 2 2

/-- SYN_LO_CONFIG (R455). -/
def synLoConfigSpec : CmdSpec where
  op := 0x202
  lens := fun n => n == 3
  resv := fun p _ => p.outside 0 7 || wordResv (R.LO_CFG (loNamed p)) (p.par 1) || wordResv (R.LO_LOCK (loNamed p)) (p.par 2)
  late := lateSample
  bnd := bndSample
  units := fun p => [uSynth (loNamed p)]
  chk := fun h s =>
    let u := loNamed h.pk
    [(s.feState (u % 4) == feRetired, 11),
     (s.feState (u % 4) != feOff && bit (h.pk.par 1) 0 != bit (s.reg (R.LO_CFG u)) 0, 4)]
  at_ := atSample
  eff := fun h s =>
    let u := loNamed h.pk
    (.done (dtWords (atSample h s)), pllRestart u ((s.setReg (R.LO_CFG u) (h.pk.par 1)).setReg (R.LO_LOCK u) (h.pk.par 2)))

/-- Put segments into a profile. -/
def segsWrite (u : Nat) : Nat → List Word → State → State
  | _, [], s => s
  | i, w :: ws, s => segsWrite u (i + 1) ws (s.setReg (R.LO_SEG u i) w)

/-- SYN_RAMP_SEG (R455). -/
def synRampSegSpec : CmdSpec where
  op := 0x203
  lens := fun n => decide (2 ≤ n ∧ n ≤ 16)
  resv := fun p _ => p.outside 0 0xF3
    || (List.range (p.len.toNat - 1)).any (fun i => wordResv (R.LO_SEG 0 0) (p.par (i + 1)))
  parm := fun p _ => decide (16 < p.pf 0 7 4 + p.len.toNat - 1)
  late := lateSample
  bnd := bndSample
  units := fun p => [uLo (p.pf 0 1 0)]
  chk := fun h s =>
    let u := h.pk.pf 0 1 0
    let r := s.rampOf u
    [(s.feState u == feRetired, 11),
     ((r.active || r.armed.isSome) && decide (h.pk.pf 0 7 4 ≤ s.rf (R.LO_RAMP_CFG u) 3 0), 4)]
  at_ := atSample
  eff := fun h s =>
    let n := h.pk.len.toNat - 1
    (.done [], segsWrite (h.pk.pf 0 1 0) (h.pk.pf 0 7 4) ((List.range n).map (fun i => h.pk.par (i + 1))) s)

/-- SYN_RAMP_ARM (R95, R118, R119, R455). With STOP set the reply's start DT is not stated: it is free. -/
def synRampArmSpec : CmdSpec where
  op := 0x204
  lens := fun n => n == 4
  resv := fun p _ => p.outside 0 0x13 || (p.pf 0 4 4 == 0 && wordResv (R.LO_RAMP_CFG 0) (p.par 1))
  late := lateSample
  bnd := bndSample
  units := fun p => [uLo (p.pf 0 1 0)]
  chk := fun h s =>
    let u := h.pk.pf 0 1 0
    let arm := h.pk.pf 0 4 4 == 0
    [(s.feState u == feRetired, 11),
     (arm && !rampOk u (s.setReg (R.LO_RAMP_CFG u) (h.pk.par 1)), 3),
     (arm && (s.feState u != feRun || (s.rampOf u).active), 4)]
  at_ := atSample
  eff := fun h s =>
    let p := h.pk
    let u := p.pf 0 1 0
    if p.pf 0 4 4 = 1 then
      let s := loCtrl u 1 s
      let (i, s) := s.takeFree
      let (j, s) := s.takeFree
      (.done [Config.freeWord i, Config.freeWord j], s)
    else
      let d := dtOf (p.par 2) (p.par 3)
      let s := ((s.setReg (R.LO_RAMP_CFG u) (p.par 1)).setReg (R.LO_RAMP_SEC u) (p.par 2)).setReg (R.LO_RAMP_FRAC u) (p.par 3)
      let start := if later 72 s.dt d then s.dtAfter 1 else dtOfCycle (cycleOf s.cycle d)
      (.done (dtWords start), rampArm u d s)

/-- SYN_SMP. -/
def execSynSmp (p : Packet) (s : State) : Host.Outcome State Fault Refusal := .next (consumeCmd synSmpSpec p s)
/-- SYN_REF_CONFIG. -/
def execSynRefConfig (p : Packet) (s : State) : Host.Outcome State Fault Refusal := .next (consumeCmd synRefConfigSpec p s)
/-- SYN_LO_CONFIG. -/
def execSynLoConfig (p : Packet) (s : State) : Host.Outcome State Fault Refusal := .next (consumeCmd synLoConfigSpec p s)
/-- SYN_RAMP_SEG. -/
def execSynRampSeg (p : Packet) (s : State) : Host.Outcome State Fault Refusal := .next (consumeCmd synRampSegSpec p s)
/-- SYN_RAMP_ARM. -/
def execSynRampArm (p : Packet) (s : State) : Host.Outcome State Fault Refusal := .next (consumeCmd synRampArmSpec p s)

end Sys2Proof.Machine
end

