-- ==== Sys2Proof/Machine/Fe.lean ====
section
/-! DEFINITION. Fe.lean: aerial ports and RF front ends: states, calibration runs, mismatch checks, aerial bias, coexistence, and
the sample clock's presence (R66 to R98, R115). -/

namespace Sys2Proof.Machine

/-! ## The sample clock (R115) -/

/-- SAMPLE_CLOCK_ABSENT: no fs edge for 64 management cycles (R115). -/
def execSampleClockAbsent (s : State) : Host.Outcome State Fault Refusal :=
  if !s.fsOn then .next s else
  let st := s.smpState
  let s := (s.cnt R.SYN_CLK_ABS_CNT).sticky R.SYN_SMP_STATUS 5
  let s := raise 0x206 4 uSmp [dtSec s.dt] { s with smp := { s.smp with absent := true } }
  let s := coexAbsent 1 (coexAbsent 0 s)
  let s := match s.smp.epi with
    | some e => { s with smp := { s.smp with epi := some { e with clkAbsent := true } } }
    | none => s
  if st ≠ 2 then .next s
  else
    let s := episodeBegin s.dt s.cycle false true s
    if s.refPresent then .next (raise 0x201 2 uSmp [wdI (divRound (s.pllOf 8).last 256)] (smpSetState 3 (pllRestart 8 s)))
    else .next (qualRestart (smpSetState 4 s))

/-- An output notes that the sample clock has returned (R307). -/
def tpReturned (n : Nat) (s : State) : State := s.setTp n { s.tp n with returned := s.tpState n == 2 }

/-- SAMPLE_CLOCK_RETURNED: 64 management cycles with fs edges, after an absence of `cycles` management cycles; coexistence modes resume
(R94, R115). -/
def execSampleClockReturned (cycles : BitVec 36) (s : State) : Host.Outcome State Fault Refusal :=
  if !s.smp.absent then .next s else
  let s := { s with smp := { s.smp with absent := false } }
  let s := tpReturned 3 (tpReturned 2 (tpReturned 1 (tpReturned 0 s)))
  .next (raise 0x207 1 uSmp [cycles] (coexResume 1 (coexResume 0 s)))

/-! ## Registers of a front end with an effect (R68, R70, R74, R81, R95) -/

/-- Writes of CENTRE and CFG take effect in OFF only (R68). -/
def feOffOnly (o n : Nat) (v : Word) (s : State) : State := if s.feState n = feOff then s.setReg o v else s

/-- GAIN_CFG: manual applies its code at once; hold and manual drop a code due (R70). -/
def gainCfgWrite (n : Nat) (v : Word) (s : State) : State :=
  let s := s.setReg (R.FE_GAIN_CFG n) v
  let mode := fld v 15 14
  let s := if mode = 0 then s else s.setFe n { s.fe n with codes := [] }
  if mode = 1 then gainCode n (fld v 7 0) (calClock n s) s else s

/-- The tuner delay of the codes in force, from the factory tuner model (R323); zero while the factory data is invalid. -/
def tunerDly (n : Nat) (s : State) : State :=
  s.setReg (R.CALN_TUNER_DLY n)
    (if s.facValid then wd ((Config.factory n 9 (s.rf (R.FE_TUNER n) 9 0)).toNat % 262144) else 0)

/-- TUNER: SERIES and SHUNT change only when the write puts manual mode in force (R74). -/
def tunerWrite (n : Nat) (v : Word) (s : State) : State :=
  let v := if fld v 11 10 = 2 then v else setFld v 9 0 (s.rf (R.FE_TUNER n) 9 0)
  tunerDly n (s.setReg (R.FE_TUNER n) v)

/-- The bias is switched on: the inrush interval begins (R81). -/
def biasOn (n : Nat) (s : State) : State :=
  biasSync n (s.setFe n { s.fe n with bias := { (s.fe n).bias with on := true, onCnt := 0, overCnt := 0, lowCnt := 0, okCnt := 0, retryAt := none } })

/-- The latch of the bias is cleared, and with it the short history (R81). -/
def biasUnlatch (n : Nat) (s : State) : State :=
  if bit (s.reg (R.FE_BIAS_STAT n)) 18 then
    (s.setF (R.FE_BIAS_STAT n) 18 18 0).setFe n { s.fe n with bias := { (s.fe n).bias with shorts := [] } }
  else s

/-- A write of BIAS_CFG, with XRES and LIMIT taken first. EN = 1 after EN = 0, or in the command (`cmd`), clears a latch; a retry that is
awaited keeps the switch low whatever EN holds (R79, R81, R454). -/
def biasCfgWrite (n : Nat) (v : Word) (cmd : Bool) (s : State) : State :=
  let was := bit (s.reg (R.FE_BIAS_CFG n)) 0
  let s := s.setReg (R.FE_BIAS_CFG n) v
  if !bit v 0 then
    biasSync n (s.setFe n { s.fe n with bias := { (s.fe n).bias with on := false, overCnt := 0, lowCnt := 0 } })
  else
    let s := if cmd || !was then biasUnlatch n s else s
    let s := s.setFe n { s.fe n with bias := { (s.fe n).bias with forced := false } }
    let b := (s.fe n).bias
    if b.on || s.feState n == feRetired || bit (s.reg (R.FE_BIAS_STAT n)) 18 || b.retryAt.isSome then biasSync n s
    else biasOn n s

/-- A write to FEn_CTRL (R95): refused requests are ignored. -/
def feCtrl (n v : Nat) (s : State) : State :=
  let s := if v % 2 = 1 ∧ s.feState n = feOff ∧ feEnableStatus n s = 0 then feEnable n s else s
  let s := if v / 2 % 2 = 1 then feDisable n s else s
  let mask := s.rf (R.FE_CAL_CFG n) 6 0
  if v / 4 % 2 = 1 ∧ s.feState n = feRun ∧ mask ≠ 0 then calRunBegin n mask false feRecal s else s

/-- FE_HIST_CTRL.CLEAR zeroes the histogram. -/
def histClear (base : Nat → Nat) : Nat → State → State
  | 0, s => s
  | i + 1, s => histClear base i (s.setReg (base i) 0)

/-! ## Locks and calibration runs (R83 to R86, R95) -/

/-- FE_LOCK_TIMEOUT: 5 ms of sample time have passed since the later of the enable boundary and the sample synthesiser's entry to
LOCKED, and an LO or injection synthesiser is not locked (R95). -/
def execFeLockTimeout (n : Fin 4) (s : State) : Host.Outcome State Fault Refusal :=
  if s.feState n ≠ feStarting || s.smpState != 2 || !s.fsOn || (s.loState n == 2 && s.loState (4 + n) == 2)
      || decide (s.cycle < max (s.fe n).enN s.smp.lockedN + 5 * msCycles) then .next s
  else .next (feFault n s)

/-- The clause of an integer list: absolute values within limits, pairwise. -/
def within (ms : List Int) (lims : List Nat) : Bool := (ms.zip lims).all (fun (p : Int × Nat) => decide (p.1.natAbs ≤ p.2))

/-- Neighbouring gain errors of the AGC table differ by at most 0.25 dB (2^-6 dB units). -/
def agcSteps : List Int → Bool
  | a :: b :: t => decide ((sext 12 (a % 4096).toNat - sext 12 (b % 4096).toNat).natAbs ≤ 16) && agcSteps (b :: t)
  | _ => true

/-- Does a step's measurement lie within its pass limits (the table of calibration steps, R339)? The measurements are: step 0 raw
offsets I, Q in 2^-8 LSB and raw gains in 2^-8 dB; 1 the two edges in 2^-8 %; 2 gain imbalance in 2^-12 dB, phase in 2^-12 degree,
image rejection in 0.25 dB; 3 the residual in 2^-8 LSB; 4 the 145 words of the AGC table; 6 m, |C(m)|, noise and r of CC0. -/
def stepPass (n step : Nat) (ms : List Int) (s : State) : Bool :=
  let g (i : Nat) : Int := ms.getD i 0
  match step with
  | 0 => within ms [2048, 2048, 256, 256]
  | 1 => within ms [768, 768]
  | 2 => within ms [8192, 40960] && decide (160 ≤ g 2)
  | 3 => within ms [256]
  | 4 => decide (ms.length = 145) && ms.all (fun w => decide ((sext 12 (w % 4096).toNat).natAbs ≤ 96)) && agcSteps ms
  | 5 => true
  | _ =>
    let dinj := sfld (s.reg (R.CALN_FAC_DINJ n)) 35 0
    let d0 := s.facD n
    decide (4 ≤ g 0 ∧ g 0 ≤ 32) && decide (8 * g 2 ≤ g 1) && decide ((g 3 - dinj - d0).natAbs ≤ 2199)

/-- Two 18-bit signed fields in one word. -/
def pair18 (a b : Int) : Word := wd (bitsS 18 a * 262144 + bitsS 18 b)

/-- Round to the nearest, halves away from zero, of `a` / 2. -/
def halfAway (a : Int) : Int := if 0 ≤ a then (a + 1) / 2 else -((1 - a) / 2)

/-- BASE of correlator 0 moves so that the peak tap is near 24 (R328, R339). -/
def baseMove (n : Nat) (m : Int) (s : State) : State :=
  let step : Int := if bit (s.reg (R.CALN_CFG n)) 18 then 1 else 2
  s.setReg (R.CALN_BASE n) (wd (bitsS 12 (sfld (s.reg (R.CALN_BASE n)) 11 0 + step * 2 * halfAway (m - 24))))

/-- The report of a return-loss measurement (R75, R78): the least of the three, clamped to 40 dB. -/
def matchReport (n : Nat) (lo mid hi : Nat) (s : State) : State :=
  let c (x : Nat) : Nat := min x 160
  let range := decide (160 < lo) || decide (160 < mid) || decide (160 < hi)
  let s := s.setReg (R.FE_MATCH_STAT n) (wd (b2n range * 16777216 + c lo * 65536 + c mid * 256 + c hi))
  let rl := min (c lo) (min (c mid) (c hi))
  let codes := wd (s.rf (R.FE_TUNER n) 9 0)
  let warn := s.rf (R.FE_MATCH_CFG n) 27 20
  let poor := decide (rl < warn)
  let was := (s.fe n).poor
  let s := s.setFe n { s.fe n with poor := poor }
  let s := if poor then raise 0x104 2 (uFe n) [wd rl, codes] (s.sticky (R.FE_STATUS n) 2) else s
  let s := if rl < s.rf (R.FE_MATCH_CFG n) 19 12 then raise 0x105 3 (uFe n) [wd rl, codes] (s.sticky (R.FE_STATUS n) 3) else s
  if was && !poor then raise 0x106 1 (uFe n) [wd rl] s else s

/-- The measurements of tuner match (R75, R76): the return losses in 0.25 dB at the three tones for setting `i`. -/
def matchLoss (ms : List Int) (i : Nat) : Nat × Nat × Nat :=
  ((ms.getD (1 + 3 * i) 0).toNat, (ms.getD (2 + 3 * i) 0).toNat, (ms.getD (3 + 3 * i) 0).toNat)

/-- The return loss of setting `i`, the least of the three, as reported: at most 40 dB (R75). -/
def matchValue (ms : List Int) (i : Nat) : Nat := min 160 (min (matchLoss ms i).1 (min (matchLoss ms i).2.1 (matchLoss ms i).2.2))

/-- The best code of a sweep of 32 whose first setting is `i`: the highest return loss, the lower code on a tie (R76). -/
def sweepBest (ms : List Int) (i : Nat) : Nat :=
  (List.range 32).foldl (fun best c => if matchValue ms (i + best) < matchValue ms (i + c) then c else best) 0

/-- Tuner match (R76): in auto mode `ms` holds the reflected power, then the 128 settings of the four sweeps (SERIES, SHUNT, SERIES,
SHUNT), and the codes of the last two sweeps are kept; in the other modes it holds the power and one setting. -/
def tunerMatch (n : Nat) (ms : List Int) (s : State) : State :=
  let auto := s.rf (R.FE_TUNER n) 11 10 == 0
  let shunt := sweepBest ms 96
  let s := if auto then s.setF (R.FE_TUNER n) 9 0 (sweepBest ms 64 * 32 + shunt) else s
  let (lo, mid, hi) := matchLoss ms (if auto then 96 + shunt else 0)
  let s := tonesDrive n (s.setReg (R.FE_REFL_PWR n) (wd (bitsS 12 (ms.headD 0))))
  tunerDly n (matchReport n lo mid hi s)

/-- The results of a step that has passed go into its registers (R83, R339). -/
def stepResult (n step : Nat) (ms : List Int) (s : State) : State :=
  let g (i : Nat) : Int := ms.getD i 0
  match step with
  | 0 => (s.setReg (R.FE_ADC_OFS n) (pair18 (g 4) (g 5))).setReg (R.FE_ADC_GAIN n) (pair18 (g 6) (g 7))
  | 1 => s.setReg (R.FE_FILT_TRIM n) (wd (bitsS 8 (g 2)))
  | 2 => s.setReg (R.FE_IQ_IMB n) (pair18 (g 0) (g 1))
  | 3 => s.setReg (R.FE_LO_LEAK n) (pair18 (g 1) (g 2))
  | 4 => s.setFe n { s.fe n with agc := ms.zipIdx.map (fun (p : Int × Nat) => (p.2, wdI p.1)) }
  | 5 => tunerMatch n ms s
  | _ => raise 0x805 0 (uCal n) [wdI (g 3 - sfld (s.reg (R.CALN_FAC_DINJ n)) 35 0), 1] (baseMove n (g 0) s)

/-- The end of tuner match (R86): more than 20 ms of suspensions put the codes back. -/
def matchIncomplete (n : Nat) (r : CalRun) (s : State) : State :=
  if 20 * msCycles < r.susp then
    let s := (s.setF (R.FE_TUNER n) 9 0 r.tuner).sticky (R.FE_STATUS n) 8
    raise 0x10B 1 (uFe n) [wd r.susp] (tunerDly n s)
  else s

/-- A run ends with every step passed (R95). -/
def calRunEnd (n : Nat) (r : CalRun) (s : State) : State :=
  let s := s.setFe n { s.fe n with run := none, retry := false }
  let s := s.setReg (R.FE_CAL_STAT n) (wd (1 * 16384 + r.done * 128))
  let s := s.setReg (R.FE_CAL_TEMP n) (wd (s.rf (R.CUR_S_VAL n) 11 0))
  let s := s.setDt (R.FE_CAL_SEC n) (R.FE_CAL_FRAC n) s.dt
  let s := loPlan (4 + n) (injAim n s) s
  let s := feSetState n feRun s
  raise 0x101 0 (uFe n) [wd r.done, 0] s

/-- CAL_STEP_END: the step in progress completes with its measurements and is judged; the next step begins, the run ends, or
a failure is a front-end fault (R83, R85, R508). Which of a step's measurements is the measured value of event 0x102 is not stated: the
model gives the first (notes/assumptions/76.md). -/
def execCalStepEnd (n : Fin 4) (ms : List Int) (s : State) : Host.Outcome State Fault Refusal :=
  match (s.fe n).run with
  | none => .next s
  | some r =>
    match r.left with
    | [] => .next s
    | step :: rest =>
      if r.suspN.isSome || !s.fsOn || decide (s.cycle < r.stepN + stepMs.getD step 0 * msCycles) then .next s else
      if stepPass n step ms s then
        let s := stepResult n step ms s
        let s := if step = 5 then matchIncomplete n r s else s
        let r := { r with left := rest, done := r.done + 2 ^ step, stepN := s.cycle }
        match rest with
        | [] => .next (calRunEnd n r s)
        | b :: _ =>
          let hold := b == 5 && s.coexActive n
          .next (stepAim n b (s.setFe n { s.fe n with run := some { r with suspN := if hold then some s.cycle else none } }))
      else if s.rfSupplyHold then
        .next (s.setFe n { s.fe n with run := some { r with suspN := some s.cycle } })
      else
        let s := s.setFe n { s.fe n with run := none }
        let s := s.setReg (R.FE_CAL_STAT n) (wd (2 * 16384 + (r.done + 2 ^ step) * 128 + 2 ^ step))
        let s := s.setReg (R.FE_CAL_TEMP n) (wd (s.rf (R.CUR_S_VAL n) 11 0))
        let s := (s.cnt (R.FE_CAL_FAIL_CNT n)).sticky (R.FE_STATUS n) 1
        let s := if step = 6 then raise 0x805 0 (uCal n) [wdI (ms.getD 3 0 - sfld (s.reg (R.CALN_FAC_DINJ n)) 35 0), 0] s else s
        let s := raise 0x102 2 (uFe n) [wd step, wdI (ms.getD 0 0)] s
        .next (feFault n s)

/-- CAL_STEP_RESTART: a suspended step restarts from its beginning once the sample synthesiser is locked, no mapped request holds
tuner match, and the 1 ms after a supply interval has passed (R86, R508). Whether tuner match held by a request restarts or resumes is
not stated: the model restarts it as R86 restarts a step after lock (notes/assumptions/77.md). -/
def execCalStepRestart (n : Fin 4) (s : State) : Host.Outcome State Fault Refusal :=
  match (s.fe n).run with
  | none => .next s
  | some r =>
    match r.suspN with
    | none => .next s
    | some c =>
      if s.smpState ≠ 2 || !s.fsOn || s.rfSupplyHold || (r.left.head? == some 5 && s.coexActive n) then .next s else
      .next (s.setFe n { s.fe n with run := some { r with susp := r.susp + (s.cycle - c), suspN := none, stepN := s.cycle } })

/-! ## Mismatch checks (R77, R78) -/

/-- MISMATCH_CHECK_START: a periodic check falls due; it is skipped outside RUN, during a sweep or with a request active. -/
def execMismatchCheckStart (n : Fin 4) (s : State) : Host.Outcome State Fault Refusal :=
  let per := s.rf (R.FE_MATCH_CFG n) 11 0
  if per = 0 || !s.fsOn || (s.cycle + per * 163680000 - n.val * 40920000 % (per * 163680000)) % (per * 163680000) != 0
      || s.feState n != feRun || (s.calU n).sweep.isSome || s.coexActive n || (s.fe n).check.isSome then .next s else
  .next (loPlan (4 + n) ((matchTones n s).headD 0) (s.setFe n { s.fe n with check := some (s.cycle, false) }))

/-- MISMATCH_CHECK_END: a check has lasted 16,368 sample cycles; the three return losses in 0.25 dB and the last reflected power
are given. -/
def execMismatchCheckEnd (n : Fin 4) (lo mid hi : Nat) (refl : BitVec 12) (s : State) : Host.Outcome State Fault Refusal :=
  match (s.fe n).check with
  | none => .next s
  | some (c, coex) =>
    if !s.fsOn || decide (s.cycle < c + 16368) then .next s else
    let s := s.setFe n { s.fe n with check := none }
    let s := if s.feState n = feRun then loPlan (4 + n) (injAim n s) (tonesDrive n s) else s
    if coex || s.feState n != feRun then .next s else
    .next (matchReport n lo mid hi (s.setReg (R.FE_REFL_PWR n) (wd refl.toNat)))

/-! ## Aerial bias (R79 to R81) -/

/-- A short is declared (R81). -/
def biasShort (n : Nat) (peak : Nat) (s : State) : State :=
  let b := (s.fe n).bias
  let win := s.rf (R.FE_BIAS_CFG n) 12 1
  let m := 1 + (b.shorts.filter (fun d => decide ((s.dt - d).toNat ≤ win * 68719476736))).length
  let s := (s.cnt (R.FE_BIAS_SHORT_CNT n)).sticky (R.FE_STATUS n) 5
  let s := s.setF (R.FE_BIAS_STAT n) 21 19 (min m 6)
  let b := { b with on := false, overCnt := 0, lowCnt := 0, shorts := (s.dt :: b.shorts).take 6 }
  if m ≤ 5 then
    let at_ := s.dt + BitVec.ofNat 72 (2 ^ (m - 1) * 68719476736)
    let s := biasSync n (s.setFe n { s.fe n with bias := { b with retryAt := some at_ } })
    raise 0x108 2 (uBias n) [wd peak, wd m, dtSec at_] s
  else
    let s := s.setFe n { s.fe n with bias := { b with retryAt := none } }
    let s := biasSync n (s.setF (R.FE_BIAS_STAT n) 18 18 1)
    raise 0x109 3 (uBias n) [wd peak] (s.sticky (R.FE_STATUS n) 6)

/-- The open condition (R80): 100 ms are 10,000 intervals between samples. -/
def biasOpen (n cur : Nat) (s : State) : State :=
  let b := (s.fe n).bias
  let low := if b.on && decide (cur < 200) then b.lowCnt + 1 else 0
  let ok := if cur < 200 then 0 else b.okCnt + 1
  let s := s.setFe n { s.fe n with bias := { b with lowCnt := low, okCnt := ok } }
  if bit (s.reg (R.FE_BIAS_STAT n)) 16 then (if 10000 < ok then s.setF (R.FE_BIAS_STAT n) 16 16 0 else s)
  else if 10000 < low then raise 0x107 2 (uBias n) [wd cur] ((s.setF (R.FE_BIAS_STAT n) 16 16 1).sticky (R.FE_STATUS n) 4)
  else s

/-- BIAS_SAMPLE: ABIAS_SNSn is sampled, µV; the current is voltage / XRES (R80, R81). How it is rounded to 0.01 mA is not stated: the model
rounds down (notes/assumptions/78.md). Samples come every 10 µs, so the 1 ms after a switch-on are the 99 samples before the hundredth. -/
def execBiasSample (n : Fin 4) (uv : Nat) (s : State) : Host.Outcome State Fault Refusal :=
  let raw := uv * 100 / max 1 (s.rf (R.FE_BIAS_CFG n) 33 21)
  let cur := min raw 65535
  let prev := s.rf (R.FE_BIAS_STAT n) 15 0
  let s := (s.setF (R.FE_BIAS_STAT n) 15 0 cur).setF (R.FE_BIAS_STAT n) 22 22 (b2n (decide (65535 < raw)))
  let s := (s.minF (R.FE_BIAS_I_MIN n) 15 0 cur).maxF (R.FE_BIAS_I_MAX n) 15 0 cur
  let s := biasOpen n cur s
  let b : BiasSt := { (s.fe n).bias with onCnt := (s.fe n).bias.onCnt + 1 }
  let hot := b.on && decide (100 ≤ b.onCnt) && decide (100 * s.rf (R.FE_BIAS_CFG n) 20 13 < cur)
  let s := s.setFe n { s.fe n with bias := { b with overCnt := b2n hot } }
  .next (if hot && b.overCnt != 0 then biasShort n (max cur prev) s else s)

/-- BIAS_RETRY: the retry scheduled after a short falls due: the bias is switched on where EN holds (R79, R81). -/
def execBiasRetry (n : Fin 4) (s : State) : Host.Outcome State Fault Refusal :=
  match (s.fe n).bias.retryAt with
  | none => .next s
  | some d =>
    if !dtGe s.dt d || s.feState n == feRetired then .next s
    else if bit (s.reg (R.FE_BIAS_CFG n)) 0 then .next (biasOn n s)
    else .next (biasSync n (s.setFe n { s.fe n with bias := { (s.fe n).bias with retryAt := none } }))

/-! ## Replay enable and disable (R95, R143) -/

/-- OFF to REPLAY: the gain code is GAIN_CFG.MANUAL (R342). -/
def feReplayEnable (n : Nat) (s : State) : State :=
  feSetState n feReplay (gainCode n (s.rf (R.FE_GAIN_CFG n) 7 0) 0 s)

/-! ## Commands (R454) -/

/-- FE_STATE. -/
def feStateSpec : CmdSpec where
  op := 0x100
  lens := fun n => n == 1
  resv := fun p _ => p.outside 0 0x73 || decide (p.pf 0 6 4 < 1 ∨ 4 < p.pf 0 6 4)
  late := lateSample
  bnd := bndSample
  units := fun p => [uFe (p.pf 0 1 0)]
  chk := fun h s =>
    let n := h.pk.pf 0 1 0
    let a := h.pk.pf 0 6 4
    [(s.feState n == feRetired, 11), (a == 1, feEnableStatus n s),
     (a == 3 && s.feState n != feOff, 5), (a == 4 && s.feState n != feReplay, 5)]
  at_ := atSample
  eff := fun h s =>
    let n := h.pk.pf 0 1 0
    let d := atSample h s
    let s := match h.pk.pf 0 6 4 with
      | 1 => if s.feState n = feOff then feEnable n s else s
      | 2 => if s.feState n = feReplay then feReplayDisable n s else feDisable n s
      | 3 => feReplayEnable n s
      | _ => feReplayDisable n s
    (.done (wd (s.feState n) :: dtWords d), s)

/-- MATCH_CFG with FAULT above WARN is a reserved value. -/
def matchCfgBad (v : Word) : Bool := decide (fld v 27 20 < fld v 19 12)

/-- FE_CONFIG (R68, R70, R74). -/
def feConfigSpec : CmdSpec where
  op := 0x101
  lens := fun n => n == 9
  resv := fun p _ => p.outside 0 3 || wordResv (R.FE_CENTRE 0) (p.par 1) || wordResv (R.FE_CFG 0) (p.par 2)
    || wordResv (R.FE_GAIN_CFG 0) (p.par 3) || wordResv (R.FE_TUNER 0) (p.par 4) || wordResv (R.FE_MATCH_CFG 0) (p.par 5)
    || matchCfgBad (p.par 5) || wordResv (R.FE_CAL_CFG 0) (p.par 6) || wordResv (R.FE_COEX_MAP 0) (p.par 7)
    || wordResv (R.FE_EVT_MASK 0) (p.par 8)
  late := lateSample
  bnd := bndSample
  units := fun p => [uFe (p.pf 0 1 0)]
  chk := fun h s =>
    let n := h.pk.pf 0 1 0
    [(s.feState n == feRetired, 11),
     (s.feState n != feOff && (h.pk.par 1 != s.reg (R.FE_CENTRE n) || h.pk.par 2 != s.reg (R.FE_CFG n)), 4)]
  at_ := atSample
  eff := fun h s =>
    let p := h.pk
    let n := p.pf 0 1 0
    let s := feOffOnly (R.FE_CFG n) n (p.par 2) (feOffOnly (R.FE_CENTRE n) n (p.par 1) s)
    let s := tunerWrite n (p.par 4) (gainCfgWrite n (p.par 3) s)
    let s := (s.setReg (R.FE_MATCH_CFG n) (p.par 5)).setReg (R.FE_CAL_CFG n) (p.par 6)
    let s := (coexMapWrite n (p.par 7) s).setReg (R.FE_EVT_MASK n) (p.par 8)
    (.done (dtWords (atSample h s)), s)

/-- FE_CALIBRATE (R83, R95). -/
def feCalibrateSpec : CmdSpec where
  op := 0x102
  lens := fun n => n == 1
  resv := fun p _ => p.outside 0 0x7F03
  parm := fun p _ => p.pf 0 14 8 == 0
  late := lateSample
  bnd := bndSample
  units := fun p => [uFe (p.pf 0 1 0)]
  chk := fun h s =>
    let st := s.feState (h.pk.pf 0 1 0)
    [(st == feRetired, 11), (st == feOff || st == feReplay, 5), (st != feRun, 4)]
  at_ := atSample
  eff := fun h s =>
    let d := atSample h s
    (.done (dtWords d), calRunBegin (h.pk.pf 0 1 0) (h.pk.pf 0 14 8) false feRecal s)

/-- FE_BIAS (R79, R81). -/
def feBiasSpec : CmdSpec where
  op := 0x103
  lens := fun n => n == 2
  resv := fun p _ => p.outside 0 3 || wordResv (R.FE_BIAS_CFG 0) (p.par 1)
  late := lateSample
  bnd := bndSample
  units := fun p => [uFe (p.pf 0 1 0), uBias (p.pf 0 1 0)]
  chk := fun h s => [(s.feState (h.pk.pf 0 1 0) == feRetired, 11)]
  at_ := atSample
  eff := fun h s =>
    let n := h.pk.pf 0 1 0
    let s := biasCfgWrite n (h.pk.par 1) true s
    (.done [s.reg (R.FE_BIAS_STAT n)], s)

/-- FE_COEX (R88, R93): it arms the windows as a write to WIN_FRAC would. -/
def feCoexSpec : CmdSpec where
  op := 0x104
  lens := fun n => n == 7
  resv := fun p _ => p.outside 0 1 || wordResv (R.FE_COEX_CFG 0 0) (p.par 1) || wordResv (R.FE_COEX_EXT 0 0) (p.par 2)
    || coexWinBad (p.par 5).toNat (p.par 6).toNat
  late := lateSample
  bnd := bndSample
  units := fun p => [1 + p.pf 0 0 0]
  at_ := atSample
  eff := fun h s =>
    let p := h.pk
    let k := p.pf 0 0 0
    let s := (coexCfgWrite k (p.par 1) s).setReg (R.FE_COEX_EXT 0 k) (p.par 2)
    let s := (s.setReg (R.FE_COEX_WIN_SEC 0 k) (p.par 3)).setReg (R.FE_COEX_WIN_FRAC 0 k) (p.par 4)
    let s := (s.setReg (R.FE_COEX_WIN_LEN 0 k) (p.par 5)).setReg (R.FE_COEX_WIN_PER 0 k) (p.par 6)
    (.done (dtWords (atSample h s)), coexArm k s)

/-- FE_STATE. -/
def execFeState (p : Packet) (s : State) : Host.Outcome State Fault Refusal := .next (consumeCmd feStateSpec p s)
/-- FE_CONFIG. -/
def execFeConfig (p : Packet) (s : State) : Host.Outcome State Fault Refusal := .next (consumeCmd feConfigSpec p s)
/-- FE_CALIBRATE. -/
def execFeCalibrate (p : Packet) (s : State) : Host.Outcome State Fault Refusal := .next (consumeCmd feCalibrateSpec p s)
/-- FE_BIAS. -/
def execFeBias (p : Packet) (s : State) : Host.Outcome State Fault Refusal := .next (consumeCmd feBiasSpec p s)
/-- FE_COEX. -/
def execFeCoex (p : Packet) (s : State) : Host.Outcome State Fault Refusal := .next (consumeCmd feCoexSpec p s)

end Sys2Proof.Machine
end

