-- ==== Sys2Proof/Machine/Chz.lean ====
section
/-! DEFINITION. Chz.lean: the channeliser: blocks of 1 ms, gain and level control, notches, taps, streams to the host and
replay (R70 to R73, R123 to R147). -/

namespace Sys2Proof.Machine

/-! ## The end of a block (R71 to R73, R132, R136, R137) -/

/-- |d| of R71 for a ratio q = num/den of squares: how many half-decibel steps 20·log10(q) rounds to, halves away from zero,
at most 6. -/
def agcUp (num den : Nat) : Nat :=
  ((List.range 6).filter (fun k => decide (10 ^ (2 * k + 1) * den ^ 40 ≤ num ^ 40))).length

/-- The change of gain code of R71 for `n` values with a sum of squares `ss`. -/
def agcDelta (target n ss : Nat) : Int :=
  if ss = 0 then 6
  else
    let a := target * target * n
    if ss ≤ a then (agcUp a ss : Int) else -(agcUp ss a : Int)

/-- A root mean square in 2^-8 LSB, to the nearest. -/
def rms8 (ss n : Nat) : Nat := if n = 0 then 0 else (Nat.sqrt (4 * (ss * 65536 / n)) + 1) / 2

/-- A mean in 2^-8 LSB, to the nearest. -/
def mean8 (sm : Int) (n : Nat) : Int := if n = 0 then 0 else divRound (256 * sm) n

/-- The AGC of a live front end over block `k` (R71, R73). -/
def agcBlock (n k : Nat) (b : BlkSums) (s : State) : State :=
  let vals := 2 * b.cnt
  let ss := b.ssI + b.ssQ
  let held := decide (vals < 32736)
  let s := (s.setF (R.FE_GAIN_STAT n) 15 0 (rms8 ss vals)).setF (R.FE_GAIN_STAT n) 24 24 (b2n held)
  let s := (s.setReg (R.FE_RMS_I n) (wd (rms8 b.ssI b.cnt))).setReg (R.FE_RMS_Q n) (wd (rms8 b.ssQ b.cnt))
  let s := (s.setReg (R.FE_DC_I n) (wd (bitsS 18 (mean8 b.smI b.cnt)))).setReg (R.FE_DC_Q n) (wd (bitsS 18 (mean8 b.smQ b.cnt)))
  let s :=
    if s.rf (R.FE_GAIN_CFG n) 15 14 = 0 ∧ !held then
      let code : Int := s.rf (R.FE_GAIN_STAT n) 23 16
      let new := max 0 (min 144 (code + agcDelta (s.rf (R.FE_GAIN_CFG n) 13 8) vals ss))
      s.setFe n { s.fe n with codes := (s.fe n).codes ++ [((k + 2) * 163680, new.toNat)] }
    else s
  if 2 * b.all < 100 * b.clip then
    let s := s.sticky (R.FE_STATUS n) 7
    raiseIn (secOfCycle ((k + 1) * 163680)) 0x10A 1 (uFe n) [wd (b.clip * 65536 / (2 * b.all))] s
  else s

/-- Coefficient `k` of the decimation filter of a RATE: symmetric, so that its phase is linear (R124). -/
def firCoef (rate k : Nat) : Int := Config.firHalf rate (min k (Config.firLen rate - 1 - k))

/-- The sum of a filter's coefficients, by which it has unity gain at its centre (R131). -/
def firGain (rate : Nat) : Nat := (max 1 ((List.range (Config.firLen rate)).map (firCoef rate)).sum).toNat

/-- A tap's sample and its scaled value are integers over this: samples at 2^-8 LSB, the mixer at 2^-14, the filter's gain, and for the
value SCALE's 2^-8 (R131). -/
def tapDen (rate : Nat) : Nat := firGain rate * 4194304

/-- The newest samples that left the notch filters, mixed down by FCW and decimated (R124, R126): I and Q, over `tapDen`. -/
def tapFilter (fcw : Word) (rate : Nat) (zs : List (Nat × Int × Int)) : Int × Int :=
  ((zs.take (Config.firLen rate)).zipIdx).foldl (fun (a : Int × Int) (p : (Nat × Int × Int) × Nat) =>
    let w := Config.mixer (fcw.toNat * p.1.1 % 68719476736)
    let h := firCoef rate p.2
    (a.1 + h * (p.1.2.1 * w.1 - p.1.2.2 * w.2), a.2 + h * (p.1.2.1 * w.2 + p.1.2.2 * w.1))) (0, 0)

/-- The code of a scaled value v = x / (256 × `tapDen`): floor(v / 2) within its format (R131). -/
def tapCode (fmt2 : Bool) (rate : Nat) (v : Int) : Int :=
  let c := v / (512 * tapDen rate : Nat)
  if fmt2 then max (-2) (min 1 c) else max (-8) (min 7 c)

/-- The RMS of `m` samples with a sum of scaled squares `ss`, in 2^-8 value units to the nearest (R132, R147). -/
def levelRms (rate m ss : Nat) : Nat :=
  if m = 0 then 0 else (Nat.sqrt (4 * ss / (2 * m * (tapDen rate * tapDen rate))) + 1) / 2

/-- round(SCALE × target / rms), halves up, for a target in 2^-3 value units (R132). -/
def levelWant (rate scale tgt8 m ss : Nat) : Nat :=
  if ss = 0 then Config.scaleAtZero scale
  else (Nat.sqrt (8 * m * (scale * tgt8 * 256 * tapDen rate) ^ 2 / (64 * ss)) + 1) / 2

/-- Level control of tap `t` at the end of block `k` (R132). -/
def levelTap (n k t : Nat) (s : State) : State :=
  let x := s.tap n t
  if !s.tapEn n t || x.allL == 0 then s else
  let rate := s.tapRate n t
  let auto := !bit (s.reg (R.CHZ_LVL_CFG n)) 20
  let held := decide (10 * x.usedL < x.allL)
  let s := s.setF (R.CHZ_TAP_LEVEL n t) 24 24 (b2n (auto && held))
  let s := s.setF (R.CHZ_TAP_LEVEL n t) 11 0 (min (levelRms rate x.usedL x.ssL) 4095)
  if held || !auto then s else
  let scale := s.rf (R.CHZ_TAP_LEVEL n t) 23 12
  let tgt8 := if bit (s.reg (R.CHZ_TAP_CFG n t)) 8 then 16 else s.rf (R.CHZ_LVL_CFG n) 19 12
  let new := max 1 (min 4095 (max (scale / 2) (min (2 * scale) (levelWant rate scale tgt8 x.usedL x.ssL))))
  s.setTap n t { x with scales := x.scales ++ [((k + 2) * 163680, new)] }

/-- Level control of the taps of a front end at the end of block `k` (R132). -/
def levelBlock (n k : Nat) (ts : List Nat) (s : State) : State := ts.foldl (fun a t => levelTap n k t a) s

/-- The level of bin `i` of a block's spectrum, 0.25 dB, a signed field of 12 bits. -/
def binLevel (spec : List Int) (i : Nat) : Int := clampS 12 (Config.specLevel spec i)

/-- The floor: the median of the 256 bins, of the two middle ones the lower (R137; notes/assumptions/80.md). -/
def binFloor (spec : List Int) : Int := (((List.range 256).map (binLevel spec)).mergeSort (fun a b => decide (a ≤ b))).getD 127 0

/-- Is bin `i` in a notch's range (centres in Hz from LO_ACT are (i − 128) × 639,375)? -/
def binIn (n k i : Nat) (s : State) : Bool :=
  let c : Int := ((i : Int) - 128) * 639375
  let lo := sfld (s.reg (R.CHZ_NF_RANGE n k)) 35 18
  let hi := sfld (s.reg (R.CHZ_NF_RANGE n k)) 17 0
  if lo = 0 ∧ hi = 0 then decide (2 * c.natAbs ≤ s.bwHz n) else decide (1000 * lo ≤ c ∧ c ≤ 1000 * hi)

/-- The bin of a frequency in FCW units. -/
def binOf (w : Word) : Int := (w.toInt + 134217728) / 268435456 + 128

/-- The state of a notch (R137). -/
def State.nfState (s : State) (n k : Nat) : Nat := s.rf (R.CHZ_NF_STAT n k) 9 8
def State.nf (s : State) (n k : Nat) : NotchSt := tget (fun _ => NotchSt.idle) (s.fe n).notch k
def State.setNf (s : State) (n k : Nat) (x : NotchSt) : State :=
  s.setFe n { s.fe n with notch := tset (fun _ => NotchSt.idle) (s.fe n).notch k x }

/-- The bins engaged, or about to be. -/
def binsTaken (n : Nat) (s : State) : List Int :=
  ((List.range 4).map (fun k => match (s.nf n k).engage with
    | some e => [binOf e.2.1]
    | none => if s.nfState n k = 2 then [binOf (s.reg (R.CHZ_NF_FREQ n k))] else [])).flatten

/-- One notch at a block's end, given the block's spectrum (R137). Of equally strong bins that qualify the model takes the lowest, the
rule having no order for them (notes/assumptions/80.md). -/
def notchBlock (n blk : Nat) (f : List Int) (k : Nat) (s : State) : State :=
  let x := s.nf n k
  let thr : Int := s.rf (R.CHZ_NF_CFG n k) 11 4
  let fl := binFloor f
  if s.nfState n k = 1 ∧ x.engage.isNone then
    let taken := binsTaken n s
    let cand := (List.range 256).filter (fun i => binIn n k i s && decide (fl + thr ≤ binLevel f i)
      && taken.all (fun b => decide (2 < (b - i).natAbs)))
    match cand with
    | [] => s
    | c :: cs =>
      let best := cs.foldl (fun a i => if binLevel f a < binLevel f i then i else a) c
      let lvl := (min 255 (binLevel f best - fl)).toNat
      s.setNf n k { x with engage := some ((blk + 2) * 163680, wdI (((best : Int) - 128) * 268435456), lvl) }
  else if s.nfState n k = 2 then
    let b := (binOf (s.reg (R.CHZ_NF_FREQ n k))).toNat
    let lvl := binLevel f b
    let s := s.setF (R.CHZ_NF_STAT n k) 7 0 (max 0 (min 255 (lvl - fl))).toNat
    let quiet := if lvl < fl + thr - 12 then x.quiet + 1 else 0
    s.setNf n k { x with quiet := quiet, blocks := x.blocks + 1, release := if quiet = 8 then some ((blk + 2) * 163680) else x.release }
  else s

/-- AGC_BLOCK_END: the 1 ms block just ended is evaluated (R71 to R73, R132, R136, R137). -/
def execAgcBlockEnd (n : Fin 4) (s : State) : Host.Outcome State Fault Refusal :=
  match (s.fe n).done with
  | none => .next s
  | some (k, b) =>
    let s := s.setFe n { s.fe n with done := none }
    let s := if s.feState n = feReplay then s else agcBlock n k b s
    let s := levelBlock n k (List.range 16) s
    let frac := if b.all = 0 then 0 else b.blanked * 65536 / b.all
    let s := s.setReg (R.CHZ_BLANK_FRAC n) (wd (if 65535 < frac then 65536 + 65535 else frac))
    let s := if 256 * s.rf (R.CHZ_BLANK_CFG n) 15 8 < frac then
        raiseIn (secOfCycle ((k + 1) * 163680)) 0x303 1 (uChz n) [wd (min frac 65535)] (s.sticky (R.CHZ_STATUS n) 3) else s
    let f := (s.fe n).specL
    let s := s.setReg (R.CHZ_NOTCH_FLOOR n) (wd (bitsS 12 (binFloor f)))
    .next (notchBlock n k f 3 (notchBlock n k f 2 (notchBlock n k f 1 (notchBlock n k f 0 s))))

/-- AGC_CODE_APPLY: a code takes effect at the first sample cycle of block k + 2 (R72). -/
def execAgcCodeApply (n : Fin 4) (s : State) : Host.Outcome State Fault Refusal :=
  match (s.fe n).codes with
  | [] => .next s
  | (at_, c) :: rest =>
    if !s.fsOn || decide (s.cycle < at_) then .next s else
    .next (gainCode n c at_ (s.setFe n { s.fe n with codes := rest }))

/-- The sample cycle of the sample that reaches the stream point next: 31 sample cycles behind the ADC (R38), or the next replayed one. -/
def State.streamN (s : State) (n : Nat) : Nat :=
  if s.feState n = feReplay then
    match (s.fe n).rep.buf with
    | x :: _ => x.n
    | [] => tget (fun _ => 0) (s.fe n).rep.expect 16
  else s.cycle - 31

/-- LEVEL_SCALE_APPLY: a SCALE takes effect at the first tap sample of block k + 2 (R132). -/
def execLevelScaleApply (n : Fin 4) (t : Fin 16) (s : State) : Host.Outcome State Fault Refusal :=
  let x := s.tap n t
  match x.scales with
  | [] => .next s
  | (at_, c) :: rest =>
    if !s.fsOn || decide (s.streamN n < at_) then .next s else
    .next ((s.setTap n t { x with scales := rest }).setF (R.CHZ_TAP_LEVEL n t) 23 12 c)

/-- NOTCH_ENGAGE: a searching notch engages at the first sample of block k + 2 (R137). -/
def execNotchEngage (n k : Fin 4) (s : State) : Host.Outcome State Fault Refusal :=
  match (s.nf n k).engage with
  | none => .next s
  | some (at_, w, lvl) =>
    if !s.fsOn || decide (s.streamN n < at_) || s.nfState n k != 1 then .next s else
    let s := s.setNf n k NotchSt.idle
    let s := (s.setReg (R.CHZ_NF_STAT n k) (wd (512 + lvl))).setReg (R.CHZ_NF_FREQ n k) w
    .next (raise 0x301 1 (unitId (1 + n.val) 7 k) [w, wd lvl] s)

/-- NOTCH_RELEASE: an engaged notch is released at the first sample of block k + 2 and searches again (R137). -/
def execNotchRelease (n k : Fin 4) (s : State) : Host.Outcome State Fault Refusal :=
  let x := s.nf n k
  match x.release with
  | none => .next s
  | some at_ =>
    if !s.fsOn || decide (s.streamN n < at_) || s.nfState n k != 2 then .next s else
    let s := (s.setNf n k NotchSt.idle).setReg (R.CHZ_NF_STAT n k) 256
    .next (raise 0x302 0 (unitId (1 + n.val) 7 k) [wd x.blocks] s)

/-- LOW above HIGH is a reserved value (R147). -/
def nfRangeBad (v : Word) : Bool := decide (sfld v 17 0 < sfld v 35 18)

/-- A notch takes its mode: off, searching, or fixed at LOW (R137). -/
def notchMode (n k : Nat) (s : State) : State :=
  let mode := s.rf (R.CHZ_NF_CFG n k) 1 0
  let st := s.nfState n k
  if mode = 0 then (s.setNf n k NotchSt.idle).setReg (R.CHZ_NF_STAT n k) 0
  else if mode = 2 then
    let low := sfld (s.reg (R.CHZ_NF_RANGE n k)) 35 18
    ((s.setNf n k NotchSt.idle).setReg (R.CHZ_NF_STAT n k) 768).setReg (R.CHZ_NF_FREQ n k) (wdI (divRound (low * 1000 * 68719476736) 163680000))
  else if st = 1 ∨ st = 2 then s
  else (s.setNf n k NotchSt.idle).setReg (R.CHZ_NF_STAT n k) 256

/-! ## Taps (R127 to R130) -/

/-- The first test of R127: the tap lies inside the filter band. -/
def tapFits (n : Nat) (rate : Nat) (fcw : Word) (s : State) : Bool :=
  decide (2 * (fcw.toInt.natAbs * 163680000 + tapPass rate * 68719476736) ≤ s.bwHz n * 68719476736)

/-- The second test of R127: the units of all enabled taps and this one. -/
def tapBudget (n : Nat) (rate : Nat) (s : State) : Bool := decide (unitsUsed n s + tapUnits rate ≤ unitsAvail n s)

/-- USERS of a tap (R129). -/
def State.tapUsers (s : State) (n t : Nat) : Nat :=
  let cap (i : Nat) : Bool := s.snapState i == 1 && s.snapFe i == n && s.snapTap i == t
  (s.chans.filter (fun p => p.2.cond != 0 && p.2.fe == n && p.2.tap == t)).length
    + (s.acq.snaps.filter (fun p => cap p.1)).length + (s.acq.jobs.filter (fun j => decide (j.stage < 2) && cap j.snap)).length

/-- What a tap configuration meets: 3 outside the band, 6 beyond the budget, 4 changed or cleared while in use (R127, R129). -/
def tapStatus (n t : Nat) (cfg fcw : Word) (s : State) : Nat :=
  let en := s.tapEn n t
  let on := bit cfg 0
  if en then
    if fld cfg 8 5 ≠ s.rf (R.CHZ_TAP_CFG n t) 8 5 ∨ fcw ≠ s.reg (R.CHZ_TAP_FCW n t) then 4
    else if !on && s.tapUsers n t != 0 then 4 else 0
  else if on then
    if !tapFits n (fld cfg 7 5) fcw s then 3 else if !tapBudget n (fld cfg 7 5) s then 6 else 0
  else 0

/-- The stream of a tap follows its configuration (R142). -/
def tapStream (n t : Nat) (s : State) : State :=
  let want := s.tapEn n t && bit (s.reg (R.CHZ_TAP_CFG n t)) 15
  let x := s.tap n t
  if want = x.strm.on then s
  else if want then
    let g := 3840 * tapDec (s.tapRate n t)
    s.setTap n t { x with strm := { StreamSt.idle with on := true, firstN := gridAt g s.cycle } }
  else s.setTap n t { x with strm := StreamSt.idle }

/-- A tap configuration takes effect. -/
def tapApply (n t : Nat) (cfg fcw : Word) (s : State) : State :=
  let was := s.tapEn n t
  let s := (s.setReg (R.CHZ_TAP_CFG n t) cfg).setReg (R.CHZ_TAP_FCW n t) fcw
  let s := if !was && bit cfg 0 then tapEnable n t s else if was && !bit cfg 0 then tapDisable n t s else s
  keepSync (tapStream n t s)

/-- A register write to a tap (R127, R129): discarded with its status bit where it does not pass. -/
def tapWrite (n t : Nat) (cfg fcw : Word) (s : State) : State :=
  let st := tapStatus n t cfg fcw s
  if s.feState n = feRetired ∧ bit cfg 0 then s
  else match st with
  | 0 => tapApply n t cfg fcw s
  | 3 => s.sticky (R.CHZ_STATUS n) 1
  | 6 => s.sticky (R.CHZ_STATUS n) 0
  | _ => if s.tapEn n t && !bit cfg 0 && s.tapUsers n t != 0 then s.sticky (R.CHZ_STATUS n) 2 else s

/-- TAP_START: a waiting tap begins at a sample cycle with N mod D = 0 while its front end produces (R130). -/
def execTapStart (n : Fin 4) (t : Fin 16) (s : State) : Host.Outcome State Fault Refusal :=
  if s.tapState n t ≠ 1 || !feProduces (s.feState n) || !s.fsOn || s.cycle % tapDec (s.tapRate n t) != 0 then .next s else
  let s := s.setTap n t { s.tap n t with firstN := s.cycle, newest := none }
  .next (tapSetState n t (if s.feState n = feReplay then 3 else 2) s)

/-! ## Writing tap samples (R131, R134, R135) -/

/-- A run of G, C or U in the tag-run table (R135): the sample of cycle `c`, the next of its kind being `step` cycles on, has tags `bits` (U
8, C 4, G 2). -/
def tagRun (n c step bits : Nat) (s : State) : State :=
  let f := s.fe n
  let live := f.runs.filter (fun r => decide (c < r.z + 327680))
  let put (rs : List TagRun) (s : State) : State := (s.setFe n { s.fe n with runs := rs }).setReg (R.CHZ_TAGRUN_STAT n) (wd rs.length)
  if bits = 0 then (if live.length = f.runs.length then s else put live s)
  else match live with
  | [] => put [⟨c, c, bits, bits⟩] s
  | r :: rs =>
    if r.cur = bits ∧ r.a ≤ c ∧ c ≤ r.z + step then put ({ r with z := max r.z c } :: rs) s
    else if live.length < 32 then put (⟨c, c, bits, bits⟩ :: r :: rs) s
    else
      let s := put (⟨r.a, c, r.bits ||| bits, bits⟩ :: rs) s
      let s := (s.cnt (R.CHZ_TAGRUN_MERGE_CNT n)).sticky (R.CHZ_STATUS n) 7
      raise 0x309 1 (uChz n) [wd (r.bits ||| bits)] s

/-- Store a tap sample in the tap buffer (R134): sample number m = N / D in word m / 4, position m mod 4. -/
def tapStore (n t c : Nat) (i q : Int) (x : Bool) (s : State) : State :=
  let rate := s.tapRate n t
  let u := tapUnits rate
  let m := c / tapDec rate
  let word := m / 4 % (2560 * u)
  let tp := s.tap n t
  let at_ := kTap n (64 * tp.regions.getD (word / 64) 0 + word % 64)
  let j := m % 4
  let old := s.peek at_
  let code := if x then 0 else bitsS 4 i * 16 + bitsS 4 q
  let s := s.store at_ (setFld (setFld old (8 * j + 7) (8 * j) code) (32 + j) (32 + j) (b2n x))
  let s := snapFeed n t c code x s
  s.setTap n t { tp with newest := some c, used := tp.used + b2n (!x), all := tp.all + 1,
                         firstN := if tp.newest.isNone then c else tp.firstN }

/-- SYN_DISC_CNT that a stream carries for a sample: at its own cycle, or in replay now, its recorded time being no time of this part. -/
def discOf (n c : Nat) (s : State) : Nat := if s.feState n = feReplay then s.rf R.SYN_DISC_CNT 15 0 else s.discAt c

/-- SYN_DISC_CNT at sample cycle `c` of the sample time that paces epochs (R112). -/
def State.discIn (s : State) (c : Nat) : Nat :=
  if ([0, 1, 2, 3] : List Nat).any (fun n => s.replays n) then s.rf R.SYN_DISC_CNT 15 0 else s.discAt c

/-- A sample joins a stream whose blocks first begin on a grid of `g` cycles (R142). -/
def StreamSt.put (st : StreamSt) (g : Nat) (x : StrS) : StreamSt :=
  if !st.on || (!st.going && (decide (x.n < st.firstN) || x.n % g != 0)) then st else { st with going := true, q := x :: st.q }

/-- Add a sample to a tap's stream (R141, R142). -/
def tapStreamPut (n t c : Nat) (i q : Int) (tags : Nat) (s : State) : State :=
  let x := s.tap n t
  if !x.strm.on then s else
  let excl := tags % 8 != 0
  let kinds := tags / 2 * 2 + b2n (excl && tags / 2 % 4 == 0)
  let code := if excl then 0 else bitsS 4 i * 16 + bitsS 4 q
  s.setTap n t { x with strm := x.strm.put (3840 * tapDec (s.tapRate n t)) ⟨c, [code], kinds, discOf n c s⟩ }

/-- A tap sample of cycle `c` with its codes and tags (bit 3 U, 2 C, 1 G, 0 B). -/
def tapSample (n t c : Nat) (i q : Int) (tags : Nat) (s : State) : State :=
  tapStreamPut n t c i q tags (tapStore n t c i q (tags % 8 != 0) s)

/-- Tap `t` produces its sample of cycle `c` from the samples that left the notch filters (R124 to R126, R131 to R133). -/
def tapProduce (n c t : Nat) (s : State) : State :=
  let rate := s.tapRate n t
  let tags := ((s.fe n).tagHist.take (tapDec rate)).foldl (· ||| ·) 0
  let x := tapFilter (s.reg (R.CHZ_TAP_FCW n t)) rate (s.fe n).clean
  let scale := s.rf (R.CHZ_TAP_LEVEL n t) 23 12
  let fmt2 := bit (s.reg (R.CHZ_TAP_CFG n t)) 8
  let vi := x.1 * scale
  let vq := x.2 * scale
  let s := if tags % 8 = 0 then s.setTap n t { s.tap n t with ss := (s.tap n t).ss + vi.natAbs ^ 2 + vq.natAbs ^ 2 } else s
  tapSample n t c (tapCode fmt2 rate vi) (tapCode fmt2 rate vq) tags s

/-- Does tap `t` produce at sample cycle `c` (R125)? -/
def tapDue (n c t : Nat) (s : State) : Bool :=
  decide (2 ≤ s.tapState n t) && c % tapDec (s.tapRate n t) == 0 && (s.tapState n t == 3 || decide ((s.tap n t).firstN ≤ c))

/-- The taps that produce at sample cycle `c` (R125, R133). -/
def tapsProduce (n c : Nat) (ts : List Nat) (s : State) : State := ts.foldl (fun a t => if tapDue n c t a then tapProduce n c t a else a) s

/-- The counts of a tap's block that has ended are kept for AGC_BLOCK_END, and counting starts again (R132). -/
def tapRoll (n t : Nat) (s : State) : State :=
  let x := s.tap n t
  if x.all = 0 ∧ x.allL = 0 then s
  else s.setTap n t { x with usedL := x.used, allL := x.all, ssL := x.ss, used := 0, all := 0, ss := 0 }

/-! ## Streams to the host (R140 to R142) -/

/-- The runs of a list of samples (oldest first), one kind at a time, open runs extended: entries (kind bit, start, length) with
the index of the sample. Answers the entries, or none once a 25th would be needed. -/
def runsGo (entries : List (Nat × Nat × Nat)) (idx kinds : Nat) : Option (List (Nat × Nat × Nat)) :=
  let add (acc : Option (List (Nat × Nat × Nat))) (b : Nat) : Option (List (Nat × Nat × Nat)) :=
    match acc with
    | none => none
    | some es =>
      if !tbit kinds b then some es
      else if es.any (fun e => e.1 == b && e.2.1 + e.2.2 == idx) then
        some (es.map (fun e => if e.1 = b ∧ e.2.1 + e.2.2 = idx then (e.1, e.2.1, e.2.2 + 1) else e))
      else if es.length < 24 then some (es ++ [(b, idx, 1)])
      else none
  [0, 1, 2, 3].foldl add (some entries)

/-- Split off the block at the head of a stream (samples oldest first): at most `most` samples, fewer where the runs would need a
25th entry. Answers the block, its runs, the rest, and whether the block is complete. -/
def blockSplit (most : Nat) : Nat → List (Nat × Nat × Nat) → List StrS → List StrS → List StrS × List (Nat × Nat × Nat) × List StrS × Bool
  | _, es, blk, [] => (blk.reverse, es, [], decide (blk.length = most))
  | idx, es, blk, x :: xs =>
    if idx = most then (blk.reverse, es, x :: xs, true)
    else match runsGo es idx x.kinds with
    | none => (blk.reverse, es, x :: xs, true)
    | some es => blockSplit most (idx + 1) es (x :: blk) xs

/-- Write the block at the head of a stream of front end `n` (tap `t`, 16 for full rate), or drop it (R140, R142); at shed step 3
blocks stop (R468). -/
def streamWrite (n t : Nat) (st : StreamSt) (s : State) : State × StreamSt :=
  let full := decide (t = 16)
  let most := if full then 1920 else 3840
  let (blk, es, rest, ok) := blockSplit most 0 [] [] st.q.reverse
  if !ok then (s, st) else
  match blk with
  | [] => (s, st)
  | b0 :: _ =>
    let ring := if full then s.rf (R.CHZ_STREAM_CFG n) 4 0 else s.rf (R.CHZ_TAP_CFG n t) 14 10
    let seq := if full then s.reg (R.CHZ_STREAM_SEQ n) else (s.tap n t).seq
    let bytes := (blk.map (fun x => x.bytes)).flatten
    let d := dtOfCycle b0.n
    let rate := if full then 0 else s.tapRate n t
    let fmt := if full then 0 else s.rf (R.CHZ_TAP_CFG n t) 8 8
    let hdr := [seq, dtSec d, dtFrac d,
      wd (b2n (!full) * 17179869184 + n * 4294967296 + (if full then 0 else t) * 268435456 + rate * 33554432 + fmt * 16777216
        + blk.length * 4096 + es.length * 128),
      wd (b2n st.drop * 34359738368 + b0.disc * 65536), wd (crc32 bytes), 0, 0]
      ++ padTo 24 (es.map (fun (e : Nat × Nat × Nat) => wd (2 ^ e.1 * 16777216 + e.2.1 * 4096 + e.2.2)))
    let s := if full then s.setReg (R.CHZ_STREAM_SEQ n) (seq + 1#36) else s.setTap n t { s.tap n t with seq := seq + 1#36 }
    let (s, evs, sent) := if s.rf R.CUR_THERM_STAT 34 33 = 3 then (s, [], false) else ringPutB ring 0xC hdr ((bytes ++ List.replicate (3840 - bytes.length) 0).map (BitVec.ofNat 8)) s
    let s := raiseList 8 evs s
    if sent then (s, { st with q := rest.reverse, drop := false })
    else
      let s := (if full then s.cnt (R.CHZ_STREAM_DROP_CNT n) else s.cnt (R.CHZ_TAP_DROP_CNT n t)).sticky (R.CHZ_STATUS n) 4
      let u := if full then uChz n else uTap n t
      let (say, s) := rateOkAt (dtSec d) (rateKey 0x304 u) s
      let s := if say then raise 0x304 2 u [wd (st.dropped + 1)] s else s
      (s, { st with q := rest.reverse, drop := true, dropped := if say then 0 else st.dropped + 1 })

/-- STREAM_BLOCK_END: a block of a stream is complete (tap 16: the full-rate stream). -/
def execStreamBlockEnd (n : Fin 4) (t : Fin 17) (s : State) : Host.Outcome State Fault Refusal :=
  if t.val = 16 then
    let (s, st) := streamWrite n 16 (s.fe n).strm s
    .next (s.setFe n { s.fe n with strm := st })
  else
    let (s, st) := streamWrite n t.val (s.tap n t).strm s
    .next (s.setTap n t.val { s.tap n t with strm := st })

/-- STREAM_CFG takes effect (R142). -/
def streamCfgWrite (n : Nat) (v : Word) (s : State) : State :=
  let s := s.setReg (R.CHZ_STREAM_CFG n) v
  let st := (s.fe n).strm
  if bit v 5 = st.on then s
  else if bit v 5 then
    keepSync (s.setFe n { s.fe n with strm := { StreamSt.idle with on := true, firstN := gridAt 1920 s.cycle } })
  else keepSync (s.setFe n { s.fe n with strm := StreamSt.idle })

/-! ## Replay (R143 to R145) -/

/-- A write of REPLAY_START (R143): only in REPLAY. What live samples left behind in the blanker, the tags and the filters is not
applied to replayed ones. -/
def replayStart (n : Nat) (s : State) : State :=
  if s.feState n ≠ feReplay ∨ bit (s.reg (R.CHZ_REPLAY_STAT n)) 0 then s else
  let f := s.fe n
  let s := (s.setReg (R.CHZ_REPLAY_STAT n) 3).setReg (R.CHZ_TAGRUN_STAT n) 0
  keepSync (s.setFe n { f with pipe := [], post := 0, inPulse := false, tagHist := [], clean := [], runs := [], blk := .zero, done := none,
                               spec := [], rep := { ReplaySt.idle with lastSeq := f.rep.lastSeq } })

/-- A write to CHZn_CTRL (R143, R147). -/
def chzCtrl (n v : Nat) (s : State) : State :=
  if v % 2 = 1 then replayStop n 1 s else if v / 2 % 2 = 1 then replayStart n s else s

/-- REPLAY_CFG is writable only while replay is stopped (R147). -/
def replayCfgWrite (n : Nat) (v : Word) (s : State) : State :=
  if bit (s.reg (R.CHZ_REPLAY_STAT n)) 0 then s else s.setReg (R.CHZ_REPLAY_CFG n) v

/-- The tags a block's runs give to sample `i`. -/
def runTags (runs : List Word) (i : Nat) : Nat :=
  runs.foldl (fun a w => if fld w 23 12 ≤ i ∧ i < fld w 23 12 + fld w 11 0 then a ||| fld w 27 24 else a) 0

/-- Signed byte. -/
def sbyte (b : Nat) : Int := sext 8 b

/-- The samples of an accepted block. -/
def replaySamples (n0 d tap : Nat) (full : Bool) (runs : List Word) : Nat → Nat → List Nat → List RepS
  | 0, _, _ => []
  | k + 1, i, bs =>
    let b := bs.headD 0
    if full then ⟨n0 + i, 1, 16, sbyte b, sbyte (bs.getD 1 0), runTags runs i⟩ :: replaySamples n0 d tap full runs k (i + 1) (bs.drop 2)
    else ⟨n0 + i * d, 1, tap, sext 4 (b / 16), sext 4 b, runTags runs i⟩ :: replaySamples n0 d tap full runs k (i + 1) (bs.drop 1)

/-- What is wrong with a replay block, as REPLAY_STAT.CAUSE codes it, in the order of R145's list; 0 where it is good. -/
def replayCause (n : Nat) (h : List Word) (bytes : List Nat) (s : State) : Nat :=
  let w3 := h.getD 3 0
  let w4 := h.getD 4 0
  let full := !bit (s.reg (R.CHZ_REPLAY_CFG n)) 8
  let cnt := fld w3 23 12
  let nruns := fld w3 11 7
  let tap := fld w3 31 28
  let t := if full then 0 else tap
  let d := dtOf (h.getD 1 0) (h.getD 2 0)
  let n0 := cycleAtOrAfter d.toNat
  let runs := (h.drop 8).take nruns
  let size := if full then 2 * cnt else cnt
  let key := if full then 16 else tap
  if crc32 (bytes.take size) ≠ fld (h.getD 5 0) 31 0 then 2
  else if fld w3 6 0 ≠ 0 ∨ fld w4 34 32 ≠ 0 ∨ fld w4 15 0 ≠ 0 ∨ fld (h.getD 5 0) 35 32 ≠ 0 ∨ h.getD 6 0 ≠ 0 ∨ h.getD 7 0 ≠ 0
      ∨ (h.drop 8).any (fun w => fld w 35 28 != 0) then 7
  else if fld w3 35 34 ≠ (if full then 0 else 1) ∨ fld w3 33 32 ≠ n
      ∨ (full ∧ (tap ≠ 0 ∨ fld w3 27 24 ≠ 0))
      ∨ (!full ∧ (!s.tapEn n t ∨ fld w3 27 25 ≠ s.tapRate n t ∨ fld w3 24 24 ≠ s.rf (R.CHZ_TAP_CFG n t) 8 8)) then 3
  else if cnt = 0 ∨ (if full then 1920 else 3840) < cnt ∨ 24 < nruns
      ∨ runs.any (fun w => fld w 11 0 == 0 || decide (cnt < fld w 23 12 + fld w 11 0)) then 6
  else if dtOfCycle n0 ≠ d ∨ (!full ∧ n0 % tapDec (s.tapRate n t) ≠ 0) then 5
  else match (s.fe n).rep.expect.find? (fun p => p.1 == key) with
  | some p => if n0 < p.2 then 4 else 0
  | none => 0

/-- Are samples of tap `key` (16 for the stream point) still to be written? -/
def replayHas (n key : Nat) (s : State) : Bool :=
  (s.fe n).rep.buf.any (fun x => x.tap == key) && (key == 16 || s.tapEn n key)

/-- A block at which replay stops is counted; it stops once the samples of the blocks before it are written (R144, R145). -/
def replayReject (n cause key : Nat) (seq : Word) (s : State) : State :=
  let s := (s.cnt (R.CHZ_REPLAY_REJ_CNT n)).sticky (R.CHZ_STATUS n) 6
  let s := s.setFe n { s.fe n with rep := { (s.fe n).rep with lastSeq := seq, bad := some (cause, key) } }
  if replayHas n key s then s else replayStop n cause s

/-- A good block's samples wait to be written, after gap samples where it is later than expected (R144, R145). -/
def replayAccept (n : Nat) (h : List Word) (bs : List Nat) (s : State) : State :=
  let r := (s.fe n).rep
  let full := !bit (s.reg (R.CHZ_REPLAY_CFG n)) 8
  let w3 := h.getD 3 0
  let tap := if full then 16 else fld w3 31 28
  let d := if full then 1 else tapDec (s.tapRate n tap)
  let cnt := fld w3 23 12
  let n0 := cycleAtOrAfter (dtOf (h.getD 1 0) (h.getD 2 0)).toNat
  let want := match r.expect.find? (fun p => p.1 == tap) with
    | some p => p.2
    | none => n0
  let gap := n0 - want
  let fill := if gap = 0 then [] else [(⟨want, gap / d, tap, 0, 0, 2⟩ : RepS)]
  let new := replaySamples n0 d tap full ((h.drop 8).take (fld w3 11 7)) cnt 0 bs
  let now := if r.expect.isEmpty then n0 else r.now
  let s := s.setFe n { s.fe n with rep := { r with buf := r.buf ++ fill ++ new, expect := tset (fun _ => 0) r.expect tap (n0 + cnt * d),
                                                   paused := false, lastSeq := h.headD 0, now := now } }
  let s := s.setF (R.CHZ_REPLAY_STAT n) 1 1 0
  if gap = 0 then s else raise 0x307 1 (uChz n) [wd gap] (s.cnt (R.CHZ_REPLAY_FILL_CNT n) gap)

/-- REPLAY_BLOCK: the next block is taken from the replay-in ring: 32 header words and the payload bytes (R143 to R145). -/
def execReplayBlock (n : Fin 4) (h : List Word) (bytes : List (BitVec 8)) (s : State) : Host.Outcome State Fault Refusal :=
  let ring := s.rf (R.CHZ_REPLAY_CFG n) 4 0
  if !bit (s.reg (R.CHZ_REPLAY_STAT n)) 0 || (s.fe n).rep.bad.isSome || s.ringClass ring != 0xD || !s.ringReady ring then .next s else
  let s := ringConsume ring s
  let bs := bytes.map (fun b => b.toNat)
  let cause := replayCause n h bs s
  if cause ≠ 0 then
    .next (replayReject n cause (if bit (s.reg (R.CHZ_REPLAY_CFG n)) 8 then fld (h.getD 3 0) 31 28 else 16) (h.headD 0) s)
  else .next (replayAccept n h bs s)

/-! ## Commands (R456) -/

/-- TAP_CONFIG (R127, R129). -/
def tapConfigSpec : CmdSpec where
  op := 0x300
  lens := fun n => n == 3
  resv := fun p _ => p.outside 0 0x3F || wordResv (R.CHZ_TAP_CFG 0 0) (p.par 1) || decide (4 < p.pf 1 7 5)
  late := lateSample
  bnd := bndSample
  units := fun p => [uTap (p.pf 0 1 0) (p.pf 0 5 2)]
  chk := fun h s =>
    let n := h.pk.pf 0 1 0
    let t := h.pk.pf 0 5 2
    [(s.feState n == feRetired, 11),
     (bit (h.pk.par 1) 15 && s.ringClass (h.pk.pf 1 14 10) != 0xC, 3),
     (true, tapStatus n t (h.pk.par 1) (h.pk.par 2) s)]
  at_ := atSample
  eff := fun h s =>
    let n := h.pk.pf 0 1 0
    let t := h.pk.pf 0 5 2
    let d := atSample h s
    let s := tapApply n t (h.pk.par 1) (h.pk.par 2) s
    (.done (wd (s.rf (R.CHZ_TAP_STAT n t) 17 13) :: dtWords d), s)

/-- CHZ_CONFIG. -/
def chzConfigSpec : CmdSpec where
  op := 0x301
  lens := fun n => n == 5
  resv := fun p _ => p.outside 0 3 || wordResv (R.CHZ_BLANK_CFG 0) (p.par 1) || wordResv (R.CHZ_BLANK_EXT 0) (p.par 2)
    || wordResv (R.CHZ_LVL_CFG 0) (p.par 3) || wordResv (R.CHZ_EVT_MASK 0) (p.par 4)
  late := lateSample
  bnd := bndSample
  units := fun p => [uChz (p.pf 0 1 0)]
  chk := fun h s => [(s.feState (h.pk.pf 0 1 0) == feRetired, 11)]
  at_ := atSample
  eff := fun h s =>
    let n := h.pk.pf 0 1 0
    let s := (s.setReg (R.CHZ_BLANK_CFG n) (h.pk.par 1)).setReg (R.CHZ_BLANK_EXT n) (h.pk.par 2)
    (.done (dtWords (atSample h s)), (s.setReg (R.CHZ_LVL_CFG n) (h.pk.par 3)).setReg (R.CHZ_EVT_MASK n) (h.pk.par 4))

/-- NOTCH_CONFIG (R137, R147). -/
def notchConfigSpec : CmdSpec where
  op := 0x302
  lens := fun n => n == 3
  resv := fun p _ => p.outside 0 15 || wordResv (R.CHZ_NF_CFG 0 0) (p.par 1) || nfRangeBad (p.par 2)
  late := lateSample
  bnd := bndSample
  units := fun p => [unitId (1 + p.pf 0 1 0) 7 (p.pf 0 3 2)]
  chk := fun h s => [(s.feState (h.pk.pf 0 1 0) == feRetired, 11)]
  at_ := atSample
  eff := fun h s =>
    let n := h.pk.pf 0 1 0
    let k := h.pk.pf 0 3 2
    (.done (dtWords (atSample h s)), notchMode n k ((s.setReg (R.CHZ_NF_CFG n k) (h.pk.par 1)).setReg (R.CHZ_NF_RANGE n k) (h.pk.par 2)))

/-- STREAM_CONFIG (R142). With EN clear there is no first block, and the reply's words are free. -/
def streamConfigSpec : CmdSpec where
  op := 0x303
  lens := fun n => n == 2
  resv := fun p _ => p.outside 0 3 || wordResv (R.CHZ_STREAM_CFG 0) (p.par 1)
  late := lateSample
  bnd := bndSample
  units := fun p => [uChz (p.pf 0 1 0)]
  chk := fun h s =>
    [(s.feState (h.pk.pf 0 1 0) == feRetired, 11), (bit (h.pk.par 1) 5 && s.ringClass (h.pk.pf 1 4 0) != 0xC, 3)]
  at_ := atSample
  eff := fun h s =>
    let n := h.pk.pf 0 1 0
    let s := streamCfgWrite n (h.pk.par 1) s
    if bit (h.pk.par 1) 5 then (.done (dtWords (dtOfCycle (s.fe n).strm.firstN)), s)
    else
      let (i, s) := s.takeFree
      let (j, s) := s.takeFree
      (.done [Config.freeWord i, Config.freeWord j], s)

/-- REPLAY_CTRL (R143). -/
def replayCtrlSpec : CmdSpec where
  op := 0x304
  lens := fun n => n == 2
  resv := fun p _ => p.outside 0 0x33 || p.pf 0 5 4 == 3 || wordResv (R.CHZ_REPLAY_CFG 0) (p.par 1)
  late := lateSample
  bnd := bndSample
  units := fun p => [uChz (p.pf 0 1 0)]
  chk := fun h s =>
    let n := h.pk.pf 0 1 0
    let active := bit (s.reg (R.CHZ_REPLAY_STAT n)) 0
    [(s.feState n == feRetired, 11), (s.ringClass (h.pk.pf 1 4 0) != 0xD, 3),
     (h.pk.pf 0 4 4 == 1 && s.feState n != feReplay, 5),
     (active && h.pk.par 1 != s.reg (R.CHZ_REPLAY_CFG n), 4)]
  at_ := atSample
  eff := fun h s =>
    let n := h.pk.pf 0 1 0
    let d := atSample h s
    let s := replayCfgWrite n (h.pk.par 1) s
    let s := if h.pk.pf 0 5 5 = 1 then replayStop n 1 s else if h.pk.pf 0 4 4 = 1 then replayStart n s else s
    (.done (dtWords d), s)

/-- TAP_CONFIG. -/
def execTapConfig (p : Packet) (s : State) : Host.Outcome State Fault Refusal := .next (consumeCmd tapConfigSpec p s)
/-- CHZ_CONFIG. -/
def execChzConfig (p : Packet) (s : State) : Host.Outcome State Fault Refusal := .next (consumeCmd chzConfigSpec p s)
/-- NOTCH_CONFIG. -/
def execNotchConfig (p : Packet) (s : State) : Host.Outcome State Fault Refusal := .next (consumeCmd notchConfigSpec p s)
/-- STREAM_CONFIG. -/
def execStreamConfig (p : Packet) (s : State) : Host.Outcome State Fault Refusal := .next (consumeCmd streamConfigSpec p s)
/-- REPLAY_CTRL. -/
def execReplayCtrl (p : Packet) (s : State) : Host.Outcome State Fault Refusal := .next (consumeCmd replayCtrlSpec p s)

end Sys2Proof.Machine
end

