-- ==== Sys2Proof/Machine/Sample.lean ====
section
/-! DEFINITION. Sample.lean: one sample cycle: device time, the comparisons of the synthesisers, the ADC samples and the
channelisers' pipelines up to the tap buffers, streams and calibration correlators (R38, R41, R66, R105, R123 to R144, R318 to
R337). -/

namespace Sys2Proof.Machine

/-! ## Device time (R40, R41) -/

/-- The accumulator rule of R41. -/
def tickDt (s : State) : State :=
  if 639375 ≤ s.acc + 537331 then { s with acc := s.acc + 537331 - 639375, dt := s.dt + 420#72, cycle := s.cycle + 1 }
  else { s with acc := s.acc + 537331, dt := s.dt + 419#72, cycle := s.cycle + 1 }

/-! ## Phase comparisons (R105) -/

/-- The bin of SYN_PHHIST for a phase error in 2^-8 tick: bins of 0.125 ns, the outer ones open. -/
def phBin (e : Int) : Nat := (max 0 (min 31 (e * 8000000000 / 17592186044416 + 16))).toNat

/-- |e| ≤ WIN of synthesiser `u`, 0.5, 1, 2 or 4 ns, for an error in 2^-8 tick (R105). -/
def phWithin (u : Nat) (e : Int) (s : State) : Bool :=
  decide (e.natAbs * 2000000000 ≤ 2 ^ (if u < 8 then s.rf (R.LO_CFG u) 3 2 else s.rf R.SYN_SMP_CFG 3 2) * 17592186044416)

/-- Is the loop of synthesiser `u` closed, so that it compares? -/
def State.compares (s : State) (u : Nat) : Bool :=
  if u < 8 then s.loState u != 0 else s.smpState == 1 || s.smpState == 2 || s.smpState == 3 || s.smpState == 6

/-- The loss criterion is suspended for 20 µs after each segment boundary of a ramp (R120): 3,274 sample cycles to the next whole
one. -/
def State.lossHeld (s : State) (u : Nat) : Bool := s.loState u == 4 && decide (s.cycle < (s.rampOf u).segN + 3274)

/-- The runs of consecutive comparisons take an error (R105). -/
def PllSt.take (x : PllSt) (e : Int) (within held : Bool) : PllSt :=
  if within then { good := x.good + 1, first := if x.good = 0 then e else x.first, bad := 0, last := e }
  else { good := 0, first := x.first, bad := if held then 0 else x.bad + 1, last := e }

/-- A comparison of synthesiser `u` (8 the sample synthesiser) with its error in 2^-8 tick: _PHERR, the runs of R105, and in LOCKED the
histogram. -/
def phCompare (u : Nat) (e : Int) (s : State) : State :=
  if !s.compares u then s else
  let s := s.setPll u ((s.pllOf u).take e (phWithin u e s) (decide (u < 8) && s.lossHeld u))
  if u < 8 then s.setReg (R.LO_PHERR u) (wdI (divRound e 256))
  else
    let s := s.setReg R.SYN_SMP_PHERR (wdI (divRound e 256))
    if s.smpState = 2 then s.cnt (R.SYN_PHHIST (phBin e)) else s

/-- The comparisons of a sample cycle, in order (R105). -/
def phCompares : List (Fin 9 × Int) → State → State
  | [], s => s
  | (u, e) :: t, s => phCompares t (phCompare u.val e s)

/-! ## The ADC and the stream point (R66, R123) -/

/-- The code an ADC gives for an input, which may lie beyond full scale (R66). -/
def adcCode (x : BitVec 9) : Int := max (-127) (min 127 x.toInt)

/-- Is an input beyond full scale? -/
def adcClip (x : BitVec 9) : Bool := decide (127 < x.toInt.natAbs)

/-- The correction words in force: those of the calibration steps and the AGC-table entry of the gain code (R72, R123). -/
def corrWords (n : Nat) (s : State) : List Word :=
  [s.reg (R.FE_ADC_OFS n), s.reg (R.FE_ADC_GAIN n), s.reg (R.FE_IQ_IMB n), s.reg (R.FE_LO_LEAK n),
   tget (fun _ => 0#36) (s.fe n).agc (s.rf (R.FE_GAIN_STAT n) 23 16)]

/-- A front end's histogram takes a code (bins of four codes from −128). -/
def feHist (n : Nat) (x : Int) (s : State) : State :=
  if bit (s.reg (R.FE_HIST_CTRL n)) 1 then s else s.cnt (R.FE_HIST n ((x + 128).toNat / 4))

/-- The tags of a live sample (R133): U unless LOCKED (R110); C in a mismatch check (R77); G in calibration runs (R84), in a
survey, while an LO owes a relock (R116) and for a loud sweep (R336). -/
def liveTags (n : Nat) (s : State) : Nat :=
  let f := s.fe n
  let st := s.feState n
  let loud := (match f.cal.sweep with
    | some w => w.loud && decide (w.startN ≤ s.cycle)
    | none => false)
  let check := (match f.check with
    | some c => decide (s.cycle < c.1 + 16368)
    | none => false)
  let g := st == feCal || st == feRecal || st == feSurvey || f.loGap || f.injGap || loud || decide (s.cycle < f.cal.gapTo)
  8 * b2n (s.smpState != 2) + 4 * b2n check + 2 * b2n g

/-- Does a sample's gap tag come only from a loud sweep (R337)? -/
def gapOwn (n : Nat) (s : State) : Bool :=
  let f := s.fe n
  let st := s.feState n
  let loud := (match f.cal.sweep with
    | some w => w.loud && decide (w.startN ≤ s.cycle)
    | none => false)
  loud && !(st == feCal || st == feRecal || st == feSurvey || f.loGap || f.injGap)

/-- The ADC sample of a front end enters the pipeline. A gap in the count of samples restarts it. -/
def samplePush (n : Nat) (i q : BitVec 9) (s : State) : State :=
  let clip := b2n (adcClip i) + b2n (adcClip q)
  let s := if clip = 0 then s else s.cnt (R.FE_CLIP_CNT n) clip
  let s := feHist n (adcCode q) (feHist n (adcCode i) s)
  let (ci, cq) := Config.corrected (corrWords n s) (adcCode i) (adcCode q)
  let x : PipeS := ⟨s.cycle, max (-127) (min 127 ci), max (-127) (min 127 cq), liveTags n s, gapOwn n s, adcCode i, adcCode q, clip⟩
  let f := s.fe n
  let fresh := (match f.pipe with
    | [] => true
    | y :: _ => y.n + 1 != s.cycle)
  if fresh then
    s.setFe n { f with pipe := [x], post := 0, inPulse := false, tagHist := [], clean := [], blk := .zero, done := none, spec := [],
                       strm := { f.strm with q := [], going := false } }
  else s.setFe n { f with pipe := x :: f.pipe }

/-! ## Blanking (R89, R90, R136) -/

/-- A coexistence pair blanks the sample of cycle `c`. Whether the sample TAIL cycles after the falling edge is the last blanked or the first
not blanked is not stated: the model does not blank it (R90; notes/assumptions/82.md). -/
def coexBlanks (n c : Nat) (s : State) : Bool :=
  (List.range 2).any (fun k => tbit (s.rf (R.FE_COEX_MAP n) 1 0) k && (s.coexP k).ivs.any (fun (p : Nat × Option Nat) =>
    decide (p.1 ≤ c) && (match p.2 with
      | none => true
      | some e => decide (c < e))))

/-- Is a sample a pulse (R136)? -/
def isPulse (n : Nat) (i q : Int) (s : State) : Bool :=
  bit (s.reg (R.CHZ_BLANK_CFG n)) 7 && decide (s.rf (R.CHZ_BLANK_CFG n) 6 0 ≤ max i.natAbs q.natAbs)

/-- The pulse blanker on a sample, given the codes of the samples that follow it: does it blank the sample? Counts pulses (a
pulse being a run of samples at or above THRESH). -/
def pulseBlank (n : Nat) (i q : Int) (next : List (Int × Int)) (s : State) : Bool × State :=
  let f := s.fe n
  let hit := isPulse n i q s
  let ahead := (next.take (s.rf (R.CHZ_BLANK_EXT n) 4 0)).any (fun p => isPulse n p.1 p.2 s)
  let blank := hit || ahead || (decide (0 < f.post) && bit (s.reg (R.CHZ_BLANK_CFG n)) 7)
  let s := s.setFe n { f with inPulse := hit, post := if hit then s.rf (R.CHZ_BLANK_EXT n) 27 16 else f.post - 1 }
  let s := if hit && !f.inPulse then s.cnt (R.CHZ_BLANK_PULSE_CNT n) else s
  (blank, if blank then s.cnt (R.CHZ_BLANK_CNT n) else s)

/-! ## The calibration correlators' accounting (R318, R329 to R331) -/

/-- BASE of correlator `k` in force (R328). -/
def calBase (n k : Nat) (s : State) : Int :=
  if k = 0 then sfld (s.reg (R.CALN_BASE n)) 11 0
  else tget (fun _ => if s.facValid then (Config.factory n 8 0).toInt else 0) (s.calU n).base k

/-- Change BASE of correlator `k`, a 12-bit signed field. -/
def setCalBase (n k : Nat) (b : Int) (s : State) : State :=
  if k = 0 then s.setReg (R.CALN_BASE n) (wd (bitsS 12 b))
  else s.setCal n { s.calU n with base := tset (fun _ => if s.facValid then (Config.factory n 8 0).toInt else 0) (s.calU n).base k (sext 12 (bitsS 12 b)) }

/-- Changes of BASE that take effect at a cycle (R328). -/
def basesApply (n c : Nat) : List (Nat × Nat × Int) → State → State
  | [], s => s
  | (k, at_, d) :: t, s => basesApply n c t (if at_ ≤ c then setCalBase n k (calBase n k s + d) s else s)

/-- At a whole second, cycle `c`: whether the injection was disturbed during the second just ended (R330), BASE of that second, and
changes of BASE due (R328). -/
def calTouch (n c : Nat) (s : State) : State :=
  let x := s.calU n
  let bases := (List.range 4).map (fun k => (k, calBase n k s))
  let muted := s.feState n != feReplay && s.smpState == 2 && s.loState (4 + n) != 2
  let s := s.setCal n { x with touchedL := x.touched, touched := s.calState n != 2 || decide (c < x.n0) || muted, baseL := bases,
                               baseDue := x.baseDue.filter (fun (d : Nat × Nat × Int) => decide (c < d.2.1)) }
  basesApply n c x.baseDue s

/-- A second of sample time is over for the correlators: its counts and sums are kept and the estimate falls due. -/
def calSecond (n k : Nat) (s : State) : State :=
  let x := s.calU n
  let s := s.setCal n { x with usedL := x.used, used := 0, unlkL := x.unlk, unlk := false, gSumL := x.gSum, gSum := 0, gCntL := x.gCnt,
                               gCnt := 0, sumsL := x.sums, sums := [], due := some k }
  if s.feState n = feReplay then calTouch n ((k + 1) * 163680000) s else s

/-- Sample cycles per tap step: 1 at 20.46 Mcps, 2 at 10.23 Mcps (R328). -/
def State.tapStep (s : State) (n : Nat) : Nat := if bit (s.reg (R.CALN_CFG n)) 18 then 1 else 2

/-- Correlator `k` of unit `n`: enabled and the unit it listens to (R343). -/
def ccCfg (n k : Nat) (s : State) : Bool × Nat :=
  if k = 0 then (true, n) else
  let f := s.rf (R.CALN_CC_CFG n) (4 * k - 1) (4 * k - 4)
  (tbit f 3, f % 4)

/-- Does a unit inject? -/
def injects (u : Nat) (s : State) : Bool := s.calState u == 2 || s.calState u == 3

/-- The sweep of unit `n` that takes in the sample of cycle `c`: in progress, or complete with samples still in the pipeline (R38, R337). -/
def sweepOf (n c : Nat) (s : State) : Option SweepSt :=
  let x := s.calU n
  (x.sweep.toList ++ x.tblDue).find? (fun w => decide (w.startN ≤ c ∧ c < w.endN))

/-- The carrier of unit `u`'s injection at a sample cycle, 2^-5 Hz: as its synthesiser realises it, or in REPLAY as it would (R326, R336). -/
def injCarrier (u c : Nat) (s : State) : Int :=
  match sweepOf u c s with
  | some w => s.loAct u + sweepFreq u w c
  | none => if s.feState u = feReplay then s.loAct u + 32000 * s.injOfs u else (s.reg (R.LO_ACT (4 + u))).toNat

/-- The chip of unit `u`'s injection at sample cycle `c`, delayed by `d` sample cycles, as ±1 (R319, R328). -/
def injChip (u : Nat) (c d : Int) (s : State) : Int :=
  let i := (c - d - (s.calU u).n0) / (8 * s.tapStep u) % 1048575
  pm (Config.flifortChip (s.rf (R.CALN_CFG u) 17 15) i.toNat)

/-- The tap sums of a correlator take a mixed sample, tap by tap. -/
def ccTaps (u : Nat) (c base : Int) (v : Int × Int) (s : State) : Nat → List (Int × Int) → List (Int × Int)
  | _, [] => []
  | i, a :: as =>
    let x := injChip u c (base + s.tapStep u * i) s
    (a.1 + x * v.1, a.2 + x * v.2) :: ccTaps u c base v s (i + 1) as

/-- The sums of no sample. -/
def ccZero : List (Int × Int) := List.replicate 64 (0, 0)

/-- Correlator `k` of unit `n` takes a sample in 2^-8 LSB: it is mixed with the NCO at the injection's offset from LO_ACT and, where it is
used, correlated (R318, R328, R329); correlator 0 in a sweep also sums the prompt tap by 1 ms blocks (R337). -/
def ccSample (n c k : Nat) (used swept : Bool) (z : Int × Int) (s : State) : State :=
  let (en, u) := ccCfg n k s
  if !en then s else
  let x := s.calU n
  let ph := tget (fun _ => 0) x.ph k
  let w := Config.ccWave ph
  let v := (z.1 * w.1 - z.2 * w.2, z.1 * w.2 + z.2 * w.1)
  let base := calBase n k s
  let next := ((ph : Int) + (injCarrier u c s - s.loAct n)) % 5237760000
  let x := { x with ph := tset (fun _ => 0) x.ph k next.toNat }
  let x := if used then { x with sums := tset (fun _ => ccZero) x.sums k (ccTaps u c base v s 0 (tget (fun _ => ccZero) x.sums k)) } else x
  let s := s.setCal n x
  if k ≠ 0 ∨ !swept then s else
  let p := injChip n c (base + s.tapStep n * x.lastM) s
  let add (w : SweepSt) : SweepSt :=
    if w.startN ≤ c ∧ c < w.endN then
      { w with blks := (match w.blks with
          | (b, i, q) :: bs => if b = c / 163680 then (b, i + p * v.1, q + p * v.2) :: bs else (c / 163680, p * v.1, p * v.2) :: (b, i, q) :: bs
          | [] => [(c / 163680, p * v.1, p * v.2)]) }
    else w
  s.setCal n { x with sweep := x.sweep.map add, tblDue := x.tblDue.map add }

/-- A sample reaches the correlators, with its tags, whether its gap tag comes only from a loud sweep, and its value after the notch
filters: every sample whose tags hold B, G or C is left out, but for those of a loud sweep in its own sums (R318, R337). -/
def calSample (n c tags : Nat) (own : Bool) (z : Int × Int) (s : State) : State :=
  let x := s.calU n
  let used := tags % 8 == 0
  let x := if used then { x with used := x.used + 1, unlk := x.unlk || tbit tags 3, blkUsed := true } else x
  let x := if c % 163680 = 163647 then { x with gCode := s.rf (R.FE_GAIN_STAT n) 23 16 } else x
  let x :=
    if c % 163680 = 163679 then
      { x with blkUsed := false, gSum := if x.blkUsed then x.gSum + 16 * agcDelay n x.gCode s else x.gSum, gCnt := x.gCnt + b2n x.blkUsed }
    else x
  let s := s.setCal n x
  let hear := (List.range 4).any (fun k => (ccCfg n k s).1 && injects (ccCfg n k s).2 s) || (sweepOf n c s).isSome
  let swept := (if own then tags &&& 13 else tags) % 8 == 0
  let s := if hear then (List.range 4).foldl (fun a k => ccSample n c k used swept z a) s else s
  if c % 163680000 = 163679999 then calSecond n (c / 163680000) s else s

/-! ## The stream point (R123, R133, R141) -/

/-- The sums of the AGC block in progress take a sample; at the block's end they are kept for AGC_BLOCK_END (R71). Which codes the sums are
of is not stated: the model takes those of the ADC, whose level the gain sets (notes/assumptions/83.md). -/
def blkSample (n c i q tags clip : Nat) (ai aq : Int) (s : State) : State :=
  let f := s.fe n
  let b := f.blk
  let b := { b with all := b.all + 1, clip := b.clip + clip, blanked := b.blanked + tags % 2 }
  let b := if tags = 0 then
      { b with cnt := b.cnt + 1, ssI := b.ssI + i * i, ssQ := b.ssQ + q * q, smI := b.smI + ai, smQ := b.smQ + aq } else b
  if c % 163680 = 163679 then s.setFe n { f with blk := .zero, done := some (c / 163680, b), spec := [], specL := f.spec }
  else s.setFe n { f with blk := b }

/-- A sample joins the full-rate stream, with runs of B from coexistence only (R141, R142). -/
def fullStreamPut (n c : Nat) (i q : Int) (kinds : Nat) (s : State) : State :=
  if !(s.fe n).strm.on then s else
  s.setFe n { s.fe n with strm := (s.fe n).strm.put 1920 ⟨c, [bitsS 8 i, bitsS 8 q], kinds, discOf n c s⟩ }

/-- The spectrum of the block takes a sample with B, G and C clear (R137). -/
def specPut (n tags : Nat) (z : Int × Int) (s : State) : State :=
  if tags % 8 ≠ 0 then s else s.setFe n { s.fe n with spec := Config.specStep (s.fe n).spec z }

/-- Notch `k` filters a sample in 2^-8 LSB; an adaptive one tracks its interferer and shows the frequency (R137). -/
def notchPass (n k : Nat) (zs : (Int × Int) × State) : (Int × Int) × State :=
  let s := zs.2
  if s.nfState n k < 2 then zs else
  let (z, w, mem) := Config.notchStep (s.rf (R.CHZ_NF_CFG n k) 3 2) (s.reg (R.CHZ_NF_FREQ n k)) (s.nf n k).mem zs.1
  let s := s.setNf n k { s.nf n k with mem := mem }
  (z, if s.nfState n k = 2 then s.setReg (R.CHZ_NF_FREQ n k) w else s)

/-- The longest of the decimation filters (R124). -/
def firMost : Nat := (List.range 5).foldl (fun a r => max a (Config.firLen r)) 0

/-- A sample passes the notch filters, zero where it is blanked (R136, R137), and joins those the taps filter. -/
def cleanPut (n c tags : Nat) (z : Int × Int) (s : State) : State :=
  let z := if tags % 2 = 1 then (0, 0) else (256 * z.1, 256 * z.2)
  let (z, s) := notchPass n 3 (notchPass n 2 (notchPass n 1 (notchPass n 0 (z, s))))
  s.setFe n { s.fe n with clean := ((c, z) :: (s.fe n).clean).take firMost }

/-- A sample of cycle `c` with its tags before the pulse blanker passes the stream point: stream, blanker, tag runs, block sums,
spectrum, notches, calibration correlators and taps. -/
def streamPoint (n : Nat) (x : PipeS) (next : List (Int × Int)) (s : State) : State :=
  let s := fullStreamPut n x.n x.i x.q x.tags s
  let (blank, s) := pulseBlank n x.i x.q next s
  let tags := x.tags ||| b2n blank
  let s := tagRun n x.n 1 (x.tags / 2 * 2) s
  let s := s.setFe n { s.fe n with tagHist := (tags :: (s.fe n).tagHist).take 32 }
  let s := cleanPut n x.n tags (x.i, x.q) (specPut n tags (x.i, x.q) s)
  let s := blkSample n x.n x.ai.natAbs x.aq.natAbs tags x.clip x.ai x.aq s
  let s := calSample n x.n tags x.own (((s.fe n).clean.map (fun p => p.2)).headD (0, 0)) s
  let s := tapsProduce n x.n (List.range 16) s
  if x.n % 163680 = 163679 then (List.range 16).foldl (fun a t => tapRoll n t a) s else s

/-- The sample that leaves the pipeline 31 sample cycles after the ADC input (R38). -/
def pipeExit (n : Nat) (s : State) : State :=
  let f := s.fe n
  if f.pipe.length < 32 then s else
  match f.pipe.reverse with
  | [] => s
  | x :: rest =>
    let s := s.setFe n { f with pipe := f.pipe.take 31 }
    let cx := coexBlanks n x.n s
    let s := if cx then s.cnt (R.FE_COEX_BLANK_CNT n) else s
    streamPoint n { x with tags := x.tags ||| b2n cx } (rest.map (fun y => (y.i, y.q))) s

/-! ## Replay (R143, R144) -/

/-- The replayed sample becomes the newest: its time is shown. -/
def replayTime (n c : Nat) (s : State) : State := s.setDt (R.CHZ_REPLAY_SEC n) (R.CHZ_REPLAY_FRAC n) (dtOfCycle c)

/-- Take the first waiting sample of a tap (16 for the stream point) from a list. -/
def replayTake (t : Nat) : List RepS → Option (RepS × List RepS)
  | [] => none
  | x :: xs =>
    if x.tap = t then some (x, xs)
    else match replayTake t xs with
      | some (y, ys) => some (y, x :: ys)
      | none => none

/-- The codes of up to `m` samples that follow at the stream point. -/
def replayAhead (m : Nat) : List RepS → List (Int × Int)
  | [] => []
  | x :: xs => List.replicate (min x.len m) (x.i, x.q) ++ replayAhead (m - min x.len m) xs

/-- Replay pauses: the ring is empty and a sample that is needed now has not come (R144). -/
def replayPause (n : Nat) (s : State) : State :=
  let r := (s.fe n).rep
  if r.paused || s.ringReady (s.rf (R.CHZ_REPLAY_CFG n) 4 0) || r.expect.isEmpty then s else
  let s := s.setFe n { s.fe n with rep := { r with paused := true } }
  let s := ((s.setF (R.CHZ_REPLAY_STAT n) 1 1 1).cnt (R.CHZ_REPLAY_UNDER_CNT n)).sticky (R.CHZ_STATUS n) 5
  let sec := (r.expect.map (fun p => p.2)).foldl max 0
  raise 0x305 1 (uChz n) [dtSec (dtOfCycle sec)] s

/-- The list with one sample of a filled interval used up. -/
def replayRest (x : RepS) (d : Nat) (rest : List RepS) : List RepS :=
  if x.len ≤ 1 then rest else { x with n := x.n + d, len := x.len - 1 } :: rest

/-- Does tap-point replay lack a sample: a tap's next sample is due at this sample time and is not there (R144)? -/
def replayShort (n : Nat) (s : State) : Bool :=
  let r := (s.fe n).rep
  r.buf.isEmpty || (List.range 16).any (fun t => s.tapState n t == 3 && r.expect.any (fun p => p.1 == t && p.2 == r.now)
    && !r.buf.any (fun x => x.tap == t))

/-- Tap-point replay at a sample time: tap `t` takes its sample of that time. -/
def replayTap (n t : Nat) (s : State) : State :=
  let r := (s.fe n).rep
  let d := tapDec (s.tapRate n t)
  if s.tapState n t ≠ 3 then s else
  match replayTake t r.buf with
  | none => s
  | some (x, rest) =>
    if x.n ≠ r.now then s else
    let s := s.setFe n { s.fe n with rep := { r with buf := replayRest x d rest } }
    let s := tagRun n x.n d (x.tags / 2 * 2) (replayTime n x.n s)
    let s := tapSample n t x.n x.i x.q x.tags s
    let first := ((List.range 16).find? (fun u => s.tapEn n u)) == some t
    if first && x.n % 163680000 + d == 163680000 then calSecond n (x.n / 163680000) s else s

/-- Tap-point replay: one cycle of sample time, in which every tap whose sample it is takes it. -/
def replayTaps (n : Nat) (s : State) : State :=
  let s := (List.range 16).foldl (fun a t => replayTap n t a) s
  s.setFe n { s.fe n with rep := { (s.fe n).rep with now := (s.fe n).rep.now + 1 } }

/-- Replay stops at the block that was bad once the samples before it are written (R145). -/
def replayEnd (n : Nat) (s : State) : State :=
  match (s.fe n).rep.bad with
  | some (cause, key) => if replayHas n key s then s else replayStop n cause s
  | none => s

/-- Tap-point replay lacks a sample: it stops where no more blocks are taken, else it pauses (R144, R145). -/
def replayStall (n : Nat) (s : State) : State :=
  match (s.fe n).rep.bad with
  | some (cause, _) => replayStop n cause s
  | none => replayPause n s

/-- One sample cycle of replay. -/
def replayCycle (n : Nat) (s : State) : State :=
  if !bit (s.reg (R.CHZ_REPLAY_STAT n)) 0 then s
  else if bit (s.reg (R.CHZ_REPLAY_CFG n)) 8 then (if !replayShort n s then replayEnd n (replayTaps n s) else replayStall n s)
  else match (s.fe n).rep.buf with
  | [] => replayPause n s
  | x :: rest =>
    let rest := replayRest x 1 rest
    let s := s.setFe n { s.fe n with rep := { (s.fe n).rep with buf := rest } }
    let s := replayTime n x.n s
    replayEnd n (streamPoint n ⟨x.n, x.i, x.q, x.tags, false, x.i, x.q, 0⟩ (replayAhead 16 rest) s)

/-! ## A sample cycle -/

/-- A front end at a sample cycle. -/
def feCycle (n : Nat) (iq : BitVec 9 × BitVec 9) (s : State) : State :=
  let s := if s.cycle % 163680000 = 0 ∧ s.feState n ≠ feReplay then calTouch n s.cycle s else s
  if s.feState n = feReplay then replayCycle n s
  else if feProduces (s.feState n) then pipeExit n (samplePush n iq.1 iq.2 s)
  else s

/-- Sample time has moved from cycle `was` (R15): the scheduler's ticks (R174) and the plan's reference cycles (R171) that come with it fall
due, and where it jumps, as at a start of replay, the epoch series begins anew. -/
def sampleTime (was : Nat) (s : State) : State :=
  let now := s.smpNow
  if now = was then s else
  let s := if now = was + 1 then s else { s with obs := { s.obs with from_ := now, closed := none, label := none } }
  let s := if now % 16368000 = 0 then { s with acq := { s.acq with ticks := s.acq.ticks ++ [now] } } else s
  if now % (s.rf R.ACQ_PLAN_CFG 35 24 * 163680000) = 0 then { s with acq := { s.acq with eks := s.acq.eks ++ [now] } } else s

/-! ## Starvation (R396) -/

/-- A delegate access to bank `b` has been passed over by 64 consecutive owner accesses: counted; event 0x90B in each second of DT once
its count exceeds TH (DEDUCED: notes/assumptions/55.md). A bank without a delegate has none. -/
def delegateStarved (b : Nat) (s : State) : State :=
  if s.rf (R.BANK_DELEGATE b) 2 0 = 0 ∨ s.bankStage b ≠ 0 then s else
  let x := s.bh b
  let n := (if x.starveSec = dtSec s.dt then x.starve else 0) + 1
  let th := s.rf R.MEM_STARVE_CFG 15 0
  let s := (s.setBh b { x with starveSec := dtSec s.dt, starve := n }).cnt (R.BANK_STARVE_CNT b)
  if n = th + 1 then raise 0x90B 1 (uBank b) [wd b, wd n] ((s.sticky (R.BANK_STATUS b) 7).sticky R.MEM_STATUS 7) else s

/-- The banks whose delegate was passed over since the last sample cycle (R396). -/
def delegatesStarved : List (Fin 16) → State → State
  | [], s => s
  | b :: t, s => delegatesStarved t (delegateStarved b.val s)

/-- SAMPLE_CYCLE: the samples of sample cycle `s.cycle`, whose DT is `s.dt`, so that the first one after reset has DT zero (R40): the
aerial samples of the four front ends (nine bits, so that an input beyond full scale can be told), the phase comparisons made in this cycle
(synthesiser, error in 2^-8 tick), and the banks whose delegate had an access passed over by 64 consecutive owner accesses since the cycle
before, once for each; then DT advances to the next sample cycle (R41). What other rows do at a sample cycle
they do before its samples are taken; starvation and ramps come first. With no fs nothing happens (R106, R115, R545). -/
def execSampleCycle (a b c d : BitVec 9 × BitVec 9) (cmps : List (Fin 9 × Int)) (starved : List (Fin 16)) (s : State) :
    Host.Outcome State Fault Refusal :=
  if !s.fsOn then .next s else
  .next (sampleTime s.smpNow (tickDt (feCycle 3 d (feCycle 2 c (feCycle 1 b (feCycle 0 a (phCompares cmps (rampTicks (delegatesStarved starved s)))))))))

end Sys2Proof.Machine
end

