-- ==== Sys2Proof/Machine/Cal.lean ====
section
/-! DEFINITION. Cal.lean: receive-delay self-calibration: injection, the estimates of a second, the applied delay and sweeps
(R318 to R348). -/

namespace Sys2Proof.Machine

/-! ## The applied delay (R332, R333) -/

/-- Rc / 2 of a unit's injection, in kHz. -/
def State.halfRc (s : State) (n : Nat) : Int := if bit (s.reg (R.CALN_CFG n)) 18 then 10230 else 5115

/-- Factory table of the bandwidth in force. -/
def facTable (n i : Nat) (s : State) : Int := sfld (Config.factory n (3 + s.rf (R.FE_CFG n) 1 0) i) 17 0

/-- The table in force, or the factory table (`fac`): its point `i`, and its SW_OFS in kHz (R333). -/
def calTable (n : Nat) (fac : Bool) (di : DelayIn) (i : Nat) (s : State) : Int := if fac || di.tbl.isEmpty then facTable n i s else di.tbl.getD i 0
def calTableOfs (fac : Bool) (di : DelayIn) : Int := if fac || di.tbl.isEmpty then 0 else di.tblOfs

/-- F(x) of R333 for an offset from LO_ACT in 2^-5 Hz, and whether it lies outside the table. -/
def calFOf (n : Nat) (fac : Bool) (di : DelayIn) (x32 : Int) (s : State) : Int × Bool :=
  let num := (x32 - 32000 * calTableOfs fac di + 800000000) * 63
  let den : Int := 1600000000
  if num < 0 then (calTable n fac di 0 s, true)
  else if 63 * den < num then (calTable n fac di 63 s, true)
  else
    let i := (num / den).toNat
    let a := calTable n fac di i s
    let b := if i = 63 then a else calTable n fac di (i + 1) s
    (divRound (a * den + (b - a) * (num - i * den)) 1600000000, false)

/-- F(x) by the tables in force now. -/
def calF (n : Nat) (fac : Bool) (x32 : Int) (s : State) : Int × Bool := calFOf n fac (s.delayIn n) x32 s

/-- The delay at an offset from LO_ACT in 2^-5 Hz: RXDLY in 2^-4 tick, CAL, and whether a table was left (R332). -/
def rxDelayAt (n : Nat) (di : DelayIn) (x32 : Int) (s : State) : Int × Nat × Bool :=
  if di.mode = 0 ∨ !s.facValid then (0, 0, false)
  else if di.mode = 1 ∨ !di.valid then
    let (f, o) := calFOf n true di x32 s
    (s.facD n + f, 1, o)
  else
    let (f, o) := calFOf n false di x32 s
    let (fi, oi) := calFOf n false di (32000 * di.inj) s
    (di.live + 16 * di.agc - di.dPath + f - fi, 2 + di.path, o || oi)

/-- CALn_APPLIED: the delay at INJ_OFS now. -/
def calApplied (n : Nat) (s : State) : Int := (rxDelayAt n (s.delayIn n) (32000 * s.injOfs n) s).1

/-- The delay for a signal's carrier in Hz at sample cycle `at_`, with OUTSIDE and event 0x809 once per signal and table (R332, R333). -/
def rxDelay (n sig : Nat) (carrier : Int) (at_ : Int) (s : State) : Int × Nat × State :=
  let x32 := 32 * carrier - s.loAct n
  let (d, cal, out) := rxDelayAt n (s.delayInAt n at_) x32 s
  if !out then (d, cal, s) else
  let s := s.sticky (R.CALN_STATUS n) 6
  let c := s.calU n
  let key := sig * 2 + b2n (cal == 1)
  if c.outSaid.contains key then (d, cal, s)
  else (d, cal, raise 0x809 1 (uCal n) [wd sig, wdI (divRound x32 32000)] (s.setCal n { c with outSaid := key :: c.outSaid }))

/-- CALn_TBL_DATA for the point selected. -/
def tblData (n : Nat) (s : State) : Word :=
  let idx := s.reg (R.CALN_TBL_IDX n)
  let di := s.delayIn n
  let fac := bit idx 6
  if !s.facValid && (fac || (s.calU n).tbl.isEmpty) then 0
  else wd ((if fac || (s.calU n).tbl.isEmpty then 0 else (s.calU n).tblSrc) * 262144 + bitsS 18 (calTable n fac di (fld idx 5 0) s))

/-! ## Injection (R319, R324, R325) -/

/-- Ready: the front end is in RUN and FEn/INJ is LOCKED; in REPLAY at once (R324, R326). -/
def injReady (n : Nat) (s : State) : Bool := (s.feState n == feRun && s.loState (4 + n) == 2) || s.feState n == feReplay

/-- Injection starts at N0 (R319, R324): event 0x801. -/
def injBegin (n n0 ms : Nat) (s : State) : State :=
  let c := s.calU n
  let s := s.setCal n { c with wait := none, n0 := n0, seen := false, touched := n0 % 163680000 != 0 || decide (calClock n s < n0), lastM := 24 }
  let s := s.setDt (R.CALN_START_SEC n) (R.CALN_START_FRAC n) (dtOfCycle n0)
  raise 0x801 1 (uCal n) [dtSec (dtOfCycle n0), wd ms] (calSetState n 2 s)

/-- Whole milliseconds of DT since an instant. -/
def msSince (d : Dt) (s : State) : Nat := (s.dt - d).toNat * 1000 / 68719476736

/-- INJECTION_START: a waiting unit that is ready starts (R324). -/
def execInjectionStart (n : Fin 4) (s : State) : Host.Outcome State Fault Refusal :=
  match (s.calU n).wait with
  | none => .next s
  | some w =>
    if !injReady n s || !s.fsOn then .next s else
    let n0 := gridMs (calClock n s)
    let ms := msSince w.at_ s
    let s := injBegin n n0 ms s
    .next (reply ⟨w.op, w.pk, w.cidx, w.late, false, w.at_, [], none⟩ 0 w.at_ (dtWords (dtOfCycle n0) ++ [wd ms]) s)

/-- INJECT_WAIT_TIMEOUT: the wait has lasted TIMEOUT ms (R324). -/
def execInjectWaitTimeout (n : Fin 4) (s : State) : Host.Outcome State Fault Refusal :=
  match (s.calU n).wait with
  | none => .next s
  | some w =>
    if msSince w.at_ s < w.limit then .next s else
    .next (calSetState n 0 (injRefuse n 0 w (s.setCal n { s.calU n with wait := none })))

/-! ## What an injection drives (R320, R324, R327) -/

/-- Is an injection muted: suspended, its synthesiser unlocked, or a mismatch check in progress (R77, R324, R327)? -/
def injMuted (n : Nat) (s : State) : Bool :=
  !injects n s || !(s.loState (4 + n) == 2 || s.loState (4 + n) == 4) || (s.fe n).check.isSome

/-- What the CALOUTn ball carries, dBm: nothing, but for an injection by the external path (R320); a loud sweep goes by the internal coupler. -/
def State.calout (s : State) (n : Nat) : Option Int :=
  if s.calPath n = 1 ∧ s.feState n ≠ feReplay ∧ !injMuted n s ∧ !((s.calU n).sweep.any (fun w => w.loud)) then
    some (s.rf (R.CALN_EXT_LEVEL n) 5 0 - 140)
  else none

/-! ## The estimates of a second (R328 to R331, R343) -/

/-- A listening correlator can hear its source (R343). -/
def ccHears (n u : Nat) (s : State) : Bool :=
  let f : Int := ((s.loAct u : Int) + 32000 * s.injOfs u) - s.loAct n
  n == u || decide (2 * ((f.natAbs : Int) + 32000 * s.halfRc u) ≤ 32 * s.bwHz n)

/-- The tap of largest |C|, lowest index on a tie. -/
def peakTap (c : Nat → Nat) : Nat := (List.range 64).foldl (fun m i => if c m < c i then i else m) 0

/-- |C_i| of correlator `k` for the second just ended (R329). Taps that R329 names beyond the 64, where the peak lies near an end and the
estimate is invalid, are free (`f` numbers the second). -/
def ccMag (n k f i : Nat) (s : State) : Nat :=
  match (tget (fun _ => ccZero) (s.calU n).sumsL k)[i]? with
  | some (re, im) => Nat.sqrt (re * re + im * im).toNat
  | none => (Config.engineWord 4 [f, k, i]).toNat

/-- The estimate of correlator `k` for a second (R329, R330); where e + l is zero, R329 gives no result and r is free. -/
def ccEstimate (n k f : Nat) (s : State) : CcEst :=
  let (en, u) := ccCfg n k s
  if !en then ⟨false, u, 0, false, 0, 0, 0, 0⟩ else
  let c (i : Nat) : Nat := ccMag n k f i s
  let m := peakTap c
  let e : Int := if 4 ≤ m then c (m - 4) else (Config.engineWord 4 [f, k, 100 + m]).toNat
  let l : Int := c (m + 4)
  let sum := ((List.range 16).map (fun i => c (m + 16 + i))).sum
  let base := tget (fun _ => 0) (s.calU n).baseL k
  let st := s.tapStep u
  let r : Int := if e + l = 0 then (Config.engineWord 5 [f, k]).toInt
    else divRound (((base + st * m) * (e + l) + 4 * st * (l - e)) * 4294967296) ((e + l) * 639375).toNat
  let valid := injects u s && !(s.calU u).touchedL && decide (163680000 ≤ 2 * (s.calU n).usedL) && decide (4 ≤ m ∧ m ≤ 32)
    && decide (8 * sum ≤ 16 * c m) && ccHears n u s
  ⟨true, u, s.rf (R.CALN_CFG u) 17 15, valid, r, c m, sum / 16, base + st * m⟩

/-- What an estimate does to a correlator's registers and BASE (R328). -/
def ccTake (n sec k : Nat) (x : CcEst) (s : State) : State :=
  if !x.en || !x.valid then s else
  let s := s.setReg (R.CALN_CC_RAW n k) (wdI x.r)
  let st := s.tapStep x.src
  let m : Int := (x.pabs - tget (fun _ => 0) (s.calU n).baseL k) / st
  if m < 20 ∨ 28 < m then
    let d := st * 2 * halfAway (m - 24)
    let c := s.calU n
    let pend : Int := ((c.baseDue.filter (fun (p : Nat × Nat × Int) => p.1 == k)).map (fun (p : Nat × Nat × Int) => p.2.2)).sum
    let s := (s.setCal n { c with baseDue := c.baseDue ++ [(k, (sec + 2) * 163680000, d)] }).sticky (R.CALN_STATUS n) 4
    raise 0x80A 0 (uCal n) [wdI (calBase n k s + pend + d)] s
  else s

/-- The seconds without a valid estimate in LIVE (R332). -/
def calNoEst (n : Nat) (valid : Bool) (s : State) : State :=
  let c := s.calU n
  if valid || s.calMode n != 2 then s.setCal n { c with noEst := 0, noEstSaid := false }
  else
    let s := s.setCal n { c with noEst := c.noEst + 1, noEstSaid := c.noEstSaid || decide (60 ≤ c.noEst + 1) }
    if 60 ≤ c.noEst + 1 ∧ !c.noEstSaid then raise 0x804 2 (uCal n) [wd (c.noEst + 1)] (s.sticky R.CAL_STATUS 0) else s

/-- The estimates of one unit for the second that fell due. -/
def calSecondEnd (n : Nat) (s : State) : State :=
  match (s.calU n).due with
  | none => s
  | some k =>
    let s := s.setCal n { s.calU n with due := none }
    let (f, s) := s.takeFree
    let c := s.calU n
    let cc := (List.range 4).map (fun i => ccEstimate n i f s)
    let x0 := cc.headD ⟨false, 0, 0, false, 0, 0, 0, 0⟩
    let g := if c.gCntL = 0 then (Config.engineWord 7 [f]).toInt else divRound c.gSumL c.gCntL
    let s := calNoEst n x0.valid s
    let s := (cc.zipIdx).foldl (fun s (p : CcEst × Nat) => ccTake n k p.2 p.1 s) s
    let s :=
      if x0.valid then
        let s := ((s.cnt (R.CALN_VALID_CNT n)).setReg (R.CALN_RAW n) (wdI x0.r)).setReg (R.CALN_EST_SEC n) (wd k)
        let m : Int := (x0.pabs - tget (fun _ => 0) c.baseL 0) / s.tapStep n
        s.setCal n { s.calU n with lastM := m.toNat }
      else if injects n s then (s.cnt (R.CALN_INVALID_CNT n)).sticky (R.CALN_STATUS n) 1
      else s
    if cc.any (fun x => x.en && injects x.src s) then
      s.setCal n { s.calU n with est := (s.calU n).est ++ [⟨k, g, c.unlkL, c.usedL * 4096 / 163680000, cc⟩] }
    else s

/-- CAL_SECOND_END: the correlators form their estimates of the second just over, unit by unit (R329, R330). -/
def execCalSecondEnd (s : State) : Host.Outcome State Fault Refusal :=
  .next (calSecondEnd 3 (calSecondEnd 2 (calSecondEnd 1 (calSecondEnd 0 s))))

/-- The drift of a live estimate from D_FAC (R340): more than 2 ns, at most once per hour. -/
def calDrift (n : Nat) (s : State) : State :=
  if !s.facValid then s else
  let d := (s.reg (R.CALN_LIVE n)).toInt + 16 * agcDelay n (s.rf (R.FE_GAIN_STAT n) 23 16) s - calPathDelay n s - s.facD n
  if d.natAbs ≤ 2199 then s else
  let s := s.sticky (R.CALN_STATUS n) 5
  let c := s.calU n
  let again := (match c.driftAt with
    | some a => decide (3600 * 68719476736 ≤ (s.dt - a).toNat)
    | none => true)
  if again then raise 0x808 2 (uCal n) [wdI d] (s.setCal n { c with driftAt := some s.dt }) else s

/-- A field of 36 bits holds a value at its limits; the flag says whether it was held (R344). -/
def clamp36 (v : Int) : Int × Bool :=
  (max (-34359738368) (min 34359738367 v), decide (v < -34359738368) || decide (34359738367 < v))

/-- The four words of a correlator in an estimate record (R344). -/
def ccWords (x : CcEst) : List Word :=
  if !x.en then [0, 0, 0, wd (x.src % 4 * 4294967296)]
  else [if x.valid then wdI (clamp36 x.r).1 else 0, wd (min 68719476735 x.peak), wd (min 68719476735 x.noise),
    wd (b2n x.valid * 34359738368 + 17179869184 + x.src % 4 * 4294967296 + x.scode * 536870912
      + bitsS 12 (max (-2048) (min 2047 x.pabs)) * 131072)]

/-- Was a field of the estimate record clamped (R344)? -/
def calClamped (n : Nat) (e : CalEst) (s : State) : Bool :=
  decide (4095 < e.used) || (clamp36 e.g).2 || (clamp36 (calApplied n s)).2
    || e.cc.any (fun x => x.en && ((x.valid && (clamp36 x.r).2) || decide (68719476735 < x.peak) || decide (68719476735 < x.noise)
        || decide (x.pabs < -2048) || decide (2047 < x.pabs)))

/-- The estimate record of a second (R344). -/
def calRecord (n : Nat) (e : CalEst) (seq : Word) (s : State) : List Word :=
  let cfg := s.reg (R.CALN_CFG n)
  let range := calClamped n e s
  [seq, wd (n * 1073741824 + fld cfg 21 20 * 268435456 + fld cfg 19 19 * 134217728 + fld cfg 18 18 * 67108864 + fld cfg 17 15 * 8388608
      + b2n e.unlk * 4194304 + b2n range * 2097152), wd e.sec, 0, wdI (clamp36 e.g).1, s.reg (R.CALN_LIVE n), wdI (clamp36 (calApplied n s)).1,
   wd (min e.used 4095 * 16777216)] ++ padTo 16 ((e.cc.map ccWords).flatten) ++ List.replicate 8 0#36

/-- A valid second counts towards the mean live value of the next delay history entry (R484). -/
def liveNote (n : Nat) (l : Int) (s : State) : State :=
  { s with cur := { s.cur with live := tmod (fun _ => ((0, 0) : Int × Nat)) s.cur.live n (fun p => (p.1 + l, p.2 + 1)) } }

/-- The estimates of a unit whose time k + 2 s has come (R331). -/
def liveApply (n : Nat) (s : State) : State :=
  match (s.calU n).est with
  | [] => s
  | e :: rest =>
    if s.fsOn && decide (calClock n s < (e.sec + 2) * 163680000) then s else
    let s := s.setCal n { s.calU n with est := rest }
    let x0 := e.cc.headD ⟨false, 0, 0, false, 0, 0, 0, 0⟩
    let s :=
      if !x0.valid then s else
      let c := s.calU n
      let rn := x0.r - e.g
      let l := (s.reg (R.CALN_LIVE n)).toInt
      let new := if !c.seen then rn else l + divRound (rn - l) (2 ^ s.rf (R.CALN_CFG n) 14 12)
      let s := liveNote n new (((delayNote n ((e.sec + 2) * 163680000) s).setReg (R.CALN_LIVE n) (wdI new)).setCal n { c with seen := true, everValid := true })
      let s := if c.seen then s else raise 0x803 1 (uCal n) [wdI new] s
      calDrift n s
    let ring := s.rf R.CAL_RING 4 0
    recordSeq ring 0xA R.CAL_SEQ (fun q => calRecord n e q s) (if ring = 0 then s else s.cnt R.CAL_REC_CNT)

/-- LIVE_DELAY_APPLY: the estimates of second k take effect at sample time k + 2 s and their records are written, in ascending
order of units (R331, R344). -/
def execLiveDelayApply (s : State) : Host.Outcome State Fault Refusal :=
  .next (liveApply 3 (liveApply 2 (liveApply 1 (liveApply 0 s))))

/-! ## Sweeps (R335 to R338) -/

/-- OFS of a sweep (R336). -/
def State.swOfs (s : State) (n : Nat) : Int := sfld (s.reg (R.CALN_SWEEP_CFG n)) 15 0
def State.swSlope (s : State) (n : Nat) : Nat := s.rf (R.CALN_SWEEP_CFG n) 27 17
/-- D, in ramp epochs (R336). -/
def State.swEpochs (s : State) (n : Nat) : Nat := ceilDiv 5000000 (32 * max 1 (s.swSlope n))

/-- What a sweep request meets (R335): 5 not in INJECT, 4 another running, 3 out of range. -/
def sweepStatus (n : Nat) (s : State) : List (Bool × Nat) :=
  let o := s.swOfs n
  let lo : Int := (s.loAct n : Int) + 32000 * (o - 25000)
  let hi : Int := (s.loAct n : Int) + 32000 * (o + 25000)
  [(s.calState n != 2 && s.calState n != 3, 5), (s.calState n == 3, 4),
   (decide ((s.bwHz n : Int) < 2000 * ((o.natAbs : Int) + 25000 + s.halfRc n)) || decide (lo < 32 * 1150000000) || decide (32 * 1620000000 < hi), 3)]

/-- Segments 0 to 15 of the sweep's profile, from segment `i` on, which hold `d` ramp epochs more (R336): the profile of a slower sweep
than the registers hold goes on as the first 16 segments do (notes/assumptions/86.md). -/
def sweepSegs (n : Nat) (w : SweepSt) : Nat → Nat → State → State
  | 0, _, s => s
  | m + 1, d, s =>
    let i := 15 - m
    if d = 0 then s else
    let dur := min d 255
    sweepSegs n w m (d - dur)
      (s.setReg (R.LO_SEG (4 + n) i) (wd (bitsS 16 (sweepOffset w i - s.injOfs n) * 1048576 + w.slope % 4096 * 256 + dur)))

/-- Does OFFSET of every segment fit its field? -/
def sweepFits (n : Nat) (w : SweepSt) (d : Nat) (s : State) : Bool :=
  (List.range (ceilDiv d 255)).all (fun i => decide ((sweepOffset w i - s.injOfs n).natAbs < 32768))

/-- The unit arms FEn/INJ with the profile of a sweep (R118, R336); what R118 does not admit is discarded, and the sweep then runs without
a ramp (notes/assumptions/86.md). -/
def sweepArm (n d : Nat) (w : SweepSt) (s : State) : State :=
  let fits := sweepFits n w d s
  let s := sweepSegs n w 16 d s
  let s := s.setReg (R.LO_RAMP_CFG (4 + n)) (wd (min 16 (ceilDiv d 255) - 1))
  let s := s.setDt (R.LO_RAMP_SEC (4 + n)) (R.LO_RAMP_FRAC (4 + n)) (dtOfCycle w.startN)
  if fits && rampOk (4 + n) s then rampArm (4 + n) (dtOfCycle w.startN) s else s

/-- A sweep starts at a grid point: the injection synthesiser is armed, in REPLAY none is (R326, R336). -/
def sweepBegin (n startN : Nat) (s : State) : State :=
  let d := s.swEpochs n
  let w : SweepSt := ⟨bit (s.reg (R.CALN_SWEEP_CFG n)) 16, startN, startN + d * 1636800, s.swOfs n, s.swSlope n, []⟩
  let c := s.calU n
  let s := calSetState n 3 (s.setCal n { c with sweep := some w, touched := c.touched || startN % 163680000 != 0 })
  if s.feState n = feReplay then s else sweepArm n d w s

/-- SWEEP_DUE: a periodic sweep falls due at the DT seconds of R335, in sample time, and starts or is skipped. -/
def execSweepDue (n : Fin 4) (s : State) : Host.Outcome State Fault Refusal :=
  let per := s.rf (R.CALN_SWEEP_CFG n) 35 28 * 3600
  let sec := calClock n s / 163680000
  if !s.booted || per = 0 || decide (sec < 900 * n.val) || (sec - 900 * n.val) % per != 0 || (s.calU n).sweepSec == some sec then .next s else
  let s := s.setCal n { s.calU n with sweepSec := some sec }
  if firstStatus (sweepStatus n s) = 0 then .next (sweepBegin n (sec * 163680000) s)
  else .next (raise 0x807 2 (uCal n) [3] s)

/-- SWEEP_END: the sweep has run its length; its table takes effect 2 s after its last sample (R337). -/
def execSweepEnd (n : Fin 4) (s : State) : Host.Outcome State Fault Refusal :=
  let c := s.calU n
  match c.sweep with
  | none => .next s
  | some w =>
    if !s.fsOn || decide (calClock n s < w.endN) then .next s else
    let s := s.setCal n { s.calU n with sweep := none, gapTo := if w.loud then w.endN + 327360 else c.gapTo, tblDue := c.tblDue ++ [w] }
    .next (calSetState n 2 (rampDrop (4 + n) s))

/-- The cycle at which a completed sweep's table takes effect: 2 s after its last sample (R337). -/
def SweepSt.tableN (w : SweepSt) : Nat := w.endN - 1 + 327360000

/-- The mean realised offset of a 1 ms block from LO_ACT, Hz: the mean of the staircase's 1,023 steps in it (R117, R337). -/
def blockOffset (n : Nat) (w : SweepSt) (b : Nat) : Rat :=
  ((List.range 1023).map (fun j => sweepFreq n w (163680 * b + 160 * j))).sum / (32 * 1023 : Rat)

/-- φ of the blocks in turns, unwrapped, with each block's mean offset, oldest first, from the phase of the block before (R337); a block
with no sum has no argument and is left out. -/
def blockPhases (n : Nat) (w : SweepSt) : Option Rat → List (Nat × Int × Int) → List (Rat × Rat)
  | _, [] => []
  | last, (b, i, q) :: t =>
    if i = 0 ∧ q = 0 then blockPhases n w last t else
    let a := argTurns i q
    let p := match last with
      | some l => a + ((l - a + 1 / 2).floor : Rat)
      | none => a
    (blockOffset n w b, p) :: blockPhases n w (some p) t

/-- The least-squares slope of the second of each pair against the first; none where it has none. -/
def slopeOf (l : List (Rat × Rat)) : Option Rat :=
  let sx := (l.map (fun p => p.1)).sum
  let sy := (l.map (fun p => p.2)).sum
  let den := l.length * (l.map (fun p => p.1 * p.1)).sum - sx * sx
  if den = 0 then none else some ((l.length * (l.map (fun p => p.1 * p.2)).sum - sx * sy) / den)

/-- The offset of table point `i` from LO_ACT + SW_OFS, Hz (R333). -/
def pointOffset (i : Nat) : Rat := (50000000 * i : Rat) / 63 - 25000000

/-- τ of point `i` in 2^-4 tick (R337): from the slope of φ against f over the blocks within 1 MHz, less the factory path shape. Where no
two offsets stand within 1 MHz the rule gives no slope and the value is free. -/
def pointDelay (n i : Nat) (w : SweepSt) (l : List (Rat × Rat)) : Rat :=
  let f := pointOffset i + 1000 * w.ofs
  match slopeOf (l.filter (fun p => decide (p.1 - f ≤ 1000000 ∧ f - p.1 ≤ 1000000))) with
  | some m => -m * 1099511627776 - (Config.factory n 7 i).toInt
  | none => (Config.engineWord 6 [n, w.startN, i]).toInt

/-- The 64 values of a sweep's table (R337). -/
def sweepTable (n : Nat) (w : SweepSt) : List Int :=
  let l := blockPhases n w none w.blks.reverse
  let mid := (pointDelay n 31 w l + pointDelay n 32 w l) / 2
  (List.range 64).map (fun i => fixR (pointDelay n i w l - mid))

/-- A sweep record (R345): KIND 1 or 2. -/
def sweepRecord (n kind : Nat) (w : SweepSt) (vals : List Int) (seq : Word) : List Word :=
  let pts := (List.range 16).map (fun i => pair18 (vals.getD (32 * (kind - 1) + 2 * i) 0) (vals.getD (32 * (kind - 1) + 2 * i + 1) 0))
  [seq, wd (kind * 4294967296 + n * 1073741824 + b2n w.loud * 536870912)] ++ dtWords (dtOfCycle w.startN) ++ dtWords (dtOfCycle w.tableN)
    ++ [wd (bitsS 16 w.ofs * 1048576 + w.slope % 2048 * 512), 0] ++ pts ++ List.replicate 8 0#36

/-- SWEEP_TABLE_APPLY: the table takes effect and the two sweep records are written (R337, R345). -/
def execSweepTableApply (n : Fin 4) (s : State) : Host.Outcome State Fault Refusal :=
  match (s.calU n).tblDue with
  | [] => .next s
  | w :: rest =>
    if !s.fsOn || decide (calClock n s < w.tableN) then .next s else
    let vals := sweepTable n w
    let s := delayNote n w.tableN s
    let s := s.setCal n { s.calU n with tblDue := rest, tbl := vals, tblOfs := w.ofs, tblSrc := if w.loud then 2 else 1, outSaid := [] }
    let s := (s.setReg (R.CALN_SWEEP_SEC n) (dtSec (dtOfCycle w.tableN))).sticky (R.CALN_STATUS n) 3
    let s := s.cnt (R.CALN_SWEEP_CNT n)
    let ring := s.rf R.CAL_RING 4 0
    let s := if ring = 0 then s else s.cnt R.CAL_REC_CNT 2
    let s := recordSeq ring 0xA R.CAL_SEQ (sweepRecord n 2 w vals) (recordSeq ring 0xA R.CAL_SEQ (sweepRecord n 1 w vals) s)
    .next (raise 0x806 1 (uCal n) [dtSec (dtOfCycle w.tableN)] s)

/-! ## Commands (R346) -/

/-- A calibration command's lateness and boundary, on the clock of the unit's samples (R49, R326). -/
def calLate (p : Packet) (s : State) : Bool :=
  let n := p.pf 0 1 0
  if s.replays n then s.fsOn && decide (cycleOf (calClock n s) p.epoch < calClock n s + 16368) else lateSample p s
/-- The boundary of a calibration command: a sample cycle, or a sample of the replay (R15, R438). -/
def calBnd (p : Packet) (stamped : Bool) (s : State) : Option Nat :=
  let n := p.pf 0 1 0
  if s.replays n then some (if stamped then cycleOf (calClock n s) p.epoch else calClock n s + 16368) else bndSample p stamped s
/-- The sample clock of the front end a calibration command names. -/
def calClockOf (p : Packet) (s : State) : Nat := calClock (p.pf 0 1 0) s

/-- CAL_INJECT (R324, R325). -/
def calInjectSpec : CmdSpec where
  op := 0x800
  lens := fun n => n == 1
  resv := fun p _ => p.outside 0 0xFFFF00003
  parm := fun p _ => decide (10000 < p.pf 0 33 20)
  late := calLate
  bnd := calBnd
  clock := calClockOf
  units := fun p => [uCal (p.pf 0 1 0)]
  parks := false
  chk := fun h s =>
    let n := h.pk.pf 0 1 0
    let stop := bit (h.pk.par 0) 35
    [(s.feState n == feRetired, 11),
     (!stop && s.calState n == 0 && !injReady n s && bit (h.pk.par 0) 34, 5),
     (!stop && s.calState n == 1, 4)]
  at_ := atSample
  eff := fun h s =>
    let n := h.pk.pf 0 1 0
    let d := atSample h s
    if bit (h.pk.par 0) 35 then
      let s := calStop n s
      (.done (dtWords d ++ [0]), s)
    else if s.calState n ≠ 0 then (.done [s.reg (R.CALN_START_SEC n), s.reg (R.CALN_START_FRAC n), 0], s)
    else if injReady n s then
      let n0 := gridMs (h.n s)
      (.done (dtWords (dtOfCycle n0) ++ [0]), injBegin n n0 0 s)
    else
      let t := if h.pk.pf 0 33 20 = 0 then s.rf R.CAL_TIMEOUT 13 0 else h.pk.pf 0 33 20
      (.later, calSetState n 1 (s.setCal n { s.calU n with wait := some ⟨h.op, h.pk, h.cidx, h.late, d, t⟩ }))
  refuse := fun h st s =>
    let n := h.pk.pf 0 1 0
    if st = 5 ∧ s.calState n = 0 ∧ bit (h.pk.par 0) 34 then
      let s := (s.cnt R.CAL_NOTREADY_CNT).sticky R.CAL_STATUS 2
      ([0, 0, 0], raise 0x802 2 (uCal n) [1] (s.sticky (R.CALN_STATUS n) 0))
    else ([], s)

/-- CAL_SWEEP (R335, R338). The reply words of ABORT are free. -/
def calSweepSpec : CmdSpec where
  op := 0x801
  lens := fun n => n == 1
  resv := fun p _ => p.outside 0 7
  late := calLate
  bnd := calBnd
  clock := calClockOf
  units := fun p => [uCal (p.pf 0 1 0)]
  chk := fun h s =>
    let n := h.pk.pf 0 1 0
    (s.feState n == feRetired, 11) :: (if bit (h.pk.par 0) 2 then [] else sweepStatus n s)
  at_ := atSample
  eff := fun h s =>
    let n := h.pk.pf 0 1 0
    if bit (h.pk.par 0) 2 then
      let s := sweepAbort n 4 s
      let (i, s) := s.takeFree
      (.done ((List.range 4).map (fun k => Config.engineWord 8 [i, k])), s)
    else
      let n0 := gridMs (h.n s)
      let e := n0 + s.swEpochs n * 1636800
      (.done (dtWords (dtOfCycle n0) ++ dtWords (dtOfCycle e)), sweepBegin n n0 s)

/-- CAL_CONFIG changes a correlator that is enabled. -/
def ccChanged (old new : Word) : Bool :=
  (List.range 3).any (fun k => bit old (4 * k + 3) && fld old (4 * k + 3) (4 * k) != fld new (4 * k + 3) (4 * k))

/-- CAL_CONFIG (R346). -/
def calConfigSpec : CmdSpec where
  op := 0x802
  lens := fun n => n == 7
  resv := fun p _ => p.outside 0 3 || p.outside 1 0x3FF000 || p.pf 1 21 20 == 3 || p.outside 2 0x3FFFF || p.outside 3 0x3F
    || p.outside 4 0xFFFFF || p.outside 6 0xBBB
  parm := fun p _ => decide (40 < p.pf 3 5 0) || decide (1000000 < p.pf 4 19 0) || decide (168 < p.pf 5 35 28)
    || p.pf 5 27 17 == 0 || decide (1562 < p.pf 5 27 17)
  late := calLate
  bnd := calBnd
  clock := calClockOf
  units := fun p => [uCal (p.pf 0 1 0)]
  chk := fun h s =>
    let n := h.pk.pf 0 1 0
    let cfg := s.reg (R.CALN_CFG n)
    let rc : Int := if h.pk.pf 1 18 18 = 1 then 10230 else 5115
    [(s.feState n == feRetired, 11),
     (decide ((s.bwHz n : Int) < 2000 * (((sext 18 (h.pk.pf 2 17 0)).natAbs : Int) + rc)), 3),
     (s.calState n != 0 && (fld cfg 19 15 != h.pk.pf 1 19 15 || s.reg (R.CALN_INJ_OFS n) != h.pk.par 2), 4),
     (ccChanged (s.reg (R.CALN_CC_CFG n)) (h.pk.par 6), 4)]
  at_ := atSample
  eff := fun h s =>
    let n := h.pk.pf 0 1 0
    let s := delayNote n (h.n s) s
    let s := ((s.setReg (R.CALN_CFG n) (h.pk.par 1)).setReg (R.CALN_INJ_OFS n) (h.pk.par 2)).setReg (R.CALN_EXT_LEVEL n) (h.pk.par 3)
    let s := ((s.setReg (R.CALN_EXT_PATH n) (h.pk.par 4)).setReg (R.CALN_SWEEP_CFG n) (h.pk.par 5)).setReg (R.CALN_CC_CFG n) (h.pk.par 6)
    let busy := s.loState (4 + n) == 0 || s.feState n == feCal || s.feState n == feRecal || (s.fe n).check.isSome
    (.done (dtWords (atSample h s)), if busy then s else loPlan (4 + n) (injAim n s) s)

/-- A write to CALn_CTRL: SWEEP_ABORT and INJ_STOP, as immediate commands, which no reply answers: they wait for their boundary among the
commands pending (R324, R338, R346). -/
def calCtrl (n v : Nat) (s : State) : State :=
  let pk (w : Nat) : Packet := ⟨0, 1, false, false, false, true, 0, [wd w], .ok []⟩
  let hold (c : CmdSpec) (w : Nat) (s : State) : State :=
    let h : HeldCmd := ⟨c.op, pk w, 262144, false, false, s.dt, [uCal n], calBnd (pk w) false s⟩
    if h.bnd.isNone then (c.eff h s).2 else { s with cmdPend := s.cmdPend ++ [h] }
  let s := if v / 2 % 2 = 1 then hold calSweepSpec (4 + n) s else s
  if v % 2 = 1 then hold calInjectSpec (34359738368 + n) s else s

/-- CAL_INJECT. -/
def execCalInject (p : Packet) (s : State) : Host.Outcome State Fault Refusal := .next (consumeCmd calInjectSpec p s)
/-- CAL_SWEEP. -/
def execCalSweep (p : Packet) (s : State) : Host.Outcome State Fault Refusal := .next (consumeCmd calSweepSpec p s)
/-- CAL_CONFIG. -/
def execCalConfig (p : Packet) (s : State) : Host.Outcome State Fault Refusal := .next (consumeCmd calConfigSpec p s)

end Sys2Proof.Machine
end

