-- ==== Sys2Proof/Machine/Corr.lean ====
section
/-! DEFINITION. Corr.lean: what a correlator channel computes from the tap buffer: replicas, the six tracking correlators, the
profile bank, result formats (R192 to R200). -/

namespace Sys2Proof.Machine

/-- A correlator channel. -/
def State.chan (s : State) (c : Nat) : Chan := tget (fun _ => Chan.free) s.chans c
def State.setChan (s : State) (c : Nat) (x : Chan) : State := { s with chans := tset (fun _ => Chan.free) s.chans c x }

/-- 2^36, a chip in the units of a position and a cycle in the units of a phase. -/
def two36 : Nat := 68719476736

/-- The signal of a channel; a SIG outside the catalogue cannot be assigned. -/
def sigRow (n : Nat) : Sig := (sigOf n).getD ⟨0, 0, 0, 1, 1, 0, false, 0, 0, false, false, false⟩

/-! ## The carrier table (R151, R197) -/

/-- round(63 × cos(2πk/64)) for k from 0 to 16. -/
def cosQuarter : List Int := [63, 63, 62, 60, 58, 56, 52, 49, 45, 40, 35, 30, 24, 18, 12, 6, 0]

/-- Wc(k) of R151. -/
def waveC (k : Nat) : Int :=
  let m := k % 64
  if m ≤ 16 then cosQuarter.getD m 0 else if m ≤ 32 then -cosQuarter.getD (32 - m) 0
  else if m ≤ 48 then -cosQuarter.getD (m - 32) 0 else cosQuarter.getD (64 - m) 0

/-- Ws(k) of R151. -/
def waveS (k : Nat) : Int := waveC (k + 48)

/-! ## Replicas (R194, R195) -/

/-- Chip × secondary chip at a position's chip index, for a SIG whose primary length in chips is `prim`. -/
def chipAt (s : State) (sig svk prim i : Nat) : Int :=
  let g := sigRow sig
  let sec := if secLen g svk = 1 then 1 else pm (s.secChip sig svk (i / prim % secLen g svk))
  pm (s.primChip sig svk (i % prim)) * sec

/-- The replica value at position `p` (2^-36 chip or slot, below L), real and imaginary parts (R195). -/
def replica (s : State) (sig svk p : Nat) : Int × Int :=
  let g := sigRow sig
  let i := p / two36
  let f := p % two36
  let b1 : Int := if f < 34359738368 then 1 else -1
  let b6 : Int := if 12 * f / two36 % 2 = 0 then 1 else -1
  if g.tdm then
    if (i % 2 == 1) != g.odd then (0, 0)
    else
      let c := pm (s.primChip sig svk (i / 2 % g.prim))
      (if g.mode = 1 then c * b1 else c, 0)
  else
    let c := chipAt s sig svk g.prim i
    match g.mode with
    | 0 => (c, 0)
    | 1 => (c * b1, 0)
    | 2 =>
      let k := i % g.prim % 33
      (if k = 0 ∨ k = 4 ∨ k = 6 ∨ k = 29 then c * b6 else c * b1, 0)
    | 3 => (c * (3 * b1 + b6), 0)
    | 4 => (c * (3 * b1 - b6), 0)
    | _ =>
      let ca := chipAt s 0x43 svk 10230 i
      let cb := chipAt s 0x45 svk 10230 i
      let m := 3 * f % (2 * two36)
      let sr : Int := if m ≤ 34359738368 ∨ 103079215104 ≤ m then 1 else -1
      let si : Int := if m ≤ two36 then 1 else -1
      (ca * sr + cb * sr, cb * si - ca * si)

/-! ## Tap samples (R133 to R135, R386) -/

/-- The tag kinds the tag-run table gives the tap sample of cycle `c` (R135): bit 3 U, bit 2 C, bit 1 G. -/
def runKinds (n d c : Nat) (s : State) : Nat :=
  (s.fe n).runs.foldl (fun a r => if r.a ≤ c ∧ c < r.z + d then a ||| r.bits else a) 0

/-- A tap sample as the correlator reads it: I and Q codes, X, and its kinds (bit 3 U, 2 C, 1 G, 0 B). A word that gives a bus error
counts as four gap samples (R386). -/
def tapRead (n t c : Nat) (s : State) : State × Int × Int × Bool × Nat :=
  let tp := s.tap n t
  let u := tapUnits (s.tapRate n t)
  let m := c / tapDec (s.tapRate n t)
  let word := m / 4 % (2560 * u)
  match tp.regions[word / 64]? with
  | none => (s, 0, 0, true, 2)
  | some r =>
    match memRead (kTap n (64 * r + word % 64)) (uChz n) s with
    | (s, .ok w) =>
      let j := m % 4
      let x := bit w (32 + j)
      let lost := (s.tap n t).lost.any (fun (p : Nat × Nat) => decide (p.1 ≤ c) && decide (c < p.2))
      let k := runKinds n (tapDec (s.tapRate n t)) c s ||| 2 * b2n lost
      let kinds :=
        if !x then k / 8 * 8 else if tbit k 1 then (k / 8 * 8) ||| 2 else if tbit k 2 then (k / 8 * 8) ||| 4 else (k / 8 * 8) ||| 1
      (s, sfld w (8 * j + 7) (8 * j + 4), sfld w (8 * j + 3) (8 * j), x, kinds)
    | (s, _) => (s, 0, 0, true, 2)

/-! ## Accumulation (R196, R197) -/

/-- Offset of each correlator from prompt, in 2^-36 chip: very early, early, prompt, late, very late, noise, then the profile taps. -/
def corrOffsets (slot : List Word) (prof : Bool) : List Int :=
  let w5 := slot.getD 5 0
  let de : Int := fld w5 28 24 * 4294967296
  let dv : Int := fld w5 23 18 * 4294967296
  let noise : Int := fld (slot.getD 6 0) 20 0 * 68719476736
  [-dv, -de, 0, de, dv, noise] ++
    (if prof then (List.range 32).map (fun (i : Nat) => (sfld w5 11 0 + (i : Int) * fld w5 17 12) * 4294967296) else [])

/-- Add to a 32-bit accumulator that holds at its limits (R197): the new value and whether it was held. -/
def accAdd (a b : Int) : Int × Bool :=
  if 2147483647 < a + b then (2147483647, true) else if a + b < -2147483647 then (-2147483647, true) else (a + b, false)

/-- One accumulator takes a sample: v × conj(r) × W. -/
def accSample (a : Int × Int) (vr vi rr ri wr wi : Int) : (Int × Int) × Bool :=
  let ar := vr * rr + vi * ri
  let ai := vi * rr - vr * ri
  let (x, hx) := accAdd a.1 (ar * wr - ai * wi)
  let (y, hy) := accAdd a.2 (ar * wi + ai * wr)
  ((x, y), hx || hy)

/-- Every accumulator of a channel takes a sample at position `p`. -/
def accAll (s : State) (sig svk l p : Nat) (vr vi wr wi : Int) : List (Int × Int) → List Int → List (Int × Int) × Bool
  | a :: as, d :: ds =>
    let q := (((p : Int) + d) % (l * two36 : Nat)).toNat
    let (rr, ri) := replica s sig svk q
    let (b, h) := accSample a vr vi rr ri wr wi
    let (bs, hs) := accAll s sig svk l p vr vi wr wi as ds
    (b :: bs, h || hs)
  | _, _ => ([], false)

/-- Samples of an integration from cycle `c` on, `m` of them: the carrier phase and position advance at every sample, and samples with X
= 1 add nothing (R192, R193, R197). -/
def corrRun (fe tap : Nat) (fcw : Int) (cfw l : Nat) (offs : List Int) : Nat → Nat → Nat → Nat → Chan → State → Chan × State
  | 0, _, _, _, x, s => (x, s)
  | m + 1, c, phi, p, x, s =>
    let (s, i, q, ex, kinds) := tapRead fe tap c s
    let x := { x with kinds := x.kinds ||| kinds }
    let x :=
      if ex then { x with excl := x.excl + 1 }
      else
        let k := phi / 1073741824
        let (as, h) := accAll s x.sig x.svk l p (2 * i + 1) (2 * q + 1) (waveC k) (-waveS k) x.accs offs
        { x with accs := as, used := x.used + 1, range := x.range || h }
    corrRun fe tap fcw cfw l offs m (c + tapDec (s.tapRate fe tap)) ((phi + (fcw % two36).toNat) % two36) ((p + cfw) % (l * two36)) x s

/-- A channel works through its samples from `segN` on that lie before cycle `e`; `segN` is the next sample's cycle. -/
def corrTo (e : Nat) (x : Chan) (s : State) : Chan × State :=
  let d := tapDec (s.tapRate x.fe x.tap)
  let g := sigRow x.sig
  let l := codeLen g x.svk
  let fcw := (x.slot.getD 1 0).toInt
  let cfw := (x.slot.getD 2 0).toNat
  let done := (x.segN - x.nextN) / d
  let phi := (((x.phi : Int) + fcw * done) % two36).toNat
  let p := (x.pos + cfw * done) % (l * two36)
  let (x, s) := corrRun x.fe x.tap fcw cfw l (corrOffsets x.slot x.runProf) (ceilDiv (e - x.segN) d) x.segN phi p x s
  ({ x with segN := x.segN + ceilDiv (e - x.segN) d * d }, s)

/-! ## Result formats (R198, R199) -/

/-- Mantissa of a value at exponent `e` (R199). -/
def mant (x : Int) (e : Nat) : Int := if e = 0 then x else (x + 2 ^ (e - 1)) / 2 ^ e

/-- The exponent of a group: the least from 0 to `top` that brings every part within `n` signed bits. -/
def groupExp (n top : Nat) (g : List (Int × Int)) : Nat :=
  let fits (e : Nat) : Bool := g.all (fun a =>
    decide (-(2 ^ (n - 1) : Int) ≤ mant a.1 e ∧ mant a.1 e ≤ 2 ^ (n - 1) - 1 ∧ -(2 ^ (n - 1) : Int) ≤ mant a.2 e ∧ mant a.2 e ≤ 2 ^ (n - 1) - 1))
  ((List.range (top + 1)).find? fits).getD top

/-- A packed word (R199). -/
def packed (a : Int × Int) (e : Nat) : Word := pair18 (mant a.1 e) (mant a.2 e)

/-- Words +5 to +47 of a result buffer, with the exponents ET and EP (R198, R199). -/
def sumWords (accs : List (Int × Int)) (wide prof : Bool) : List Word × Nat × Nat :=
  let trk := accs.take 6
  let n := trk.getD 5 (0, 0)
  let et := if wide then groupExp 18 15 [n] else groupExp 18 15 trk
  let bank := (accs.drop 6).take 32
  let ep := if prof then groupExp 18 15 bank else 0
  let t :=
    if wide then ((trk.take 5).map (fun a => [wdI a.1, wdI a.2])).flatten ++ [packed n et]
    else trk.map (fun a => packed a et) ++ List.replicate 5 0#36
  (t ++ (if prof then bank.map (fun a => packed a ep) else List.replicate 32 0#36), et, ep)

/-- First word of result buffer j mod 2 of channel `c` in the memories, and of mailbox slot j mod 2 (R189). -/
def kBuf (c j : Nat) : Nat := kCsm (c / 128) (128 * (c % 128) + 32 + 48 * (j % 2))
def kSlot (c j : Nat) : Nat := kCsm (c / 128) (128 * (c % 128) + 8 * (j % 2))
def kLoop (c : Nat) : Nat := kCsm (c / 128) (128 * (c % 128) + 16)

/-- Words read with the code's correction and no error handling. -/
def State.peekList (s : State) (k n : Nat) : List Word := (List.range n).map (fun i => s.peek (k + i))

/-- The control area's slot as the correlator reads it: none on an uncorrectable word, with the word's number (R207). -/
def slotRead (c j : Nat) : List Nat → List Word → State → State × (List Word ⊕ Nat)
  | [], ws, s => (s, .inl ws)
  | i :: is, ws, s =>
    match memRead (kSlot c j + i) (uCh c) s with
    | (s, .ok w) => slotRead c j is (ws ++ [w]) s
    | (s, _) => (s, .inr (8 * (j % 2) + i))

/-- R207: is a latched slot invalid? -/
def slotBad (sig : Nat) (ws : List Word) : Bool :=
  let g := sigRow sig
  let w0 := ws.getD 0 0
  let w5 := ws.getD 5 0
  let w6 := ws.getD 6 0
  let de := fld w5 28 24
  let dv := fld w5 23 18
  fld w0 16 7 != 0 || fld w5 35 29 != 0 || fld w6 35 21 != 0 || fld w0 6 0 == 0 || decide (100 < fld w0 6 0) || !lenOk g (fld w0 6 0)
    || ws.getD 2 0 == 0 || de == 0 || decide (16 < de) || decide (dv ≤ de) || decide (32 < dv) || fld w5 17 12 == 0 || decide (32 < fld w5 17 12)
    || fld w6 20 0 == 0 || decide (primLen g ≤ fld w6 20 0)

end Sys2Proof.Machine
end

