-- ==== Sys2Proof/Machine/Search.lean ====
section
/-! DEFINITION. Search.lean: what a search computes: its code space, cost, threshold and sums, and the dwells of a fall-back search (R148 to
R152, R157 to R165, R179). -/

namespace Sys2Proof.Machine

/-! ## Code space, cost and threshold (R149, R150, R157 to R159, R163, R164) -/

/-- The code-phase step in 2^-12 of a chip, or of a slot of a TDM signal (R149, R194). -/
def acqStep (g : Sig) : Nat := (if g.mode = 0 then 2048 else 1024) * (if g.tdm then 2 else 1)

/-- A signal that cannot be searched (R149). -/
def unsearchable (sig : Nat) : Bool := sig == 0x04 || sig == 0x85 || sig == 0x46 || sigSys sig == 7 || (sigOf sig).isNone

/-- T_COH is a whole multiple of T_p (R150). -/
def tcohOk (g : Sig) (tcoh : Nat) : Bool := tcoh != 0 && tcoh * codeHz g % (primLen g * 1000) == 0

/-- The replica includes the secondary code (R150). -/
def acqSec (g : Sig) (svk tcoh : Nat) : Bool := secLen g svk != 1 && tcoh * codeHz g != primLen g * 1000

/-- L of a search in 2^-12 chip (R150). -/
def acqLen (g : Sig) (svk tcoh : Nat) : Nat := primLen g * (if acqSec g svk tcoh then secLen g svk else 1) * 4096

/-- P: steps in one primary period. -/
def acqP (g : Sig) : Nat := primLen g * 4096 / acqStep g

/-- A code half-window of `cwin` 2^-4 chip in 2^-12 of the unit of a code position, which for a TDM signal is a slot, half a chip (R61, R182,
R194). -/
def windowOf (g : Sig) (cwin : Nat) : Nat := cwin * 256 * (if g.tdm then 2 else 1)

/-- Half-width of the code window in steps (R158). -/
def acqC (g : Sig) (cwin : Nat) : Nat := ceilDiv (windowOf g cwin) (acqStep g)

/-- The first primary period of a window and how many it overlaps: A (R150). -/
def acqPeriods (g : Sig) (svk tcoh code cwin : Nat) : Int × Nat :=
  if !acqSec g svk tcoh then (0, 1) else
  let n := secLen g svk
  if cwin = 0 then (0, n) else
  let w : Int := acqC g cwin * acqStep g
  let p : Int := primLen g * 4096
  let a := ((code : Int) - w) / p
  (a, min n (((code : Int) + w) / p - a + 1).toNat)

/-- J (R151). -/
def acqJ (span bin : Nat) : Nat := ceilDiv (span * 16) bin

/-- W: code phases tested (R158). -/
def acqW (g : Sig) (svk tcoh code cwin : Nat) : Nat :=
  let pa := acqP g * (acqPeriods g svk tcoh code cwin).2
  if cwin = 0 then pa else min pa (2 * acqC g cwin + 1)

/-- CELLS (R158). -/
def acqCells (g : Sig) (svk tcoh nnc code cwin span bin : Nat) : Nat :=
  acqP g * (acqPeriods g svk tcoh code cwin).2 * (2 * acqJ span bin + 1) * tcoh * nnc

/-- The part of e^x that its first `n` terms give. -/
def expPart (x : Rat) : Nat → Rat → Rat → Nat → Rat
  | 0, _, acc, _ => acc
  | n + 1, t, acc, k => expPart x n (t * x / (k + 1 : Nat)) (acc + t) (k + 1)

/-- R163 for a threshold γ = t × 2^-12: e^−γ × Σ γ^k/k! ≤ Pfa / cells, as a statement about fourth powers. -/
def threshOk (nnc pfa tested t : Nat) : Bool :=
  let g : Rat := (t : Rat) / 4096
  let sum := expPart g nnc 1 0 0
  decide (sum ^ 4 * (tested : Rat) ^ 4 * 10 ^ pfa ≤ expPart (4 * g) (64 + 12 * (t / 1024 + 1)) 1 0 0)

/-- The least number up to lo + 2^n from which on a monotone condition holds. -/
def leastFrom (f : Nat → Bool) : Nat → Nat → Nat
  | 0, lo => lo
  | n + 1, lo => if f (lo + 2 ^ n - 1) then leastFrom f n lo else leastFrom f n (lo + 2 ^ n)

/-- THRESH (R163). -/
def acqThresh (nnc pfa tested : Nat) : Nat := leastFrom (threshOk nnc pfa tested) 24 0

/-- CN0 of R164 in 2^-8 dB-Hz, and whether it is clamped. -/
def acqCn0 (peak nnc tcoh : Nat) : Int × Bool :=
  let d := 4096 * nnc
  let x : Nat × Nat := if d < 4096 * (peak - d) then ((peak - d) * 1000, d * tcoh) else (1000, 4096 * tcoh)
  let above (c : Int) : Bool :=
    let e := 2 * c - 1
    let up (n : Nat) : Nat := (n ^ 20) ^ 256
    if 0 ≤ e then decide (10 ^ e.toNat * up x.2 ≤ up x.1) else decide (up x.2 ≤ up x.1 * 10 ^ (-e).toNat)
  let c : Int := (leastFrom (fun k => !above ((k : Int) - 8192 + 1)) 16 0 : Int) - 8192
  if 32767 < c then (32767, true) else (c, false)

/-! ## The search (R151, R162) -/

/-- The replica of R151 at `num` / (4096 × hz) chips. -/
def acqChip (s : State) (g : Sig) (svk : Nat) (sec : Bool) (num hz : Nat) : Int :=
  let u := 4096 * hz
  let i := num / u
  let b : Int := if g.mode = 0 ∨ num % u * 2 < u then 1 else -1
  if g.tdm then (if (i % 2 == 1) != g.odd then 0 else pm (s.primChip g.id svk (i / 2 % g.prim)) * b)
  else (if sec then chipAt s g.id svk g.prim i else pm (s.primChip g.id svk (i % g.prim))) * b

/-- The samples of a word: I, Q and X of each of its four. -/
def wordSamples (w : Word) : List (Int × Int × Bool) :=
  ([0, 1, 2, 3] : List Nat).map (fun j => (sfld w (8 * j + 7) (8 * j + 4), sfld w (8 * j + 3) (8 * j), bit w (32 + j)))

/-- C of R151 over a block: `tau` in 2^-12 chip at its first sample. -/
def acqSum (s : State) (g : Sig) (svk : Nat) (sec : Bool) (l tau hz fcw : Nat) : List (Int × Int × Bool) → Nat → Nat → Int × Int → Int × Int
  | [], _, _, c => c
  | (i, q, x) :: rest, k, phi, c =>
    let c := if x then c else
      let r := acqChip s g svk sec ((tau * hz + k * codeHz g * 4096) % (l * hz)) hz
      let v := (2 * i + 1) * r
      let w := (2 * q + 1) * r
      let a := waveC (phi / 1073741824)
      let b := -waveS (phi / 1073741824)
      (c.1 + v * a - w * b, c.2 + v * b + w * a)
    acqSum s g svk sec l tau hz fcw rest (k + 1) ((phi + fcw) % two36) c

/-- P(i, j): the sum over the blocks of |C|^2. `fj` in 2^-12 Hz. -/
def acqPower (s : State) (j : Job) (tau : Nat) (fj : Int) (blocks : List (List (Int × Int × Bool))) : Nat :=
  let g := sigRow j.sig
  let hz := tapHz j.rate
  let l := acqLen g j.svk j.tcoh
  let fcw := (divRound (carrierHz g j.fcn * 68719476736 - j.ftap + fj * 16777216) hz % (two36 : Int)).toNat
  let one (p : Nat × List (Int × Int × Bool)) : Nat :=
    let dl := divRound ((p.1 : Int) * j.tcoh * codeHz g * fj) (1000 * carrierHz g j.fcn)
    let c := acqSum s g j.svk (acqSec g j.svk j.tcoh) l (((tau : Int) + dl) % (l : Int)).toNat hz fcw p.2 0 0 (0, 0)
    (c.1 * c.1 + c.2 * c.2).toNat
  ((((List.range blocks.length).zip blocks)).map one).sum

/-- Split into blocks of `n`. -/
def splitBlocks (n : Nat) : Nat → List (Int × Int × Bool) → List (List (Int × Int × Bool))
  | 0, _ => []
  | k + 1, l => l.take n :: splitBlocks n k (l.drop n)

/-- The first largest of a list of cells (code phase, bin, power). -/
def bestCell : List (Nat × Int × Nat) → Nat × Int × Nat → Nat × Int × Nat
  | [], b => b
  | c :: cs, b => bestCell cs (if b.2.2 < c.2.2 then c else b)

/-- Circular distance of two code phases. -/
def circ (l a b : Nat) : Nat := min ((a + l - b) % l) ((b + l - a) % l)

/-- What a job finds in its snapshot's samples: whether a block has too many excluded, and the values of R162. -/
def acqSearch (s : State) (j : Job) (smp : List (Int × Int × Bool)) : Bool × SearchOut :=
  let g := sigRow j.sig
  let n := j.tcoh * (tapHz j.rate / 1000)
  let blocks := splitBlocks n j.nnc smp
  let exc := blocks.map (fun b => (b.filter (fun x => x.2.2)).length)
  let excl := min 4095 (exc.foldl max 0 * 4096 / max 1 n)
  if exc.any (fun e => decide (n < 2 * e)) then (true, { SearchOut.none with excl := excl }) else
  let step := acqStep g
  let l := acqLen g j.svk j.tcoh
  let prim := primLen g * 4096
  let (q0, a) := acqPeriods g j.svk j.tcoh j.code j.cwin
  let start := (((j.code : Int) - (if j.cwin = 0 then 0 else acqC g j.cwin * step : Nat)) % (l : Int)).toNat
  let jj := acqJ j.span j.bin
  let bins : List Int := (List.range (2 * jj + 1)).map (fun k => (k : Int) - jj)
  let freq (b : Int) : Int := j.dopp + b * j.bin * 256
  let row (t : Nat) : List (Nat × Int × Nat) := bins.map (fun b => (t, b, acqPower s j t (freq b) blocks))
  let tested := (List.range (acqW g j.svk j.tcoh j.code j.cwin)).map (fun i => (start + i * step) % l)
  let computed := ((List.range a).map (fun k =>
    let q := ((q0 + k) * prim % (l : Int)).toNat
    (List.range (acqP g)).map (fun i => (q + (start + i * step) % prim) % l))).flatten
  let cells := (computed.map row).flatten
  let top := bestCell cells (0, 0, 0)
  let rest := cells.filter (fun c => decide (2 * step < circ l c.1 top.1) || decide (1 < (c.2.1 - top.2.1).natAbs))
  let sum := (rest.map (fun c => c.2.2)).sum
  let norm (p : Nat) : Nat := 4096 * j.nnc * p * rest.length / max 1 sum
  let tcells := (tested.map row).flatten
  let pk := bestCell tcells (start, -(jj : Int), 0)
  let chip := if g.tdm then 8192 else 4096
  let sec := bestCell (tcells.filter (fun c => decide (chip < circ l c.1 pk.1) && decide (1 < (c.2.1 - pk.2.1).natAbs))) (0, 0, 0)
  let fl := sum / max 1 rest.length
  let e := fl.log2 + 1 - 30
  (false, ⟨excl, pk.1, freq pk.2.1, min (norm pk.2.2) (two36 - 1), min (norm sec.2.2) (two36 - 1), fl / 2 ^ e, e⟩)

/-! ## Fall-back searches (R179) -/

/-- The code phase of the middle of a search's window at sample cycle `n`, extrapolated from its entry (R173). -/
def searchCode (j : Job) (n : Nat) : Nat :=
  let g := sigRow j.sig
  let fc := carrierHz g j.fcn * 4096
  let a : Int := (dtOfCycle n).toNat - (dtOfCycle j.entryN).toNat
  (((j.code : Int) + codeHz g * 4096 * a * (fc + j.dopp) / (fc * two36)) % (acqLen g j.svk j.tcoh : Int)).toNat

/-- The first code phase of a search's window, for its middle `mid`. -/
def windowStart (j : Job) (mid : Nat) : Nat :=
  let g := sigRow j.sig
  (((mid : Int) - (if j.cwin = 0 then 0 else acqC g j.cwin * acqStep g : Nat)) % (acqLen g j.svk j.tcoh : Int)).toNat

/-- Code phases and bins of a search (R158). -/
def searchW (j : Job) : Nat := acqW (sigRow j.sig) j.svk j.tcoh j.code j.cwin
def searchF (j : Job) : Nat := 2 * acqJ j.span j.bin + 1

/-- THRESH of a search with its total cells tested (R163). -/
def searchThresh (j : Job) : Nat := acqThresh j.nnc j.pfa (searchW j * searchF j)

/-- The bin of place `k` in the order 0, +1, −1, +2, …. -/
def binOrder (k : Nat) : Int := if k % 2 = 1 then ((k + 1) / 2 : Nat) else -((k / 2 : Nat) : Int)

/-- Blocks of 32 phases of a search. -/
def fbBlocks (j : Job) : Nat := max 1 (ceilDiv (searchW j) 32)

/-- The Doppler of a dwell, 2^-12 Hz. -/
def fbDopp (f : FbSearch) : Int := f.job.dopp + binOrder (f.dwell / fbBlocks f.job) * f.job.bin * 256

/-- The first of the 32 phases of a dwell, 2^-12 chip. -/
def fbPhase (f : FbSearch) : Nat :=
  (windowStart f.job (searchCode f.job f.dwellN) + 32 * (f.dwell % fbBlocks f.job) * acqStep (sigRow f.job.sig)) % acqLen (sigRow f.job.sig) f.job.svk f.job.tcoh

/-- Sample cycles in a block of T_COH. -/
def fbCoh (j : Job) : Nat := j.tcoh * 163680

/-- A block of T_COH of a dwell is complete: its powers join the dwell's, with the excluded share of the block. -/
def FbSearch.take (f : FbSearch) (accs : List (Int × Int)) (excl all : Nat) : FbSearch :=
  let p (i : Nat) : Nat := let a := accs.getD i (0, 0); (a.1 * a.1 + a.2 * a.2).toNat
  { f with blk := f.blk + 1, pows := (List.range 32).map (fun i => f.pows.getD i 0 + p (6 + i)), noise := f.noise + p 5,
           excl := max f.excl (min 4095 (excl * 4096 / max 1 all)) }

/-- The values of a dwell, normalised with the mean of the noise power over the dwells so far as the floor (R162, R179): step from the
window start, bin, S. -/
def FbSearch.values (f : FbSearch) : List (Nat × Int × Nat) :=
  let b := f.dwell % fbBlocks f.job
  let sum := f.nsum + f.noise
  (List.range (min 32 (searchW f.job - 32 * b))).map (fun i =>
    (32 * b + i, binOrder (f.dwell / fbBlocks f.job), 4096 * f.job.nnc * f.pows.getD i 0 * (f.ncnt + 1) / max 1 sum))

/-- The largest value of a search; ties go to the lowest code phase from the window start, then to the lowest Doppler (R162). -/
def bestStep : List (Nat × Int × Nat) → Nat × Int × Nat → Nat × Int × Nat
  | [], b => b
  | c :: cs, b => bestStep cs (if b.2.2 < c.2.2 ∨ (b.2.2 = c.2.2 ∧ (c.1 < b.1 ∨ (c.1 = b.1 ∧ c.2.1 < b.2.1))) then c else b)

/-- What a search reports of the values so far, its code phases referred to sample cycle `n`: the peak of `of_`, and the largest value of
`cells` more than a chip and more than a bin from it (R162, R165). -/
def fbReport (f : FbSearch) (n : Nat) (of_ cells : List (Nat × Int × Nat)) : SearchOut :=
  let j := f.job
  let g := sigRow j.sig
  let l := acqLen g j.svk j.tcoh
  let at_ (i : Nat) : Nat := (windowStart j (searchCode j n) + i * acqStep g) % l
  let pk := bestStep of_.tail (of_.headD (0, 0, 0))
  let chip := if g.tdm then 8192 else 4096
  let sec := bestStep (cells.filter (fun c => decide (chip < circ l (at_ c.1) (at_ pk.1)) && decide (1 < (c.2.1 - pk.2.1).natAbs))) (0, 0, 0)
  let fl := (f.nsum + f.noise) / max 1 (f.ncnt + 1)
  let e := fl.log2 + 1 - 30
  ⟨f.excl, at_ pk.1, j.dopp + pk.2.1 * j.bin * 256, min pk.2.2 (two36 - 1), min sec.2.2 (two36 - 1), fl / 2 ^ e, e⟩

/-! ## Results (R165, R185) -/

/-- The next sequence number after one: never zero (R165). -/
def nextSeq (w : Word) : Word := if w + 1#36 = 0 then 1 else w + 1#36

/-- Count a result's outcome for its front end, the histogram and the detections (R185). -/
def resultCount (j : Job) (s : State) : State :=
  let det := bit (j.res.getD 3 0) 31
  let n := j.fe
  let s := (s.cnt R.ACQ_JOBS_CNT).cnt (R.ACQ_FE_JOBS_CNT n)
  let s := if j.status = 0 ∧ !bit (s.reg R.ACQ_HIST_CTRL) 1 then s.cnt (R.ACQ_HIST (min 31 ((j.res.getD 6 0).toNat * 2 / (4096 * max 1 j.nnc)))) else s
  if det then ((s.cnt R.ACQ_DET_CNT).cnt (R.ACQ_FE_DET_CNT n)).setReg (R.ACQ_FE_LAST_DET_SEC n) (j.res.getD 1 0)
  else
    let s := s.cnt (R.ACQ_FE_MISS_CNT n)
    if j.host then s else { s with acq := { s.acq with misses := ⟨n, j.sig, j.svk, j.fcn, j.nomEnd⟩ :: s.acq.misses } }

/-- Replace the fall-back search on a channel. -/
def State.setFb (s : State) (f : FbSearch) : State :=
  { s with acq := { s.acq with fb := s.acq.fb.map (fun x => if x.chan = f.chan then f else x) } }

/-- A fall-back search ends: its result record, referred to the first sample of its last dwell (R165, R179). Its channel is the caller's. -/
def fbClose (f : FbSearch) (det : Bool) (o : SearchOut) (s : State) : State :=
  let j := f.job
  let (cn, rg) := acqCn0 o.peak j.nnc j.tcoh
  let seq := s.reg R.ACQ_JOB_SEQ
  let j := { j with seq := seq, startN := f.dwellN, nomEnd := f.dwellN + fbCoh j * j.nnc, cells := 0 }
  let j := { j with res := jobWords j 0 2 det rg (bitsS 16 cn) (searchThresh j) (searchW j * searchF j) o }
  let s := s.setReg R.ACQ_JOB_SEQ (nextSeq seq)
  let s := record j.ring 7 (j.seq :: j.res) (resultCount j s)
  let s := { s with acq := { s.acq with fb := s.acq.fb.filter (fun x => x.chan != f.chan), fbDone := s.acq.fbDone + 1 } }
  s.cnt R.ACQ_FB_CNT

end Sys2Proof.Machine
end

