-- ==== Sys2Proof/Machine/Wings.lean ====
section
/-! DEFINITION. Wings.lean: wings, placement, assignment, tokens, integrations, residue faults, moves and releases of correlator
channels (R17 to R21, R32, R33, R186 to R220). -/

namespace Sys2Proof.Machine

/-! ## Which signal fits where (R69, R128) -/

/-- Half-width B of a signal in Hz (R69). -/
def halfWidth (g : Sig) : Nat :=
  match g.mode with
  | 0 => if g.tdm then 2 * g.chip else g.chip
  | 1 => if g.id = 0x62 ∨ g.id = 0xA2 then 7161000 else 2046000
  | 5 => 25575000
  | _ => 7161000

/-- R69 for a signal on a front end. -/
def sigFits (n : Nat) (g : Sig) (fcn : Nat) (s : State) : Bool :=
  let d := (32 * carrierHz g fcn - s.loAct n).natAbs
  decide (2 * (d + 32 * halfWidth g) ≤ 32 * s.bwHz n) && decide (32000000 ≤ d)

/-- The tap centre in 2^-36 Hz (R126). -/
def tapCentre (n t : Nat) (s : State) : Int := (s.loAct n : Int) * 2147483648 + (s.reg (R.CHZ_TAP_FCW n t)).toInt * 163680000

/-- R128 for a signal on a tap; an offset of at most half the tap centre's resolution fs / 2^36 counts as none (DEDUCED from the
worked examples; notes/assumptions/67.md). -/
def tapCarries (n t : Nat) (g : Sig) (fcn : Nat) (s : State) : Bool :=
  let r := tapHz (s.tapRate n t)
  let rs := tapHz g.rate
  let d := (carrierHz g fcn * 68719476736 - tapCentre n t s).natAbs
  decide (rs ≤ r) && (decide (d ≤ 81840000) || decide (5 * d ≤ 2 * (r - rs) * 68719476736))

/-- FCW for a Doppler in 2^-12 Hz (R211), and CFW. -/
def fcwOf (n t : Nat) (g : Sig) (fcn : Nat) (dopp : Int) (s : State) : Word :=
  wdI (divRound (carrierHz g fcn * 68719476736 + dopp * 16777216 - tapCentre n t s) (tapHz (s.tapRate n t)))
/-- CFW for a Doppler in 2^-12 Hz (R211). -/
def cfwOf (n t : Nat) (g : Sig) (fcn : Nat) (dopp : Int) (s : State) : Word :=
  let fc := carrierHz g fcn * 4096
  wdI (divRound (codeHz g * (fc + dopp) * 68719476736) (fc.toNat * tapHz (s.tapRate n t)))

/-- A code phase (2^-12 chip at REF) extrapolated to an entry, in 2^-12 chip (R173). -/
def entryCode (g : Sig) (fcn code : Nat) (dopp : Int) (ref entry : Dt) : Int :=
  let fc := carrierHz g fcn * 4096
  let a : Int := entry.toNat - ref.toNat
  (code : Int) + codeHz g * 4096 * a * (fc + dopp) / (fc * 68719476736)

/-- The position it has there, modulo L (R211). -/
def entryPos (g : Sig) (svk fcn code : Nat) (dopp : Int) (ref entry : Dt) : Nat :=
  (entryCode g fcn code dopp ref entry % (codeLen g svk * 4096 : Nat)).toNat

/-! ## Capacity and placement (R187, R214, R32) -/

/-- The state of a wing (R188). -/
def State.wgState (s : State) (w : Nat) : Nat := s.rf (R.WG_STATE w) 1 0
/-- Has sample time not yet reached the boundary at which a channel's units are freed (R213, R216)? -/
def Chan.draining (x : Chan) (s : State) : Bool := x.cond == 0 && decide (calClock x.fe s < x.drainN)
/-- Units held in a wing. -/
def wgHeld (w : Nat) (s : State) : Nat :=
  ((s.chans.filter (fun p => p.1 / 128 == w && (p.2.cond != 0 || p.2.draining s))).map (fun p => p.2.units)).sum
/-- Channels assigned in a wing. -/
def wgCount (w : Nat) (s : State) : Nat := (s.chans.filter (fun p => p.1 / 128 == w && p.2.cond != 0)).length
/-- A channel that can be assigned. -/
def chFree (c : Nat) (s : State) : Bool :=
  s.wgState (c / 128) == 2 && (s.chan c).cond == 0 && !(s.chan c).draining s && !s.isRetired (uCh c)
/-- Units of a wing free for automatic placement: 512 − RESERVE − units held. -/
def wgAuto (w : Nat) (s : State) : Nat := 512 - s.rf (R.WG_CFG w) 17 8 - wgHeld w s
/-- The lowest free channel of a wing. -/
def wgLowest (w : Nat) (s : State) : Option Nat := ((List.range 128).map (fun k => 128 * w + k)).find? (fun c => chFree c s)

/-- Place automatically among wings (R214). -/
def placeIn (cost : Nat) (s : State) : List Nat → Option Nat
  | [] => none
  | w :: ws =>
    match wgLowest w s with
    | some c => if s.wgState w = 2 ∧ cost ≤ wgAuto w s then some c else placeIn cost s ws
    | none => placeIn cost s ws

/-- R214: the wings in ascending order; for a fall-back search only those that allow it. -/
def placeAuto (cost : Nat) (fb : Bool) (s : State) : Option Nat :=
  placeIn cost s ((List.range 16).filter (fun w => !fb || bit (s.reg (R.WG_CFG w)) 0))

/-- R214 with a channel named: its wing's units count RESERVE as free. -/
def placeNamed (c cost : Nat) (s : State) : Option Nat :=
  if chFree c s && decide (wgHeld (c / 128) s + cost ≤ 512) then some c else none

/-- R32: from the channel's own wing on, ascending modulo 16. -/
def migrateTarget (c cost : Nat) (s : State) : Option Nat := placeIn cost s ((List.range 16).map (fun i => (c / 128 + i) % 16))

/-! ## Wing states (R188) -/

/-- A wing changes state (R188). -/
def wgSetState (w v : Nat) (s : State) : State :=
  let o := s.wgState w
  if o = v then s else
  let s := (s.setF (R.WG_STATE w) 1 0 v).setDt (R.WG_STATE_SEC w) (R.WG_STATE_FRAC w) s.dt
  keepSync (raise 0x500 0 (uWg w) [wd o, wd v] s)

/-- The firmware image that runs, as Config.imageWord names images: 2 for the ROM firmware, else 3 plus its CRC-32. -/
def State.fwSlot (s : State) : Nat :=
  if s.cur.runningRom then 2 else 3 + (if s.cur.running = 0 then s.nvs.slotA.crc else s.nvs.slotB.crc).toNat

/-- Load the vendor image of core `c` into `n` words from index `k`. -/
def loadImage (c k n : Nat) (s : State) : State :=
  storeList k ((List.range n).map (fun i => Config.imageWord s.fwSlot c i)) s

/-- Enable a wing: its memories are filled, the vendor loop program is loaded below the user partition, the core starts (R188). -/
def wgEnable (w : Nat) (s : State) : State :=
  if s.wgState w ≠ 0 then s else
  let s := ((s.zeroMem (kWim w 0) 16384).zeroMem (kWdm w 0) 32768).zeroMem (kCsm w 0) 16384
  let s := loadImage w (kWim w 0) 12288 s
  let s := { s with loop := { s.loop with user := tset (fun _ => ([] : List Word)) s.loop.user w [], hookRun := s.loop.hookRun.filter (fun p => p.1 != w) } }
  wgSetState w 1 (startCore w s)

/-- Disable an ON wing with no channel assigned: the core stops and memory contents are lost. -/
def wgDisable (w : Nat) (s : State) : State :=
  if s.wgState w ≠ 2 ∨ wgCount w s ≠ 0 then s else
  let s := ((s.zeroMem (kWim w 0) 16384).zeroMem (kWdm w 0) 32768).zeroMem (kCsm w 0) 16384
  wgSetState w 0 (s.setCore w ApCore.off)

/-- A write to WGw_CTRL: what the command would refuse or park is ignored. -/
def wgCtrl (w v : Nat) (s : State) : State := if v % 2 = 1 then wgEnable w s else if v / 2 % 2 = 1 then wgDisable w s else s

/-- WING_CORE_READY: a STARTING wing becomes ON. -/
def execWingCoreReady (w : Fin 16) (s : State) : Host.Outcome State Fault Refusal :=
  if s.wgState w = 1 then .next (wgSetState w 2 s) else .next s

/-! ## Assignment records (R217) -/

/-- Word 1 of what names a channel's signal, satellite and inputs (R210). -/
def Chan.word1 (x : Chan) : Nat := sigWord x.sig x.svk x.fcn x.fe x.tap

/-- SIG and SVK in one event parameter. -/
def Chan.sigSvk (x : Chan) : Word := wd (sigWord x.sig x.svk 0 0 0)

/-- Write a channel-assignment record; `pos` is the position in 2^-12 chip and `from_` the channel moved from. -/
def asgRecord (c action : Nat) (x : Chan) (d : Dt) (pos : Nat) (dopp : Int) (from_ : Option Nat) (s : State) : State :=
  if x.ring = 0 then s else
  let q := s.acq.asgSeq
  let s := { s with acq := { s.acq with asgSeq := q + 1#36 } }
  let f := from_.getD 0
  record x.ring 0x7
    ([q, wd x.word1, dtSec d, dtFrac d,
      wd (0xF * 4294967296 + action * 268435456 + b2n x.sched * 134217728 + b2n x.direct * 67108864 + b2n x.prof * 33554432 + b2n x.wide * 16777216
        + b2n x.freerun * 8388608 + c * 4096 + x.tag % 4096),
      wd (pos % two36), wdI dopp,
      wd (b2n x.prov * 16384 + pos / two36 % 2 * 8192 + b2n x.acqValid * 4096 + b2n from_.isSome * 2048 + f),
      x.gen, x.acqSeq, wd x.units] ++ List.replicate 5 0#36) s

/-! ## Sample time, lag (R17) -/

/-- The last sample cycle written for a channel's tap, and the first instant at which the tap produces no sample once it has
stopped. -/
def chNewest (x : Chan) (s : State) : Option Nat := (s.tap x.fe x.tap).newest

/-- The oldest sample a channel still needs. -/
def chNeed (x : Chan) : Nat := if x.running then x.segN else x.nextN

/-- A tap that has resumed has stopped all the same for a channel that still needs samples from before (R216). -/
def chStop (x : Chan) (s : State) : Option Nat :=
  let tp := s.tap x.fe x.tap
  if decide (2 ≤ s.tapState x.fe x.tap) then (if chNeed x < tp.firstN then tp.stopN else none) else some (tp.stopN.getD 0)

/-- A channel's lag in sample cycles. -/
def chLag (x : Chan) (s : State) : Nat := (chNewest x s).getD (chNeed x) - chNeed x

/-- Is the sample of cycle `n` in the buffer? -/
def chHas (x : Chan) (n : Nat) (s : State) : Bool :=
  (match chNewest x s with
    | some c => decide (n ≤ c)
    | none => false) || (match chStop x s with
    | some e => decide (n < e)
    | none => false)

/-! ## Assignment (R209 to R211) -/

/-- The plan generation that jobs and assignments entering at sample cycle `n` use (R171, R217). -/
def State.planAt (s : State) (n : Nat) : Option Plan :=
  match s.acq.plan with
  | some p => if p.fromN ≤ n then some p else s.acq.planOld
  | none => none

/-- The number of that generation, zero for none. -/
def State.genAt (s : State) (n : Nat) : Word :=
  match s.planAt n with
  | some p => p.gen
  | none => 0

/-- Channel `c` is taken for an assignment at its grid point: its identity and units (R187, R209, R214). -/
def chanTake (a : Assign) (c : Nat) (s : State) : State :=
  s.setChan c { Chan.free with
    cond := 1, sig := a.sig, svk := a.svk, fcn := a.fcn, fe := a.fe, tap := a.tap, ring := a.ring, tag := a.tag, sched := a.sched, direct := a.direct,
    prov := a.prov, gen := s.genAt a.n, acqSeq := a.acqSeq, acqValid := a.acqValid, units := tapUnits (s.tapRate a.fe a.tap), prof := a.prof,
    wide := a.wide, freerun := a.freerun, entryN := a.n, order := a.order, nextN := a.n }

/-- An assignment waits to enter: at once with the channel it has been given, or with its choice still to be made at its grid point. -/
def doAssign (a : Assign) (s : State) : State :=
  let s := { s with assignQ := s.assignQ ++ [a] }
  match a.chan with
  | some c => chanTake a c s
  | none => s

/-- The default spacings and NOFS of a parameter set in mailbox words +5 and +6 (R222). -/
def slotTail (g : Sig) (ps : List Word) : List Word :=
  let n := fld (ps.getD 4 0) 20 0
  [setFld (ps.getD 3 0) 35 29 0, wd (if n = 0 then primLen g / 2 else n)]

/-- The values of a parameter set at reset (R222): set 1 has its own column. -/
def loopDefaults (k : Nat) : List Word :=
  let one := decide (k = 1)
  [wd (k * 33554432 + 16777216 + 2097152 + 20 * 16384 + 15 * 1024), wd ((if one then 100 else 150) * 134217728 + 250 * 262144 + 100 * 512),
   wd ((if one then 10 else 50) * 67108864 + 200 * 65536 + 205 * 256 + 100), wd (4 * 16777216 + 8 * 262144 + 2 * 4096 + bitsS 12 (-32)), 0,
   wd (3000 * 4194304 + 1000 * 256 + 128), wd (2000 * 1048576 + 200 * 64)]

/-- A parameter set as it applies to an integration whose last sample is at `d` (R222, R224). -/
def State.loopSetAt (s : State) (k : Nat) (d : Dt) : List Word :=
  s.loop.chg.foldl (fun ws g => if g.chan.isNone && g.hook.isNone && g.set == k && dtGe d g.at_ then g.words else ws) (tget loopDefaults s.loop.sets k)

/-- The accumulated carrier phase of R253 at sample cycle `n`, in 2^-36 cycle: the replica's frequency less the carrier's, integrated since
integration 0; `nco` is the part of the carrier words. -/
def carrierPhase (x : Chan) (n : Nat) (nco : Int) (s : State) : Int :=
  nco + divRound ((tapCentre x.fe x.tap s - carrierHz (sigRow x.sig) x.fcn * 68719476736) * ((n : Int) - x.entryN)) 163680000

/-- The words 16 to 31 of a channel as they stand at sample cycle `at_`, where `nco` is the part of the carrier words in its accumulated
carrier phase (R242). -/
def loopWords (x : Chan) (at_ : Nat) (nco : Int) (s : State) : List Word :=
  let ms (n : Nat) : Nat := n / 163680
  let acc : Nat := (divRound (carrierPhase x at_ nco s + x.half) 4096 % (2 ^ 72 : Int)).toNat
  [wd (x.state * 4294967296 + x.set * 536870912 + b2n x.fll * 268435456 + b2n x.sync * 134217728 + b2n x.frame * 67108864 + b2n x.hcRes * 33554432
      + b2n x.hcAdded * 16777216 + b2n x.lli * 8388608 + b2n x.bwLim * 4194304 + b2n x.noSync * 2097152 + b2n x.hookOff * 1048576
      + min x.consec 255 * 4096 + min x.bump 4095),
   wd (acc / two36), wd (acc % two36), x.vel, x.acc, wdI x.dopp0,
   wd (match x.lockN with
     | some n => min (ms (at_ - n)) 68719476735
     | none => 0), x.pAvg, x.nAvg, x.num, x.den, x.bal, x.search,
   wd (min (if x.state < 2 then 0 else ms (at_ - x.pullN)) 262143 * 262144 + min (match x.coastN with
     | some n => ms (at_ - n)
     | none => 0) 262143), wd (min x.n30 68719476735)]

/-- Commit the loop-state words; word 31 belongs to the user hook. -/
def loopCommit (c at_ : Nat) (nco : Int) (s : State) : State := storeList (kLoop c) (loopWords (s.chan c) at_ nco s) s

/-- Post a token: the other words of the slot, then the token word (R204). -/
def postSlot (c j : Nat) (ws : List Word) (s : State) : State := storeList (kSlot c j) (ws.take 1) (storeList (kSlot c j + 1) ((ws.drop 1).take 6) s)

/-- The token word of integration `j`. -/
def tokenWord (j : Nat) (stop prof wide : Bool) (len : Nat) : Word :=
  wd (j % 65536 * 1048576 + b2n stop * 524288 + b2n prof * 262144 + b2n wide * 131072 + len)

/-- An assignment enters on channel `c` (R211): position, NCO words, tokens 0 and 1, loop state, record. -/
def assignEnter (a : Assign) (c : Nat) (s : State) : State :=
  let x := s.chan c
  if x.cond = 0 || x.entered then s else
  let g := sigRow a.sig
  let p := entryPos g a.svk a.fcn a.code a.dopp a.ref (dtOfCycle a.n)
  let pos := if a.prim then p % (primLen g * 4096) else p
  let set := tget (fun _ => 0) s.loop.dflt a.fe
  let tail := slotTail g (s.loopSetAt set (dtOfCycle a.n))
  let fcw := fcwOf a.fe a.tap g a.fcn a.dopp s
  let cfw := cfwOf a.fe a.tap g a.fcn a.dopp s
  let s := s.zeroMem (kCsm (c / 128) (128 * (c % 128))) 128
  let s := postSlot c 1 ([tokenWord 1 false a.prof a.wide 1, fcw, cfw, 0, 0] ++ tail) s
  let s := postSlot c 0 ([tokenWord 0 false a.prof a.wide 1, fcw, cfw, 0, 0] ++ tail) s
  let per := if a.amb < 2 then 0 else (entryCode g a.fcn a.code a.dopp a.ref (dtOfCycle a.n) / (codeLen g a.svk * 4096 : Nat)).toNat
  let x := { x with entered := true, pos := pos * 16777216, set := set, state := 1, dopp0 := a.dopp, nextN := a.n, breakN := a.n,
                    per := per, amb := a.amb, week := decide (2 ≤ a.amb) }
  let s := { s with loop := { s.loop with chg := s.loop.chg.filter (fun g => g.chan != some c) } }
  let s := loopCommit c a.n 0 ((s.setChan c x).cnt (R.WG_ASSIGN_CNT (c / 128)))
  asgRecord c 0 x (dtOfCycle a.n) pos a.dopp none s

/-- The clock that paces a front end's samples has reached a cycle. -/
def reached (fe n : Nat) (s : State) : Bool := s.fsOn && decide (n ≤ calClock fe s)

/-- R153, R209: a grid point older than the oldest sample held for a tap. -/
def gridTooOld (fe tap g : Nat) (s : State) : Bool :=
  let tp := s.tap fe tap
  match tp.newest with
  | none => false
  | some c => decide (g < max tp.firstN (c + tapDec (s.tapRate fe tap) - 327680))

/-- Do commands of the host that assign at a grid point up to `n` still wait to choose their channels before the scheduler does (R209)? -/
def hostAhead (n : Nat) (s : State) : List HeldCmd → List HeldCmd → Bool
  | _, [] => false
  | before, h :: t =>
    (h.op == 0x500 && (match h.bnd with
      | some b => decide (b ≤ n)
      | none => false) && !blockedBy h.units (before ++ s.cmdPark ++ s.heldMoves)) || hostAhead n s (before ++ [h]) t

/-- The assignment of a list with the earliest grid point, the first of several. -/
def firstAssign : List Assign → Option Assign
  | [] => none
  | a :: as => match firstAssign as with
    | none => some a
    | some b => if b.n < a.n then some b else some a

/-- CHANNEL_ASSIGNMENT_ENTRY: of the assignments whose grid point has come the first one enters; one of the scheduler's takes its channel now,
after those of the host (R209, R211, R214). -/
def execChannelAssignmentEntry (s : State) : Host.Outcome State Fault Refusal :=
  match firstAssign (s.assignQ.filter (fun a => reached a.fe a.n s)) with
  | none => .next s
  | some a =>
    let s' : State := { s with assignQ := s.assignQ.erase a }
    match a.chan with
    | some c => .next (assignEnter a c s')
    | none =>
      if hostAhead a.n s [] s.cmdPend then .next s
      else if gridTooOld a.fe a.tap a.n s then .next { s' with assignQ := s'.assignQ ++ [{ a with n := gridNext (calClock a.fe s) }] }
      else match placeAuto (tapUnits (s.tapRate a.fe a.tap)) false s with
      | none => .next (s'.cnt (R.WG_REFUSE_CNT 0))
      | some c => .next (assignEnter a c (chanTake a c s'))

/-- A channel that a command meets before its assignment has entered enters first. -/
def ensureEntered (c : Nat) (s : State) : State :=
  match s.assignQ.find? (fun a => a.chan == some c) with
  | none => s
  | some a => assignEnter a c { s with assignQ := s.assignQ.erase a }

/-! ## Release (R215, R216, R217) -/

/-- A CH_MOVE that waits is answered with a status; its effect is not had. -/
def moveDrop (c st : Nat) (s : State) : State :=
  let x := s.chan c
  match x.mv with
  | none => s
  | some m => reply ⟨m.op, m.pk, m.cidx, m.late, false, m.at_, [], none⟩ st 0 [] (s.setChan c { x with mv := none })

/-- A channel that is given up at cycle `n`: its units are held up to that boundary (R213, R216). -/
def Chan.gone (x : Chan) (n : Nat) : Chan := { Chan.free with fe := x.fe, tap := x.tap, units := x.units, drainN := n }

/-- The fall-back search on channel `c`. -/
def State.fbOf (s : State) (c : Nat) : Option FbSearch := s.acq.fb.find? (fun f => f.chan == c)

/-- A fall-back search that its channel's release ends, ends with DET 0 (R165, R216). -/
def fbDrop (c : Nat) (s : State) : State :=
  match s.fbOf c with
  | none => s
  | some f => fbClose f false (fbReport f f.dwellN f.cells f.cells) s

/-- A channel is released at the boundary of cycle `n`: record, counter, units; what its records still need is kept. -/
def chanRelease (c action n : Nat) (s : State) : State :=
  let s := fbDrop c (moveDrop c 3 s)
  let x := s.chan c
  let s := (asgRecord c action x (dtOfCycle n) 0 0 none s).cnt (R.WG_RELEASE_CNT (c / 128))
  let s := { s with obs := { s.obs with gone := s.obs.gone ++ [(c, n, x)] }, assignQ := s.assignQ.filter (fun a => a.chan != some c) }
  s.setChan c (x.gone n)

/-! ## The start of an integration (R200, R201, R203, R206 to R208) -/

/-- Samples of an integration of `len` units from a position (2^-36 chip) at a code word (R201). -/
def integSamples (g : Sig) (pos len cfw : Nat) : Nat :=
  let u := unitLen g * two36
  ceilDiv ((pos / u + len) * u - pos) (max 1 cfw)

/-- Position and carry of code periods after a jump in 2^-12 chip (R193). -/
def jumpPos (g : Sig) (svk pos : Nat) (cj : Int) : Nat × Int :=
  let l : Int := (codeLen g svk * two36 : Nat)
  let p := (pos : Int) + cj * 16777216
  ((p % l).toNat, p / l)

/-- The profile banks are shed (R208, R468). -/
def State.profShed (s : State) : Bool := decide (2 ≤ s.rf R.CUR_THERM_STAT 34 33)

/-- Integration `j` of channel `c` begins with the words of a slot; `td` when it runs without a token. -/
def integBegin (c : Nat) (ws : List Word) (td : Bool) (s : State) : State :=
  let x := s.chan c
  let g := sigRow x.sig
  let pj := if td then 0 else (ws.getD 3 0).toNat
  let cj : Int := if td then 0 else (ws.getD 4 0).toInt
  let (pos, carry) := jumpPos g x.svk x.pos cj
  let w0 := ws.getD 0 0
  let n := integSamples g pos (fld w0 6 0) (ws.getD 2 0).toNat
  let prof := bit w0 18 && !s.profShed
  let phi := (x.phi + pj) % two36
  let ci := pos / two36
  let sec := if g.tdm then 0 else ci / primLen g
  let s := storeList (kBuf c x.j + 1) ([0, wd phi, wd (ci % primLen g * 2048 + sec), wd (pos % two36)] ++ List.replicate 43 0#36) s
  let s := s.store (kBuf c x.j) (wd (x.j % 65536 * 1048576 + b2n td * 65536))
  let x := { x with
    running := true, cond := if td then 4 else 2, slot := ws, phi := phi, pos := pos, per := ((x.per : Int) + carry).toNat, endN := x.nextN + n * tapDec (s.tapRate x.fe x.tap),
    segN := x.nextN, accs := List.replicate (if prof then 38 else 6) (0, 0), used := 0, excl := 0, kinds := 0, range := false, runProf := prof,
    runWide := bit w0 17, runTd := td, lastProf := prof, waited := false }
  let s := s.setChan c x
  if !td then s else
  let s := s.cnt (R.WG_TD_CNT (c / 128))
  if x.tdSaid = some (dtSec (dtOfCycle x.nextN)) then s
  else raise 0x50A 0 (uCh c) [wd x.j] (s.setChan c { x with tdSaid := some (dtSec (dtOfCycle x.nextN)) })

/-- A slot or control area that cannot be used: the buffer says INVALID and DONE, and the channel is released there (R207). -/
def integInvalid (c action : Nat) (s : State) : State :=
  let x := s.chan c
  let s := storeList (kBuf c x.j) (wd (x.j % 65536 * 1048576 + 524288 + 262144) :: List.replicate 47 0#36) s
  chanRelease c action x.nextN (pendLine (c / 128) 1 (s.cnt (R.WG_INVALID_CNT (c / 128))))

/-- The configurations that commands set from an integration on, in order (R215). -/
def cfgTake (c : Nat) (s : State) : State :=
  let x := s.chan c
  let y := (x.cfgAt.filter (fun q => decide (q.1 ≤ x.j))).foldl (fun (y : Chan) q => { y with prof := q.2.1, wide := q.2.2.1, freerun := q.2.2.2 }) x
  if x.cfgAt.isEmpty then s else s.setChan c { y with cfgAt := x.cfgAt.filter (fun q => decide (x.j < q.1)) }

/-- An uncorrectable word `k` of the control area (R207); results still to be processed are processed first. -/
def slotFail (c k : Nat) (s : State) : State :=
  if (s.chan c).proc < (s.chan c).j then s else
  integInvalid c 8 (raise 0x507 2 (uCsm (c / 128)) [wd c, wd k] (s.sticky (R.WG_STATUS (c / 128)) 6))

/-- The channel reads its token at the first sample of integration j, and latches the whole slot, waits, runs free or is released; `again`
when it has waited (R203, R206, R207). -/
def tokenRead (c : Nat) (again : Bool) (s : State) : State :=
  let s := cfgTake c s
  let x := s.chan c
  let w := c / 128
  match slotRead c x.j [0] [] s with
  | (s, .inr k) => slotFail c k s
  | (s, .inl t) =>
    let w0 := t.getD 0 0
    if fld w0 35 20 = x.j % 65536 then
      match slotRead c x.j [1, 2, 3, 4, 5, 6] t s with
      | (s, .inr k) => slotFail c k s
      | (s, .inl ws) =>
        if slotBad x.sig ws then
          if x.proc < x.j then s else
          integInvalid c 7 (raise 0x506 2 (uCh c) [wd x.j, w0] (s.sticky (R.WG_STATUS w) 5))
        else if bit w0 19 then
          if x.proc < x.j then s else
          let act := match x.relAt with
            | some (_, a) => a
            | none => 2
          chanRelease c act x.nextN s
        else integBegin c ws false s
    else if x.freerun then integBegin c x.slot true s
    else if again then s
    else (s.setChan c { x with cond := 3, waited := true }).cnt (R.WG_TOKEN_WAIT_CNT w)

/-- May a channel begin its next integration now? A move waiting at that boundary, or a release with results still to be processed,
holds it. -/
def startable (c : Nat) (s : State) : Bool :=
  let x := s.chan c
  x.cond != 0 && x.entered && !x.running && (match x.mv with
    | some m => x.j != m.j
    | none => true)

/-- A block of T_COH of a fall-back search begins on its channel (R179): the profile bank at the step of R149 on the 32 phases of the dwell,
the other spacings those of the default set. -/
def fbBegin (c : Nat) (f : FbSearch) (s : State) : State :=
  let x := s.chan c
  let j := f.job
  let g := sigRow j.sig
  if j.nnc ≤ f.blk then s else
  let tail := slotTail g (s.loopSetAt (tget (fun _ => 0) s.loop.dflt j.fe) (dtOfCycle x.nextN))
  let w5 := setFld (setFld (tail.getD 0 0) 17 12 (acqStep g / 256)) 11 0 0
  let cj : Int := if f.blk = 0 then divRound ((fbPhase f : Int) * 16777216 - x.pos) 16777216 else 0
  let ws := [tokenWord x.j false true false (max 1 (min 100 (j.tcoh * codeHz g / (1000 * unitLen g)))), fcwOf j.fe j.tap g j.fcn (fbDopp f) s,
    cfwOf j.fe j.tap g j.fcn (fbDopp f) s, 0, wdI cj, w5, tail.getD 1 0]
  let s := integBegin c ws false s
  s.setChan c { s.chan c with endN := x.nextN + fbCoh j }

/-- INTEGRATION_START: the first sample of the channel's next integration has come (R203). -/
def execIntegrationStart (c : Fin 2048) (s : State) : Host.Outcome State Fault Refusal :=
  let x := s.chan c
  let held := x.fb.isNone && decide (x.proc < x.j)
  if !startable c s || x.cond == 3 then .next s else
  match x.stopAct with
  | some a => if held then .next s else .next (chanRelease c a x.nextN s)
  | none =>
    if chHas x x.nextN s then (match s.fbOf c with
      | some f => .next (fbBegin c f s)
      | none => .next (tokenRead c false s))
    else if (chStop x s).isSome then (if held then .next s else .next (chanRelease c 6 x.nextN s))
    else .next s

/-- TOKEN_LATCH: a waiting channel reads its slot again (R203). -/
def execTokenLatch (c : Fin 2048) (s : State) : Host.Outcome State Fault Refusal :=
  if startable c s && (s.chan c).cond == 3 then .next (tokenRead c true s) else .next s

/-! ## The end of an integration (R200, R201, R216) -/

/-- The end of the integration in progress: its unit boundary, or the instant at which the tap stops. -/
def endEff (x : Chan) (s : State) : Nat :=
  match chStop x s with
  | some e => min x.endN (max e x.nextN)
  | none => x.endN

/-- State of the NCOs after `n` samples (R192, R193). -/
def ncoAfter (n : Nat) (x : Chan) : Chan :=
  let g := sigRow x.sig
  let l := codeLen g x.svk * two36
  let fcw := (x.slot.getD 1 0).toInt
  let cfw := (x.slot.getD 2 0).toNat
  { x with phi := (((x.phi : Int) + fcw * n) % two36).toNat, pos := (x.pos + cfw * n) % l, per := x.per + (x.pos + cfw * n) / l, nco := x.nco + fcw * n }

/-- Greatest lag of a wing. -/
def lagNote (c : Nat) (s : State) : State :=
  let x := s.chan c
  s.maxF (R.WG_LAG_MAX (c / 128)) 18 0 (min (chLag x s) 524287)

/-- Write the result of integration j, which ends at cycle `e`, and go on to j + 1; `flags` holds INVALID and OVERRUN. -/
def integFinish (c e flags : Nat) (s : State) : State :=
  let x := s.chan c
  let d := tapDec (s.tapRate x.fe x.tap)
  let all := (e - x.nextN) / d
  let bad := flags != 0 || all == 0
  let (ws, et, ep) := sumWords x.accs x.runWide x.runProf
  let hdr := x.j % 65536 * 1048576 + 524288 + b2n bad * 262144 + flags / 2 % 2 * 131072 + b2n x.runTd * 65536
    + (b2n (tbit x.kinds 3) * 8 + b2n (tbit x.kinds 2) * 4 + b2n (tbit x.kinds 1) * 2 + b2n (tbit x.kinds 0)) * 4096
    + (if bad then 0 else et * 256 + ep * 16) + b2n x.runWide * 8 + b2n x.runProf * 4 + (if bad then 0 else b2n x.range * 2)
  let w1 := wd (min 4095 (if all = 0 then 0 else x.excl * 4096 / all) * 16777216 + x.used % 16777216)
  let s := s.store (kBuf c x.j + 1) w1
  let s := storeList (kBuf c x.j + 5) (if bad then List.replicate 43 0#36 else ws) s
  let s := pendLine (c / 128) 1 (s.store (kBuf c x.j) (wd hdr))
  let s := if bad then s.cnt (R.WG_INVALID_CNT (c / 128)) else s
  let k : Contrib := ⟨x.j, x.nextN, e, x.slot, x.phi, x.pos, x.per, x.nco, s.peekList (kBuf c x.j) 48, all, x.excl, false, false, 0, 0, none, 0, false, false, false, 0⟩
  let lag := (chNewest x s).getD e - e
  let s := s.cnt (R.WG_LAGHIST (c / 128) (min (lag / 20480) 15))
  let s := match s.fbOf c with
    | some f => if flags = 0 ∧ e = x.endN then s.setFb (f.take x.accs x.excl all) else s
    | none => s
  let kept := if x.fb.isSome then x.contribs else x.contribs ++ [k]
  let x := ncoAfter all x
  let stop := if e < x.endN then some 6 else x.stopAct
  s.setChan c { x with j := x.j + 1, running := false, nextN := e, stopAct := stop, contribs := kept }

/-- The last tap sample before cycle `e` that a channel still needs. -/
def lastBefore (e : Nat) (x : Chan) (s : State) : Nat :=
  let d := tapDec (s.tapRate x.fe x.tap)
  x.segN + (ceilDiv (e - x.segN) d - 1) * d

/-- INTEGRATION_END: the last samples are correlated and the buffer is written with DONE. -/
def execIntegrationEnd (c : Fin 2048) (s : State) : Host.Outcome State Fault Refusal :=
  let x := s.chan c
  let e := endEff x s
  if !x.running || decide (327360 < chLag x s) || !(decide (e ≤ x.segN) || chHas x (lastBefore e x s) s) then .next s else
  let s := lagNote c s
  let (x, s) := corrTo e x s
  .next (integFinish c e 0 (s.setChan c x))

/-! ## Moves and migrations (R32, R213, R240, R241) -/

/-- The integration in progress of a channel becomes invalid (R188, R213). -/
def integSpoil (c : Nat) (s : State) : State :=
  let x := s.chan c
  if x.running then integFinish c (endEff x s) 1 (s.setChan c { x with excl := 0, used := 0 }) else s

/-- The channel state of `c` goes to channel `t`, which begins the next integration at the same sample. With `fault` the
integration in progress becomes invalid first. -/
def moveNow (c t : Nat) (fault : Bool) (s : State) : State :=
  let x0 := s.chan c
  let s := if fault then integSpoil c s else s
  let x := s.chan c
  let j := x.j
  let ctl := s.peekList (kCsm (c / 128) (128 * (c % 128))) 32
  let s := storeList (kCsm (t / 128) (128 * (t % 128))) ctl s
  let s := storeList (kBuf t (j + 1)) (s.peekList (kBuf c (j + 1)) 48) s
  let s := if fault then pendLine (t / 128) 1 (storeList (kBuf t j) (s.peekList (kBuf c j) 48) s) else s
  let keep := !fault && c / 128 == t / 128
  let x := { x with mv := none, frame := x.frame && keep, breakN := if keep then x.breakN else x.nextN, fb := x.fb.map (fun _ => t) }
  let s := (s.setChan c (x.gone x.nextN)).setChan t x
  let s := match s.fbOf c with
    | some f => { s with acq := { s.acq with fb := s.acq.fb.map (fun (y : FbSearch) => if y.chan = c then { f with chan := t } else y) } }
    | none => s
  let s := ((s.cnt (R.WG_MOVE_OUT_CNT (c / 128))).sticky (R.WG_STATUS (c / 128)) 2)
  let s := ((s.cnt (R.WG_MOVE_IN_CNT (t / 128))).sticky (R.WG_STATUS (t / 128)) 2)
  let s := { s with assignQ := s.assignQ.map (fun (a : Assign) => if a.chan = some c then { a with chan := some t } else a),
                    loop := { s.loop with chg := s.loop.chg.map (fun (g : LoopChg) => if g.chan = some c then { g with chan := some t } else g) } }
  let s := raise 0x504 1 (uCh c) [wd t, wd (if fault && x0.running then j - 1 else j)] s
  asgRecord t 3 x (dtOfCycle x.nextN) 0 0 (some c) s

/-- A channel with no place to go is released, its integration in progress being invalid (R31, R32). -/
def noTarget (c : Nat) (s : State) : State :=
  let s := integSpoil c s
  let x := s.chan c
  let s := raise 0x502 3 (uCh c) [x.sigSvk, wd x.units] s
  chanRelease c 5 x.nextN s

/-- A channel migrates after a permanent fault (R32). -/
def migrate (c : Nat) (s : State) : State :=
  let s := moveDrop c 11 s
  let x := s.chan c
  if x.cond = 0 then s else
  match migrateTarget c x.units s with
  | some t => moveNow c t true s
  | none => noTarget c s

/-- Would a migration find a target (R32)? -/
def migrates (c : Nat) (s : State) : Bool := (s.chan c).cond != 0 && (migrateTarget c (s.chan c).units s).isSome

/-- A channel is retired (R29, R31, R34). -/
def chanRetire (c cause : Nat) (s : State) : State :=
  let x := s.chan c
  let s := retireUnit (uCh c) 0x503 s
  let s := (s.cnt (R.WG_RETIRE_CNT (c / 128))).sticky (R.WG_STATUS (c / 128)) 3
  migrate c (raise 0x503 3 (uCh c) [wd cause, wd x.j] s)

/-- Where CH_MOVE takes a channel: with AUTO outside its own wing (R218). -/
def moveTarget (p : Packet) (s : State) : Option Nat :=
  let c := p.pf 0 10 0
  let cost := (s.chan c).units
  if bit (p.par 0) 22 then placeIn cost s ((List.range 16).filter (fun w => w != c / 128)) else placeNamed (p.pf 0 21 11) cost s

/-- CHANNEL_MOVE: the boundary of a CH_MOVE has come and integration j − 1 is DONE: the target is chosen and the move is made and answered, or
refused for want of a target (R213, R218, R240). -/
def execChannelMove (c : Fin 2048) (s : State) : Host.Outcome State Fault Refusal :=
  let x := s.chan c
  match x.mv with
  | none => .next s
  | some m =>
    if x.running || x.j != m.j then .next s else
    let h : HeldCmd := ⟨m.op, m.pk, m.cidx, m.late, false, m.at_, [], none⟩
    match moveTarget m.pk s with
    | none => .next (moveDrop c 6 (s.cnt (R.WG_REFUSE_CNT (if bit (m.pk.par 0) 22 then 0 else m.pk.pf 0 21 11 / 128))))
    | some t => .next (reply h 0 (dtOfCycle x.nextN) (wd t :: dtWords (dtOfCycle x.nextN)) (moveNow c t false s))

/-! ## Residue faults and overruns (R19, R20, R202, R239) -/

/-- CHANNEL_OVERRUN: going on would take the lag past the real-time margin (R20). -/
def chanOverrun (c : Nat) (s : State) : State :=
  let x := s.chan c
  let lag := chLag x s
  let n := chNeed x
  let s := (s.cnt (R.WG_OVERRUN_CNT (c / 128))).sticky (R.WG_STATUS (c / 128)) 1
  let s := s.setChan c { x with ovr := true }
  let s := if x.running then integFinish c (min (endEff x s) (max x.segN x.nextN)) 3 s else s
  let s := raise 0x501 2 (uCh c) [wd x.j, wd lag] s
  chanRelease c 4 n s

/-- CHANNEL_OVERRUN: the samples a channel needs next are no longer held (R20). -/
def execChannelOverrun (c : Fin 2048) (s : State) : Host.Outcome State Fault Refusal :=
  let x := s.chan c
  if x.cond = 0 || !x.entered || !decide (327360 < chLag x s) then .next s else .next (chanOverrun c s)

/-- RESIDUE_CHECKPOINT: the segment up to the next multiple of 81,840 sample cycles, or to the integration's end, is correlated and its
residues compared: `mismatch`, and whether the retry from the tap buffer succeeds (R19, R202). -/
def execResidueCheckpoint (c : Fin 2048) (mismatch retryOk : Bool) (s : State) : Host.Outcome State Fault Refusal :=
  let x := s.chan c
  let e := min ((x.segN / 81840 + 1) * 81840) (endEff x s)
  if !x.running || decide (e ≤ x.segN) || decide (327360 < chLag x s) || !chHas x (lastBefore e x s) s then .next s else
  let s := lagNote c s
  if !mismatch then
    let (x, s) := corrTo e x s
    .next (s.setChan c x)
  else
    let s := s.sticky (R.WG_STATUS (c.val / 128)) 0
    let (cause, s) := faultJudge (uCh c) 0 retryOk s.dt s
    match cause with
    | some k => .next (chanRetire c k s)
    | none =>
      let (x, s) := corrTo e x s
      .next (raise 0x505 0 (uCh c) [wd x.j] ((s.setChan c x).cnt (R.WG_RETRY_CNT (c.val / 128))))

/-! ## Wing cores (R31, R212, R361) -/

/-- Every channel of a list migrates, in order; answers how many found a target, from `n` on. -/
def migrateAll : List Nat → Nat → State → Nat × State
  | [], n, s => (n, s)
  | c :: cs, n, s => migrateAll cs (if migrates c s then n + 1 else n) (migrate c s)

/-- A wing is retired: every channel moves, in ascending order (R188, R241). -/
def wgRetire (w cause : Nat) (s : State) : State :=
  let s := wgSetState w 3 s
  let s := s.setCore w ApCore.off
  let s := handoverFrom (16 + w) 0 (retireUnit (uWg w) 0x508 s)
  let (n, s) := migrateAll ((List.range 128).map (fun k => 128 * w + k)) 0 s
  raise 0x508 3 (uWg w) [wd cause, wd n] s

/-- The hook entry of a channel's set: zero for none. -/
def hookOf (c : Nat) (s : State) : Nat := tget (fun _ => 0) s.loop.hooks (s.chan c).set

/-- Detach the hook from a channel until its release (R238). -/
def hookDetach (c j : Nat) (s : State) : State :=
  let x := s.chan c
  if hookOf c s = 0 ∨ x.hookOff ∨ x.cond = 0 then s
  else raise 0x516 2 (uCh c) [wd j, wd (hookOf c s)] (s.setChan c { x with hookOff := true })

/-- The hooks of channels are detached (R373). -/
def hooksDetach : List Nat → State → State
  | [], s => s
  | c :: cs, s => hooksDetach cs (hookDetach c (s.chan c).proc s)

/-- WING_CORE_FAULT: the core's memories or vendor code fail (trap cause, PC); `retryOk` when the reload succeeds, `part` when the
failing address lay in a user partition (R212, R373). -/
def execWingCoreFault (w : Fin 16) (cause : BitVec 5) (pc : BitVec 24) (retryOk part : Bool) (s : State) : Host.Outcome State Fault Refusal :=
  if s.wgState w ≠ 1 ∧ s.wgState w ≠ 2 then .next s else
  let (perm, s) := faultJudge (uWgCore w) 1 retryOk s.dt s
  let s := s.setReg (R.WG_CORE_STAT w) (wd (pc.toNat * 32 + cause.toNat))
  let s := s.setDt (R.WG_CORE_FAULT_SEC w) (R.WG_CORE_FAULT_FRAC w) s.dt
  let s := s.setReg (R.WG_CORE_FAULT_INFO w) (wd (b2n perm.isSome * 32 + cause.toNat))
  match perm with
  | some k => .next (wgRetire w k s)
  | none =>
    let s := loadImage w (kWim w 0) 12288 s
    let s := startCore w s
    let s := { s with loop := { s.loop with hookRun := s.loop.hookRun.filter (fun p => p.1 != w.val) } }
    let s := raise 0x509 1 (uWgCore w) [wd cause.toNat, wd pc.toNat] (s.cnt (R.WG_CORE_RELOAD_CNT w))
    .next (if part then hooksDetach ((List.range 128).map (fun k => 128 * w.val + k)) ((s.zeroMem (kWim w 12288) 4096).zeroMem (kWdm w 28672) 4096) else s)

/-! ## Commands (R209, R210, R214, R215, R218) -/

/-- CODE of CH_ASSIGN, with its bit 36 (R61). -/
def assignCode (p : Packet) : Nat := (p.par 4).toNat + p.pf 0 4 4 * two36

/-- What R57, R59 and R61 say of CH_ASSIGN's parameters alone. -/
def assignBad (p : Packet) : Bool :=
  namesBad (p.pf 0 27 20) (p.pf 0 19 9) || (sigOf (p.pf 0 27 20)).isNone
    || decide (codeLen (sigRow (p.pf 0 27 20)) (p.pf 0 19 9) * 4096 ≤ assignCode p)

/-- The parameters of CH_ASSIGN as an assignment on channel `chan` entering at `n` (R218). -/
def assignOf (h : HeldCmd) (chan n : Nat) : Assign :=
  let p := h.pk
  ⟨n, some chan, p.pf 0 27 20, p.pf 0 19 9, p.pf 0 8 5, p.pf 1 25 24, p.pf 1 23 20, bit (p.par 1) 19, bit (p.par 1) 18, bit (p.par 1) 17, p.pf 1 4 0,
   p.tag.toNat, false, false, false, assignCode p, false, (p.par 5).toInt, dtOf (p.par 2) (p.par 3), p.par 6, p.par 6 != 0, h.cidx, 0⟩

/-- Where CH_ASSIGN places the channel. -/
def assignPlace (p : Packet) (s : State) : Option Nat :=
  let cost := tapUnits (s.tapRate (p.pf 1 25 24) (p.pf 1 23 20))
  if bit (p.par 1) 16 then placeNamed (p.pf 1 15 5) cost s else placeAuto cost false s

/-- CH_ASSIGN (R209, R210). -/
def chAssignSpec : CmdSpec where
  op := 0x500
  lens := fun n => n == 7
  resv := fun p _ => p.outside 0 0xFFFFFF0 || p.outside 1 0x3FFFFFF || namesReserved (p.pf 0 27 20) (p.pf 0 19 9) (p.pf 0 8 5)
  parm := fun p _ => assignBad p
  late := fun p s => gridTooOld (p.pf 1 25 24) (p.pf 1 23 20) (gridMs (cycleOf (calClock (p.pf 1 25 24) s) p.epoch)) s
  bnd := fun p st s => bndGrid (calClock (p.pf 1 25 24) s) p st
  clock := fun p s => calClock (p.pf 1 25 24) s
  grid := 163680
  units := fun p => if bit (p.par 1) 16 then [uCh (p.pf 1 15 5)] else []
  chk := fun h s =>
    let p := h.pk
    let fe := p.pf 1 25 24
    let tap := p.pf 1 23 20
    let sig := p.pf 0 27 20
    let svk := p.pf 0 19 9
    let fcn := p.pf 0 8 5
    let g := sigRow sig
    let e := dtOfCycle (h.n s)
    let ref := dtOf (p.par 2) (p.par 3)
    let named := bit (p.par 1) 16
    let c := p.pf 1 15 5
    [(!s.codeKnown g svk || !sigFits fe g fcn s || !s.tapEn fe tap || !tapCarries fe tap g fcn s
        || (p.pf 1 4 0 != 0 && s.ringClass (p.pf 1 4 0) != 7) || decide (600 * 68719476736 < ((e.toNat : Int) - ref.toNat).natAbs), 3),
     ((named && (s.wgState (c / 128) == 0 || s.wgState (c / 128) == 1)) || (s.tapEn fe tap && decide (s.tapState fe tap < 2)), 5),
     (named && (s.wgState (c / 128) == 3 || s.isRetired (uCh c)), 11),
     ((assignPlace p s).isNone, 6)]
  at_ := fun h s => dtOfCycle (h.n s)
  eff := fun h s =>
    let n := h.n s
    let c := (assignPlace h.pk s).getD 0
    let s := doAssign (assignOf h c n) s
    (.done ([wd c, wd (s.chan c).units] ++ dtWords (dtOfCycle n)), s)
  refuse := fun h st s =>
    let c := h.pk.pf 1 15 5
    ([], if st = 6 then s.cnt (R.WG_REFUSE_CNT (if bit (h.pk.par 1) 16 then c / 128 else 0)) else s)

/-- The first sample cycle of integration `k` of a channel whose tokens before `k` are posted, from integration `m` at position `pos`
and cycle `n` on (R215). -/
def boundaryGo (x : Chan) (c : Nat) (s : State) : Nat → Nat → Nat → Nat → Nat
  | 0, _, _, n => n
  | d + 1, m, pos, n =>
    let g := sigRow x.sig
    let k := kSlot c m
    let (pos, _) := jumpPos g x.svk pos (s.peek (k + 4)).toInt
    let cfw := (s.peek (k + 2)).toNat
    let cnt := integSamples g pos (fld (s.peek k) 6 0) cfw
    boundaryGo x c s d (m + 1) ((pos + cfw * cnt) % (codeLen g x.svk * two36)) (n + cnt * tapDec (s.tapRate x.fe x.tap))

/-- The boundary of integration `k` (at or after the one in progress or next). -/
def boundaryOf (c k : Nat) (s : State) : Nat :=
  let x := s.chan c
  if x.running then
    let d := tapDec (s.tapRate x.fe x.tap)
    let y := ncoAfter ((x.endN - x.nextN) / d) x
    boundaryGo x c s (k - (x.j + 1)) (x.j + 1) y.pos x.endN
  else boundaryGo x c s (k - x.j) x.j x.pos x.nextN

/-- The first integration that has not begun and whose token is not posted (R215): a channel that runs free may be past it. -/
def unposted (c : Nat) (s : State) : Nat :=
  let x := s.chan c
  max (x.proc + 2) (if x.freerun then (if x.running then x.j + 1 else x.j) else 0)

/-- Late, and due, for a stamped channel command. -/
def chanLate (c : Nat) (p : Packet) (s : State) : Bool :=
  let s := ensureEntered c s
  (s.chan c).cond != 0 && dtGe (dtOfCycle (boundaryOf c (unposted c s - 1) s)) p.epoch
/-- Has the boundary of a held command of a channel come? -/
def chanDue (c : Nat) (h : HeldCmd) (s : State) : Bool :=
  let s := ensureEntered c s
  if (s.chan c).cond = 0 then dtGe s.dt h.pk.epoch else dtGe (dtOfCycle (boundaryOf c (unposted c s) s)) h.pk.epoch

/-- What the commands on a channel share. -/
def chanChk (c : Nat) (s : State) : List (Bool × Nat) :=
  [(s.isRetired (uCh c) || s.wgState (c / 128) == 3, 11), ((s.chan c).cond == 0, 3)]

/-- The DT of the boundary at which a command of a channel acts. -/
def chanAt (c : Nat) (s : State) : Dt :=
  let s := ensureEntered c s
  dtOfCycle (boundaryOf c (unposted c s) s)

/-- STOP is posted at once in the token of integration `k` of a channel that runs free ahead of its loop (R206, R215). -/
def stopPost (c k : Nat) (s : State) : State :=
  let x := s.chan c
  postSlot c k ([tokenWord k true false false 1] ++ (x.slot.drop 1).take 2 ++ [0, 0] ++ (x.slot.drop 5).take 2) s

/-- CH_RELEASE (R215). -/
def chReleaseSpec : CmdSpec where
  op := 0x501
  lens := fun n => n == 1
  resv := fun p _ => p.outside 0 0x7FF
  late := fun p s => chanLate (p.pf 0 10 0) p s
  units := fun p => [uCh (p.pf 0 10 0)]
  chk := fun h s => chanChk (h.pk.pf 0 10 0) s
  at_ := fun h s => chanAt (h.pk.pf 0 10 0) s
  eff := fun h s =>
    let c := h.pk.pf 0 10 0
    let d := chanAt c s
    let s := ensureEntered c s
    let x := s.chan c
    let k := unposted c s
    match x.relAt with
    | some _ => (.done (dtWords d), s)
    | none =>
      let s := s.setChan c { x with relAt := some (k, 1) }
      (.done (dtWords d), if x.proc + 2 < k then stopPost c k s else s)
  due := fun h s => chanDue (h.pk.pf 0 10 0) h s

/-- CH_CONFIG (R215). -/
def chConfigSpec : CmdSpec where
  op := 0x502
  lens := fun n => n == 1
  resv := fun p _ => p.outside 0 0x3FFF
  late := fun p s => chanLate (p.pf 0 10 0) p s
  units := fun p => [uCh (p.pf 0 10 0)]
  chk := fun h s => chanChk (h.pk.pf 0 10 0) s
  at_ := fun h s => chanAt (h.pk.pf 0 10 0) s
  eff := fun h s =>
    let c := h.pk.pf 0 10 0
    let d := chanAt c s
    let s := ensureEntered c s
    let w := h.pk.par 0
    (.done (dtWords d), s.setChan c { s.chan c with cfgAt := (s.chan c).cfgAt ++ [(unposted c s, bit w 11, bit w 12, bit w 13)] })
  due := fun h s => chanDue (h.pk.pf 0 10 0) h s

/-- CH_MOVE (R213, R215, R240): it waits as a move of its channel until the boundary, where its target is chosen. -/
def chMoveSpec : CmdSpec where
  op := 0x503
  lens := fun n => n == 1
  resv := fun p _ => p.outside 0 0x7FFFFF
  late := fun p s => chanLate (p.pf 0 10 0) p s
  units := fun p => if bit (p.par 0) 22 then [uCh (p.pf 0 10 0)] else [uCh (p.pf 0 10 0), uCh (p.pf 0 21 11)]
  chk := fun h s => chanChk (h.pk.pf 0 10 0) s
  at_ := fun h s => chanAt (h.pk.pf 0 10 0) s
  eff := fun h s =>
    let c := h.pk.pf 0 10 0
    let s := ensureEntered c s
    (.later, s.setChan c { s.chan c with mv := some ⟨unposted c s, h.op, h.pk, h.cidx, h.late, s.dt⟩ })
  due := fun h s => chanDue (h.pk.pf 0 10 0) h s

/-- WG_CTRL (R188). -/
def wgCtrlSpec : CmdSpec where
  op := 0x504
  lens := fun n => n == 1
  resv := fun p _ => p.outside 0 0x3F || p.pf 0 5 4 == 0 || p.pf 0 5 4 == 3
  late := lateProc
  units := fun p => [uWg (p.pf 0 3 0)]
  chk := fun h s =>
    let w := h.pk.pf 0 3 0
    let off := h.pk.pf 0 5 4 == 2
    [(s.wgState w == 3, 11), (off && (s.wgState w == 1 || (s.wgState w == 2 && wgCount w s != 0)), 4)]
  at_ := atProc
  eff := fun h s => (.done [], wgCtrl (h.pk.pf 0 3 0) (h.pk.pf 0 5 4) s)

/-- CH_ASSIGN. -/
def execChAssign (p : Packet) (s : State) : Host.Outcome State Fault Refusal := .next (consumeCmd chAssignSpec p s)
/-- CH_RELEASE. -/
def execChRelease (p : Packet) (s : State) : Host.Outcome State Fault Refusal := .next (consumeCmd chReleaseSpec p s)
/-- CH_CONFIG. -/
def execChConfig (p : Packet) (s : State) : Host.Outcome State Fault Refusal := .next (consumeCmd chConfigSpec p s)
/-- CH_MOVE. -/
def execChMove (p : Packet) (s : State) : Host.Outcome State Fault Refusal := .next (consumeCmd chMoveSpec p s)
/-- WG_CTRL. -/
def execWgCtrl (p : Packet) (s : State) : Host.Outcome State Fault Refusal := .next (consumeCmd wgCtrlSpec p s)

end Sys2Proof.Machine
end

