-- ==== Sys2Proof/Machine/Loop.lean ====
section
/-! DEFINITION. Loop.lean: what the vendor loop program does with each integration, and its commands (R221 to R244, R372). -/

namespace Sys2Proof.Machine

/-! ## Fields of a parameter set (R222) -/

/-- ORDER of a parameter set (R226). -/
def lpOrder (ps : List Word) : Nat := fld (ps.getD 0 0) 24 24
def lpDisc (ps : List Word) : Nat := fld (ps.getD 0 0) 23 22
def lpBump (ps : List Word) : Bool := bit (ps.getD 0 0) 21
def lpTint (ps : List Word) : Nat := fld (ps.getD 0 0) 20 14
def lpEvt (ps : List Word) (i : Nat) : Bool := bit (ps.getD 0 0) i
def lpHookBudget (ps : List Word) : Nat := fld (ps.getD 0 0) 9 0
def lpPllTrk (ps : List Word) : Nat := fld (ps.getD 1 0) 35 27
def lpPllPull (ps : List Word) : Nat := fld (ps.getD 1 0) 26 18
def lpFll (ps : List Word) : Nat := fld (ps.getD 1 0) 17 9
def lpDllTrk (ps : List Word) : Nat := fld (ps.getD 2 0) 35 26
def lpDllPull (ps : List Word) : Nat := fld (ps.getD 2 0) 25 16
def lpPliTh (ps : List Word) : Nat := fld (ps.getD 2 0) 15 8
def lpCn0Lock (ps : List Word) : Nat := fld (ps.getD 2 0) 7 0
def lpPullMax (ps : List Word) : Nat := fld (ps.getD 5 0) 35 22
def lpCn0T (ps : List Word) : Nat := fld (ps.getD 5 0) 21 8
def lpExclTh (ps : List Word) : Nat := fld (ps.getD 5 0) 7 0
def lpCoastMax (ps : List Word) : Nat := fld (ps.getD 6 0) 35 20
def lpCoastCont (ps : List Word) : Nat := fld (ps.getD 6 0) 19 6

/-- Milliseconds in sample cycles. -/
def msCyc (n : Nat) : Nat := n * 163680

/-! ## Changes of parameters (R224) -/

/-- The first sample of the next integration to be processed: one sample after the last integration processed. -/
def procStart (x : Chan) : Nat :=
  match x.contribs.find? (fun k => k.j == x.proc) with
  | some k => k.startN
  | none => x.nextN

/-- The DT of the last sample of an integration that ends at cycle `n`. -/
def lastDt (x : Chan) (n : Nat) (s : State) : Dt := dtOfCycle (n - tapDec (s.tapRate x.fe x.tap))

/-- The set a channel uses for an integration whose last sample is at `d`. -/
def setFor (c : Nat) (d : Dt) (s : State) : Nat :=
  s.loop.chg.foldl (fun k g => if g.chan == some c && dtGe d g.at_ then g.set else k) (s.chan c).set

/-- The set a channel has after every change that waits. -/
def setLast (c : Nat) (s : State) : Nat := s.loop.chg.foldl (fun k g => if g.chan == some c then g.set else k) (s.chan c).set

/-- The hook of a set for an integration whose last sample is at `d`; zero for none. -/
def hookAt (k : Nat) (d : Dt) (s : State) : Nat :=
  s.loop.chg.foldl (fun h g => match g.hook with
    | some e => if g.set == k && dtGe d g.at_ then e else h
    | none => h) (tget (fun _ => 0) s.loop.hooks k)

/-- One change becomes part of the state every channel sees. -/
def loopAdopt (g : LoopChg) (s : State) : State :=
  match g.chan, g.hook with
  | some c, _ => if (s.chan c).cond = 0 then s else s.setChan c { s.chan c with set := g.set }
  | none, some e => { s with loop := { s.loop with hooks := tset (fun _ => 0) s.loop.hooks g.set e } }
  | none, none => { s with loop := { s.loop with sets := tset loopDefaults s.loop.sets g.set g.words } }

/-- Changes at the front of the list that no integration still to be processed precedes. -/
def loopMergeGo : List LoopChg → State → State
  | [], s => { s with loop := { s.loop with chg := [] } }
  | g :: gs, s =>
    if dtGe s.dt g.at_ && s.chans.all (fun p => p.2.cond == 0 || !p.2.entered || dtGe (dtOfCycle (procStart p.2)) g.at_)
    then loopMergeGo gs (loopAdopt g s)
    else { s with loop := { s.loop with chg := g :: gs } }

/-- Changes of parameter sets that no integration still to be processed precedes are adopted. -/
def loopMerge (s : State) : State := loopMergeGo s.loop.chg s

/-! ## Reading a result buffer (R198, R225) -/

/-- The I and Q of correlator `i` (0 VE, 1 E, 2 P, 3 L, 4 VL, 5 N) as the buffer gives them. -/
def bufCorr (buf : List Word) (i : Nat) : Int × Int :=
  if bit (buf.getD 0 0) 3 then
    (if i = 5 then (sfld (buf.getD 15 0) 35 18, sfld (buf.getD 15 0) 17 0) else ((buf.getD (5 + 2 * i) 0).toInt, (buf.getD (6 + 2 * i) 0).toInt))
  else (sfld (buf.getD (5 + i) 0) 35 18, sfld (buf.getD (5 + i) 0) 17 0)

/-- |X|^2. -/
def pow2 (a : Int × Int) : Nat := (a.1 * a.1 + a.2 * a.2).toNat

/-! ## Data boundaries (R228, R229) -/

/-- Symbol duration in milliseconds of a data component (R229). -/
def symMs (g : Sig) (svk : Nat) : Nat :=
  match g.id with
  | 0x00 | 0x80 | 0xA0 | 0x03 | 0x84 | 0x42 => 20
  | 0x60 | 0x66 => if beidouGeo svk then 2 else 20
  | 0x20 | 0x21 | 0x01 | 0x81 | 0x05 | 0x86 | 0x88 | 0x61 | 0xA1 => 10
  | 0x63 | 0x25 => 5
  | 0x40 | 0x44 | 0x22 => 4
  | 0x83 | 0xC0 | 0xC1 => 2
  | _ => 1

/-- Units in a symbol of a data component. -/
def symUnits (g : Sig) (svk : Nat) : Nat := max 1 (symMs g svk * codeHz g / (1000 * unitLen g))

/-- Does a signal have a boundary to find? -/
def needsSync (g : Sig) (svk : Nat) : Bool := decide (1 < secLen g svk) || !g.pilot

/-- The chip value ±1 of the secondary code at a period. -/
def secVal (sig svk i : Nat) (s : State) : Int := pm (s.secChip sig svk i)

/-- Does a list of signs, oldest first, match the secondary code from its start with sign `q` throughout? -/
def secMatch (sig svk n : Nat) (q : Int) (s : State) : Nat → List Int → Bool
  | _, [] => true
  | i, r :: rs => r == q * secVal sig svk (i % n) s && secMatch sig svk n q s (i + 1) rs

/-- What the search for a boundary found in this integration: nothing, or the kind with the jump in primary periods (secondary sync) or
the bin (bit sync), and whether the sign was inverted. -/
def syncFound (x : Chan) (buf : List Word) (s : State) : Option (Nat × Nat × Bool) :=
  let g := sigRow x.sig
  let n := secLen g x.svk
  if 1 < n then
    let rs := x.signs.reverse
    let q := rs.getD 0 0 * secVal x.sig x.svk 0 s
    if rs.length = 2 * n ∧ q ≠ 0 ∧ secMatch x.sig x.svk n q s 0 rs then
      some (1, (2 * n - 1 - fld (buf.getD 3 0) 10 0 % n) % n, decide (q < 0))
    else none
  else
    let total := x.bins.sum
    let top := x.bins.foldl max 0
    let i := x.bins.idxOf top
    let second := (x.bins.eraseIdx i).foldl max 0
    if 25 ≤ total ∧ total ≤ 2 * top ∧ 3 * second ≤ top then some (0, i, false) else none

/-- The search takes one primary period into account (R228); a coasted one counts as no sign. -/
def syncFeed (k : Contrib) (buf : List Word) (coast flip : Bool) (x : Chan) (s : State) : Chan :=
  let g := sigRow x.sig
  let n := secLen g x.svk
  let sg : Int := if coast then 0 else (bufCorr buf 2).1.sign
  let x := { x with searched := x.searched + 1 }
  if 1 < n then { x with signs := (sg * secVal x.sig x.svk (fld (buf.getD 3 0) 10 0 % n) s :: x.signs).take (2 * n) }
  else
    let m := symUnits g x.svk
    let bins := if x.bins.length = m then x.bins else List.replicate m 0
    let turn := if g.id = 0x20 ∨ g.id = 0x21 then flip && !coast else decide (sg * x.prevSign < 0)
    let b := k.per % m
    { x with bins := if turn then bins.set b (bins.getD b 0 + 1) else bins, prevSign := sg }

/-- Shift the count of code periods of a channel and of the integrations its records still need. -/
def perShift (d : Int) (x : Chan) : Chan :=
  { x with per := ((x.per : Int) + d).toNat, contribs := x.contribs.map (fun k => { k with per := ((k.per : Int) + d).toNat }) }

/-- LEN of the integration that begins at unit `u` of the channel's count (R228, R229). -/
def lenFor (x : Chan) (ps : List Word) (u : Nat) : Nat :=
  let g := sigRow x.sig
  let n := secLen g x.svk
  let fit := lpTint ps * codeHz g / (1000 * unitLen g)
  if g.pilot && decide (n ≤ 1) then max 1 (min 100 fit)
  else if !x.sync || x.cjump != 0 then 1
  else
    let m := if g.pilot then n else symUnits g x.svk
    let at_ := u % m
    if m ≤ fit then (if at_ = 0 then max 1 (if g.pilot then fit / m * m else m) else m - at_)
    else
      let l := max 1 fit
      min (m - at_) (l - at_ % l)

/-- The largest jump CJUMP can carry, in 2^-12 chip. -/
def cjumpMax : Int := 34359738367

/-- Where integration `proc` + 2 begins: position (2^-36 chip) and code periods before its own jump. -/
def nextAfter (c : Nat) (x : Chan) (s : State) : Nat × Nat :=
  let g := sigRow x.sig
  let l := codeLen g x.svk * two36
  let m := x.proc + 1
  let slot := match x.contribs.find? (fun k => k.j == m) with
    | some k => k.slot
    | none => if x.running then x.slot else s.peekList (kSlot c m) 7
  let (pos, per) := match x.contribs.find? (fun k => k.j == m) with
    | some k => (k.pos, k.per)
    | none =>
      if x.running then (x.pos, x.per)
      else
        let (p, carry) := jumpPos g x.svk x.pos (slot.getD 4 0).toInt
        (p, ((x.per : Int) + carry).toNat)
  let cfw := (slot.getD 2 0).toNat
  let p := pos + cfw * integSamples g pos (fld (slot.getD 0 0) 6 0) cfw
  (p % l, per + p / l)

/-! ## The state machine of R234 -/

/-- What the state machine works on: the channel, whether STOP is to be posted, and events (code, severity, parameters). -/
structure LoopRun where
  x : Chan
  stop : Bool
  evs : List (Nat × Nat × List Word)

/-- The loop declares the channel lost. -/
def loseChan (cause : Nat) (r : LoopRun) : LoopRun :=
  { x := { r.x with state := 5 }, stop := true, evs := r.evs ++ [(0x511, 2, [wd cause])] }

/-- A row of the channel state table: applied when its state and trigger hold. -/
def loopRow (on : Bool) (f : LoopRun → LoopRun) (r : LoopRun) : LoopRun := if on then f r else r

/-- An event of the group `b` of EVT, of a severity below warning (R244). -/
def loopEv (ps : List Word) (b code sev : Nat) (params : List Word) (r : LoopRun) : LoopRun :=
  if lpEvt ps b then { r with evs := r.evs ++ [(code, sev, params)] } else r

/-- What the indicators of an integration say (R232, R233): C/N0 in 2^-8 dB-Hz, code lock, whether PLI reaches its threshold, and whether
C/N0 is below CN0_LOCK − 3 dB. -/
structure LoopLock where
  cn0 : Int
  lock : Bool
  good : Bool
  weak : Bool

/-- The rows of the table, top first, on the integration `k` just processed (R234, R237). -/
def loopStates (ps : List Word) (k : Contrib) (coast wasEng : Bool) (o : LoopLock) (r : LoopRun) : LoopRun :=
  let e := k.endN
  let lock := !coast && o.lock
  let good := o.good
  let x := r.x
  let cnt :=
    if coast then x.consec
    else if x.state = 2 then (if wasEng && lock && good then x.consec + 1 else 0)
    else if x.state = 3 ∨ x.state = 4 then (if lock && !good then x.consec + 1 else 0)
    else x.consec
  let weakN := if coast then x.weakN else if !o.weak then none else some (x.weakN.getD k.startN)
  let r := { r with x := { x with consec := cnt, weakN := weakN } }
  let r := loopRow (r.x.state == 1) (fun r => { r with x := { r.x with state := 2, fll := true, pullN := k.startN, fllN := k.startN, consec := 0 } }) r
  let r := loopRow (r.x.state == 2 && !r.x.eng && decide (r.x.pullN + msCyc 100 ≤ e)) (fun r => { r with x := { r.x with eng := true, fresh := true, consec := 0 } }) r
  let r := loopRow (r.x.state == 2 && wasEng && decide (20 ≤ r.x.consec))
    (fun r => loopEv ps 10 0x510 0 [r.x.sigSvk, wdI o.cn0] { r with x := { r.x with state := 3, fll := false, lockN := some e, consec := 0 } }) r
  let r := loopRow (r.x.state == 2 && decide (r.x.fllN + msCyc (lpPullMax ps) ≤ e)) (loseChan 0) r
  let r := loopRow (r.x.state == 3 && coast) (fun r => { r with x := { r.x with state := 4, coastN := some k.startN } }) r
  let r := loopRow (r.x.state == 3 && decide (50 ≤ r.x.consec))
    (fun r => { r with x := { r.x with state := 2, lli := true, lockN := none, fresh := true, fllN := e, consec := 0 } }) r
  let r := loopRow ((r.x.state == 3 || r.x.state == 2) && !coast && (match r.x.weakN with
      | some n => decide (n + msCyc (lpCn0T ps) ≤ e)
      | none => false)) (loseChan 1) r
  let r := loopRow (r.x.state == 4 && !coast)
    (fun r =>
      let len := k.startN - r.x.coastN.getD k.startN
      let x := { r.x with state := 3, coastN := none }
      if msCyc (lpCoastCont ps) < len then
        loopEv ps 11 0x512 1 [wd (len / 163680)] { r with x := { x with lli := true, lockN := some k.startN, amb := 0, week := false } }
      else { r with x := x }) r
  loopRow (r.x.state == 4 && decide (r.x.coastN.getD e + msCyc (lpCoastMax ps) < e)) (loseChan 2) r

/-! ## Bump-jump monitor (R227) -/

/-- The count of integrations in which a side is larger than the prompt. -/
def bumpStep (ps : List Word) (buf : List Word) (coast : Bool) (r : LoopRun) : LoopRun :=
  let x := r.x
  if !lpBump ps || (sigRow x.sig).mode == 0 || x.state != 3 || coast then r else
  let p := pow2 (bufCorr buf 2)
  let ve := pow2 (bufCorr buf 0)
  let vl := pow2 (bufCorr buf 4)
  if ve ≤ p ∧ vl ≤ p then { r with x := { x with bump := 0 } } else
  let side := decide (ve < vl)
  let n := if x.bump ≠ 0 ∧ x.bumpSide = side then x.bump + 1 else 1
  if n < 8 then { r with x := { x with bump := n, bumpSide := side } }
  else
    let dv : Int := fld (ps.getD 3 0) 23 18 * 256
    loopEv ps 13 0x517 1 [wd (b2n side)] { r with x := { x with bump := 0, bumpSide := side, lli := true, cjump := x.cjump + (if side then dv else -dv) } }

/-! ## Half cycles (R230) -/

/-- The half-cycle ambiguity is resolved: half a cycle is added when the polarity was inverted. -/
def halfResolve (ps : List Word) (inv : Bool) (r : LoopRun) : LoopRun :=
  if r.x.hcRes then r
  else loopEv ps 12 0x514 0 [wd (b2n inv)]
    { r with x := { r.x with hcRes := true, hcAdded := inv, hcNow := inv, half := r.x.half + (if inv then 34359738368 else 0) } }

/-- A boundary is found: the jump or the alignment it asks for (R228, R230). -/
def syncTake (ps : List Word) (k : Contrib) (buf : List Word) (s : State) (r : LoopRun) : LoopRun :=
  let g := sigRow r.x.sig
  match syncFound r.x buf s with
  | none => if msCyc 6000 ≤ k.endN - r.x.pullN then { r with x := { r.x with noSync := true } } else r
  | some (kind, d, inv) =>
    let x := { r.x with sync := true, noSync := false, amb := max r.x.amb 1 }
    let x :=
      if kind = 1 then { x with cjump := x.cjump + (d * primLen g * 4096 : Nat) }
      else
        let m := symUnits g x.svk
        perShift (m - d % m : Nat) x
    let r := loopEv ps 12 0x513 0 [wd kind, wd x.searched] { r with x := x }
    if kind = 1 ∧ g.pilot then halfResolve ps inv r else r

/-! ## Messages, time and slots decoded (R177, R231, R251, R264, R265, R267) -/

/-- A message that failed its check: counted, with event 0x603 at most once per second of sample time per channel. -/
def navFail (c : Nat) (x : Chan) (d : Dt) (m : NavMsg) (s : State) : State :=
  if m.check ≠ 2 then s else
  let s := s.cnt R.OBS_NAV_FAIL_CNT
  let key := rateKey 0x603 (uCh c)
  let rr := tget (fun _ => RateRec.none) s.rate key
  if rr.seen && rr.sec == dtSec d then s
  else raise 0x603 0 0 [x.sigSvk] { s with rate := tset (fun _ => RateRec.none) s.rate key ⟨true, dtSec d, false⟩ }

/-- Event 0x603 for each message that failed its check (R265). -/
def navFails (c : Nat) (x : Chan) (d : Dt) : List NavMsg → State → State
  | [], s => s
  | m :: ms, s => navFails c x d ms (navFail c x d m s)

/-- The scale of a signal's system (R251). -/
def txScale (sig : Nat) : Nat :=
  match sigSys sig with
  | 0 => 1
  | 1 => 4
  | 2 => 2
  | 3 => 3
  | 4 => 5
  | 5 => 6
  | _ => 1

/-- May the Catalogue give a channel its full transmit time (R293)? The uncertainties of time and position, until they are measured those of
the aiding, plus 1 ms are less than half the period of the channel's TX_AMB; in microseconds. -/
def catTxOk (x : Chan) (s : State) : Bool :=
  let g := sigRow x.sig
  let period := if x.amb = 0 then primLen g else if g.pilot then codeLen g x.svk else symUnits g x.svk * unitLen g
  let time : Option Rat :=
    if (tget (fun _ => ScaleM.unset) s.sol.scales (txScale x.sig)).avail then some ((s.rf R.SOL_HOLD_ERR 17 0 : Rat) / 10000)
    else (s.sol.timeAid.head?).map (fun w => (fld w 35 4 : Rat))
  let pos : Option Rat := if s.sol.fixed then some ((s.sol.pacc : Rat) / 1000) else (s.sol.posAid[3]?).map (fun w => (w.toNat : Rat))
  s.sol.cat.any (fun e => e.svk == x.svk && decide (e.kind % 4 < 2)) && (match time, pos with
    | some t, some p => decide (t + p * 1000000 / 299792458 + 1000 < (period : Rat) * 500000 / codeHz g)
    | _, _ => false)

/-- What decoding gives the channel. -/
def decodeTake (k : Contrib) (o : NavOut) (s : State) (x : Chan) : Chan :=
  let whole := o.msgs.filter (fun m => dtGe m.start (dtOfCycle x.breakN))
  let x := { x with frame := o.frame, nav := x.nav ++ whole }
  match o.periods with
  | none => x
  | some (own, p) =>
    if !own && !catTxOk x s then x else
    let x := if x.week then x else { perShift ((p : Int) - k.per) x with week := true }
    { x with amb := if own then 3 else max x.amb 2 }

/-- A decoded GLONASS slot (R177): taken at the next epoch, or the channel is released where that slot is already tracked. -/
def slotTake (c : Nat) (k : Contrib) (o : NavOut) (s : State) (r : LoopRun) : LoopRun :=
  match o.slotId with
  | none => r
  | some v =>
    if !r.x.prov || r.x.idDue.isSome then r
    else if s.chans.any (fun p => p.1 != c && p.2.cond != 0 && p.2.sig == r.x.sig && p.2.fe == r.x.fe && p.2.svk == 256 + v % 256 && !p.2.prov) then
      { r with x := { r.x with relAt := some (match r.x.relAt with
        | some q => q
        | none => (r.x.proc + 2, 10)) } }
    else { r with x := { r.x with idDue := some (v, k.endN) } }

/-! ## Discriminators (R225) -/

/-- |X| of a sum, to 2^-40. -/
def magR (a : Int × Int) : Rat := (Nat.sqrt (pow2 a * 2 ^ 80) : Rat) / 2 ^ 40

/-- The duration of an integration in seconds. -/
def tInt (k : Contrib) : Rat := ((k.endN - k.startN : Nat) : Rat) / 163680000

/-- e_p in radians: Costas or four-quadrant. -/
def errPhase (quad : Bool) (p : Int × Int) : Rat :=
  if quad then argR p.1 p.2 else if p.1 = 0 then 0 else atanR ((p.2 : Rat) / p.1)

/-- e_f in rad/s from the prompts of this integration and of the previous one not coasted; zero where there is none. -/
def errFreq (quad : Bool) (t : Rat) (prev : Option (Int × Int)) (p : Int × Int) : Rat :=
  match prev with
  | none => 0
  | some q =>
    let cross := q.1 * p.2 - p.1 * q.2
    let dot := q.1 * p.1 + q.2 * p.2
    (if quad && !(dot == 0 && cross == 0) then argR dot cross
      else if dot = 0 then Config.atZero 1 else atanR ((cross : Rat) / dot)) / t

/-- D in chips, with the spacing DE of the integration's own token. -/
def errCode (g : Sig) (slot buf : List Word) : Rat :=
  let e := magR (bufCorr buf 1)
  let l := magR (bufCorr buf 3)
  let de : Rat := (fld (slot.getD 5 0) 28 24 : Rat) / 16
  let gain := if g.mode = 0 then 1 - de else (1 - 3 * de) / 3
  if e + l = 0 then Config.atZero 0 else gain * (e - l) / (e + l)

/-! ## The carrier filter (R223, R226, R236) -/

/-- A bandwidth of 1/`u` Hz units as R223 limits it for an integration: BN in hertz, and whether the limit applies. -/
def bwLimit (bn u : Nat) (top t : Rat) : Rat × Bool :=
  let b : Rat := (bn : Rat) / u
  if top < b * t then (top / t, true) else (b, false)

/-- What the carrier filter works on: acc and vel, and its output in rad/s. -/
structure CarrierFilter where
  acc : Rat
  vel : Rat
  out : Rat

/-- One run of the carrier filter: T, BN of the PLL and of the FLL, and the errors, zero when not in use (R226). -/
def carrierRun (third : Bool) (t bnP bnF ep ef : Rat) (f : CarrierFilter) : CarrierFilter :=
  if third then
    let wp := bnP * 10000 / 7845
    let wf := bnF * 100 / 53
    let acc := f.acc + t * (wp ^ 3 * ep + wf ^ 2 * ef)
    let vel := f.vel + t * (acc + 11 / 10 * wp ^ 2 * ep + 1414 / 1000 * wf * ef)
    ⟨acc, vel, vel + 24 / 10 * wp * ep⟩
  else
    let wp := bnP * 100 / 53
    let wf := bnF * 4
    let vel := f.vel + t * (wp ^ 2 * ep + wf * ef)
    ⟨f.acc, vel, vel + 1414 / 1000 * wp * ep⟩

/-- The carrier filter in a coasted integration (R236). -/
def carrierCoast (t : Rat) (f : CarrierFilter) : CarrierFilter :=
  let vel := f.vel + t * f.acc
  ⟨f.acc, vel, vel⟩

/-- Round to the nearest, halves up. -/
def roundUp (x : Rat) : Int := (x + 1 / 2).floor

/-- FCW and CFW of R226 from the Doppler in hertz and the DLL's rate in chip/s. -/
def loopFcw (x : Chan) (dopp : Rat) (s : State) : Word :=
  let tap : Rat := (tapCentre x.fe x.tap s : Rat) / 68719476736
  wdI (roundUp (((carrierHz (sigRow x.sig) x.fcn : Rat) + dopp - tap) * 68719476736 / tapHz (s.tapRate x.fe x.tap)))
/-- CFW of the next integration (R226). -/
def loopCfw (x : Chan) (dopp dll : Rat) (s : State) : Word :=
  let g := sigRow x.sig
  wdI (roundUp (((codeHz g : Rat) * (1 + dopp / carrierHz g x.fcn) + dll) * 68719476736 / tapHz (s.tapRate x.fe x.tap)))

/-! ## C/N0 and lock (R232, R233) -/

/-- Is 10^(c / u) at most a ratio? -/
def tenPow (u : Nat) (c : Int) (x : Rat) : Bool :=
  if 0 ≤ c then decide (10 ^ c.toNat * x.den ^ u ≤ x.num.toNat ^ u) else decide (x.den ^ u ≤ x.num.toNat ^ u * 10 ^ (-c).toNat)

/-- 10 × log10 of a ratio from 2^-36 on, in 2^-8 dB: its last digit is that of 72-bit fixed point. -/
def tenLog (x : Rat) : Int :=
  (leastFrom (fun k => !tenPow 2560 ((k : Int) - 32768 + 1) x) 17 0 : Int) - 32768 + (if Config.fixUp x then 1 else 0)

/-- A filter of gain a towards a value, which the first integration gives. -/
def filt (first : Bool) (a old new : Rat) : Rat := if first then new else old + a * (new - old)

/-- p_avg / n_avg, from 2^-36 on. -/
def cnRatio (p n : Rat) : Rat :=
  let x := if n = 0 then Config.atZero 4 else p / n
  if x < 1 / 2 ^ 36 then 1 / 2 ^ 36 else x

/-- A non-coasted integration enters the averages and filters of R232 and R233: the channel with its words, and what they say. -/
def lockTake (ps : List Word) (k : Contrib) (buf : List Word) (rate : Nat) (x : Chan) : Chan × LoopLock :=
  let t := tInt k
  let teff : Rat := (fld (buf.getD 1 0) 23 0 : Rat) / rate
  let (p, n) := (bufCorr buf 2, pow2 (bufCorr buf 5))
  let a0 : Rat := t * 1000 / lpCn0T ps
  let a : Rat := if a0 < 1 / (x.n30 + 1) then 1 / (x.n30 + 1) else a0
  let pv := Config.floatVal x.pAvg + a * (((pow2 p : Rat) - n) / teff ^ 2 - Config.floatVal x.pAvg)
  let nv := Config.floatVal x.nAvg + a * ((n : Rat) / teff - Config.floatVal x.nAvg)
  let r := cnRatio pv nv
  let num := if x.eng then filt x.fresh (1 / 8) (Config.floatVal x.num) (p.1 * p.1 - p.2 * p.2 : Int) else Config.floatVal x.num
  let den := if x.eng then filt x.fresh (1 / 8) (Config.floatVal x.den) (p.1 * p.1 + p.2 * p.2 : Int) else Config.floatVal x.den
  let (e, l) := (magR (bufCorr buf 1), magR (bufCorr buf 3))
  let b := if e + l = 0 then Config.atZero 2 else (if e < l then l - e else e - l) / (e + l)
  let bal := filt (x.n30 == 0) (1 / 8) ((x.bal.toInt : Rat) / 2 ^ 24) b
  let pli := if den = 0 then Config.atZero 3 else num / den
  let cn := tenLog r
  ({ x with pAvg := Config.floatWord pv, nAvg := Config.floatWord nv, num := if x.eng then Config.floatWord num else x.num,
            den := if x.eng then Config.floatWord den else x.den, bal := wdI (fixR (bal * 2 ^ 24)), n30 := x.n30 + 1, cn0 := cn, fresh := x.fresh && !x.eng },
   ⟨cn, tenPow 40 (lpCn0Lock ps) r && decide (bal < 1 / 4), decide ((lpPliTh ps : Rat) ≤ 256 * pli), !tenPow 40 ((lpCn0Lock ps : Int) - 12) r⟩)

/-! ## A pilot partner (R230) -/

/-- The carrier phase a channel's NCO has at sample cycle `n` of integration `k`, 2^-36 cycle. -/
def ncoPhase (k : Contrib) (d n : Nat) : Int := k.phi + (k.slot.getD 1 0).toInt * (((n : Int) - k.startN) / d)

/-- The latest integration the pilot partner's loop has processed that overlaps integration `k` of a data component: a pilot of the same
satellite and carrier, tracked on the same tap and resolved. -/
def partnerOf (x : Chan) (k : Contrib) (s : State) : Option Contrib :=
  let g := sigRow x.sig
  match s.chans.find? (fun p => p.2.cond != 0 && p.2.entered && (sigRow p.2.sig).pilot && p.2.svk == x.svk && p.2.fe == x.fe && p.2.tap == x.tap
      && carrierHz (sigRow p.2.sig) p.2.fcn == carrierHz g x.fcn && p.2.state == 3 && p.2.hcRes) with
  | some p => p.2.contribs.reverse.find? (fun y => y.done && !y.coast && decide (y.startN < k.endN ∧ k.startN < y.endN))
  | none => none

/-- The polarity that a pilot partner's phase gives a data component: inverted when the difference of their prompt carrier phases, less the
relation the interface specification defines, lies nearer half a cycle than zero. -/
def partnerHalf (x : Chan) (k : Contrib) (buf : List Word) (s : State) : Option Bool :=
  if (sigRow x.sig).pilot || x.hcRes || !x.eng then none else
  match partnerOf x k s with
  | none => none
  | some y =>
    let d := tapDec (s.tapRate x.fe x.tap)
    let n := max k.startN y.startN
    let own := (ncoPhase k d n : Rat) / 68719476736 + errPhase false (bufCorr buf 2) / (2 * piR)
    let p := bufCorr y.buf 2
    let pil := (ncoPhase y d n : Rat) / 68719476736 + argTurns p.1 p.2
    let diff := own - pil - Config.partnerPhase x.sig
    let r := diff - (diff + 1 / 2).floor
    some (decide (1 / 4 < r) || decide (r < -1 / 4))

/-! ## One integration (R221 to R238) -/

/-- The filter words of a channel as the loop program reads them, from the words last committed (R221, R242). -/
def loopLoad (c : Nat) (x : Chan) (s : State) : Chan :=
  let w (i : Nat) : Word := s.peek (kLoop c + i)
  { x with vel := w 3, acc := w 4, dopp0 := (w 5).toInt, pAvg := w 7, nAvg := w 8, num := w 9, den := w 10, bal := w 11, search := w 12 }

/-- What the carrier and code loops make of an integration (R223, R225, R226, R236): the channel with vel, acc and BW_LIMITED, the Doppler
in hertz and the DLL's rate in chip/s. -/
def loopFilter (ps : List Word) (k : Contrib) (buf : List Word) (coast : Bool) (x : Chan) : Chan × Rat × Rat :=
  let g := sigRow x.sig
  let t := tInt k
  let trk := decide (x.state = 3 ∨ x.state = 4)
  let third := lpOrder ps == 1
  let (bnP, limP) := bwLimit (if trk then lpPllTrk ps else lpPllPull ps) 10 (if third then 1 / 4 else 3 / 10) t
  let (bnD, limD) := bwLimit (if trk then lpDllTrk ps else lpDllPull ps) 100 (1 / 20) t
  let quad := lpDisc ps == 0 && g.pilot && (decide (secLen g x.svk ≤ 1) || x.sync)
  let p := bufCorr buf 2
  let f0 : CarrierFilter := ⟨(x.acc.toInt : Rat) / 2 ^ 24, (x.vel.toInt : Rat) / 2 ^ 24, 0⟩
  let f := if coast then carrierCoast t f0
    else carrierRun third t bnP ((lpFll ps : Rat) / 10) (if x.eng then errPhase quad p else 0)
      (if x.fll then errFreq (quad && x.eng) t x.prevP p else 0) f0
  let x := { x with acc := wdI (fixR (f.acc * 2 ^ 24)), vel := wdI (fixR (f.vel * 2 ^ 24)), bwLim := !coast && ((limP && x.eng) || limD),
                    prevP := if coast then x.prevP else some p }
  (x, (x.dopp0 : Rat) / 4096 + f.out / (2 * piR), if coast then 0 else 4 * bnD * errCode g k.slot buf)

/-- Post the token of integration `proc` + 2 with the words that go before it (R204, R221). -/
def loopPost (c : Nat) (ps : List Word) (dopp dll : Rat) (x : Chan) (s : State) : Chan × State :=
  let g := sigRow x.sig
  let j := x.proc + 2
  match x.relAt with
  | some (k, _) =>
    if k < j then (x, s)
    else (x, postSlot c j ([tokenWord j true false false 1, loopFcw x dopp s, loopCfw x dopp dll s, 0, 0] ++ slotTail g ps) s)
  | none =>
    let cj := max (-cjumpMax) (min cjumpMax x.cjump)
    let (pos, per) := nextAfter c x s
    let x := { x with cjump := x.cjump - cj }
    let (p, carry) := jumpPos g x.svk pos cj
    let u := ((((per : Int) + carry) * codeLen g x.svk + (p / two36 : Nat)) / unitLen g).toNat
    let (pf, w) := (x.cfgAt.filter (fun q => decide (q.1 ≤ j))).foldl (fun _ q => (q.2.1, q.2.2.1)) (x.prof, x.wide)
    (x, postSlot c j ([tokenWord j false pf w (lenFor x ps u), loopFcw x dopp s, loopCfw x dopp dll s, 0, wdI cj] ++ slotTail g ps) s)

/-- The entry into a user hook after the vendor part (R372). -/
def hookEnter (c j entry : Nat) (ps : List Word) (s : State) : State :=
  let w := c / 128
  let x := s.core w
  let r (t : List (Nat × Word)) (i : Nat) (v : Word) := tset (fun _ => 0#36) t i v
  let x := { x with
    pc := BitVec.ofNat 24 entry, status := 0x11#36, budget := wd (lpHookBudget ps), rsp := 0, rs := [], rep := none,
    w := r (r (r x.w 1 (wd (0x200000 + 128 * (c % 128)))) 2 (wd c)) 3 (wd (j % 65536)) }
  { s.setCore w x with loop := { s.loop with hookRun := tset (fun _ => (0, 0, 0)) s.loop.hookRun w (c, j, entry) } }

/-- Raise the loop program's events of a channel. -/
def loopRaise (c : Nat) : List (Nat × Nat × List Word) → State → State
  | [], s => s
  | (code, sev, ps) :: es, s => loopRaise c es (raise code sev (uCh c) ps s)

/-- A held command that must take effect before an integration whose last sample is at `d` is processed. -/
def loopHeld (c : Nat) (d : Dt) (s : State) : Bool :=
  s.cmdPend.any (fun h => h.stamped &&
    (((h.op == 0x501 || h.op == 0x502 || h.op == 0x503) && h.pk.pf 0 10 0 == c && chanDue c h s)
      || ((h.op == 0x510 || h.op == 0x511 || h.op == 0x515) && dtGe d h.pk.epoch)))

/-- The integration a channel has ready to be processed: it has ended, so that its buffer was DONE. -/
def loopReady (c : Nat) (s : State) : Option Contrib :=
  let x := s.chan c
  match x.contribs.find? (fun k => k.j == x.proc) with
  | some k =>
    if x.cond != 0 && x.entered && x.fb.isNone && decide (x.proc < x.j) && s.wgState (c / 128) == 2
        && !s.loop.hookRun.any (fun p => p.1 == c / 128) && !loopHeld c (lastDt x k.endN s) s then some k
    else none
  | none => none

/-- Is an integration coasted (R236)? So is one of a free-running channel whose buffer a later integration has overwritten
(notes/assumptions/85.md). -/
def loopCoasts (ps : List Word) (k : Contrib) (buf : List Word) (budgetTrap : Bool) : Bool :=
  let h := buf.getD 0 0
  !(bit h 19 && fld h 35 20 == k.j % 65536) || bit h 18 || decide (lpExclTh ps * 16 ≤ fld (buf.getD 1 0) 35 24) || budgetTrap

/-- The vendor loop program processes integration `k` of channel `c` (R221): the words are committed before the token is posted (R205). -/
def loopProcess (c : Nat) (budgetTrap : Bool) (k : Contrib) (s : State) : State :=
  let x := s.chan c
  let g := sigRow x.sig
  let d := lastDt x k.endN s
  let set := setFor c d s
  let ps := s.loopSetAt set d
  let buf := s.peekList (kBuf c k.j) 48
  let coast := loopCoasts ps k buf budgetTrap
  let rate := tapHz (s.tapRate x.fe x.tap)
  let wasEng := x.eng
  let o := Config.navStep (s.peekList (kLoop c) 16) buf
    [x.sig, x.svk, x.fcn, k.j, k.startN, k.endN, b2n coast, x.state, b2n x.eng, b2n x.sync, b2n x.hcRes, k.per]
  let (x, dopp, dll) := loopFilter ps k buf coast (loopLoad c { x with set := set, hcNow := false, breakN := if coast then k.endN else x.breakN } s)
  let (x, lk) := if coast then (x, ⟨x.cn0, false, false, false⟩) else lockTake ps k buf rate { x with search := o.search }
  let x := if wasEng && !x.sync && needsSync g x.svk then syncFeed k buf coast o.flip x s else x
  let r : LoopRun := ⟨x, false, []⟩
  let r := loopStates ps k coast wasEng lk r
  let r := bumpStep ps buf coast r
  let r := if wasEng && !r.x.sync && needsSync g x.svk then syncTake ps k buf s r else r
  let r := if !wasEng && r.x.eng && lpDisc ps == 0 && g.pilot && decide (secLen g x.svk ≤ 1) then halfResolve ps false r else r
  let r := if coast then r else match o.half.or (partnerHalf r.x k buf s) with
    | some inv => halfResolve ps inv r
    | none => r
  let r := if coast then r else { r with x := decodeTake k o s r.x }
  let r := if coast then r else slotTake c k o s r
  let r := if r.stop then { r with x := { r.x with relAt := some (match r.x.relAt with
    | some q => q
    | none => (r.x.proc + 2, 2)) } } else r
  let r := if budgetTrap then { r with evs := r.evs ++ [(0x515, 2, [wd k.j])] } else r
  let x := r.x
  let s := loopCommit c k.endN (k.nco + (k.slot.getD 1 0).toInt * k.all) (s.setChan c x)
  let (x, s) := loopPost c ps dopp dll x s
  let done (y : Contrib) : Contrib := if y.j = k.j then
      { y with done := true, coast := coast, state := x.state, cn0 := x.cn0, lockN := x.lockN, half := x.half, hcNow := x.hcNow, hcRes := x.hcRes, lli := x.lli, amb := x.amb, buf := buf }
    else y
  let entry := hookAt set d s
  let hook := entry != 0 && !x.hookOff
  let s := s.setChan c { x with contribs := x.contribs.map done, lli := false, proc := x.proc + 1 }
  let s := if coast then s else navFails c x d o.msgs s
  let s := loopRaise c r.evs s
  loopMerge (if hook then hookEnter c k.j entry ps s else s)

/-- LOOP_PROCESS_INTEGRATION: the wing core processes the next integration of a channel; `budgetTrap` when the vendor part exceeds its
budget (R221, R235, R238). -/
def execLoopProcessIntegration (c : Fin 2048) (budgetTrap : Bool) (s : State) : Host.Outcome State Fault Refusal :=
  match loopReady c s with
  | none => .next s
  | some k => .next (loopProcess c budgetTrap k s)

/-! ## Commands (R222, R224, R243) -/

/-- Channels that a change of a set, or of one channel, affects. -/
def affected (set : Nat) (chan : Option Nat) (s : State) : List Chan :=
  (s.chans.filter (fun p => p.2.cond != 0 && p.2.entered && (match chan with
    | some c => p.1 == c
    | none => setLast p.1 s == set))).map (fun p => p.2)

/-- R224: the effective DT of a change. -/
def loopAt (set : Nat) (chan : Option Nat) (h : HeldCmd) (s : State) : Dt :=
  if h.pk.atEpoch && !h.late then h.pk.epoch
  else
    let ends := ((affected set chan s).filter (fun x => x.proc != 0)).map procStart
    if ends.isEmpty then s.dt else dtOfCycle (ends.foldl max 0)

/-- R224: has an affected channel processed an integration that ends at or after the stamp? -/
def loopLate (set : Nat) (chan : Option Nat) (p : Packet) (s : State) : Bool :=
  (affected set chan s).any (fun x => x.proc != 0 && dtGe (lastDt x (procStart x) s) p.epoch)

/-- A stamped change falls due when DT reaches its stamp, or an integration that ends after it is ready. -/
def loopDue (h : HeldCmd) (s : State) : Bool :=
  dtGe s.dt h.pk.epoch || s.chans.any (fun p => p.2.contribs.any (fun k => p.2.proc ≤ k.j && dtGe (lastDt p.2 k.endN s) h.pk.epoch))

/-- The reserved fields and values of the seven words of LOOP_PARAM_SET. -/
def lpReserved (p : Packet) : Bool :=
  p.outside 0 0xFFFFFFF || p.outside 1 0xFFFFFFE00 || p.outside 3 0x1FFFFFFF || p.outside 4 0x1FFFFF || p.outside 6 0xFFFFFFFC0 || decide (2 ≤ p.pf 0 23 22)

/-- A field outside its range (R222, R243). -/
def lpRange (p : Packet) : Bool :=
  let out (v lo hi : Nat) : Bool := decide (v < lo) || decide (hi < v)
  out (p.pf 0 20 14) 1 100 || out (p.pf 0 9 0) 0 512 || out (p.pf 1 35 27) 1 500 || out (p.pf 1 26 18) 1 500 || out (p.pf 1 17 9) 1 500
    || out (p.pf 2 35 26) 1 1000 || out (p.pf 2 25 16) 1 1000 || out (p.pf 2 15 8) 1 255 || out (p.pf 2 7 0) 1 255
    || out (p.pf 3 28 24) 1 16 || out (p.pf 3 23 18) (p.pf 3 28 24 + 1) 32 || out (p.pf 3 17 12) 1 32
    || out (p.pf 5 35 22) 100 10000 || out (p.pf 5 21 8) 100 10000 || out (p.pf 5 7 0) 1 255
    || out (p.pf 6 35 20) 10 60000 || out (p.pf 6 19 6) 0 10000

/-- Add a change and adopt what no integration waits for. -/
def loopChange (g : LoopChg) (s : State) : State := loopMerge { s with loop := { s.loop with chg := s.loop.chg ++ [g] } }

/-- LOOP_PARAM_SET (R222, R224). -/
def loopParamSetSpec : CmdSpec where
  op := 0x510
  lens := fun n => n == 7
  resv := fun p _ => lpReserved p
  parm := fun p _ => lpRange p
  late := fun p s => loopLate (p.pf 0 27 25) none p s
  at_ := fun h s => loopAt (h.pk.pf 0 27 25) none h s
  eff := fun h s =>
    let k := h.pk.pf 0 27 25
    let d := loopAt k none h s
    (.done (dtWords d), loopChange ⟨k, none, (List.range 7).map (fun i => h.pk.par i), none, d⟩ s)
  due := loopDue

/-- LOOP_SELECT. -/
def loopSelectSpec : CmdSpec where
  op := 0x511
  lens := fun n => n == 1
  resv := fun p _ => p.outside 0 0x3FFF
  late := fun p s => loopLate 0 (some (p.pf 0 10 0)) p s
  units := fun p => [uCh (p.pf 0 10 0)]
  chk := fun h s => chanChk (h.pk.pf 0 10 0) s
  at_ := fun h s => loopAt 0 (some (h.pk.pf 0 10 0)) h s
  eff := fun h s =>
    let c := h.pk.pf 0 10 0
    let d := loopAt 0 (some c) h s
    let s := ensureEntered c s
    (.done (dtWords d), loopChange ⟨h.pk.pf 0 13 11, some c, [], none, d⟩ s)
  due := loopDue

/-- LOOP_PARAM_GET. -/
def loopParamGetSpec : CmdSpec where
  op := 0x512
  lens := fun n => n == 1
  resv := fun p _ => p.outside 0 0x7
  late := lateProc
  at_ := atProc
  eff := fun h s => (.done (s.loopSetAt (h.pk.pf 0 2 0) s.dt), s)

/-- LOOP_DEFAULT: the set of a front end's next assignments. -/
def loopDefaultSpec : CmdSpec where
  op := 0x513
  lens := fun n => n == 1
  resv := fun p _ => p.outside 0 0x37
  late := lateProc
  units := fun p => [uFe (p.pf 0 5 4)]
  at_ := atProc
  eff := fun h s => (.done [], { s with loop := { s.loop with dflt := tset (fun _ => 0) s.loop.dflt (h.pk.pf 0 5 4) (h.pk.pf 0 2 0) } })

/-- LOOP_STATUS: words 16 to 31 as last committed. -/
def loopStatusSpec : CmdSpec where
  op := 0x514
  lens := fun n => n == 1
  resv := fun p _ => p.outside 0 0x7FF
  late := lateProc
  units := fun p => [uCh (p.pf 0 10 0)]
  chk := fun h s => chanChk (h.pk.pf 0 10 0) s
  at_ := atProc
  eff := fun h s => (.done (s.peekList (kLoop (h.pk.pf 0 10 0)) 16), s)

/-- LOOP_HOOK: attach a user hook to a set, or detach it. -/
def loopHookSpec : CmdSpec where
  op := 0x515
  lens := fun n => n == 1
  resv := fun p _ => p.outside 0 0x7FFFFFF
  late := fun p s => loopLate (p.pf 0 2 0) none p s
  chk := fun h _ => [(h.pk.pf 0 26 3 != 0 && (decide (h.pk.pf 0 26 3 < 0x3000) || decide (0x3FFF < h.pk.pf 0 26 3)), 7)]
  at_ := fun h s => loopAt (h.pk.pf 0 2 0) none h s
  eff := fun h s =>
    let k := h.pk.pf 0 2 0
    (.done [], loopChange ⟨k, none, [], some (h.pk.pf 0 26 3), loopAt k none h s⟩ s)
  due := loopDue

/-- LOOP_PARAM_SET. -/
def execLoopParamSet (p : Packet) (s : State) : Host.Outcome State Fault Refusal := .next (consumeCmd loopParamSetSpec p s)
/-- LOOP_SELECT. -/
def execLoopSelect (p : Packet) (s : State) : Host.Outcome State Fault Refusal := .next (consumeCmd loopSelectSpec p s)
/-- LOOP_PARAM_GET. -/
def execLoopParamGet (p : Packet) (s : State) : Host.Outcome State Fault Refusal := .next (consumeCmd loopParamGetSpec p s)
/-- LOOP_DEFAULT. -/
def execLoopDefault (p : Packet) (s : State) : Host.Outcome State Fault Refusal := .next (consumeCmd loopDefaultSpec p s)
/-- LOOP_STATUS. -/
def execLoopStatus (p : Packet) (s : State) : Host.Outcome State Fault Refusal := .next (consumeCmd loopStatusSpec p s)
/-- LOOP_HOOK. -/
def execLoopHook (p : Packet) (s : State) : Host.Outcome State Fault Refusal := .next (consumeCmd loopHookSpec p s)

end Sys2Proof.Machine
end

