-- ==== Sys2Proof/Machine/Obs.lean ====
section
/-! DEFINITION. Obs.lean: measurement epochs, observable, profile, navigation-data and epoch-close records, and the entry of messages into
the Catalogue (R45 to R48, R245 to R268, R291). -/

namespace Sys2Proof.Machine

/-! ## Time scales as the solution cores hold them (R279, R284) -/

/-- A rational number rounded to the nearest integer, halves up. -/
def ratRound (x : Rat) : Int := (x + 1 / 2).floor

/-- M × 2^E of an oscillator-model word (R295). -/
def oscVal (w : Word) : Rat := (sfld w 27 0 : Rat) * (2 : Rat) ^ (sfld w 35 28)

/-- The oscillator model in force: D, σD, q1, q2 (R295). -/
def State.osc (s : State) : List Rat :=
  if s.sol.osc.isEmpty then [0, 1 / 10 ^ 15, 1 / 10 ^ 22, 1 / 10 ^ 30] else s.sol.osc.map oscVal

/-- A time scale of the solution (R279). -/
def State.scale (s : State) (k : Nat) : ScaleM := tget (fun _ => ScaleM.unset) s.sol.scales k
def State.setScale (s : State) (k : Nat) (m : ScaleM) : State := { s with sol := { s.sol with scales := tset (fun _ => ScaleM.unset) s.sol.scales k m } }

/-- y0, the mean DRIFT before holdover. -/
def State.y0 (s : State) : Rat := if s.sol.hCnt = 0 then 0 else (s.sol.hSum : Rat) / s.sol.hCnt / 2 ^ 44

/-- The offset of a scale from DT at `t16` (2^-4 tick), in 2^-4 tick: by its rate, or in holdover by R284. -/
def scaleOff (k : Nat) (t16 : Int) (s : State) : Int :=
  let m := s.scale k
  if k = 0 then 0
  else if s.sol.holdover then
    let tau : Rat := (t16 - 16 * s.sol.t0.toNat : Int)
    m.off + ratRound (-(s.y0 * tau) - (s.osc.getD 0 0) * tau * tau / 2 ^ 41)
  else m.off + divRound (m.rate * (t16 - 16 * m.at_.toNat)) (2 ^ 48)

/-- Is a scale available (R52)? -/
def State.scaleAvail (s : State) (k : Nat) : Bool := k != 0 && (s.scale k).avail

/-- The scale-time words of a DT on a scale, zero while it is unavailable (R51, R52). -/
def scaleTimeOf (k : Nat) (d : Dt) (s : State) : List Word :=
  if s.scaleAvail k then scaleWords k (s.scale k).leap (16 * d.toNat + scaleOff k (16 * d.toNat) s) else [0, 0]

/-! ## The epoch series (R45 to R48, R250, R262) -/

/-- The interval of a code in milliseconds (R45). -/
def intervalMs (c : Nat) : Nat := [10, 20, 50, 100, 200, 500, 1000, 2000, 5000, 10000, 15000, 30000, 60000].getD c 10

/-- An epoch: its DT, its instant in 2^-32 sample cycle, its epoch number, the setting it belongs to, whether it is a fall-back epoch,
the setting it changes from, and the scale and label of a system epoch. -/
structure EpochAt where
  dt : Dt
  num : Int
  e : Nat
  cfg : Word
  nsa : Bool
  old : Option Word
  label : Option (Nat × Int)

/-- A label of a system series that has not been closed: no epoch is closed twice, though the scale steps back (R47, R262). -/
def freshLabel (align : Nat) (leap : Option (Int × Bool)) (ms l : Int) (s : State) : Int :=
  match s.obs.label with
  | some (k, l0) => if k = align ∧ l ≤ l0 then nextLabel align leap ms l0 else l
  | none => l

/-- The first epoch of a series after DT `a` (where none is closed, from the start of the present sample time on) and at or after `d`. -/
def nextIn (cfg : Word) (a : Option Dt) (d : Dt) (s : State) : EpochAt :=
  let align := fld cfg 7 4
  let ms := intervalMs (fld cfg 3 0)
  let low : Nat := max d.toNat (match a with
    | some t => t.toNat + 1
    | none => (dtOfCycle s.obs.from_).toNat)
  if align = 0 ∨ !s.scaleAvail align then
    let iv := ms * 163680
    let e := ceilDiv (cycleAtOrAfter low) iv
    ⟨dtOfCycle (e * iv), (e * iv * 4294967296 : Nat), e, cfg, align != 0, none, none⟩
  else
    let leap := (s.scale align).leap
    let t : Int := 16 * low
    let l := freshLabel align leap ms (firstLabel align leap ms (t + scaleOff align t s)) s
    let x1 := labelTime l - scaleOff align t s
    let x2 := labelTime l - scaleOff align x1 s
    let x3 := labelTime l - scaleOff align x2 s
    let dt : Dt := BitVec.ofInt 72 ((x3 + 8) / 16)
    ⟨dt, (dt.toNat * 639375 * 16 : Nat), (l / ms).toNat, cfg, false, none, some (align, l)⟩

/-- Follow the settings that wait: each takes over at its first epoch at or after its DT. -/
def planEpoch (s : State) : List (Word × Dt) → EpochAt → EpochAt
  | [], e => e
  | (w, d) :: rest, e => if dtGe e.dt d then planEpoch s rest { nextIn w s.obs.closed d s with old := some (e.old.getD e.cfg) } else e

/-- The next epoch to be closed. -/
def State.nextEpoch (s : State) : EpochAt := planEpoch s s.obs.chg (nextIn (s.reg R.OBS_CFG) s.obs.closed 0 s)

/-! ## The Catalogue (R290, R291) -/

/-- The core that holds the Catalogue duty, and the one that holds the solution duty. -/
def State.catCore (s : State) : Nat := s.rf R.SOL_CORES 0 0
def State.solCore (s : State) : Nat := s.rf R.SOL_CORES 1 1

/-- The core with the Catalogue duty runs. -/
def catAlive (s : State) : Bool := s.booted && !s.cur.runningRom && !bit (s.reg R.SOL_CORES) (4 + s.catCore)

/-- SOL_CAT_STAT from the Catalogue; `acc` more host entries accepted. -/
def catSync (acc : Nat) (s : State) : State :=
  let sats (r : Nat) : Nat := ((s.sol.cat.filter (fun e => e.kind % 4 == r && !e.pred)).map (fun e => e.svk)).eraseDups.length
  s.setReg R.SOL_CAT_STAT (wd (sats 0 * 16777216 + sats 1 * 4096 + min 4095 (s.rf R.SOL_CAT_STAT 11 0 + acc)))

/-- An entry is rejected (0 check, 1 reserved value, 2 older). -/
def catReject (sig svk cause : Nat) (s : State) : State :=
  raise 0x618 1 (uSolk s.catCore) [wd (sigWord sig svk 0 0 0), wd cause] ((s.cnt R.SOL_CAT_REJ_CNT).sticky R.SOL_STATUS 0)

/-- Do two entries name the same set? -/
def catSame (e : CatEnt) (svk kind : Nat) : Bool := e.kind == kind && (if kind % 4 = 3 then svkSys e.svk == svkSys svk else e.svk == svk)

/-- A message enters the Catalogue, or is rejected; a message that holds no set changes nothing. Answers whether it was accepted. -/
def catEnter (sig svk fcn : Nat) (force : Bool) (words : List Word) (len : Nat) (s : State) : Bool × State :=
  let p := Config.catParse sig svk fcn words len
  if !p.ok then (false, catReject sig svk 0 s)
  else if !p.holds then (true, s)
  else
    let e : CatEnt := ⟨sig, p.svk, p.fcn, p.kind, p.ref, false, p.healthy, words, len⟩
    match s.sol.cat.find? (fun x => catSame x p.svk p.kind && !x.pred) with
    | none => (true, catSync 0 { s with sol := { s.sol with cat := s.sol.cat ++ [e] } })
    | some x =>
      if x.ref < p.ref ∨ (x.ref = p.ref ∧ force) then
        let rest := s.sol.cat.filter (fun y => !catSame y p.svk p.kind)
        (true, catSync 0 { s with sol := { s.sol with cat := rest ++ (if p.kind % 4 = 0 then [{ x with pred := true }, e] else [e]) } })
      else (false, catReject sig svk 2 s)

/-! ## Who reports (R245, R246) -/

/-- A channel at an epoch: its number, its state, and the cycle of its release if it is released. -/
structure EpCh where
  c : Nat
  x : Chan
  rel : Option Nat

/-- The sample cycle an epoch falls in. -/
def EpochAt.cyc (e : EpochAt) : Int := e.num / 4294967296

/-- The evaluation instant in 2^-32 sample cycle (R245). -/
def evalAt (e : EpochAt) (x : Chan) (s : State) : Int :=
  e.num + (rxDelayAt x.fe (s.delayInAt x.fe e.cyc) (32 * carrierHz (sigRow x.sig) x.fcn - s.loAct x.fe) s).1 * 639375

/-- The containing integration. -/
def containing (num : Int) (x : Chan) : Option Contrib :=
  x.contribs.find? (fun k => decide ((k.startN : Int) * 4294967296 ≤ num) && decide (num < (k.endN : Int) * 4294967296))

/-- The contributing integrations up to the containing one. -/
def contributing (k : Contrib) (x : Chan) : List Contrib :=
  x.contribs.filter (fun y => decide (y.j ≤ k.j) && (match x.lastCont with
    | some m => decide (m < y.j)
    | none => true))

/-- Was the channel assigned at or before the epoch, and not to a fall-back search? -/
def assignedBy (e : EpochAt) (x : Chan) : Bool :=
  x.cond != 0 && x.entered && x.fb.isNone && decide ((x.entryN : Int) * 4294967296 ≤ e.num)

/-- The channels an epoch concerns, the released ones after the others. -/
def epochChans (e : EpochAt) (s : State) : List EpCh :=
  ((s.chans.filter (fun p => assignedBy e p.2)).map (fun (p : Nat × Chan) => (⟨p.1, p.2, none⟩ : EpCh)))
  ++ ((s.obs.gone.filter (fun p => assignedBy e p.2.2)).map (fun (p : Nat × Nat × Chan) => (⟨p.1, p.2.2, some p.2.1⟩ : EpCh)))

/-- A released channel was released at a boundary at or before the epoch. -/
def EpCh.over (r : EpCh) (e : EpochAt) : Bool :=
  match r.rel with
  | some n => decide ((n : Int) * 4294967296 ≤ e.num)
  | none => false

/-- An overrun channel still reports where it reported before (R246). -/
def EpCh.ovr (r : EpCh) (e : EpochAt) (s : State) : Bool :=
  r.x.ovr && r.x.reported && (r.over e || (match containing (evalAt e r.x s) r.x with
    | some k => !k.done
    | none => true))

/-- Has a channel that still runs processed its containing integration, with supply monitors past it (R247, R506)? -/
def chReady (e : EpochAt) (r : EpCh) (s : State) : Bool :=
  r.rel.isSome ||
    (let num := evalAt e r.x s
     decide (num < (r.x.entryN : Int) * 4294967296) || (match containing num r.x with
      | some k => k.done && (s.replays r.x.fe || dtGe (s.dt - 137439#72) (lastDt r.x k.endN s))
      | none => false))

/-- A command of the epoch kind held as pending must take effect before this epoch. -/
def epochHeld (e : EpochAt) (s : State) : Bool :=
  s.cmdPend.any (fun h => h.stamped && decide (0x600 ≤ h.op) && decide (h.op ≤ 0x6FF) && dtGe e.dt h.pk.epoch)

/-- Has sample time reached the epoch (R15, R46)? Before the sample clock first runs there is no sample cycle 0. -/
def epochCome (e : EpochAt) (s : State) : Bool := (s.fsOn || decide (0 < s.cycle)) && dtGe s.smpDt e.dt

/-- Do all delays that take effect at or before the epoch apply (R331, R337)? -/
def delaysIn (e : EpochAt) (s : State) : Bool :=
  (List.range 4).all (fun n => (s.calU n).est.all (fun (x : CalEst) => decide (e.cyc < (x.sec + 2) * 163680000))
    && (s.calU n).tblDue.all (fun w => decide (e.cyc < w.tableN)))

/-- The ticks and plan references before an epoch have run, which read the Catalogue as it stands before the epoch's messages enter it (R171,
R174). -/
def ticksDone (e : EpochAt) (s : State) : Bool := !catAlive s || (s.acq.ticks ++ s.acq.eks).all (fun n => decide (e.cyc ≤ n))

/-- The epoch can be closed. -/
def epochReady (e : EpochAt) (s : State) : Bool :=
  epochCome e s && delaysIn e s && ticksDone e s && !s.cur.runningRom && s.booted && s.assignQ.all (fun a => decide (e.num < (a.n : Int) * 4294967296))
    && (epochChans e s).all (fun r => chReady e r s)

/-- Order of records (R247). -/
def EpCh.before (a b : EpCh) : Bool :=
  let key (r : EpCh) : List Int := [r.x.fe, r.x.tap, r.x.sig, r.x.svk, sext 4 r.x.fcn, r.x.entryN, r.x.order]
  decide (key a < key b)

/-- A channel into the list of an epoch, by the key of R247. -/
def insertCh (r : EpCh) : List EpCh → List EpCh
  | [] => [r]
  | a :: as => if r.before a then r :: a :: as else a :: insertCh r as

/-- The channels of an epoch in the order of R247. -/
def sortCh (l : List EpCh) : List EpCh := l.foldl (fun a r => insertCh r a) []

/-! ## The fields of an observable record (R249 to R260) -/

/-- TX in 2^-52 s (R251). -/
def txOf (x : Chan) (k : Contrib) (num : Int) (s : State) : Nat :=
  let g := sigRow x.sig
  let l := codeLen g x.svk
  let den : Int := tapDec (s.tapRate x.fe x.tap) * 4294967296
  let p := ((k.per : Int) * l * 68719476736 + k.pos) * den + (k.slot.getD 2 0).toNat * (num - (k.startN : Int) * 4294967296)
  let period : Int := match k.amb with
    | 0 => primLen g
    | 1 => if g.pilot then (l : Int) else (symUnits g x.svk * unitLen g : Nat)
    | _ => scalePeriod (txScale x.sig) * codeHz g
  let t := divRound (p % (period * 68719476736 * den) * 65536) (codeHz g * den)
  ((if 2 ≤ k.amb then t % (scalePeriod (txScale x.sig) * 4503599627370496) else t) % (2 ^ 72 : Int)).toNat

/-- PHASE in 2^-24 cycle, modulo 2^72 (R253): the negative of the accumulated phase with the half cycle that was added. -/
def phaseOf (x : Chan) (k : Contrib) (num : Int) (s : State) : Nat :=
  let g := sigRow x.sig
  let den : Int := 4294967296 * 163680000
  let fd := tapCentre x.fe x.tap s - carrierHz g x.fcn * 68719476736
  let a := num - (k.startN : Int) * 4294967296
  let acc := (k.nco + k.half) * den + (k.slot.getD 1 0).toInt * a * tapHz (s.tapRate x.fe x.tap) + fd * (num - (x.entryN : Int) * 4294967296)
  (divRound (-acc) (den * 4096) % (2 ^ 72 : Int)).toNat

/-- DOPP in 2^-12 Hz (R254). -/
def doppOf (x : Chan) (k : Contrib) (s : State) : Int :=
  let g := sigRow x.sig
  divRound (tapCentre x.fe x.tap s - carrierHz g x.fcn * 68719476736 + (k.slot.getD 1 0).toInt * tapHz (s.tapRate x.fe x.tap)) 16777216

/-- |X| in 2^-30 of the buffer's unit. -/
def magOf (k : Contrib) (i : Nat) : Nat := Nat.sqrt (pow2 (bufCorr k.buf i) * 2 ^ 60)

/-- A quotient by |P|; the spec states none for |P| = 0. -/
def overP (a : Int) (k : Contrib) : Rat :=
  if magOf k 2 = 0 then ((Config.engineWord 9 [k.j, k.startN]).toInt : Rat) / 512 else (a : Rat) / magOf k 2

/-- ASYM and DELTA in 2^-9, before they are clamped (R260). -/
def shapeOf (x : Chan) (ks : List Contrib) : Int × Int :=
  let ks := ks.filter (fun k => !k.coast)
  if ks.isEmpty then (0, 0) else
  let n : Rat := ks.length
  let n0 (k : Contrib) : Rat :=
    let d : Rat := (fld (k.slot.getD 5 0) 28 24 : Rat) / 16
    if (sigRow x.sig).mode = 0 then 1 - d else 1 - 3 * d
  let a := (ks.map (fun k => overP ((magOf k 0 : Int) - magOf k 4) k)).sum / n
  let d := (ks.map (fun k => overP ((magOf k 1 : Int) + magOf k 3) k / 2 - n0 k)).sum / n
  (ratRound (a * 512), ratRound (d * 512))

/-- An interval below a supply warning level overlaps an integration (R257, R506). -/
def supplyHit (k : Contrib) (s : State) : Bool :=
  let a := (dtOfCycle k.startN).toNat
  let b := (dtOfCycle k.endN).toNat
  s.pwr.ivs.any (fun p => p.2.isOpen && decide (p.2.start.toNat < b))
    || s.pwr.closed.any (fun p => decide (p.2.1.toNat < b) && decide (a < p.2.2.toNat))

/-- What an epoch writes for one channel: the observable record after its SEQ, and whether it is INVALID, OVR, TD, SUPPLY. -/
structure ObsRec where
  words : List Word
  invalid : Bool
  ovr : Bool
  td : Bool
  supply : Bool

/-- Form the observable record of a reporting channel (R249). `k` is its containing integration, absent for a released channel that overran. -/
def obsRecord (e : EpochAt) (r : EpCh) (k : Option Contrib) (prof : Bool) (s : State) : ObsRec × State :=
  let x := r.x
  let g := sigRow x.sig
  let ks := match k with
    | some k => contributing k x
    | none => x.contribs.filter (fun y => match x.lastCont with
      | some m => decide (m < y.j)
      | none => true)
  let ovr := r.ovr e s || ks.any (fun y => bit (y.buf.getD 0 0) 17)
  let invalid := ovr || (match k with
    | some k => bit (k.buf.getD 0 0) 18
    | none => true)
  let (d, cal, s) := rxDelay x.fe x.sig (carrierHz g x.fcn) e.cyc s
  let num := e.num + d * 639375
  let k' : Contrib := k.getD ⟨0, 0, 0, [], 0, 0, 0, 0, [], 0, 0, false, false, x.state, 0, none, 0, false, x.hcRes, false, 0⟩
  let td := ks.any (fun y => bit (y.buf.getD 0 0) 16)
  let unlk := ks.any (fun y => bit (y.buf.getD 0 0) 15)
  let supply := ks.any (fun y => supplyHit y s)
  let lli := ks.any (fun y => y.lli) || x.firstRec || k'.state == 2
  let hcAdd := ks.any (fun y => y.hcNow)
  let (as, de) := shapeOf x ks
  let cn := (max 0 (min 65535 k'.cn0)).toNat
  let dl := clampS 24 d
  let asC := max (-511) (min 511 as)
  let deC := max (-511) (min 511 de)
  let range := !invalid && (decide ((cn : Int) ≠ k'.cn0) || decide (dl ≠ d) || decide (asC ≠ as) || decide (deC ≠ de))
  let all := (ks.map (fun y => y.all)).sum
  let ex := (ks.map (fun y => y.excl)).sum
  let blank := if all = 0 then 0 else min 255 (ex * 256 / all)
  let tx := txOf x k' num s
  let ph := phaseOf x k' num s
  let lock := match k'.lockN with
    | some n => min ((e.num / 4294967296 - n) / 163680).toNat 4294967295
    | none => 0
  let z (n : Nat) : Nat := if invalid then 0 else n
  let ws := [wd x.word1, dtSec e.dt, dtFrac e.dt, wd (z (tx / two36)), wd (z tx), wd (z (ph / two36)), wd (z ph),
    (if invalid then 0 else wdI (doppOf x k' s)),
    wd (z cn * 1048576 + discOf x.fe e.cyc.toNat s * 16 + txScale x.sig),
    wd (z lock * 16 + z k'.amb * 4 + cal),
    wd (b2n invalid * 34359738368 + b2n ovr * 17179869184 + b2n td * 8589934592 + b2n unlk * 4294967296 + b2n lli * 2147483648
      + b2n k'.hcRes * 1073741824 + b2n hcAdd * 536870912 + b2n k'.coast * 268435456 + b2n supply * 134217728 + b2n e.nsa * 67108864
      + b2n range * 33554432 + k'.state * 2097152 + blank * 8192 + r.c),
    wd (z (bitsS 24 dl) * 4096),
    wd (z (bitsS 10 asC) * 67108864 + z (bitsS 10 deC) * 65536 + z (b2n prof) * 32768),
    wd (min 255 ks.length * 268435456 + min 255 (ks.filter (fun y => y.coast)).length * 1048576), 0]
  (⟨ws, invalid, ovr, td, supply⟩, s)

/-! ## Profile and navigation-data records (R263 to R265) -/

/-- A tap of the profile bank in the buffer, as values. -/
def tapVal (k : Contrib) (i : Nat) : Int × Int :=
  let ep := fld (k.buf.getD 0 0) 7 4
  let w := k.buf.getD (16 + i) 0
  (sfld w 35 18 * 2 ^ ep, sfld w 17 0 * 2 ^ ep)

/-- A profile record after its SEQ. -/
def profRecord (e : EpochAt) (r : EpCh) (k : Contrib) : List Word :=
  let h := k.buf.getD 0 0
  let inv := bit h 18
  let taps := (List.range 32).map (fun i => tapVal k i)
  let epr := groupExp 9 31 taps
  let wide := bit h 3
  let et0 := fld h 11 8
  let pn := [bufCorr k.buf 2, bufCorr k.buf 5]
  let vals := if wide then [pn.getD 0 (0, 0), ((pn.getD 1 (0, 0)).1 * 2 ^ et0, (pn.getD 1 (0, 0)).2 * 2 ^ et0)] else pn
  let et := if wide then groupExp 18 15 vals else et0
  let pk (i : Nat) : Word := if wide then packed (vals.getD i (0, 0)) et else pair18 (vals.getD i (0, 0)).1 (vals.getD i (0, 0)).2
  let half (a : Int × Int) : Nat := bitsS 9 (mant a.1 epr) * 512 + bitsS 9 (mant a.2 epr)
  let w5 := k.slot.getD 5 0
  let z (w : Word) : Word := if inv then 0 else w
  [wd r.x.word1, dtSec e.dt, dtFrac e.dt, wd (k.j % 65536 * 1048576 + fld w5 17 12 * 16384 + fld w5 11 0 * 4),
   z (k.buf.getD 1 0), z (k.buf.getD 2 0), z (k.buf.getD 3 0), z (k.buf.getD 4 0), z (pk 0), z (pk 1),
   wd (et * 4294967296 + epr * 134217728 + b2n inv * 8388608 + fld h 16 16 * 4194304 + fld h 17 17 * 2097152 + fld h 15 12 * 131072
      + fld h 1 1 * 65536 + r.c), 0, 0, 0, 0]
  ++ (List.range 16).map (fun i => z (wd (half (tapVal k (2 * i)) * 262144 + half (tapVal k (2 * i + 1)))))

/-- A navigation-data record after its SEQ. -/
def navRecord (r : EpCh) (m : NavMsg) : List Word :=
  [wd r.x.word1, dtSec m.start, dtFrac m.start,
   wd (m.len * 67108864 + m.check * 16777216 + b2n m.inverted * 8388608 + min 255 m.corr * 32768 + r.c), 0] ++ padTo 26 m.words

/-- Write a channel's messages that are due, and let those that passed enter the Catalogue (R264, R265, R291). -/
def navWrite (q : Nat) (keep : Bool) (r : EpCh) : List NavMsg → State → State
  | [], s => s
  | m :: ms, s =>
    let s := if m.check = 1 then (catEnter r.x.sig r.x.svk r.x.fcn false m.words m.len s).2 else s
    let s := if m.check = 2 then s.sticky R.OBS_STATUS 4 else s
    let s := if (m.check = 2 ∧ !keep) ∨ q = 0 then s else recordSeq q 5 R.OBS_NAV_SEQ (fun n => n :: navRecord r m) (s.cnt R.OBS_NAV_CNT)
    navWrite q keep r ms s

/-! ## Closing an epoch (R247, R261, R262) -/

/-- The messages of a channel due at an epoch. -/
def navDue (e : EpochAt) (x : Chan) : List NavMsg := x.nav.filter (fun m => dtGe e.dt m.last)

/-- A GLONASS slot decoded before the epoch becomes the channel's key (R177). -/
def slotKey (e : EpochAt) : List EpCh → State → State
  | [], s => s
  | r :: rs, s =>
    let s := match r.rel, r.x.idDue with
      | none, some (v, n) =>
        if (n : Int) * 4294967296 ≤ e.num then
          let x := { r.x with svk := 256 + v % 256, prov := false, idDue := none, firstRec := true }
          asgRecord r.c 9 x e.dt 0 0 none (s.setChan r.c x)
        else s
      | _, _ => s
    slotKey e rs s

/-- One channel's part of an epoch as decided before anything is written: whether it reports, its containing integration, whether a
profile record goes with it. -/
structure EpPart where
  r : EpCh
  reports : Bool
  k : Option Contrib
  prof : Bool

/-- What a channel gives an epoch: its measurement and what goes into its records (R248 to R263). -/
def epochPart (e : EpochAt) (profQ : Nat) (r : EpCh) (s : State) : EpPart :=
  let k := match containing (evalAt e r.x s) r.x with
    | some k => if k.done then some k else none
    | none => none
  let ovr := r.ovr e s
  let state := match k with
    | some k => k.state
    | none => 0
  let ok := state == 3 || state == 4 || (state == 2 && bit e.cfg 11)
  let reports := !r.x.prov && (ovr || (!r.over e && k.isSome && ok))
  let prof := reports && profQ != 0 && (match k with
    | some k => bit (k.buf.getD 0 0) 2
    | none => false) && e.e % max 1 (s.rf R.OBS_PROF_CFG 7 0) == 0
  ⟨r, reports, if ovr then none else k, prof && !ovr⟩

/-- Write the observable records; answers those formed, without SEQ. -/
def obsWrite (e : EpochAt) (q : Nat) : List EpPart → State → List ObsRec × State
  | [], s => ([], s)
  | p :: ps, s =>
    if !p.reports then obsWrite e q ps s else
    let (o, s) := obsRecord e p.r p.k p.prof s
    let s := if o.invalid then s.sticky R.OBS_STATUS 0 else s
    let s := if o.td then s.sticky R.OBS_STATUS 1 else s
    let s := if o.ovr then s.sticky R.OBS_STATUS 2 else s
    let s := if e.nsa then s.sticky R.OBS_STATUS 3 else s
    let s := if o.supply then s.sticky R.OBS_STATUS 5 else s
    let s := if q = 0 then s else
      let s := s.cnt R.OBS_REC_CNT
      let s := if o.invalid then s.cnt R.OBS_INVALID_CNT else s
      recordSeq q 3 R.OBS_SEQ (fun n => n :: o.words) s
    let (os, s) := obsWrite e q ps s
    (o :: os, s)

/-- The profile records of an epoch (R263). -/
def profWrite (e : EpochAt) (q : Nat) : List EpPart → State → State
  | [], s => s
  | p :: ps, s =>
    let s := match p.prof, p.k with
      | true, some k => recordSeq q 4 R.OBS_PROF_SEQ (fun n => n :: profRecord e p.r k) (s.cnt R.OBS_PROF_CNT)
      | _, _ => s
    profWrite e q ps s

/-- The navigation-data records of an epoch (R264). -/
def navAll (e : EpochAt) (q : Nat) : List EpPart → State → State
  | [], s => s
  | p :: ps, s => navAll e q ps (navWrite q (bit e.cfg 10) p.r (navDue e p.r.x) s)

/-- A channel after the epoch: what its next record no longer needs is dropped. -/
def epochAfter (e : EpochAt) : List EpPart → State → State
  | [], s => s
  | p :: ps, s =>
    let x := p.r.x
    let x := { x with reported := p.reports, nav := x.nav.filter (fun m => !dtGe e.dt m.last) }
    let x := match p.reports, p.k with
      | true, some k => { x with firstRec := false, lastCont := some k.j, contribs := x.contribs.filter (fun y => decide (k.j ≤ y.j)) }
      | _, _ => x
    let s := match p.r.rel with
      | none => s.setChan p.r.c x
      | some n => { s with obs := { s.obs with gone := s.obs.gone.filterMap (fun q =>
          if q.1 = p.r.c ∧ q.2.1 = n then (if p.r.over e then none else some (q.1, n, x)) else some q) } }
    epochAfter e ps s

/-- The ring setting in force for an epoch (R268). -/
def obsRings (e : EpochAt) (s : State) : Word :=
  match s.obs.ringsOld.find? (fun p => dtGe p.2 e.dt) with
  | some (w, _) => w
  | none => s.reg R.OBS_RINGS

/-- A change of series, the fall-back and the return (R262, R267). -/
def epochSeries (e : EpochAt) (s : State) : State :=
  let short (w : Word) : Word := wd (fld w 7 0)
  let s := match e.old with
    | none => s
    | some o => raiseAt e.dt 0x600 0 0 [short o, short e.cfg, dtSec e.dt] s
  let align := fld e.cfg 7 4
  let s := if e.nsa && !s.obs.nsa then raiseAt e.dt 0x601 1 0 [wd align] s
    else if !e.nsa && s.obs.nsa && align != 0 then raiseAt e.dt 0x602 1 0 [wd align, dtSec e.dt] s else s
  let s := s.setReg R.OBS_CFG e.cfg
  { s with obs := { s.obs with nsa := e.nsa, closed := some e.dt, label := if e.label.isSome then e.label else s.obs.label, chg := s.obs.chg.filter (fun p => !dtGe e.dt p.2) } }

/-- Is the epoch a solution epoch (R271)? -/
def solEpochOf (e : EpochAt) (s : State) : Bool := e.e % max 1 (s.rf R.SOL_CFG 35 28) == 0

/-- Close an epoch: its records, in order, and what follows from them. -/
def closeEpoch (e : EpochAt) (s : State) : State :=
  let rings := obsRings e s
  let qo := fld rings 4 0
  let qp := fld rings 12 8
  let qn := fld rings 20 16
  let s := slotKey e (epochChans e s) s
  let parts := (sortCh (epochChans e s)).map (fun r => epochPart e qp r s)
  let s := epochSeries e s
  let (os, s) := obsWrite e qo parts s
  let supply := os.any (fun o => o.supply)
  let navN := ((parts.map (fun p => ((navDue e p.r.x).filter (fun m => qn != 0 && (m.check != 2 || bit e.cfg 10))).length))).sum
  let profN := (parts.filter (fun p => p.prof)).length
  let align := fld e.cfg 7 4
  let st := if align = 0 ∨ e.nsa then [0, 0] else scaleTimeOf align e.dt s
  let s := recordSeq qo 3 R.OBS_SEQ (fun n =>
    [n, wd (4294967296 + os.length * 1048576 + fld e.cfg 3 0 * 65536 + align * 4096 + b2n e.nsa * 2048 + b2n supply * 1024), dtSec e.dt, dtFrac e.dt]
      ++ st ++ [wd (s.discIn e.cyc.toNat), wd (profN * 4096 + navN)] ++ List.replicate 8 0#36) s
  let s := profWrite e qp parts s
  let s := navAll e qn parts s
  let s := epochAfter e parts s
  let s := pendLine 17 1 (pendLine 16 1 (s.setDt R.OBS_EPOCH_SEC R.OBS_EPOCH_FRAC e.dt))
  let s := s.setF R.OBS_REPORTING 11 0 os.length
  let s := if e.nsa then s.cnt R.OBS_NSA_CNT else s
  let lag := match parts.filterMap (fun p => p.k) with
    | [] => 0
    | ks =>
      let d := dtOfCycle ((ks.map (fun k => k.endN)).foldl max 0)
      if dtGe s.dt d then dtMicros d s.dt else 0
  let s := if 34359738367 < lag then (s.setF R.OBS_CLOSE_LAG_MAX 34 0 34359738367).sticky R.OBS_CLOSE_LAG_MAX 35 else s.maxF R.OBS_CLOSE_LAG_MAX 34 0 lag
  if solEpochOf e s then
    let ep : SolEp := ⟨e.e, e.dt, e.cyc.toNat, s.discIn e.cyc.toNat, os.map (fun o => 0#36 :: o.words), intervalMs (fld e.cfg 3 0) * 163680⟩
    { s with sol := { s.sol with epochs := s.sol.epochs ++ [ep] } }
  else s

/-! ## OBS_CONFIG (R48, R266) -/

/-- A command of the epoch kind is late when an epoch at or after its stamp has been closed (R48). -/
def lateEpoch (p : Packet) (s : State) : Bool :=
  match s.obs.closed with
  | some d => dtGe d p.epoch
  | none => false

/-- A held command of the epoch kind falls due at its stamp, or with an epoch that is ready and not before it. -/
def dueEpoch (h : HeldCmd) (s : State) : Bool := dtGe s.smpDt h.pk.epoch || (dtGe s.nextEpoch.dt h.pk.epoch && epochReady s.nextEpoch s)

/-- The DT from which a command of the epoch kind applies: its stamp, or for an immediate one any, so that it takes the first epoch later than
the last one closed (R48). -/
def epochFrom (h : HeldCmd) : Dt := if h.stamped then h.pk.epoch else 0

/-- OBS_CONFIG. -/
def obsConfigSpec : CmdSpec where
  op := 0x600
  lens := fun n => n == 1
  resv := fun p _ => p.outside 0 0xCFF || !scaleOk (p.pf 0 7 4) || decide (0xD ≤ p.pf 0 3 0)
  late := lateEpoch
  at_ := fun h s => (nextIn (wd (h.pk.pf 0 11 0)) s.obs.closed (epochFrom h) s).dt
  eff := fun h s =>
    let w := wd (h.pk.pf 0 11 0)
    let e := nextIn w s.obs.closed (epochFrom h) s
    (.done (dtWords e.dt), { s with obs := { s.obs with chg := s.obs.chg ++ [(w, e.dt)] } })
  due := dueEpoch

/-- OBS_CONFIG. -/
def execObsConfig (p : Packet) (s : State) : Host.Outcome State Fault Refusal := .next (consumeCmd obsConfigSpec p s)

end Sys2Proof.Machine
end

