-- ==== Sys2Proof/Machine/Settings.lean ====
section
/-! DEFINITION. Settings.lean: the body of the settings record as a sequence of items (R481, R482). -/

namespace Sys2Proof.Machine

/-- The items of a settings body up to END, and whether END was met within the words: `n` bounds the items. -/
def settingsItems : Nat → List Word → List (Nat × List Word) × Bool
  | 0, _ => ([], false)
  | _ + 1, [] => ([], false)
  | n + 1, h :: ws =>
    if fld h 35 24 = 0 then ([], true)
    else if ws.length < fld h 23 0 then ([(fld h 35 24, ws)], false)
    else
      let (is, ok) := settingsItems n (ws.drop (fld h 23 0))
      ((fld h 35 24, ws.take (fld h 23 0)) :: is, ok)

/-- The items of a settings body (R481). -/
def settingsOf (body : List Word) : List (Nat × List Word) := (settingsItems (body.length + 1) body).1

/-- The words of an item of a settings body, if it is there. -/
def settingsItem (code : Nat) (body : List Word) : Option (List Word) := ((settingsOf body).find? (fun p => p.1 == code)).map (fun p => p.2)

/-- A settings body from its items. -/
def settingsBody (is : List (Nat × List Word)) : List Word :=
  (is.map (fun p => wd (p.1 * 16777216 + p.2.length) :: p.2)).flatten ++ [0#36]

/-- The Curator replaces one item of the settings record, every other kept (R482). -/
def settingsPut (code : Nat) (ws : List Word) (s : State) : State :=
  let is := settingsOf (s.nvsBody 1)
  let is := if is.any (fun p => p.1 == code) then is.map (fun p => if p.1 = code then (code, ws) else p) else is ++ [(code, ws)]
  nvsQueue 1 (settingsBody is) s

end Sys2Proof.Machine
end

