-- ==== Sys2Proof/Machine/Sol.lean ====
section
/-! DEFINITION. Sol.lean: solution epochs, fault exclusion, time offsets, holdover, oscillator steering, the solution and Catalogue
commands, and faults of the solution cores (R269 to R298). -/

namespace Sys2Proof.Machine

/-! ## The record (R294) -/

/-- What a solution record carries beyond what the device holds. -/
structure SolRec where
  fix : Nat
  invalid : Bool
  rate : Bool
  fde : Bool
  td : Bool
  unlk : Bool
  range : Bool
  hold : Nat
  drift : Int
  pos : List Word
  vel : List Word
  pacc : Nat
  tacc : Nat
  pdop : Nat
  tdop : Nat
  facc : Nat
  nsv : Nat
  excl : List Nat
  sys : Nat
  rms : Nat

/-- A record with no solution. -/
def SolRec.empty : SolRec :=
  { fix := 0, invalid := true, rate := false, fde := false, td := false, unlk := false, range := false, hold := 0, drift := 0, pos := [], vel := [],
    pacc := 0, tacc := 0, pdop := 0, tdop := 0, facc := 0, nsv := 0, excl := [], sys := 0, rms := 0 }

/-- A field of `n` bits that saturates. -/
def satN (n v : Nat) : Nat := min v (2 ^ n - 1)

/-- Is a field of the record clamped? -/
def SolRec.clamped (r : SolRec) : Bool :=
  satN 18 r.pacc != r.pacc || satN 18 r.tacc != r.tacc || satN 12 r.pdop != r.pdop || satN 12 r.tdop != r.tdop || satN 12 r.facc != r.facc
    || satN 8 r.nsv != r.nsv || satN 3 r.excl.length != r.excl.length || satN 18 r.rms != r.rms || satN 16 r.hold != r.hold
    || decide (clampS 36 r.drift ≠ r.drift)

/-- SV: bit ID + 1 of word 1 for each scale available. -/
def svBits (s : State) : Nat := ((List.range 14).map (fun i => b2n (s.scaleAvail (i + 1)) * 2 ^ (i + 2))).sum

/-- The 32 words of a solution record; `disc` is SYN_DISC_CNT at t_e (R112). -/
def solWords (seq : Word) (te : Dt) (core disc : Nat) (r : SolRec) (s : State) : List Word :=
  let utc := s.rf R.SOL_CFG 27 24
  let none_ := r.invalid && !r.rate
  let z (l : List Word) : List Word := if none_ then l.map (fun _ => 0#36) else l
  let zr (l : List Word) : List Word := if r.invalid then l.map (fun _ => 0#36) else l
  [seq,
   wd (s.rf R.SOL_MODE 2 0 * 536870912 + (if none_ then 0 else r.fix) * 67108864 + b2n r.invalid * 33554432 + b2n r.rate * 16777216
     + b2n r.fde * 8388608 + b2n r.td * 4194304 + b2n r.unlk * 2097152 + b2n (r.range || r.clamped) * 1048576 + core * 65536 + svBits s),
   dtSec te, dtFrac te]
  ++ zr (padTo 3 r.pos) ++ zr (padTo 3 r.vel)
  ++ z ((([1, 2, 3, 4, 5, 6, 14, utc] : List Nat).map (fun k => scaleTimeOf k te s)).flatten)
  ++ [wd (utc * 4294967296 + disc * 65536 + satN 16 r.hold)]
  ++ zr [wdI (clampS 36 r.drift), wd (satN 18 r.pacc * 262144 + satN 18 r.tacc),
      wd (satN 12 r.pdop * 16777216 + satN 12 r.tdop * 4096 + satN 12 r.facc),
      wd (satN 8 r.nsv * 268435456 + satN 3 r.excl.length * 33554432 + r.sys * 262144 + satN 18 r.rms),
      wd (r.excl.getD 0 0 % 2048 * 33554432 + r.excl.getD 1 0 % 2048 * 16384 + r.excl.getD 2 0 % 2048 * 8)]

/-! ## Usable signals (R272, R273) -/

/-- SIG, SVK and carrier of an observable record with its SEQ at word 0. -/
def recSig (w : List Word) : Nat := fld (w.getD 1 0) 31 24
def recSvk (w : List Word) : Nat := fld (w.getD 1 0) 23 13
def recCarrier (w : List Word) : Int := carrierHz (sigRow (recSig w)) (fld (w.getD 1 0) 12 9)

/-- The ephemeris of a satellite that the Catalogue holds, valid at t_e (R272). -/
def State.ephOf (s : State) (svk : Nat) (te : Dt) : Option CatEnt :=
  (s.sol.cat.filter (fun e => !e.pred) ++ s.sol.cat.filter (fun e => e.pred)).find?
    (fun e => e.svk == svk && e.kind % 4 == 0 && e.healthy && Config.ephValid e.words (dtWords te))

/-- No set of the satellite calls it unhealthy. -/
def State.healthy (s : State) (svk : Nat) : Bool := s.sol.cat.all (fun e => e.svk != svk || e.kind % 4 != 2 || e.healthy)

/-- The system parameters of a kind that the Catalogue holds (3 ionosphere, 7 UTC, 11 inter-system offset). -/
def State.sysSet (s : State) (sys kind : Nat) : Option CatEnt := s.sol.cat.find? (fun e => svkSys e.svk == sys && e.kind == kind && !e.pred)

/-- The last position. -/
def State.lastPos (s : State) : List Word := [s.reg R.SOL_POS_X, s.reg R.SOL_POS_Y, s.reg R.SOL_POS_Z]

/-- Is the signal of a record usable at t_e (R272)? The elevation mask waits for the first fix. -/
def recUsable (te : Dt) (w : List Word) (s : State) : Bool :=
  let g (i : Nat) : Word := w.getD i 0
  !bit (g 11) 35 && !bit (g 11) 28 && decide (2 ≤ fld (g 10) 3 2) && decide (64 * s.rf R.SOL_CFG1 27 20 ≤ fld (g 9) 35 20)
    && tbit (s.rf R.SOL_CFG 6 0) (sigSys (recSig w)) && s.healthy (recSvk w)
    && (match s.ephOf (recSvk w) te with
      | some e => !s.sol.fixed || decide ((s.rf R.SOL_CFG1 35 28 : Rat) / 2 ≤ Config.elev e.words (dtWords te) s.lastPos)
      | none => false)

/-- Is a record's signal preferred on a carrier: a pilot before a data component, then the lower SIG? -/
def recBefore (a b : List Word) : Bool :=
  let pa := (sigRow (recSig a)).pilot
  let pb := (sigRow (recSig b)).pilot
  (pa && !pb) || (pa == pb && decide (recSig a < recSig b))

/-- The one preferred of a list. -/
def recPick : List (List Word) → List (List Word)
  | [] => []
  | w :: ws => match recPick ws with
    | b :: _ => if recBefore b w then [b] else [w]
    | [] => [w]

/-- The records a satellite contributes: one signal of each of the two carriers furthest apart, or one signal (R273). -/
def satRecs (rs : List (List Word)) : List (List Word) :=
  let fs := rs.map recCarrier
  let hi := fs.foldl max 0
  let lo := fs.foldl min hi
  let on (f : Int) : List (List Word) := recPick (rs.filter (fun w => recCarrier w == f))
  if lo = hi then on hi else on hi ++ on lo

/-- TX of a record in 2^-52 s. -/
def recTx (w : List Word) : Rat := (((w.getD 4 0).toNat * two36 + (w.getD 5 0).toNat : Nat) : Rat)

/-- Transmit time in 2^-52 s: of one signal, or the ionosphere-free combination of two carriers (R273). -/
def satTx : List (List Word) → Rat
  | [a, b] =>
    let f : Rat := recCarrier a
    let g : Rat := recCarrier b
    recTx a + g * g / (f * f - g * g) * (recTx a - recTx b)
  | l => recTx (l.headD [])

/-- 10^(max(0, 45 − CN0) / 20) in 2^-16 for a C/N0 in 2^-8 dB-Hz (R273). -/
def cnFactor (cn0 : Nat) : Nat :=
  let c := 11520 - cn0
  let g := max 1 (Nat.gcd c 5120)
  leastFrom (fun k => tenPow (5120 / g) ((c / g : Nat) : Int) ((k : Rat) / 65536)) 24 0

/-- The system of a time scale from 0x1 to 0x6, and of the UTC scales 0x8 to 0xD. -/
def sysOfScale (k : Nat) : Nat := [0, 0, 2, 3, 1, 4, 5, 6, 0, 2, 3, 1, 4, 5].getD k 6

/-- A usable satellite: its key, the records it contributes, the scale of its system, the scale of its clock unknown, and its arguments of
the least squares. -/
structure SolSat where
  svk : Nat
  recs : List (List Word)
  scale : Nat
  clock : Nat
  arg : List (List Word) × List Rat

/-- Does the Catalogue hold β of a scale's system (R274)? β of GPS time is 0. -/
def State.betaHeld (s : State) (k : Nat) : Bool := k == 1 || (s.sysSet (sysOfScale k) 11).isSome

/-- β of a scale's system in 2^-4 tick (R280): broadcast, or measured. -/
def betaOf (te : Dt) (k : Nat) (s : State) : Option Int :=
  if k = 1 then some 0 else match s.sysSet (sysOfScale k) 11 with
    | some e => some (Config.isbOf e.words (dtWords te))
    | none => (s.sol.betas.find? (fun b => b.1 == k)).map (fun b => b.2)

/-- One usable satellite from its usable records. The Doppler and C/N0 of a pair are those of its higher carrier (notes/assumptions/87.md). -/
def satOf (te : Dt) (s : State) (svk : Nat) (rs : List (List Word)) : SolSat :=
  let l := satRecs rs
  let w := l.headD []
  let k := txScale (recSig w)
  let clock := if bit (s.reg R.SOL_CFG) 10 && s.betaHeld k then 1 else k
  let msgs := match s.ephOf svk te with
    | some e => e.words :: (s.sol.cat.filter (fun x => x.kind == 3)).map (fun x => x.words)
    | none => []
  let sigma : Rat := (s.rf R.SOL_CFG2 35 18 * cnFactor (fld (w.getD 9 0) 35 20) : Nat) / 65536
  ⟨svk, l, k, clock, (msgs, [satTx l, (sfld (w.getD 8 0) 35 0 : Rat) / 4096 / recCarrier w, sigma, (clock : Rat),
    ((if clock = k then 0 else (betaOf te k s).getD 0 : Int) : Rat)] ++ l.map (fun x => (recCarrier x : Rat)))⟩

/-- Insert a key into an ascending list without repeats. -/
def keyInsert (k : Nat) : List Nat → List Nat
  | [] => [k]
  | a :: as => if k < a then k :: a :: as else if k = a then a :: as else a :: keyInsert k as

/-- The usable satellites of an epoch, ascending by SVK. -/
def usableSats (te : Dt) (recs : List (List Word)) (s : State) : List SolSat :=
  let rs := recs.filter (fun w => recUsable te w s)
  ((rs.map recSvk).foldl (fun l k => keyInsert k l) []).map (fun v => satOf te s v (rs.filter (fun w => recSvk w == v)))

/-! ## The estimation and its test (R274, R275) -/

/-- u: position unknowns outside HOLD, and the clock unknowns. -/
def solUnknowns (l : List SolSat) (s : State) : Nat :=
  let ks := l.map (fun x => x.clock)
  let ks := if bit (s.reg R.SOL_CFG) 10 then 1 :: ks else ks
  (if s.rf R.SOL_MODE 2 0 = 3 then 0 else 3) + ks.eraseDups.length

/-- The weighted least squares over satellites. -/
def solFit (te : Dt) (s : State) (l : List SolSat) : SolFit :=
  Config.lsq ([s.reg R.SOL_MODE] ++ padTo 3 s.sol.held ++ dtWords te ++ padTo 4 s.sol.posAid ++ padTo 5 s.sol.timeAid) (l.map (fun x => x.arg))

/-- The terms of a series in 2^-200: from term `k`, term k + 1 is term k × num / den k. -/
def serFix (num : Nat) (den : Nat → Nat) : Nat → Nat → Nat → Nat → Nat
  | 0, _, _, acc => acc
  | n + 1, k, t, acc => serFix num den n (k + 1) (t * num / den k) (acc + t)

/-- Does a chi-square variable of `d` degrees of freedom exceed t × 2^-12 with a probability of at most 10^(−pfa/4)? -/
def chiOk (d pfa t : Nat) : Bool :=
  let n := 64 + t / 1024
  let e := serFix t (fun k => 8192 * (k + 1)) n 0 (2 ^ 200) 0
  let alpha := Nat.sqrt (Nat.sqrt (2 ^ 400 / 10 ^ pfa))
  if d % 2 = 0 then decide (serFix t (fun k => 8192 * (k + 1)) (d / 2) 0 (2 ^ 200) 0 * 2 ^ 100 ≤ alpha * e)
  else
    let odd (m : Nat) : Nat := serFix t (fun k => 4096 * (2 * k + 3)) m 0 (2 ^ 200) 0
    let root := Nat.sqrt ((2 ^ 200 * (t : Rat) / 8192 / piR).floor.toNat)
    decide (e * (2 ^ 100 - alpha) ≤ 2 * root * (odd (n + d) - odd (d / 2)))

/-- The threshold of R275 to 2^-12. -/
def chiThresh (d pfa : Nat) : Nat := leastFrom (chiOk d pfa) 20 0

/-- What the test of an epoch gives: satellites left, the fit, exclusions with the T that failed, FDE_FAIL. -/
structure SolTest where
  sats : List SolSat
  fit : SolFit
  excl : List (Nat × Nat)
  fail : Bool

/-- The satellite whose removal gives the smallest T, the lowest SVK on a tie; the list is ascending by SVK. -/
def solWorst (te : Dt) (s : State) (l : List SolSat) : List SolSat → Option (Nat × Nat)
  | [] => none
  | x :: xs =>
    let t := (solFit te s (l.filter (fun y => y.svk != x.svk))).t
    match solWorst te s l xs with
    | some (v, t') => if t' < t then some (v, t') else some (x.svk, t)
    | none => some (x.svk, t)

/-- The test and the exclusions of R275; `n` bounds the exclusions. -/
def solTest (te : Dt) (s : State) : Nat → List SolSat → List (Nat × Nat) → SolTest
  | n, l, ex =>
    let f := solFit te s l
    let u := solUnknowns l s
    if l.length ≤ u ∨ f.t ≤ chiThresh (l.length - u) (s.rf R.SOL_CFG 19 14) then ⟨l, f, ex, false⟩
    else match n with
      | 0 => ⟨l, f, ex, true⟩
      | n + 1 =>
        if l.length < u + 2 then ⟨l, f, ex, true⟩ else
        match solWorst te s l l with
        | some (v, _) => solTest te s n (l.filter (fun x => x.svk != v)) (ex ++ [(v, f.t)])
        | none => ⟨l, f, ex, true⟩

/-- A Catalogue entry as CAT_READ writes it: header and message words (R292). -/
def CatEnt.image (e : CatEnt) : List Word :=
  wd (e.sig * 268435456 + e.svk % 2048 * 131072 + e.fcn % 16 * 8192 + e.len % 1024 * 8) :: padTo (ceilDiv e.len 36) e.words

/-- At most once per second of sample time for each satellite, event 0x614 (R275, R296). -/
def exclEvents (te : Dt) (core : Nat) : List (Nat × Nat) → State → State
  | [], s => s
  | (svk, t) :: es, s =>
    let u := uSolk core
    let (ok, s) := rateOkAt (dtSec te) (rateKey 0x614 u + (svk + 1) * 2 ^ 60) s
    let s := if ok then raise 0x614 0 u [wd svk, wd t] s
      else { s with rate := tset (fun _ => RateRec.none) s.rate (rateKey 0x614 u) { tget (fun _ => RateRec.none) s.rate (rateKey 0x614 u) with supp := true } }
    exclEvents te core es s

/-! ## Time offsets (R279 to R282) -/

/-- What a valid solution measures: the offset of each scale with a clock unknown of its own, with the satellites of its system used (R279,
R281). -/
structure SolClk where
  k : Nat
  o : Int
  n : Nat

/-- The clock unknowns of a fit that its satellites fix (R273, R280). -/
def solClocks (t : SolTest) : List SolClk :=
  t.fit.clocks.filterMap (fun c => if 1 ≤ c.1 ∧ c.1 ≤ 6 ∧ (c.1 = 1 ∨ t.sats.any (fun x => x.clock == c.1)) then
    some ⟨c.1, c.2, (t.sats.filter (fun x => x.scale == c.1)).length⟩ else none)

/-- The offset measured of a scale. -/
def clkOf (l : List SolClk) (k : Nat) : Option Int := (l.find? (fun c => c.k == k)).map (fun c => c.o)

/-- β of the systems measured together with GPS time, where none is broadcast (R280). -/
def betasMeasured (l : List SolClk) (s : State) : State :=
  match clkOf l 1 with
  | none => s
  | some g =>
    let new := (l.filter (fun c => c.k != 1)).map (fun c => (c.k, c.o - g))
    { s with sol := { s.sol with betas := new ++ s.sol.betas.filter (fun b => new.all (fun c => c.1 != b.1)) } }

/-- The offset a system scale takes at a valid epoch: its value, and its source (R279). -/
def solOffset (te : Dt) (l : List SolClk) (isb : Bool) (k : Nat) (pred : Int) (m : ScaleM) (s : State) : Option (Int × Nat) :=
  match clkOf l k, clkOf l 1, betaOf te k s with
  | some o, _, _ => some (o, 0)
  | none, some g, some b => if isb then some (g + b, 3) else if m.avail then some (pred, 1) else none
  | none, _, _ => if m.avail then some (pred, 1) else none

/-- GLONASS time and the UTC it is based on: 3 h, and the days between the origins of their counts, in 2^-4 tick (R50, R53). -/
def gloUtc : Int := (8766 * 86400 - 10800) * sec16

/-- The end of the day that holds a leap second of UTC, as GLONASS time numbers it: a day later than UTC's (R53). -/
def gloLeapEnd (e : Int) : Int := e - 8765 * 86400 * sec16

/-- The leap second that a day scale takes: the one its system announces, or the one it has until the day that holds it ends (R53). Week
scales have none. -/
def leapNext (te : Dt) (k : Nat) (s : State) : Option (Int × Bool) :=
  let now := 16 * (te.toNat : Int) + scaleOff k (16 * te.toNat) s
  let old := match (s.scale k).leap with
    | some (e, ins) => if e - 86400 * sec16 ≤ now then some (e, ins) else none
    | none => none
  if k ≠ 4 ∧ (k < 8 ∨ 13 < k) then none
  else old.or (match s.sysSet (sysOfScale k) 7 with
    | some c => match Config.utcLeap c.words (dtWords te) with
      | some (e, ins) => let e := if k = 4 then gloLeapEnd e else e
                         if now < e then some (e, ins) else none
      | none => none
    | none => none)

/-- A day scale whose leap second has passed with its day is numbered anew: its offset takes the second (R53). -/
def leapSettle (te : Dt) (s : State) (k : Nat) : State :=
  let m := s.scale k
  let now := 16 * (te.toNat : Int) + scaleOff k (16 * te.toNat) s
  match m.leap with
  | some (e, true) => if e + sec16 ≤ now then s.setScale k { m with off := m.off - sec16, leap := none } else s
  | some (e, false) => if e - sec16 ≤ now then s.setScale k { m with off := m.off + sec16, leap := none } else s
  | none => s

/-- A system scale at a valid epoch. -/
def solSystem (te : Dt) (l : List SolClk) (drift shift : Int) (isb : Bool) (before s : State) (k : Nat) : State :=
  match solOffset te l isb k (scaleOff k (16 * te.toNat) before + shift) (before.scale k) before with
  | none => s
  | some (o, src) => s.setScale k ⟨true, o, -16 * drift, te, src, leapNext te k before⟩

/-- A UTC scale at a valid epoch: from its broadcasting system by its UTC parameters, without which it is unavailable (R52, R280); UTC as
GLONASS broadcasts it is GLONASS time less 3 h, with the same leap seconds (R53). -/
def solUtc (te : Dt) (drift shift : Int) (before s : State) (k : Nat) : State :=
  let b := s.scale ([1, 2, 3, 4, 5, 6].getD (k - 8) 1)
  let src := if b.src = 1 then 1 else 3
  match s.sysSet (sysOfScale k) 7 with
  | some c =>
    if !b.avail then s
    else if k = 11 then s.setScale k ⟨true, b.off + gloUtc, -16 * drift, te, src, b.leap.map (fun p => (p.1 + 8765 * 86400 * sec16, p.2))⟩
    else s.setScale k ⟨true, b.off + Config.utcOf c.words (dtWords te), -16 * drift, te, src, leapNext te k before⟩
  | none =>
    if (before.scale k).avail then s.setScale k ⟨true, scaleOff k (16 * te.toNat) before + shift, -16 * drift, te, 1, leapNext te k before⟩ else s

/-- T of R281: the weighted mean of O − β over the measured systems whose β is known. -/
def solMean (te : Dt) (l : List SolClk) (s : State) : Option Rat :=
  let l := l.filterMap (fun c => (betaOf te c.k s).map (fun b => ((c.o - b : Int), c.n)))
  let w := (l.map (fun p => p.2)).sum
  if w = 0 then none else some (((l.map (fun p => p.1 * (p.2 : Int))).sum : Rat) / w)

/-- The composite steered scale at a valid epoch (R281). -/
def solComposite (te : Dt) (l : List SolClk) (drift shift : Int) (before s : State) : State :=
  let m := before.scale 14
  let pred := scaleOff 14 (16 * te.toNat) before + shift
  let rate (r : Int) : Int := divRound r (2 ^ 24) - 16 * drift
  match solMean te l s with
  | none => if m.avail then s.setScale 14 ⟨true, pred, rate s.sol.cRate, te, 1, none⟩ else s
  | some t =>
    match m.avail, s.sol.cAt with
    | true, some at_ =>
      let tau : Rat := s.rf R.SOL_CFG1 19 8
      let dt : Rat := ((te - at_).toNat : Rat) / 2 ^ 36
      let since : Rat := ((te - m.at_).toNat : Rat) / 2 ^ 36
      let r0 : Rat := if before.sol.holdover then 0 else (s.sol.cRate : Rat) / 2 ^ 72 * 2 ^ 40
      let base : Rat := pred - r0 * since
      let e := t - base
      let r1 := s.sol.cRate + ratRound (dt * e / (tau * tau) * 2 ^ 32)
      let c := base + dt * (2 * e / tau) + dt * ((r1 : Rat) / 2 ^ 32) - (dt - since) * r0
      ({ s with sol := { s.sol with cRate := r1, cAt := some te } }).setScale 14 ⟨true, ratRound c, rate r1, te, 0, none⟩
    | _, _ => ({ s with sol := { s.sol with cRate := 0, cAt := some te } }).setScale 14 ⟨true, ratRound t, rate 0, te, 0, none⟩

/-- R282: after an episode with PARTIAL set, the integer k. Answers the change of every predicted offset, 2^-4 tick. -/
def solPartial (core : Nat) (ep : SolEp) (l : List SolClk) (tacc : Nat) (s : State) : Int × State :=
  let te := ep.dt
  if !s.sol.pfdPend.any (fun n => decide (n ≤ ep.cyc)) then (0, s) else
  let s := { s with sol := { s.sol with pfdPend := s.sol.pfdPend.filter (fun n => decide (ep.cyc < n)) } }
  let q := s.sol.steer.scale
  let m := s.rf R.SYN_SMP_DIV 11 0
  let f := max 1 (s.rf R.SYN_REF_FREQ 25 0)
  let tpfd : Rat := (m : Rat) * 2 ^ 40 / f
  let meas : Option Rat := if q = 14 then solMean te l s else (clkOf l q).map (fun o => (o : Rat))
  let ratio : Option Rat := match meas with
    | some o => if s.scaleAvail q && decide (0 < m) then some ((o - scaleOff q (16 * te.toNat) s) / tpfd) else none
    | none => none
  match ratio with
  | some r =>
    let k := ratRound r
    if decide ((r - k).abs ≤ 1 / 4) && decide (8 * f * tacc ≤ m * 10000000000) then
      let shift := ratRound (k * tpfd)
      let s := { s with sol := { s.sol with steer := { s.sol.steer with oRef := s.sol.steer.oRef.map (fun o => o + shift) } } }
      (shift, raise 0x619 1 (uSolk core) [wdI k, 1] s)
    else (0, raise 0x619 1 (uSolk core) [wdI k, 0] s)
  | none =>
    let (i, s) := s.takeFree
    (0, raise 0x619 1 (uSolk core) [Config.freeWord i, 0] s)

/-- What the offsets took from episodes that ended after an epoch, in 2^-4 tick (R114). -/
def stepsAfter (ep : SolEp) (s : State) : Int :=
  if ([0, 1, 2, 3] : List Nat).any (fun n => s.replays n) then 0
  else ((s.smp.ended.filter (fun e => decide (ep.cyc < e.1))).map (fun e => 16 * e.2.2)).sum

/-- Every offset of the solution cores and the steering reference move by `d`. -/
def stepShift (d : Int) (s : State) : State :=
  let scales := s.sol.scales.map (fun (p : Nat × ScaleM) => (p.1, { p.2 with off := p.2.off + d }))
  { s with sol := { s.sol with scales := scales, steer := { s.sol.steer with oRef := s.sol.steer.oRef.map (fun o => o + d) } } }

/-! ## The oscillator steering output (R287 to R289) -/

/-- OSS_STATE from the configuration and holdover. -/
def ossSync (s : State) : State :=
  let c := s.reg R.OSS_CFG
  s.setReg R.OSS_STATE (if !bit c 0 then 0 else if fld c 2 1 = 1 then 3 else if s.sol.holdover then 2 else 1)

/-- The first sample cycle at which what the epoch t_e gives may take effect (R17, R288). -/
def ossFrom (te : Dt) (s : State) : Nat := cycleOf s.cycle te + 327360

/-- A code of the oscillator DAC waits for its sample cycle (R288). -/
def ossDue (te : Dt) (code : Nat) (s : State) : State :=
  { s with sol := { s.sol with steer := { s.sol.steer with due := s.sol.steer.due ++ [(ossFrom te s, code)] } } }

/-- One step of the steering loop at a valid epoch (R287). -/
def steerStep (core : Nat) (te : Dt) (s : State) : State :=
  let t := s.sol.steer
  if !t.en || !s.scaleAvail t.scale then s else
  let o := scaleOff t.scale (16 * te.toNat) s
  let t := match t.oRef with
    | some _ => t
    | none => { t with oRef := some o, i := 0, lastDt := some te }
  let x := t.oRef.getD o - o
  let dt : Int := match t.lastDt with
    | some d => (te - d).toNat
    | none => 0
  let i := t.i + dt * x
  let gain := sfld (s.reg R.OSS_GAIN) 35 0
  let s := s.setReg R.SOL_STEER_STAT (wd (bitsS 32 (clampS 32 (divRound x 16)) * 16 + t.scale))
  let put (i : Int) (s : State) : State := { s with sol := { s.sol with steer := { t with i := i, lastDt := some te } } }
  if gain = 0 then (put i s).sticky R.OSS_STATUS 0 else
  let u : Rat := -(2 * (x : Rat) / 2 ^ 40 / t.tau + (i : Rat) / 2 ^ 76 / (t.tau * t.tau : Nat))
  let code : Int := s.rf R.OSS_CENTER 23 0 + ratRound (u * 2 ^ 64 / gain)
  let lo : Int := s.rf R.OSS_MIN 23 0
  let hi : Int := s.rf R.OSS_MAX 23 0
  if code < lo ∨ hi < code then
    let c := (max lo (min hi code)).toNat
    let s := ((((put t.i s).sticky R.SOL_STATUS 5).sticky R.OSS_STATUS 2).cnt R.OSS_LIMIT_CNT)
    ossDue te c (raise 0x617 2 (uSolk core) [wd c] s)
  else ossDue te code.toNat (put i s)

/-- Holdover entry at the output: the mean of the codes written over the last HOLD_AVG seconds, then held (R288). -/
def ossFreeze (te : Dt) (s : State) : State :=
  let n := cycleOf s.cycle te
  let l := (s.sol.steer.codes.filter (fun p => decide (n ≤ p.1 + s.sol.steer.avg * 163680000))).map (fun p => p.2)
  let s := ossSync { s with sol := { s.sol with steer := { s.sol.steer with due := [] } } }
  let s := if s.rf R.OSS_STATE 1 0 = 2 then s.sticky R.OSS_STATUS 1 else s
  if l.isEmpty then s else ossDue te ((2 * l.sum + l.length) / (2 * l.length)) s

/-- Code bits in a frame. -/
def ossBits (c : Word) : Nat := 16 + 4 * fld c 4 3

/-- The frame of a code: PREFIX, then the code in BITS bits (R289). -/
def ossFrame (code : Nat) (s : State) : Nat × Nat :=
  let c := s.reg R.OSS_CFG
  let b := ossBits c
  let len := s.rf R.OSS_FRAME 29 24
  let v := code % 2 ^ b
  let v := if bit c 12 then v ^^^ 2 ^ (b - 1) else v
  (len, s.rf R.OSS_FRAME 23 0 % 2 ^ (len - b) * 2 ^ b + v)

/-- OSS_GRID_POINT: a sample cycle divisible by 163,680,000 / RATE; the code in force is sent. -/
def execOssGridPoint (s : State) : Host.Outcome State Fault Refusal :=
  let c := s.reg R.OSS_CFG
  let rate := fld c 11 5
  if !s.fsOn || !bit c 0 || rate = 0 || s.cycle % (163680000 / rate) != 0 then .next s else
  let t := s.sol.steer
  let ready := t.due.filter (fun p => decide (p.1 ≤ s.cycle))
  let code : Option Nat := if fld c 2 1 = 1 then some (s.rf R.OSS_MANUAL 23 0)
    else match ready.getLast? with
      | some p => some p.2
      | none => t.codes.head?.map (fun p => p.2)
  let s := { s with sol := { s.sol with steer := { t with due := t.due.filter (fun p => decide (s.cycle < p.1)) } } }
  match code with
  | none => .next s
  | some k =>
    let f := ossFrame k s
    let codes := (s.cycle, k) :: t.codes.filter (fun p => decide (s.cycle ≤ p.1 + t.avg * 163680000))
    let s := { s with sol := { s.sol with steer := { s.sol.steer with codes := codes } } }
    .next (((((s.emit (.oss f.1 f.2)).setReg R.OSS_CODE (wd k)).cnt R.OSS_WRITE_CNT)).setReg R.OSS_CODE_SEC (dtSec s.dt))

/-! ## Holdover (R284 to R286) -/

/-- √x rounded to the nearest integer. -/
def ratSqrt (x : Rat) : Nat := (Nat.sqrt (4 * x).floor.toNat + 1) / 2

/-- TACC of R285 at τ ticks after t0, in 0.1 ns. -/
def holdTacc (tau : Nat) (s : State) : Nat :=
  let t : Rat := (tau : Rat) / 2 ^ 36
  let n := s.sol.hCnt
  let varY : Rat := if n ≤ 1 then 0 else (((n : Int) * s.sol.hSq - s.sol.hSum * s.sol.hSum : Int) : Rat) / (n * (n - 1) : Nat) / n / 2 ^ 88
  let sD := s.osc.getD 1 0
  let q1 := s.osc.getD 2 0
  let q2 := s.osc.getD 3 0
  let x0 : Rat := s.sol.tacc0
  ratSqrt (x0 * x0 + (varY * t * t + q1 * t + q2 * t * t * t / 3 + sD * sD * t * t * t * t / 4) * 10 ^ 20)

/-- Holdover begins. -/
def holdEnter (core : Nat) (te : Dt) (s : State) : State :=
  let l := (s.sol.drifts.filter (fun p => decide ((s.sol.t0 - p.1).toNat ≤ s.sol.steer.avg * 68719476736))).map (fun p => p.2)
  let s := { s with sol := { s.sol with holdover := true, hSum := l.sum, hSq := (l.map (fun d => d * d)).sum, hCnt := l.length } }
  let s := (s.setDt R.SOL_HOLD_SEC R.SOL_HOLD_FRAC s.sol.t0).cnt R.SOL_HOLD_CNT
  ossFreeze te (raise 0x612 2 (uSolk core) [wd s.sol.tacc0] (s.sticky R.SOL_STATUS 3))

/-- The offsets at a valid epoch, with the end of holdover (R279 to R282, R286). -/
def solValid (core : Nat) (ep : SolEp) (t : SolTest) (s : State) : State :=
  let te := ep.dt
  let drift := clampS 36 t.fit.drift
  let was := s.sol.holdover
  let q := if s.sol.steer.en then s.sol.steer.scale else 1
  let pred := scaleOff q (16 * te.toNat) s
  let l := solClocks t
  let (shift, s) := solPartial core ep l t.fit.tacc (betasMeasured l s)
  let before := s
  let isb := bit (s.reg R.SOL_CFG) 10
  let s := [1, 2, 3, 4, 5, 6].foldl (fun a k => solSystem te l drift shift isb before a k) s
  let s := [8, 9, 10, 11, 12, 13].foldl (fun a k => solUtc te drift shift before a k) s
  let s := solComposite te l drift shift before s
  let tau := te - s.sol.t0
  let drifts := (s.sol.drifts ++ [(te, drift)]).filter (fun p => decide ((te - p.1).toNat ≤ s.sol.steer.avg * 68719476736))
  let s := { s with sol := { s.sol with holdover := false, everValid := true, t0 := te, tacc0 := satN 18 t.fit.tacc, drifts := drifts } }
  let s := if was then ossSync (raise 0x613 1 (uSolk core) [wdI (clampS 36 (divRound (scaleOff q (16 * te.toNat) s - pred) 16)), dtSec tau] s) else s
  steerStep core te s

/-! ## Modes and survey (R277, R278) -/

/-- Change SOL_MODE.MODE, with event 0x610. -/
def solSetMode (core v : Nat) (s : State) : State :=
  let o := s.rf R.SOL_MODE 2 0
  if o = v then s else raise 0x610 0 (uSolk core) [wd o, wd v] (s.setF R.SOL_MODE 2 0 v)

/-- Show a position in SOL_POS_X to SOL_POS_Z. -/
def solShowPos (p : List Word) (s : State) : State :=
  ((s.setReg R.SOL_POS_X (p.getD 0 0)).setReg R.SOL_POS_Y (p.getD 1 0)).setReg R.SOL_POS_Z (p.getD 2 0)

/-- The held position becomes `p`. -/
def solHold (p : List Word) (s : State) : State := ({ s with sol := { s.sol with held := padTo 3 p } }).setF R.SOL_MODE 3 3 1

/-- The mean of no solution. -/
def meanClear (s : State) : State := { s with sol := { s.sol with mean := .none } }

/-- A solution without FDE_FAIL enters the mean of STATIC and SURVEY (R277). -/
def meanAdd (f : SolFit) (s : State) : State :=
  let w := Config.meanWeight f.pacc
  let m := s.sol.mean
  let p := (List.range 3).map (fun i => m.p.getD i 0 + w * (sfld (f.pos.getD i 0) 35 0 : Rat))
  { s with sol := { s.sol with mean := ⟨m.w + w, p, m.v + w * w * (f.pacc * f.pacc : Nat)⟩ } }

/-- The weighted mean as position words; of no solution the spec states none. -/
def meanPos (s : State) : List Word :=
  (List.range 3).map (fun i => wdI (ratRound (if s.sol.mean.w = 0 then Config.atZero 5 else s.sol.mean.p.getD i 0 / s.sol.mean.w)))

/-- Its 1σ three-dimensional accuracy in mm. -/
def meanAcc (s : State) : Nat := if s.sol.mean.w = 0 then 262143 else ratSqrt (s.sol.mean.v / (s.sol.mean.w * s.sol.mean.w))

/-- A survey at an epoch, and its completion (R278). -/
def surveyStep (core : Nat) (te : Dt) (s : State) : State :=
  if s.rf R.SOL_MODE 2 0 ≠ 2 then s else
  let ran := (te - s.sol.surveyFrom).toNat
  let mins := ran / (60 * 68719476736)
  let acc := meanAcc s
  let s := s.setReg R.SOL_SURVEY (wd (satN 18 acc * 262144 + satN 18 mins))
  let good := decide (s.sol.surveyMin ≤ mins) && s.sol.mean.w != 0 && decide (acc ≤ s.sol.surveyAcc)
  if !good && decide (mins < s.sol.surveyMax) then s else
  let pos := meanPos s
  let s := solShowPos pos (solHold pos s)
  let s := if s.sol.surveySave then settingsPut 8 (pos ++ [wd (ceilDiv (satN 18 acc) 1000 * 262144 + 1)]) s else s
  solSetMode core 3 (raise 0x611 1 (uSolk core) [wd (b2n (!good)), wd (satN 18 acc)] s)

/-! ## A solution epoch -/

/-- SOL_SCLi registers at an epoch. -/
def sclRegs (te : Dt) (s : State) (k : Nat) : State :=
  let m := s.scale k
  if !m.avail then s else
  let w := scaleTimeOf k te s
  let rate := if s.sol.holdover then ratRound (-(s.y0 + s.osc.getD 0 0 * ((te - s.sol.t0).toNat : Rat) / 2 ^ 36) * 2 ^ 48) else m.rate
  let r := clampS 32 rate
  ((s.setReg (R.SOL_SCL_TIME0 k) (w.getD 0 0)).setReg (R.SOL_SCL_TIME1 k) (w.getD 1 0)).setReg (R.SOL_SCL_STAT k)
    (wd (34359738368 + (if s.sol.holdover then 2 else m.src) * 8589934592 + b2n (decide (r ≠ rate)) * 4294967296 + bitsS 32 r))

/-- The registers of every scale (R297). -/
def sclAll (te : Dt) (s : State) : State := [1, 2, 3, 4, 5, 6, 8, 9, 10, 11, 12, 13, 14].foldl (sclRegs te) s

/-- R283: the offsets and rates pass to the timing unit. -/
def solFeed (te : Dt) (tacc fix hold : Nat) (s : State) : State :=
  let one (k : Nat) : Option (Nat × TModel) :=
    let m := s.scale k
    let rate := if s.sol.holdover then ratRound (-(s.y0 + s.osc.getD 0 0 * ((te - s.sol.t0).toNat : Rat) / 2 ^ 36) * 2 ^ 48) else m.rate
    if m.avail then some (k, ⟨true, scaleOff k (16 * te.toNat) s, rate, te, tacc, fix == 3, hold, m.leap⟩) else none
  let ms := ([1, 2, 3, 4, 5, 6, 8, 9, 10, 11, 12, 13, 14] : List Nat).filterMap one
  { s with tpc := { s.tpc with upd := s.tpc.upd ++ [(ossFrom te s, te, ms)] } }

/-- Write the record of an epoch and the registers that show it. -/
def solRecord (te : Dt) (core disc : Nat) (r : SolRec) (s : State) : State :=
  let s := sclAll te (s.setDt R.SOL_LAST_SEC R.SOL_LAST_FRAC te)
  let s := s.setReg R.SOL_FIX (if r.invalid then 0 else wd (satN 8 r.nsv * 268435456 + satN 3 r.excl.length * 33554432 + r.fix * 4194304))
  recordSeq (s.rf R.SOL_RING 4 0) 6 R.SOL_SEQ (fun n => solWords n te core disc r s) s

/-- FDE failures: counters and events (R275, R277, R296). -/
def fdeNote (te : Dt) (core : Nat) (fde : Bool) (n u : Nat) (s : State) : State :=
  if !fde then { s with sol := { s.sol with fdeRun := 0 } } else
  let s := raiseIn (dtSec te) 0x615 2 (uSolk core) [wd n, wd u] ((s.cnt R.SOL_FDEFAIL_CNT).sticky R.SOL_STATUS 2)
  if s.rf R.SOL_MODE 2 0 ≠ 3 then s else
  let k := s.sol.fdeRun + 1
  if k < 60 then { s with sol := { s.sol with fdeRun := k } }
  else raise 0x61A 2 (uSolk core) [wd k] ({ s with sol := { s.sol with fdeRun := 0 } }.sticky R.SOL_STATUS 6)

/-- A solution epoch at which a solution is formed. The offsets are those that hold at t_e, so the steps of episodes that ended later come
back in for it, and go out again before the timing unit is fed (R114). -/
def solCompute (core : Nat) (ep : SolEp) (s : State) : State :=
  let te := ep.dt
  let later := stepsAfter ep s
  let s := [4, 8, 9, 10, 11, 12, 13].foldl (leapSettle te) (stepShift later s)
  let l := usableSats te ep.recs s
  let mode := s.rf R.SOL_MODE 2 0
  let u := solUnknowns l s
  let solved := !l.isEmpty && decide (u ≤ l.length)
  let t := if solved then solTest te s (s.rf R.SOL_CFG 13 11) l [] else ⟨[], solFit te s l, [], false⟩
  let valid := solved && !t.fail
  let s := if solved then { s.cnt R.SOL_SOL_CNT with sol := { s.sol with fixed := true, pacc := t.fit.pacc } } else s
  let s := if t.excl.isEmpty then s else exclEvents te core t.excl ((s.cnt R.SOL_EXCL_CNT t.excl.length).sticky R.SOL_STATUS 1)
  let s := fdeNote te core t.fail t.sats.length (solUnknowns t.sats s) s
  let s := if valid && (mode == 1 || mode == 2) then meanAdd t.fit s else s
  let s := if valid then solValid core ep t s else if s.sol.everValid && !s.sol.holdover then holdEnter core te s else s
  let hold := s.sol.holdover
  let tau := if hold then (te - s.sol.t0).toNat else 0
  let fix := if hold then 3 else if !solved then 0 else if mode = 3 then 2 else 1
  let bad := hold && !s.smpLocked
  let tacc := if bad then 262143 else if hold then holdTacc tau s else if solved then t.fit.tacc else 0
  let drift := if hold then ratRound ((s.y0 + s.osc.getD 0 0 * (tau : Rat) / 2 ^ 36) * 2 ^ 44) else if solved then t.fit.drift else 0
  let used := (t.sats.map (fun x => x.recs)).flatten
  let averaged := (mode == 1 || mode == 2) && s.sol.mean.w != 0
  let pos := if mode = 3 then s.sol.held else if averaged then meanPos s else if solved then t.fit.pos else []
  let z (n : Nat) : Nat := if solved then n else 0
  let sys := ((List.range 7).map (fun y => b2n (used.any (fun w => sigSys (recSig w) == y)) * 2 ^ y)).sum
  let flags (i : Nat) : Bool := used.any (fun w => bit (w.getD 11 0) i)
  let r : SolRec :=
    { fix := fix, invalid := false, rate := false, fde := t.fail, td := flags 33, unlk := flags 32, range := bad, hold := tau / 68719476736, drift := drift,
      pos := pos, vel := (if mode = 0 ∧ solved then t.fit.vel else [0, 0, 0]), pacc := (if averaged then meanAcc s else z t.fit.pacc), tacc := tacc,
      pdop := z t.fit.pdop, tdop := z t.fit.tdop, facc := z t.fit.facc,
      nsv := t.sats.length, excl := t.excl.map (fun p => p.1), sys := sys, rms := z t.fit.rms }
  let s := s.setReg R.SOL_DRIFT (wdI (clampS 36 drift))
  let s := s.setReg R.SOL_HOLD_ERR (wd (b2n (bad || satN 18 tacc != tacc) * 262144 + satN 18 tacc))
  let s := if solved && mode != 3 then solShowPos pos s else s
  let s := stepShift (-later) (surveyStep core te (solRecord te core ep.disc r s))
  solFeed te (satN 18 tacc) fix (tau / 68719476736) s

/-- A solution epoch (R270, R271). -/
def solEpoch (ep : SolEp) (s : State) : State :=
  let core := s.solCore
  let te := ep.dt
  if s.rf R.SOL_CORES 5 4 = 3 then s else
  let div := max 1 (s.rf R.SOL_CFG 35 28)
  let m := ceilDiv 8184000 (div * max 1 ep.iv)
  let hold := if s.sol.holdover then (te - s.sol.t0).toNat / 68719476736 else 0
  let empty (r : SolRec) (s : State) : State :=
    let later := stepsAfter ep s
    stepShift (-later) (solRecord te core ep.disc r (stepShift later s))
  if s.sol.takeover then empty { SolRec.empty with hold := hold } { s with sol := { s.sol with takeover := false } }
  else if s.catCore = core ∧ ep.num % (div * max 1 m) ≠ 0 then empty { SolRec.empty with rate := true, hold := hold } (s.cnt R.SOL_RATELIM_CNT)
  else solCompute core ep s

/-- Solve the oldest epoch that waits. -/
def solNext (s : State) : State :=
  match s.sol.epochs with
  | [] => s
  | ep :: rest => solEpoch ep { s with sol := { s.sol with epochs := rest } }

/-- SOLUTION_EPOCH: the oldest solution epoch closed and not yet solved. -/
def execSolutionEpoch (s : State) : Host.Outcome State Fault Refusal := .next (solNext s)

/-! ## Commands (R295): each takes effect at a measurement epoch -/

/-- A solution or Catalogue command: taken up, and applied when its epoch is closed. -/
def epochSpec (op : Nat) (lens : Nat → Bool) (resv parm : Packet → State → Bool) (buf : Option (Nat × Bool)) : CmdSpec where
  op := op
  lens := lens
  resv := resv
  parm := parm
  buf := buf
  late := lateEpoch
  at_ := fun _ s => s.nextEpoch.dt
  eff := fun h s => (.later, { s with waitReply := s.waitReply ++ [(64, h)] })
  due := dueEpoch

/-- SOL_CONFIG (R295). -/
def solConfigSpec : CmdSpec := epochSpec 0x610 (fun n => n == 3)
  (fun p _ => p.outside 0 0xFFF0FFC7F || p.outside 1 0xFFFFFFF00 || p.outside 2 0xFFFFC0000)
  (fun p _ => p.pf 0 35 28 == 0 || decide (p.pf 0 27 24 < 8 ∨ 13 < p.pf 0 27 24) || decide (p.pf 0 19 14 < 4 ∨ 48 < p.pf 0 19 14)
    || decide (p.pf 1 19 8 < 10) || p.pf 2 35 18 == 0) none

/-- SOL_MODE_SET (R295). -/
def solModeSpec : CmdSpec := epochSpec 0x611 (fun n => n == 2)
  (fun p _ => decide (3 < p.pf 0 35 33) || p.outside 1 0xFFFF) (fun p _ => p.pf 0 31 16 == 0 || p.pf 0 15 0 == 0) none

/-- SOL_POSITION (R293). -/
def solPositionSpec : CmdSpec := epochSpec 0x612 (fun n => n == 4) (fun p _ => p.outside 3 0xFFFFC0001) (fun _ _ => false) none

/-- SOL_OSC_MODEL (R295). -/
def solOscSpec : CmdSpec := epochSpec 0x613 (fun n => n == 4) (fun _ _ => false)
  (fun p _ => p.pf 1 27 27 == 1 || p.pf 2 27 27 == 1 || p.pf 3 27 27 == 1) none

/-- SOL_STEER (R287). -/
def solSteerSpec : CmdSpec := epochSpec 0x614 (fun n => n == 1)
  (fun p _ => p.outside 0 0xFFFFFFF01 || p.pf 0 35 32 == 7 || p.pf 0 35 32 == 15)
  (fun p _ => p.pf 0 35 32 == 0 || decide (p.pf 0 31 20 < 10) || decide (p.pf 0 19 8 < 10)) none

/-- CAT_LOAD (R292). -/
def catLoadSpec : CmdSpec := epochSpec 0x615 (fun n => n == 3) (fun _ _ => false) (fun _ _ => false) (some (0, true))

/-- CAT_TIME (R293). -/
def catTimeSpec : CmdSpec := epochSpec 0x616 (fun n => n == 5)
  (fun p _ => p.outside 0 0xFFFFF000F || !scaleOk (p.pf 0 3 0))
  (fun p _ => decide (p.pf 0 35 16 < 1 ∨ 1000000 < p.pf 0 35 16) || !decide (1 ≤ p.pf 0 3 0 ∧ p.pf 0 3 0 ≤ 6)) none

/-- CAT_READ (R292). -/
def catReadSpec : CmdSpec := epochSpec 0x617 (fun n => n == 3) (fun _ _ => false) (fun _ _ => false) (some (0, false))

/-- CAT_CLEAR (R291). -/
def catClearSpec : CmdSpec := epochSpec 0x618 (fun n => n == 1) (fun p _ => p.outside 0 0x7F) (fun _ _ => false) none

/-- The entries of a CAT_LOAD buffer, in order: entries accepted and rejected (R291, R292). `n` bounds the entries. -/
def catLoad : Nat → List Word → Nat → Nat → State → Nat × Nat × State
  | 0, _, a, r, s => (a, r, s)
  | _, [], a, r, s => (a, r, s)
  | n + 1, h :: ws, a, r, s =>
    let sig := fld h 35 28
    let svk := fld h 27 17
    let fcn := fld h 16 13
    let len := fld h 12 3
    let k := ceilDiv len 36
    let rest := ws.drop k
    if len = 0 ∨ 936 < len ∨ fld h 1 0 ≠ 0 ∨ namesReserved sig svk fcn then catLoad n rest a (r + 1) (catReject sig svk 1 s)
    else if ws.length < k then (a, r + 1, catReject sig svk 0 s)
    else
      let (ok, s) := catEnter sig svk fcn (bit h 2) (ws.take k) len s
      if ok then catLoad n rest (a + 1) r (catSync 1 s) else catLoad n rest a (r + 1) s

/-- The held messages that fit whole in a buffer of `room` words, in order. -/
def catImages (room : Nat) : List CatEnt → List (List Word)
  | [] => []
  | e :: es => if e.image.length ≤ room then e.image :: catImages (room - e.image.length) es else []

/-- SOL_MODE_SET at its epoch (R277). -/
def solModeApply (p : Packet) (te : Dt) (s : State) : Nat × List Word × State :=
  let mode := p.pf 0 35 33
  if mode = 3 ∧ !bit (s.reg R.SOL_MODE) 3 then (5, [], s) else
  let s := { s with sol := { s.sol with fdeRun := 0 } }
  let s := if mode < 3 then meanClear s else s
  let s := if mode = 2 then
      ({ s with sol := { s.sol with surveyMin := p.pf 0 31 16, surveyMax := p.pf 1 15 0, surveyAcc := p.pf 0 15 0, surveySave := bit (p.par 0) 32, surveyFrom := te } }).setReg R.SOL_SURVEY 0
    else if mode = 3 then solShowPos s.sol.held s else s
  (0, dtWords te, solSetMode s.solCore mode s)

/-- SOL_POSITION at its epoch (R277, R293). -/
def solPositionApply (p : Packet) (te : Dt) (s : State) : Nat × List Word × State :=
  let pos := [p.par 0, p.par 1, p.par 2]
  if bit (p.par 3) 0 then
    let s := solHold pos s
    (0, dtWords te, if s.rf R.SOL_MODE 2 0 = 3 then solShowPos pos s else s)
  else (0, dtWords te, { s with sol := { s.sol with posAid := pos ++ [wd (p.pf 3 35 18)] } })

/-- SOL_STEER at its epoch (R287, R295). -/
def solSteerApply (p : Packet) (te : Dt) (s : State) : Nat × List Word × State :=
  let en := bit (p.par 0) 0
  if en ∧ s.reg R.OSS_GAIN = 0 then (5, [], s) else
  let t := s.sol.steer
  let fresh := !t.en || t.scale != p.pf 0 35 32
  let t := { t with en := en, scale := p.pf 0 35 32, tau := p.pf 0 31 20, avg := p.pf 0 19 8 }
  let t := if fresh then { t with oRef := none, i := 0, lastDt := none } else t
  (0, dtWords te, ({ s with sol := { s.sol with steer := t } }).setF R.SOL_STEER_STAT 3 0 t.scale)

/-- CAT_LOAD at its epoch. -/
def catLoadApply (p : Packet) (s : State) : Nat × List Word × State :=
  let (a, r, s) := catLoad (Packet.words p).length (Packet.words p) 0 0 s
  (0, [wd a, wd r], s)

/-- The effect of a solution or Catalogue command at the epoch t_e: status, result words. -/
def epochApply (h : HeldCmd) (te : Dt) (s : State) : Nat × List Word × State :=
  let p := h.pk
  if h.op = 0x610 then (0, dtWords te, ((s.setReg R.SOL_CFG (p.par 0)).setReg R.SOL_CFG1 (p.par 1)).setReg R.SOL_CFG2 (p.par 2))
  else if h.op = 0x611 then solModeApply p te s
  else if h.op = 0x612 then solPositionApply p te s
  else if h.op = 0x613 then
    let ws := [p.par 0, p.par 1, p.par 2, p.par 3]
    (0, ws, { s with sol := { s.sol with osc := ws } })
  else if h.op = 0x614 then solSteerApply p te s
  else if h.op = 0x615 then catLoadApply p s
  else if h.op = 0x616 then
    (0, dtWords te, { s with sol := { s.sol with timeAid := [wd (p.pf 0 35 16 * 16 + p.pf 0 3 0), p.par 1, p.par 2, p.par 3, p.par 4] } })
  else if h.op = 0x617 then
    let l := catImages (bufLen 0 p) s.sol.cat
    (0, [wd l.length], bufPut 0 p l.flatten s)
  else (0, [], catSync 0 { s with sol := { s.sol with cat := s.sol.cat.filter (fun e => !tbit (p.pf 0 6 0) (sigSys e.sig)) } })

/-- Apply a list of commands at an epoch and answer each. -/
def epochAnswer (te : Dt) : List HeldCmd → State → State
  | [], s => s
  | h :: hs, s =>
    let (st, ws, s) := epochApply h te s
    epochAnswer te hs (reply h st te ws s)

/-- The commands taken up whose epoch this is: the Catalogue's, or the others. -/
def epochCommands (cat : Bool) (te : Dt) (s : State) : State :=
  let mine (q : Nat × HeldCmd) : Bool := q.1 == 64 && (decide (0x615 ≤ q.2.op) == cat) && dtGe te (epochFrom q.2)
  let l := (s.waitReply.filter mine).map (fun q => q.2)
  epochAnswer te l { s with waitReply := s.waitReply.filter (fun q => !mine q) }

/-- EPOCH_RECORDS: the next measurement epoch is closed, with the commands that take effect at it. -/
def execEpochRecords (s : State) : Host.Outcome State Fault Refusal :=
  let e := s.nextEpoch
  if !epochReady e s || epochHeld e s then .next s else
  let s := (List.range s.sol.epochs.length).foldl (fun a _ => solNext a) s
  .next (epochCommands true e.dt (closeEpoch e (epochCommands false e.dt s)))

/-- SOL_CONFIG. -/
def execSolConfig (p : Packet) (s : State) : Host.Outcome State Fault Refusal := .next (consumeCmd solConfigSpec p s)
/-- SOL_MODE_SET. -/
def execSolModeSet (p : Packet) (s : State) : Host.Outcome State Fault Refusal := .next (consumeCmd solModeSpec p s)
/-- SOL_POSITION. -/
def execSolPosition (p : Packet) (s : State) : Host.Outcome State Fault Refusal := .next (consumeCmd solPositionSpec p s)
/-- SOL_OSC_MODEL. -/
def execSolOscModel (p : Packet) (s : State) : Host.Outcome State Fault Refusal := .next (consumeCmd solOscSpec p s)
/-- SOL_STEER. -/
def execSolSteer (p : Packet) (s : State) : Host.Outcome State Fault Refusal := .next (consumeCmd solSteerSpec p s)
/-- CAT_LOAD. -/
def execCatLoad (p : Packet) (s : State) : Host.Outcome State Fault Refusal := .next (consumeCmd catLoadSpec p s)
/-- CAT_TIME. -/
def execCatTime (p : Packet) (s : State) : Host.Outcome State Fault Refusal := .next (consumeCmd catTimeSpec p s)
/-- CAT_READ. -/
def execCatRead (p : Packet) (s : State) : Host.Outcome State Fault Refusal := .next (consumeCmd catReadSpec p s)
/-- CAT_CLEAR. -/
def execCatClear (p : Packet) (s : State) : Host.Outcome State Fault Refusal := .next (consumeCmd catClearSpec p s)

/-! ## Faults of a solution core (R29 to R31, R270, R382) -/

/-- Load and start solution core `k` from the firmware image. -/
def solStart (k : Nat) (s : State) : State :=
  startCore (16 + k) (loadImage (16 + k) (kSim k 0) 32768 s)

/-- A solution core is retired: the event of its retirement, of severity fault, names it (R34); the survivor takes over its duties, and says so
by the notice of R296. -/
def solRetire (k : Nat) (s : State) : State :=
  let o := 1 - k
  let gone := bit (s.reg R.SOL_CORES) (4 + o)
  let cat := s.catCore == k
  let sol := s.solCore == k
  let duties := 2 * b2n sol + b2n cat
  let s := retireUnit (uSolk k) 0x616 (s.setCore (16 + k) ApCore.off)
  let s := s.sticky R.SOL_CORES (4 + k)
  let s := handoverFrom (3 + k) (if gone then 0 else 3 + o) s
  if gone then
    let (i, s) := s.takeFree
    raise 0x616 3 (uSolk k) [Config.freeWord i, 0] s
  else
    let s := s.setF R.SOL_CORES 1 0 (3 * o)
    let rbs := if cat then s.acq.rebuilds.map (fun (r : Rebuild) => if r.complete then r else { r with dead := true }) else s.acq.rebuilds
    let s := { s with sol := { s.sol with takeover := true }, acq := { s.acq with rebuilds := rbs } }
    let s := raise 0x616 3 (uSolk k) [wd o, wd duties] (s.sticky R.SOL_STATUS 4)
    raise 0x616 1 (uSolk o) [wd o, wd duties] s

/-- SOLUTION_CORE_FAULT: the core is reloaded and the epoch recomputed exactly, or the core is retired. -/
def execSolutionCoreFault (k : Fin 2) (retryOk : Bool) (s : State) : Host.Outcome State Fault Refusal :=
  if bit (s.reg R.SOL_CORES) (4 + k) || !(s.core (16 + k)).started then .next s else
  let (perm, s) := faultJudge (uSolk k) 4 retryOk s.dt s
  match perm with
  | some _ => .next (solRetire k s)
  | none => .next (solStart k s)

end Sys2Proof.Machine
end

