-- ==== Sys2Proof/Machine/Acq.lean ====
section
/-! DEFINITION. Acq.lean: acquisition: the search, jobs and captures, the engine's halves, the visibility plan, the scheduler and
fall-back searches (R148 to R185). -/

namespace Sys2Proof.Machine

/-! ## States of the halves and fall-back (R168, R169, R178) -/

/-- The state of a half of the engine (R168). -/
def State.halfState (s : State) (h : Nat) : Nat := s.rf (R.ACQ_H_STATE h) 2 0

/-- A half changes state, with event 0x400. -/
def setHalf (h v : Nat) (s : State) : State :=
  let o := s.halfState h
  if o = v then s else raise 0x400 0 (uHalf h) [wd o, wd v] (s.setReg (R.ACQ_H_STATE h) (wd v))

/-- Start or end fall-back as its condition says (R178). -/
def fbSync (s : State) : State :=
  let off (h : Nat) : Bool := s.halfState h == 0 || s.halfState h == 4
  let on := bit (s.reg R.ACQ_CFG) 6 && off 0 && off 1
  if on = s.acq.fbOn then s
  else if on then
    raise 0x406 1 uAcq [wd (b2n (s.halfState 0 == 4 && s.halfState 1 == 4))] ({ s with acq := { s.acq with fbOn := true, fbDone := 0 } }.sticky R.ACQ_STATUS 4)
  else raise 0x407 1 uAcq [wd s.acq.fbDone] { s with acq := { s.acq with fbOn := false } }

/-- A half whose enable bit changes. -/
def halfEnable (h : Nat) (s : State) : State :=
  let en := bit (s.reg R.ACQ_CFG) h
  let st := s.halfState h
  if en then (if st = 0 then setHalf h 1 s else s)
  else if st = 1 ∨ (st = 3 ∧ tget (fun _ => 1) s.acq.pausedFrom h = 1) then setHalf h 0 s else s

/-- A write to ACQ_CFG. -/
def acqCfgSet (v : Word) (s : State) : State := fbSync (halfEnable 1 (halfEnable 0 (s.setReg R.ACQ_CFG v)))

/-- The load shed pauses a half (R168). -/
def halfPause (s : State) (h : Nat) : State :=
  let st := s.halfState h
  if st = 1 ∨ st = 2 then
    setHalf h 3 (({ s with acq := { s.acq with pausedFrom := tset (fun _ => 1) s.acq.pausedFrom h st } }.cnt (R.ACQ_H_PAUSE_CNT h)).sticky (R.ACQ_H_STATUS h) 2)
  else s

/-- Both halves pause as Tj passes the shed level (R168). -/
def acqPause (tj : Word) (s : State) : State :=
  let on := [0, 1].any (fun h => s.halfState h == 1 || s.halfState h == 2)
  let s := [0, 1].foldl halfPause s
  if on then raise 0x40A 1 uAcq [tj] s else s

/-- The load shed is lifted: the state before, exactly. -/
def halfResume (s : State) (h : Nat) : State :=
  if s.halfState h = 3 then setHalf h (tget (fun _ => 1) s.acq.pausedFrom h) s else s

/-- Both halves go on after a pause (R168). -/
def acqResume (s : State) : State := [0, 1].foldl halfResume s

/-! ## Entry of captures and jobs (R153 to R160) -/

/-- Late: the grid point of the stamp precedes the first one after the processing. -/
def lateGrid (p : Packet) (s : State) : Bool := decide (gridMs (cycleOf s.smpNow p.epoch) < gridNext s.smpNow)

/-- Words and pages of a capture of `len` ms at a tap rate (R154). -/
def snapWords (rate len : Nat) : Nat := ceilDiv (len * (tapHz rate / 1000)) 4
def snapPages (rate len : Nat) : Nat := ceilDiv (snapWords rate len) 4096

/-- Copy the samples the tap buffer already holds, `m` of them from cycle `c` on; a word of the tap buffer that gives a bus error poisons the
snapshot's word (R386). -/
def capCopy (n t : Nat) (pages : List Nat) : Nat → Nat → Nat → State → State
  | 0, _, _, s => s
  | m + 1, k, c, s =>
    let tp := s.tap n t
    let d := tapDec (s.tapRate n t)
    let word := c / d / 4 % (2560 * tapUnits (s.tapRate n t))
    let s := match tp.regions[word / 64]? with
      | none => s
      | some r =>
        match memRead (kTap n (64 * r + word % 64)) uAcq s with
        | (s, .ok w) => let j := c / d % 4; snapSample pages k (fld w (8 * j + 7) (8 * j)) (bit w (32 + j)) s
        | (s, _) => s.putStored (kPage pages (k / 4)) poisonWord
    capCopy n t pages m (k + 1) (c + d) s

/-- A capture enters (R154): pages, the descriptor, every sample X = 1 until it is written, and what the tap buffer holds. -/
def capEnter (i n t len g : Nat) (auto : Bool) (s : State) : State :=
  let rate := s.tapRate n t
  let d := tapDec rate
  let pages := (acqFree s).take (snapPages rate len)
  let e := g + len * 163680
  let s := s.setSnap i ⟨g, e, pages⟩
  let s := s.setReg (R.ACQ_SNAP_DESC i)
    (wd (17179869184 + b2n auto * 8589934592 + n * 1073741824 + t * 67108864 + rate * 8388608 + len * 1024 + g / 163680 % 1000))
  let s := s.setReg (R.ACQ_SNAP_SEC i) (dtSec (dtOfCycle g))
  let s := (List.range (snapWords rate len)).foldl (fun a w => snapPut pages w 0xF00000000#36 a) s
  let tp := s.tap n t
  match tp.newest with
  | none => s
  | some c =>
    let a := max g tp.firstN
    if c < a then s else capCopy n t pages (min ((c - a) / d + 1) (len * (tapHz rate / 1000))) ((a - g) / d) a s

/-- Slots occupied at a grid point (R159): all, or the scheduler's. -/
def slotsAt (g : Nat) (sched : Bool) (s : State) : Nat :=
  (s.acq.jobs.filter (fun j => decide (g < j.nomEnd) && (!sched || !j.host))).length

/-- Add cells to a counter in units of 2^20, the rest kept under a key. -/
def cellsAdd (key o n : Nat) (s : State) : State :=
  let t := tget (fun _ => 0) s.acq.cellRem key + n
  let s := { s with acq := { s.acq with cellRem := tset (fun _ => 0) s.acq.cellRem key (t % 1048576) } }
  if t / 1048576 = 0 then s else s.cnt o (t / 1048576)

/-- Does a job that enters at cycle `n` carry TD (R172)? -/
def State.tdAt (s : State) (n : Nat) : Bool :=
  match s.acq.td with
  | some (a, e) => decide (a ≤ n) && (match e with
    | some b => decide (n < b)
    | none => true)
  | none => false

/-- A job is admitted (R157 to R159): its number, its cost, its nominal end, its snapshot's place. Answers the job. -/
def jobAdmit (j : Job) (s : State) : Job × State :=
  let g := sigRow j.sig
  let sn := s.snap j.snap
  let cells := acqCells g j.svk j.tcoh j.nnc j.code j.cwin j.span j.bin
  let nom := max (max j.entryN sn.endN) s.acq.lastEnd + ceilDiv (cells * 1023) 100000
  let seq := s.reg R.ACQ_JOB_SEQ
  let j := { j with
    seq := seq, cells := cells, nomEnd := nom, startN := sn.startN, pages := sn.pages, rate := s.snapRate j.snap, fe := s.snapFe j.snap,
    tap := s.snapTap j.snap, ftap := tapCentre (s.snapFe j.snap) (s.snapTap j.snap) s, td := s.tdAt j.entryN }
  let full := decide (128 ≤ (s.acq.jobs.filter (fun k => decide (k.stage < 2))).length)
  let s := { s with acq := { s.acq with jobs := s.acq.jobs ++ [j], lastEnd := nom } }
  let s := (s.setReg R.ACQ_JOB_SEQ (nextSeq seq)).setDt R.ACQ_NOM_END_SEC R.ACQ_NOM_END_FRAC (dtOfCycle nom)
  let s := cellsAdd 2 R.ACQ_CELLS_CNT cells s
  (j, if full then jobOverrun j s else s)

/-- A job not yet admitted, from what names it. -/
def Job.new : Job :=
  { seq := 0, host := true, tag := 0, sig := 0, svk := 0, fcn := 0, fe := 0, tap := 0, prov := false, snap := 0, startN := 0, pages := [], rate := 0,
    ftap := 0, tcoh := 1, nnc := 1, pfa := 12, ring := 0, dopp := 0, span := 0, bin := 16, code := 0, cwin := 0, entryN := 0, nomEnd := 0, cells := 0,
    gen := 0, age := 0, td := false, aged := false, widened := false, stage := 0, half := 3, status := 0, res := [] }

/-! ## Commands (R157, R181 to R183) -/

/-- Bounds of a job checked at consumption (R157). -/
def jobBad (p : Packet) : Bool :=
  let sig := p.pf 0 27 20
  let svk := p.pf 0 19 9
  let g := sigRow sig
  let tcoh := p.pf 1 28 22
  let bin := p.pf 3 17 0
  namesBad sig svk || unsearchable sig || !tcohOk g tcoh || decide ((if g.pilot then 100 else 20) < tcoh)
    || decide (p.pf 1 21 15 < 1 ∨ 64 < p.pf 1 21 15) || decide (p.pf 1 14 9 < 4 ∨ 48 < p.pf 1 14 9) || decide (100000 < p.pf 3 35 18)
    || decide (bin < 16 ∨ 16000 < bin * tcoh) || decide (2047 < 2 * acqJ (p.pf 3 35 18) bin + 1)
    || decide (acqLen g svk tcoh ≤ (p.par 4).toNat + p.pf 5 20 20 * two36)

/-- ACQ_JOB (R157, R159, R182). -/
def acqJobSpec : CmdSpec where
  op := 0x400
  lens := fun n => n == 6
  resv := fun p _ => p.outside 0 0xFFFFFFF || p.outside 1 0x1FFFFFF0 || p.outside 5 0x1FFFFF || namesReserved (p.pf 0 27 20) (p.pf 0 19 9) (p.pf 0 8 5)
  parm := fun p _ => jobBad p
  late := lateGrid
  bnd := fun p st s => bndGrid s.smpNow p st
  clock := fun _ s => s.smpNow
  grid := 163680
  chk := fun h s =>
    let s := snapsRelease (h.n s) s
    let p := h.pk
    let i := p.pf 0 4 0
    let fe := s.snapFe i
    let tap := s.snapTap i
    let g := sigRow (p.pf 0 27 20)
    let st := s.snapState i
    [(!(st == 1 || st == 2) || decide (s.snapLen i < p.pf 1 28 22 * p.pf 1 21 15) || s.ringClass (p.pf 1 8 4) != 7 || !s.codeKnown g (p.pf 0 19 9)
        || !sigFits fe g (p.pf 0 8 5) s || !tapCarries fe tap g (p.pf 0 8 5) s, 3),
     (decide (64 ≤ slotsAt (h.n s) false s), 4)]
  at_ := fun h s => dtOfCycle (h.n s)
  eff := fun h s =>
    let p := h.pk
    let n := h.n s
    let (j, s) := jobAdmit { Job.new with
      tag := p.tag.toNat, sig := p.pf 0 27 20, svk := p.pf 0 19 9, fcn := p.pf 0 8 5, snap := p.pf 0 4 0, tcoh := p.pf 1 28 22, nnc := p.pf 1 21 15,
      pfa := p.pf 1 14 9, ring := p.pf 1 8 4, dopp := (p.par 2).toInt, span := p.pf 3 35 18, bin := p.pf 3 17 0,
      code := (p.par 4).toNat + p.pf 5 20 20 * two36, cwin := p.pf 5 19 0, entryN := n } (snapsRelease n s)
    (.done ([j.seq] ++ dtWords (dtOfCycle j.nomEnd) ++ [wd j.cells]), s)
  refuse := fun _ st s => ([], if st = 4 then (s.cnt R.ACQ_BUSY_CNT).sticky R.ACQ_STATUS 1 else s)

/-- ACQ_SNAP (R153, R154, R183): its boundary lies on the clock that paces its front end. -/
def acqSnapSpec : CmdSpec where
  op := 0x401
  lens := fun n => n == 1
  resv := fun p _ => p.outside 0 0x1FFFFFF
  parm := fun p _ => decide (p.pf 0 24 12 < 1 ∨ 6400 < p.pf 0 24 12)
  late := fun p s => gridTooOld (p.pf 0 10 9) (p.pf 0 8 5) (gridMs (cycleOf (calClock (p.pf 0 10 9) s) p.epoch)) s
  bnd := fun p st s => bndGrid (calClock (p.pf 0 10 9) s) p st
  clock := fun p s => calClock (p.pf 0 10 9) s
  grid := 163680
  chk := fun h s =>
    let s := snapsRelease (h.n s) s
    let p := h.pk
    let n := p.pf 0 10 9
    let t := p.pf 0 8 5
    [(decide (15 < p.pf 0 4 0), 7), (!s.tapEn n t, 3), (s.snapState (p.pf 0 4 0) != 0, 4),
     (decide ((acqFree s).length < snapPages (s.tapRate n t) (p.pf 0 24 12)), 6)]
  at_ := fun h s => dtOfCycle (h.n s)
  eff := fun h s =>
    let p := h.pk
    let n := p.pf 0 10 9
    let t := p.pf 0 8 5
    let g := h.n s
    (.done (dtWords (dtOfCycle g) ++ [wd (snapPages (s.tapRate n t) (p.pf 0 24 12))]),
     capEnter (p.pf 0 4 0) n t (p.pf 0 24 12) g (bit (p.par 0) 11) (snapsRelease g s))

/-- ACQ_SNAP_RELEASE (R156). -/
def acqReleaseSpec : CmdSpec where
  op := 0x402
  lens := fun n => n == 1
  resv := fun p _ => p.outside 0 0x1F
  late := lateGrid
  bnd := fun p st s => bndGrid s.smpNow p st
  clock := fun _ s => s.smpNow
  grid := 163680
  chk := fun h s =>
    let i := h.pk.pf 0 4 0
    [(decide (15 < i), 7),
     (s.acq.jobs.any (fun j => j.snap == i && j.startN == (s.snap i).startN && s.snapState i != 0 && decide (h.n s < j.nomEnd)), 4)]
  at_ := fun h s => dtOfCycle (h.n s)
  eff := fun h s => (.done [], snapFree (h.pk.pf 0 4 0) s)

/-- Does a cancel from cycle `d` reach a job (R161)? -/
def cancels (w : Word) (d : Nat) (j : Job) : Bool :=
  j.host && (bit w 12 || j.tag == fld w 11 0) && decide (j.entryN ≤ d) && decide (d ≤ j.nomEnd) && decide (j.stage < 3) && j.status != 1

/-- ACQ_CANCEL (R161, R166). -/
def acqCancelSpec : CmdSpec where
  op := 0x403
  lens := fun n => n == 1
  resv := fun p _ => p.outside 0 0x1FFF
  late := lateGrid
  bnd := fun p st s => bndGrid s.smpNow p st
  clock := fun _ s => s.smpNow
  grid := 163680
  at_ := fun h s => dtOfCycle (h.n s)
  eff := fun h s =>
    let js := s.acq.jobs.filter (cancels (h.pk.par 0) (h.n s))
    let s := js.foldl (fun a j => (jobEnd j 1 3 0 a).cnt R.ACQ_CANCEL_CNT) s
    (.done [wd js.length], s)

/-- The SIGs of a list command: COUNT of them, four to a word. -/
def listSigs (p : Packet) : List Nat :=
  (List.range (p.pf 0 8 4)).map (fun i => p.pf (1 + i / 4) (31 - 8 * (i % 4)) (24 - 8 * (i % 4)))

/-- The tick at which a list that enters at cycle `n` takes effect (R181). -/
def listTick (n : Nat) : Nat := ceilDiv n 16368000 * 16368000

/-- ACQ_SCHED_LIST: takes effect at the next tick; a list names no SIG of SYS 7 (R57). -/
def acqListSpec : CmdSpec where
  op := 0x404
  lens := fun n => n == 5
  resv := fun p _ => p.outside 0 0x1F3 || p.outside 1 0xFFFFFFFF || p.outside 2 0xFFFFFFFF || p.outside 3 0xFFFFFFFF || p.outside 4 0xFFFFFFFF
    || (decide (p.pf 0 8 4 ≤ 16) && (listSigs p).any (fun g => !sigDefined g))
  parm := fun p _ => decide (16 < p.pf 0 8 4) || (listSigs p).any (fun g => sigSys g == 7)
  late := lateGrid
  bnd := fun p st s => bndGrid s.smpNow p st
  clock := fun _ s => s.smpNow
  grid := 163680
  at_ := fun h s => dtOfCycle (listTick (h.n s))
  eff := fun h s => (.done [], { s with acq := { s.acq with listDue := s.acq.listDue ++ [(h.pk.pf 0 1 0, listTick (h.n s), listSigs h.pk)] } })

/-- ACQ_BANK_RETURN (R156). -/
def acqReturnSpec : CmdSpec where
  op := 0x405
  lens := fun n => n == 1
  resv := fun p _ => p.outside 0 0xF
  late := lateGrid
  bnd := fun p st s => bndGrid s.smpNow p st
  clock := fun _ s => s.smpNow
  grid := 163680
  units := fun p => [uBank (p.pf 0 3 0)]
  chk := fun h s =>
    let s := snapsRelease (h.n s) s
    let b := h.pk.pf 0 3 0
    [(!(acqBanks s).contains b, 12), ((acqHeld s).any (fun p => p / 64 == b), 4)]
  at_ := fun h s => dtOfCycle (h.n s)
  eff := fun h s => (.done [], bankOwnerWrite 5 uAcq (h.pk.pf 0 3 0) 0 (snapsRelease (h.n s) s))

/-! ## The engine at work (R160, R168) -/

/-- CAPTURE_COMPLETE: a capture reaches its nominal end, or has failed by lagging its tap (R155). -/
def execCaptureComplete (i : Fin 32) (failed : Bool) (s : State) : Host.Outcome State Fault Refusal :=
  if s.snapState i ≠ 1 then .next s else
  if failed then .next ((snapJobs i s).foldl (fun a j => jobOverrun j a) (s.setF (R.ACQ_SNAP_DESC i) 35 34 3))
  else if reached (s.snapFe i) (s.snap i).endN s then .next (s.setF (R.ACQ_SNAP_DESC i) 35 34 2) else .next s

/-- Is a job's snapshot complete? -/
def jobReady (j : Job) (s : State) : Bool :=
  !((s.snap j.snap).startN == j.startN && (s.snap j.snap).pages == j.pages && s.snapState j.snap == 1)

/-- Are both halves RETIRED (R169)? -/
def State.acqGone (s : State) : Bool := s.halfState 0 == 4 && s.halfState 1 == 4

/-- JOB_START: a free half takes the lowest-numbered admitted job whose snapshot is complete; `us` is the time it was idle. While both halves
are RETIRED that job ends ENGINE_RETIRED as its turn comes (R169). -/
def execJobStart (h : Fin 2) (us : Word) (s : State) : Host.Outcome State Fault Refusal :=
  if s.halfState h ≠ 1 ∧ !s.acqGone then .next s else
  match s.acq.jobs.find? (fun j => j.stage == 0 && jobReady j s) with
  | none => .next s
  | some j =>
    if s.acqGone then .next (jobEnd j 5 j.half 0 s) else
    let s := s.setJob { j with stage := 1, half := if j.half = 3 then h else j.half }
    let s := (s.setReg (R.ACQ_H_CUR_JOB h) j.seq).cnt (R.ACQ_H_IDLE_US h) us.toNat
    .next (setHalf h 2 s)

/-- The engine reads a snapshot's words: none on a bus error; it waits while the bank does not serve (R385). -/
def snapRead (pages : List Nat) : Nat → Nat → State → Option (List Word) × State
  | 0, _, s => (some [], s)
  | n + 1, w, s =>
    match bankRead 5 0 (pageAt pages w).1 (pageAt pages w).2 uAcq (acqServe (pageAt pages w).1 s) with
    | (s, .ok d) =>
      match snapRead pages n (w + 1) s with
      | (some ds, s) => (some (d :: ds), s)
      | (none, s) => (none, s)
    | (s, _) => (none, s)

/-- A job is searched to its end by half `h` (R162 to R164); a record without DONE names the half that began the job (R166). -/
def jobSearch (h : Nat) (j : Job) (s : State) : State :=
  match snapRead j.pages (snapWords j.rate (j.tcoh * j.nnc)) 0 s with
  | (none, s) => jobEnd j 6 j.half 0 (((s.cnt (R.ACQ_H_POISON_CNT h)).sticky (R.ACQ_H_STATUS h) 1).cnt R.ACQ_LOST_CNT)
  | (some ws, s) =>
    match acqSearch s j (ws.map wordSamples).flatten with
    | (true, o) => jobEnd j 4 j.half o.excl s
    | (false, o) =>
      let (cn, rg) := acqCn0 o.peak j.nnc j.tcoh
      s.setJob { j with stage := 2, res := jobWords j 0 h (decide (searchThresh j ≤ o.peak)) rg (bitsS 16 cn) (searchThresh j) (searchW j * searchF j) o }

/-- JOB_COMPLETE: the half hands its result to the ordering stage; `us` is the time the search took. -/
def execJobComplete (h : Fin 2) (us : Word) (s : State) : Host.Outcome State Fault Refusal :=
  if s.halfState h ≠ 2 then .next s else
  let seq := s.reg (R.ACQ_H_CUR_JOB h)
  let s := match s.acq.jobs.find? (fun j => j.seq == seq && j.stage == 1) with
    | none => s
    | some j =>
      let (f, s) := s.takeFree
      let s := (cellsAdd h (R.ACQ_H_CELLS_CNT h) j.cells (jobSearch h j s)).cnt (R.ACQ_H_FFT_CNT h) (Config.freeWord f).toNat
      s.setReg (R.ACQ_H_RATE h) (wd (min (two36 - 1) (j.cells / max 1 us.toNat)))
  let s := ((s.setReg (R.ACQ_H_LAST_JOB h) seq).cnt (R.ACQ_H_JOBS_CNT h)).cnt (R.ACQ_H_BUSY_US h) us.toNat
  .next (fbSync (setHalf h (if bit (s.reg R.ACQ_CFG) h then 1 else 0) s))

/-- A half is retired: the job in progress on it passes to the other, or ends with it (R168). -/
def halfRetire (h cause : Nat) (s : State) : State :=
  let seq := s.reg (R.ACQ_H_CUR_JOB h)
  let busy := s.halfState h == 2 || (s.halfState h == 3 && tget (fun _ => 1) s.acq.pausedFrom h == 2)
  let s := setHalf h 4 (s.sticky R.ACQ_STATUS 0)
  let s := raise 0x408 3 (uHalf h) [wd cause, seq] (retireUnit (uHalf h) 0x408 s)
  let s := match s.acq.jobs.find? (fun j => busy && j.seq == seq && j.stage == 1) with
    | some j => if s.acqGone then jobEnd j 5 j.half 0 s else s.setJob { j with stage := 0 }
    | none => s
  fbSync (if s.acqGone then handoverFrom 5 0 s else s)

/-- ACQ_HALF_FAULT: residues differ; the job is rerun from its snapshot, or the half is retired (R29, R31, R168). -/
def execAcqHalfFault (h : Fin 2) (retryOk : Bool) (s : State) : Host.Outcome State Fault Refusal :=
  if s.halfState h = 4 then .next s else
  let seq := s.reg (R.ACQ_H_CUR_JOB h)
  let (perm, s) := faultJudge (uHalf h) 3 retryOk s.dt s
  let s := (s.cnt (R.ACQ_H_RESIDUE_CNT h)).sticky (R.ACQ_H_STATUS h) 0
  let s := (s.setDt (R.ACQ_H_FAULT_SEC h) (R.ACQ_H_FAULT_FRAC h) s.dt).setReg (R.ACQ_H_FAULT_INFO h) seq
  match perm with
  | none => .next (if s.halfState h = 2 then raise 0x409 0 (uHalf h) [seq] s else s)
  | some k => .next (halfRetire h k s)

/-- The assignment that a detection of `code` and `dopp` at `ref` asks for, entering at cycle `n` (R175, R211). -/
def detAssign (j : Job) (c : Option Nat) (n code : Nat) (dopp : Int) (ref : Dt) (seq : Word) (s : State) : Assign :=
  { n := n, chan := c, sig := j.sig, svk := j.svk, fcn := j.fcn, fe := j.fe, tap := j.tap, prof := false, wide := false, freerun := false,
    ring := s.rf R.ACQ_SCHED_CFG 19 15, tag := 0, sched := true, direct := false, prov := j.prov, code := code,
    prim := !acqSec (sigRow j.sig) j.svk j.tcoh, dopp := dopp, ref := ref, acqSeq := seq, acqValid := true, order := 0, amb := 0 }

/-- RESULT_RECORD_WRITE: the oldest job, ended and past its nominal end, gives its result; a scheduler's detection asks for a channel at the
first grid point after that nominal end. -/
def execResultRecordWrite (s : State) : Host.Outcome State Fault Refusal :=
  match s.acq.jobs.find? (fun j => decide (j.stage < 3)) with
  | none => .next s
  | some j =>
    if j.stage ≠ 2 || !s.fsOn || decide (s.smpNow < j.nomEnd) then .next s else
    let s := s.setJob { j with stage := 3 }
    let s := record j.ring 7 (j.seq :: j.res) (resultCount j s)
    let lag := (s.smpNow - j.nomEnd) * 25 / 4092
    let s := if 34359738367 < lag then (s.setF R.ACQ_LAG_MAX 34 0 34359738367).sticky R.ACQ_LAG_MAX 35 else s.maxF R.ACQ_LAG_MAX 34 0 lag
    if j.host || !bit (j.res.getD 3 0) 31 then .next s else
    let code := (j.res.getD 4 0).toNat + fld (j.res.getD 14 0) 15 15 * two36
    .next (doAssign (detAssign j none (gridNext j.nomEnd) code (j.res.getD 5 0).toInt (dtOfCycle j.startN) j.seq s) s)

/-- JOB_NOMINAL_END: slots fall free, and a snapshot with AUTO_REL whose last job has reached its nominal end is released (R156, R159). -/
def execJobNominalEnd (s : State) : Host.Outcome State Fault Refusal :=
  if !s.fsOn then .next s else
  let s := snapsRelease s.smpNow s
  .next { s with acq := { s.acq with jobs := s.acq.jobs.filter (fun j => decide (j.stage < 3 ∨ s.smpNow < j.nomEnd)) } }

/-! ## The visibility plan (R170 to R173) -/

/-- The scheduler list of a front end. -/
def schedList (n : Nat) (s : State) : List Nat := tget (fun _ => ([] : List Nat)) s.acq.lists n

/-- Insert a plan entry by descending elevation, then SVK, then the order of a list; equal ones keep their order. -/
def insertEnt (lst : List Nat) (e : PlanEnt) : List PlanEnt → List PlanEnt
  | [] => [e]
  | a :: as =>
    let pos (g : Nat) : Nat := lst.findIdx (fun x => x == g)
    if a.el < e.el ∨ (a.el = e.el ∧ (e.svk < a.svk ∨ (e.svk = a.svk ∧ pos e.sig < pos a.sig))) then e :: a :: as else a :: insertEnt lst e as

/-- The satellites for which the Catalogue holds an orbit: an ephemeris or an almanac. -/
def orbitSats (s : State) : List Nat := ((s.sol.cat.filter (fun e => decide (e.kind % 4 < 2) && !e.pred)).map (fun e => e.svk)).foldl (fun l k => keyInsert k l) []

/-- The frequency number the Catalogue gives a satellite's signal (R56, R177). -/
def catFcn (sig svk : Nat) (s : State) : Nat :=
  if sig = 0x20 ∨ sig = 0x21 then ((s.sol.cat.find? (fun e => e.svk == svk && decide (e.kind % 4 < 2) && !e.pred)).map (fun e => e.fcn)).getD 0 else 0

/-- The channels as of sample cycle `n`: those assigned, with those released after it (R174). -/
def chansAt (n : Nat) (s : State) : List (Nat × Chan) :=
  s.chans.filter (fun p => p.2.cond != 0) ++ (s.obs.gone.filter (fun g => decide (n < g.2.1) && decide (g.2.2.entryN ≤ n))).map (fun g => (g.1, g.2.2))

/-- The entry of a plan generation with reference cycle `a` for a satellite, signal and front end (R170), by the channels as of cycle `e`. -/
def planEnt (e a n svk sig : Nat) (s : State) : PlanEnt :=
  let fcn := catFcn sig svk s
  let p := Config.orbit (s.sol.cat.map CatEnt.image) svk sig fcn n a
  let held := s.sol.cat.filter (fun e => e.svk == svk && !e.pred)
  { svk := svk, sig := sig, fcn := fcn, fe := n, code := p.code % (primLen (sigRow sig) * 4096), cunc := p.cunc, dopp := p.dopp, drate := p.drate,
    dunc := p.dunc, el := p.el, az := p.az, eph := held.any (fun e => e.kind % 4 == 0), health := held.all (fun e => e.healthy),
    tracked := (chansAt e s).any (fun c => decide (c.2.entryN ≤ e) && c.2.fe == n && c.2.sig == sig && c.2.svk == svk && c.2.fb.isNone) }

/-- The entries of a generation: satellites of the Catalogue above −5°, for the signals of each front end's list, the highest 4,096. -/
def planEnts (e a : Nat) (s : State) : List PlanEnt :=
  let all := ((List.range 4).map (fun n => ((schedList n s).map (fun sig =>
    ((orbitSats s).filter (fun v => svkSys v == sigSys sig)).map (fun v => planEnt e a n v sig s))).flatten)).flatten
  ((all.filter (fun e => decide (-10 < e.el))).foldl (fun l e => insertEnt [] e l) []).take 4096

/-- Begin a rebuild with E_k = `e`; one still running is abandoned (R171, R172). -/
def planStart (e : Nat) (s : State) : State :=
  let a := e + s.rf R.ACQ_PLAN_CFG 11 0 * 163680
  { s with acq := { s.acq with rebuilds := s.acq.rebuilds.filter (fun r => r.complete) ++ [⟨e, a, false, planEnts e a s, false, false⟩] } }

/-- Every epoch up to sample cycle `n` has been closed, so that the Catalogue is that of `n` (R171, R174, R291). -/
def epochsBy (n : Nat) (s : State) : Bool := decide ((n : Int) < s.nextEpoch.cyc)

/-- PLAN_REBUILD_START: the first multiple of PERIOD that sample time has reached and for which no rebuild has begun. -/
def execPlanRebuildStart (s : State) : Host.Outcome State Fault Refusal :=
  match s.acq.eks with
  | [] => .next s
  | e :: rest => if !catAlive s || !epochsBy e s then .next s else .next (planStart e { s with acq := { s.acq with eks := rest } })

/-- Replace the first rebuild that is `p`. -/
def rebuildSet (p : Rebuild → Bool) (f : Rebuild → List Rebuild) : List Rebuild → List Rebuild
  | [] => []
  | r :: rs => if p r then f r ++ rs else r :: rebuildSet p f rs

/-- PLAN_REBUILD_COMPLETE: the rebuild in progress is complete. -/
def execPlanRebuildComplete (s : State) : Host.Outcome State Fault Refusal :=
  .next { s with acq := { s.acq with rebuilds := rebuildSet (fun r => !r.complete && !r.dead) (fun r => [{ r with complete := true }]) s.acq.rebuilds } }

/-- A generation becomes active for jobs that enter from cycle `from_` on; on time it ends TD there (R171, R172). -/
def planActivate (r : Rebuild) (from_ : Nat) (s : State) : State :=
  let g := nextSeq s.acq.lastGen
  let td := if r.late then s.acq.td else s.acq.td.map (fun t => (t.1, some (t.2.getD from_)))
  let s := { s with acq := { s.acq with plan := some ⟨g, r.aN, from_, r.ents⟩, planOld := s.acq.plan, rebuilds := s.acq.rebuilds.erase r, lastGen := g, td := td } }
  let s := (s.setReg R.ACQ_PLAN_GEN g).setDt R.ACQ_PLAN_SEC R.ACQ_PLAN_FRAC (dtOfCycle r.aN)
  raise 0x401 0 uAcq [g, wd r.ents.length] s

/-- The rebuild whose reference cycle sample time has reached, by cycle `n`. -/
def planDue (n : Nat) (s : State) : Option Rebuild := s.acq.rebuilds.find? (fun r => !r.late && decide (r.aN ≤ n))

/-- PLAN_ACTIVATE: sample time has reached A_k: the new generation becomes active, or the rebuild is late (R171, R172). -/
def execPlanActivate (s : State) : Host.Outcome State Fault Refusal :=
  match planDue s.smpNow s with
  | none => .next s
  | some r =>
    if !s.fsOn then .next s
    else if r.complete then .next (planActivate r r.aN s)
    else
      let open_ := match s.acq.td with
        | some (a, none) => some (a, none)
        | _ => some (r.aN, none)
      let s := { s with acq := { s.acq with rebuilds := rebuildSet (fun x => x == r) (fun x => if x.dead then [] else [{ x with late := true }]) s.acq.rebuilds, td := open_ } }
      let kept : Word := match s.acq.plan with
        | some p => p.gen
        | none => 0
      .next (raise 0x402 2 uAcq [kept] ((s.cnt R.ACQ_PLAN_LATE_CNT).sticky R.ACQ_STATUS 5))

/-! ## The scheduler (R174 to R177) -/

/-- A candidate: SVK, SIG, FCN, provisional, and its plan entry. -/
structure Cand where
  svk : Nat
  sig : Nat
  fcn : Nat
  prov : Bool
  ent : Option PlanEnt

/-- The satellites of R176 for a signal. -/
def coldRange (sig : Nat) : List Nat :=
  let l (a b : Nat) : List Nat := (List.range (b + 1 - a)).map (fun i => a + i)
  match sigSys sig with
  | 0 => l 1 32
  | 1 => l 1 24
  | 2 => l 1 36
  | 3 => l 1 63
  | 4 => if sig = 0x83 then l 183 191 else l 193 202
  | 5 => l 1 14
  | 6 => l 120 158
  | _ => []

/-- The SYS of a signal's satellites in a satellite key. -/
def keyOf (sig n : Nat) : Nat := sigSys sig * 256 + n

/-- The satellites that an almanac of the Catalogue lists as healthy, ascending by SVK. -/
def almanacSats (sys : Nat) (s : State) : List Nat :=
  ((s.sol.cat.filter (fun e => e.kind % 4 == 1 && !e.pred && e.healthy && svkOk e.svk && svkSys e.svk == sys)).map (fun e => e.svk)).foldl (fun l k => keyInsert k l) []

/-- The cold candidates of a listed signal (R176, R177). -/
def coldCands (sig : Nat) (s : State) : List Cand :=
  let sys := sigSys sig
  if s.sol.cat.any (fun e => e.kind % 4 == 1 && svkSys e.svk == sys) then (almanacSats sys s).map (fun v => ⟨v, sig, catFcn sig v s, false, none⟩)
  else if sig = 0x20 ∨ sig = 0x21 then (List.range 14).map (fun i => ⟨256 + (i + 1), sig, bitsS 4 ((i : Int) - 7), true, none⟩)
  else ((coldRange sig).filter (fun n => s.codeKnown (sigRow sig) (keyOf sig n))).map (fun n => ⟨keyOf sig n, sig, 0, false, none⟩)

/-- The candidates of a front end at a tick (R174 step 1). -/
def candidates (n tick : Nat) (s : State) : List Cand :=
  let lst := schedList n s
  match s.planAt tick with
  | some p =>
    if s.rf R.ACQ_SCHED_CFG 21 20 = 2 then
      let es := p.ents.filter (fun e => e.fe == n && decide ((s.rf R.ACQ_SCHED_CFG 7 0 : Int) ≤ e.el))
      (es.foldl (fun a e => insertEnt lst e a) []).map (fun e => ⟨e.svk, e.sig, e.fcn, false, some e⟩)
    else (lst.map (fun g => coldCands g s)).flatten
  | none => (lst.map (fun g => coldCands g s)).flatten

/-- R174 step 2: is the candidate tracked, pending, or recently missed? A provisional one is dropped only while a provisional channel of its
frequency number is tracked or pending (R177). -/
def candDropped (n tick : Nat) (c : Cand) (s : State) : Bool :=
  let same (sig svk fcn : Nat) (prov : Bool) : Bool := sig == c.sig && (if c.prov then prov && fcn == c.fcn else svk == c.svk && !prov)
  (chansAt tick s).any (fun p => p.2.fe == n && same p.2.sig p.2.svk p.2.fcn p.2.prov)
    || s.assignQ.any (fun a => a.fe == n && same a.sig a.svk a.fcn a.prov)
    || s.acq.jobs.any (fun j => !j.host && decide (j.stage < 3) && j.fe == n && same j.sig j.svk j.fcn j.prov)
    || s.acq.fb.any (fun f => f.job.fe == n && same f.job.sig f.job.svk f.job.fcn f.job.prov)
    || (!c.prov && s.acq.misses.any (fun m => m.fe == n && m.sig == c.sig && m.svk == c.svk && m.fcn == c.fcn
        && decide (tick < m.n + s.rf R.ACQ_SCHED_CFG 35 28 * 163680000)))

/-- The tap for a candidate: lowest rate, then lowest index (R174 step 4). -/
def candTap (n : Nat) (c : Cand) (s : State) : Option Nat :=
  let g := sigRow c.sig
  let ok := (List.range 16).filter (fun t => s.tapEn n t && sigFits n g c.fcn s && tapCarries n t g c.fcn s)
  ok.foldl (fun a t => match a with
    | none => some t
    | some b => if s.tapRate n b < s.tapRate n t then some t else some b) none

/-- The search a candidate gets (R173, R174 step 4), with the search's front end and tap; entry at `tick`. -/
def candJob (n t tick : Nat) (c : Cand) (s : State) : Job :=
  let g := sigRow c.sig
  let tcoh := max 1 (primLen g * 1000 / codeHz g)
  let base : Job := { Job.new with
    host := false, sig := c.sig, svk := c.svk, fcn := c.fcn, fe := n, tap := t, prov := c.prov, tcoh := tcoh,
    nnc := (if tcoh ≤ 2 then 4 else if tcoh ≤ 10 then 2 else 1), bin := 8000 / tcoh, pfa := s.rf R.ACQ_PFA_DEF 5 0, ring := s.rf R.ACQ_SCHED_CFG 19 15,
    span := s.rf R.ACQ_SCHED_DOPP 35 18, entryN := tick }
  match c.ent, s.planAt tick with
  | some e, some p =>
    let a : Int := (dtOfCycle tick).toNat - (dtOfCycle p.aN).toNat
    let an := a.toNat
    let fc := carrierHz g c.fcn * 4096
    let dopp := e.dopp + divRound (e.drate * 16 * a) two36
    let l := primLen g * 4096
    let code := (((e.code : Int) + codeHz g * 4096 * a * (fc + e.dopp) / (fc * two36)) % (l : Int)).toNat
    let dspan := max (s.rf R.ACQ_SCHED_DOPP 17 0) (e.dunc + ceilDiv (an * s.rf R.ACQ_PLAN_GROW 35 18) (16 * two36))
    let cwin := e.cunc + ceilDiv (an * s.rf R.ACQ_PLAN_GROW 17 0) (16 * two36)
    let aged := decide (s.rf R.ACQ_PLAN_CFG 23 12 * two36 < an)
    let wide := aged || decide (l ≤ 4 * windowOf g cwin)
    let j := { base with dopp := dopp, code := code, gen := p.gen, age := min 1048575 (an * 16 / two36), aged := aged, widened := wide }
    if wide then j else { j with span := dspan, cwin := cwin }
  | _, _ => base

/-- Event 0x403, once for each generation (R173). -/
def agedNote (j : Job) (s : State) : State :=
  if !j.aged || s.acq.agedSaid == j.gen then s
  else raise 0x403 1 uAcq [j.gen, wd j.age] ({ s with acq := { s.acq with agedSaid := j.gen } }.sticky R.ACQ_STATUS 6)

/-- A search that R157 would refuse is not entered. -/
def candFits (j : Job) (s : State) : Bool :=
  !unsearchable j.sig && s.codeKnown (sigRow j.sig) j.svk && decide (2 * acqJ j.span j.bin + 1 ≤ 2047)

/-- The integration of a channel that contains sample cycle `n`, where the channel tracks there. -/
def trackedAt (n : Nat) (x : Chan) : Option Contrib :=
  match containing ((n : Int) * 4294967296) x with
  | some k => if k.done && k.state == 3 then some k else none
  | none => none

/-- R175: another signal of the satellite is tracked on any front end at a tick, and DIRECT is 1: its channel and integration. -/
def directFrom (n tick : Nat) (c : Cand) (s : State) : Option (Chan × Contrib) :=
  if !bit (s.reg (R.ACQ_FE_SCHED n)) 1 || c.prov then none else
  (chansAt tick s).findSome? (fun p => if p.2.svk == c.svk && p.2.sig != c.sig && !p.2.prov then (trackedAt tick p.2).map (fun k => (p.2, k)) else none)

/-- A direct assignment (R175): the code phase at the tick from the transmit time of the signal tracked, the Doppler scaled by the ratio of
the carriers. It enters at the first grid point after the tick. -/
def directAssign (n t tick : Nat) (x : Chan) (k : Contrib) (c : Cand) (s : State) : State :=
  let g := sigRow c.sig
  let code := txOf x k ((tick : Int) * 4294967296) s * codeHz g * 4096 / 4503599627370496
  let dopp := divRound (doppOf x k s * carrierHz g c.fcn) (carrierHz (sigRow x.sig) x.fcn)
  doAssign { n := gridNext tick, chan := none, sig := c.sig, svk := c.svk, fcn := c.fcn, fe := n, tap := t, prof := false, wide := false, freerun := false,
             ring := s.rf R.ACQ_SCHED_CFG 19 15, tag := 0, sched := true, direct := true, prov := c.prov, code := code, prim := false, dopp := dopp,
             ref := dtOfCycle tick, acqSeq := 0, acqValid := false, order := 0, amb := if 2 ≤ k.amb then 2 else 0 } (s.cnt R.ACQ_DIRECT_CNT)

/-- R174 step 3 over the candidates: what is left. -/
def directAll (n tick : Nat) : List Cand → State → List Cand × State
  | [], s => ([], s)
  | c :: cs, s =>
    match directFrom n tick c s, candTap n c s with
    | some (x, k), some t => directAll n tick cs (directAssign n t tick x k c s)
    | _, _ =>
      let (l, s) := directAll n tick cs s
      (c :: l, s)

/-- The captures a list of searches needs: for each tap its length. -/
def capNeeds : List Job → List (Nat × Nat) → List (Nat × Nat)
  | [], a => a
  | j :: js, a =>
    let len := j.tcoh * j.nnc
    capNeeds js (if a.any (fun p => p.1 == j.tap) then a.map (fun p => if p.1 = j.tap then (p.1, max p.2 len) else p) else a ++ [(j.tap, len)])

/-- Take searches in order while slots, snapshots and pages last (R174 step 5). -/
def capTake (n slots snaps pages : Nat) (s : State) : List Job → List Job → List Job
  | [], acc => acc
  | j :: js, acc =>
    let next := acc ++ [j]
    let need := capNeeds next []
    if slots ≤ acc.length ∨ snaps < need.length ∨ pages < (need.map (fun p => snapPages (s.tapRate n p.1) p.2)).sum then acc
    else capTake n slots snaps pages s js next

/-- Enter the captures of a tick; answers the snapshot of each tap. -/
def capAll (n tick : Nat) : List (Nat × Nat) → State → List (Nat × Nat) × State
  | [], s => ([], s)
  | (t, len) :: rest, s =>
    let i := (((List.range 16).map (fun k => 16 + k)).find? (fun k => s.snapState k == 0)).getD 31
    let (l, s) := capAll n tick rest (capEnter i n t len tick true s)
    ((t, i) :: l, s)

/-- The searches of a front end enter the engine. -/
def schedEngine (n tick : Nat) (js : List Job) (s : State) : State :=
  let s := snapsRelease tick s
  let slots := min (s.rf R.ACQ_SCHED_CFG 27 22 - slotsAt tick true s) (64 - slotsAt tick false s)
  let snaps := ((List.range 16).filter (fun k => s.snapState (16 + k) == 0)).length
  let ok := js.filter (fun j => !gridTooOld n j.tap tick s)
  let take := capTake n slots snaps (acqFree s).length s ok []
  let (m, s) := capAll n tick (capNeeds take []) s
  take.foldl (fun a j => (jobAdmit { j with snap := tget (fun _ => 31) m j.tap } (agedNote j a)).2) s

/-- A fall-back search takes an idle channel (R178, R179): its first dwell begins at the first grid point after the tick. -/
def fbStart (tick : Nat) (j : Job) (s : State) : State :=
  if s.rf R.ACQ_CFG 21 16 ≤ s.acq.fb.length then s else
  match placeAuto (tapUnits (s.tapRate j.fe j.tap)) true s with
  | none => s
  | some c =>
    let at_ := gridNext tick
    let j := { j with startN := at_, rate := s.tapRate j.fe j.tap, ftap := tapCentre j.fe j.tap s, td := s.tdAt j.entryN }
    let x : Chan := { Chan.free with cond := 2, sig := j.sig, svk := j.svk, fcn := j.fcn, fe := j.fe, tap := j.tap, sched := true, prov := j.prov,
                                     units := tapUnits (s.tapRate j.fe j.tap), entered := true, entryN := at_, nextN := at_, segN := at_, fb := some c }
    let s := agedNote j (s.setChan c x)
    { s with acq := { s.acq with fb := s.acq.fb ++ [⟨j, c, 0, fbBlocks j * searchF j, at_, 0, [], 0, 0, 0, [], 0⟩] } }

/-- One front end's part of a tick. -/
def schedFe (tick : Nat) (s : State) (n : Nat) : State :=
  if !bit (s.reg (R.ACQ_FE_SCHED n)) 0 then s else
  let cs := (candidates n tick s).filter (fun c => !candDropped n tick c s)
  let (cs, s) := directAll n tick cs s
  let js := (cs.filterMap (fun c => (candTap n c s).map (fun t => candJob n t tick c s))).filter (fun j => candFits j s)
  if s.acq.fbOn then js.foldl (fun a j => fbStart tick j a) s else schedEngine n tick js s

/-- The lists due by a tick take effect, in order. -/
def listApply (tick : Nat) (s : State) : State :=
  let due := s.acq.listDue.filter (fun p => decide (p.2.1 ≤ tick))
  let lists := due.foldl (fun a p => tset (fun _ => ([] : List Nat)) a p.1 p.2.2) s.acq.lists
  { s with acq := { s.acq with lists := lists, listDue := s.acq.listDue.filter (fun p => decide (tick < p.2.1)) } }

/-- Has every channel passed a sample time (R174), with the integration that contains it processed? -/
def allPassed (n : Nat) (s : State) : Bool :=
  s.chans.all (fun p => p.2.cond == 0 || !p.2.entered || p.2.fb.isSome || decide (n < p.2.entryN) || (match containing ((n : Int) * 4294967296) p.2 with
    | some k => k.done
    | none => decide (n < chNeed p.2) || !(chHas p.2 n s)))

/-- A rebuild that is late and complete becomes active at a tick (R172). -/
def planLate (tick : Nat) (s : State) : State :=
  match s.acq.rebuilds.find? (fun r => r.late && r.complete) with
  | some r => planActivate r tick s
  | none => s

/-- SCHEDULER_TICK: the first tick that sample time has reached and that has not run. A generation with A_k up to the tick becomes active first
(R171). -/
def execSchedulerTick (s : State) : Host.Outcome State Fault Refusal :=
  match s.acq.ticks with
  | [] => .next s
  | n :: rest =>
    if !catAlive s || !epochsBy n s || (planDue n s).isSome || !allPassed n s then .next s else
    let s := planLate n (listApply n { s with acq := { s.acq with ticks := rest, misses := s.acq.misses.filter (fun m => decide (n < m.n + 255 * 163680000)) } })
    let s := if s.acq.planNow then planStart n { s with acq := { s.acq with planNow := false } } else s
    let mode := s.rf R.ACQ_SCHED_CFG 21 20
    if mode = 0 then .next s else
    .next ((List.range 4).foldl (schedFe n) (s.cnt R.ACQ_SCHED_TICKS))

/-! ## Fall-back dwells (R179, R180) -/

/-- FALLBACK_DWELL_END: the blocks of a dwell of the search on a channel are complete: its values against the threshold. A peak at the
threshold ends the search, and the channel goes on to PULL-IN at the end of the dwell; else the next dwell follows, or the search ends. -/
def execFallbackDwellEnd (c : Fin 2048) (s : State) : Host.Outcome State Fault Refusal :=
  match s.fbOf c with
  | none => .next s
  | some f =>
    let j := f.job
    if f.blk < j.nnc then .next s else
    let vs := f.values
    let cells := f.cells ++ vs
    let e := f.dwellN + fbCoh j * j.nnc
    let o := fbReport f f.dwellN vs cells
    if searchThresh j ≤ (bestStep vs (0, 0, 0)).2.2 then
      let seq := s.reg R.ACQ_JOB_SEQ
      let s := fbClose f true o s
      .next (doAssign (detAssign j (some c.val) e o.code o.dopp (dtOfCycle f.dwellN) seq s) s)
    else if f.dwells ≤ f.dwell + 1 then
      let s := fbClose f false (fbReport f f.dwellN cells cells) s
      .next (s.setChan c ((s.chan c).gone e))
    else .next (s.setFb { f with dwell := f.dwell + 1, dwellN := e, blk := 0, pows := [], noise := 0, nsum := f.nsum + f.noise, ncnt := f.ncnt + 1, cells := cells })

/-! ## Registers computed when read (R185) -/

/-- ACQ_STATE as read (R185). -/
def acqStateWord (s : State) : Word :=
  let st (h : Nat) : Nat := s.halfState h
  let m := if st 0 = 3 ∨ st 1 = 3 then 3 else if s.acq.fbOn then 2 else if st 0 = 1 ∨ st 0 = 2 ∨ st 1 = 1 ∨ st 1 = 2 then 1 else 0
  wd (s.acq.fb.length * 65536 + m * 256)
/-- ACQ_QUEUE as read (R185). -/
def acqQueueWord (s : State) : Word :=
  let live := s.acq.jobs.filter (fun j => decide (s.smpNow < j.nomEnd))
  wd ((live.filter (fun j => j.host)).length * 65536 + (live.filter (fun j => !j.host)).length * 256 + min 255 (s.acq.jobs.filter (fun j => decide (j.stage < 2))).length)
/-- ACQ_PAGES as read (R185). -/
def acqPagesWord (s : State) : Word := wd ((((acqBanks s).map (fun b => ((List.range 64).filter (fun p => !pageRetired (b * 64 + p) s)).length)).sum) * 65536 + (acqFree (snapsRelease s.smpNow s)).length)
def acqPlanStatWord (s : State) : Word :=
  wd (b2n (match s.acq.td with
    | some (_, none) => true
    | _ => false) * 8192 + (match s.acq.plan with
    | some p => p.ents.length
    | none => 0))
/-- Entries of a front end in the active generation, from an elevation up. -/
def acqEntries (n : Nat) (el : Int) (s : State) : Word :=
  match s.acq.plan with
  | some p => wd (p.ents.filter (fun e => e.fe == n && decide (el ≤ e.el))).length
  | none => 0
/-- Jobs of a front end that wait or run (R185). -/
def acqPendingWord (n : Nat) (s : State) : Word := wd (s.acq.jobs.filter (fun j => j.fe == n && decide (s.smpNow < j.nomEnd))).length

/-- ACQ_JOB. -/
def execAcqJob (p : Packet) (s : State) : Host.Outcome State Fault Refusal := .next (consumeCmd acqJobSpec p s)
/-- ACQ_SNAP. -/
def execAcqSnap (p : Packet) (s : State) : Host.Outcome State Fault Refusal := .next (consumeCmd acqSnapSpec p s)
/-- ACQ_SNAP_RELEASE. -/
def execAcqSnapRelease (p : Packet) (s : State) : Host.Outcome State Fault Refusal := .next (consumeCmd acqReleaseSpec p s)
/-- ACQ_CANCEL. -/
def execAcqCancel (p : Packet) (s : State) : Host.Outcome State Fault Refusal := .next (consumeCmd acqCancelSpec p s)
/-- ACQ_SCHED_LIST. -/
def execAcqSchedList (p : Packet) (s : State) : Host.Outcome State Fault Refusal := .next (consumeCmd acqListSpec p s)
/-- ACQ_BANK_RETURN. -/
def execAcqBankReturn (p : Packet) (s : State) : Host.Outcome State Fault Refusal := .next (consumeCmd acqReturnSpec p s)

end Sys2Proof.Machine
end

