-- ==== Sys2Proof/Machine/Memory.lean ====
section
/-! DEFINITION. Memory.lean: the Conservator: scrubbing, buckets, borrowed regions, column repair and region retirement (R390 to R406). -/

namespace Sys2Proof.Machine

/-! ## Column repair (R403, R404) -/

/-- Sub-bank and select of a word of a memory. -/
def colOf (a : Nat) : Nat × Nat := (a % 8, a / 8 % 8)

/-- UNIT of a memory in the repair map. -/
def mapUnit (m : Nat) : Nat := if m < 73 then uMemory m else uMem

/-- The entries of the map, two words each. -/
def repairEntries : List Word → List (Word × Word)
  | a :: b :: t => (a, b) :: repairEntries t
  | _ => []

/-- The words of a list of repair entries (R404). -/
def repairWords (es : List (Word × Word)) : List Word := (es.map (fun e => [e.1, e.2])).flatten

/-- The column of an entry: unit, sub-bank, select, bit. -/
def entryCol (e : Word × Word) : Nat × Nat × Nat × Nat := (e.1.toNat, fld e.2 11 9, fld e.2 8 6, fld e.2 5 0)

/-- Spares of a sub-bank that the fuse map assigns, or that a list of entries claims or is assigned (R403, R404). -/
def sparesUsed (unit sub : Nat) (es : List (Word × Word)) (s : State) : Nat :=
  (es.filter (fun e => e.1.toNat == unit && fld e.2 11 9 == sub && decide (fld e.2 35 34 < 2))).length + s.fuses.spares.countP (fun p => p == (unit, sub))

/-- The sub-banks that have no spare left. -/
def repairFull (es : List (Word × Word)) (s : State) : Nat :=
  (((s.fuses.spares ++ es.map (fun e => (e.1.toNat, fld e.2 11 9))).eraseDups).filter (fun p => decide (2 ≤ sparesUsed p.1 p.2 es s))).length

/-- The registers that show the map. -/
def repairSync (s : State) : State :=
  let es := repairEntries s.repairMap
  (s.setF R.MEM_REPAIR_STAT 11 0 (es.filter (fun e => fld e.2 35 34 == 0)).length).setReg R.MEM_REPAIR_FULL (wd (repairFull es s))

/-! ## Region retirement (R139, R406) -/

/-- The region containing index `k` is retired, as the unit that holds it requires: a wing or a solution core that is not yet RETIRED, in
whatever state it is. A region of the tap buffers takes event 0x908 for its retirement beside 0x308 (R34, R139). -/
def regionRetire (k : Nat) (s : State) : State :=
  let m := (memOf k).1
  let a := (memOf k).2
  let u := uRegion k
  if m < 16 then
    let s := raise 0x908 3 u [wd u] (retireUnit u 0x908 s)
    let s := (s.sticky R.MEM_STATUS 5).sticky (R.BANK_STATUS m) 5
    let s := s.setF (R.BANK_REPAIR m) 12 0 (s.rf (R.BANK_REPAIR m) 12 0 + 1)
    s.setReg R.MEM_RETIRED_RGN (wd (s.rf R.MEM_RETIRED_RGN 16 0 + 1))
  else if m < 64 then (if s.wgState (m % 16) = 3 then s else wgRetire (m % 16) 2 s)
  else if m < 68 then (if bit (s.reg R.SOL_CORES) (4 + m % 2) then s else solRetire (m % 2) s)
  else if 69 ≤ m ∧ m < 73 then
    let s := (raise 0x908 3 u [wd u] (retireUnit u 0x908 s)).setReg R.MEM_RETIRED_RGN (wd (s.rf R.MEM_RETIRED_RGN 16 0 + 1))
    tapRegionRetired (m - 69) (a / 64) (s.sticky R.MEM_STATUS 5)
  else raise 0x908 4 (uMemory m) [wd (uMemory m)] s

/-- A permanent region fault at bit `p` of the word of index `k` enters its column in the field repair map (R404). -/
def columnEnter (k p : Nat) (s : State) : State :=
  let m := (memOf k).1
  let a := (memOf k).2
  let es := repairEntries s.repairMap
  let unit := mapUnit m
  if es.any (fun e => entryCol e == (unit, (colOf a).1, (colOf a).2, p)) then s
  else if 512 ≤ es.length then raise 0x90A 4 uCons [1] s
  else
    let none_ := decide (2 ≤ sparesUsed unit (colOf a).1 es s)
    let w := wd (b2n none_ * 2 * 17179869184 + a / 8 % 4096 * 4096 + (colOf a).1 * 512 + (colOf a).2 * 64 + p)
    let s := repairSync (nvsQueue 3 (repairWords (es ++ [(wd unit, w)])) s)
    if none_ then regionRetire k s else s

/-- A memory-region fault at bits of the word of index `k` (R29 to R31, R391, R399). Answers whether it is permanent. -/
def regionFault (k : Nat) (bits : List Nat) (retryOk : Bool) (s : State) : Bool × State :=
  match faultJudge (uRegion k) 5 retryOk s.dt s with
  | (none, s) => (false, s)
  | (some _, s) => (true, bits.foldl (fun a p => columnEnter k p a) s)

/-- At boot the candidates take the unused spares in map order (R405). -/
def repairBootGo : List (Word × Word) → List (Word × Word) → State → List (Word × Word) × State
  | [], acc, s => (acc, s)
  | e :: es, acc, s =>
    if fld e.2 35 34 ≠ 0 then repairBootGo es (acc ++ [e]) s
    else
      let done := (acc ++ es).filter (fun x => fld x.2 35 34 == 1)
      if sparesUsed e.1.toNat (fld e.2 11 9) done s < 2 then
        repairBootGo es (acc ++ [(e.1, setFld e.2 35 34 1)])
          (raise 0x909 1 e.1.toNat [e.1, wd (fld e.2 11 9), wd (fld e.2 8 6), wd (fld e.2 5 0)] (s.setF R.MEM_REPAIR_STAT 23 12 (s.rf R.MEM_REPAIR_STAT 23 12 + 1)))
      else repairBootGo es (acc ++ [(e.1, setFld e.2 35 34 2)]) s

/-- A word that the column of an entry serves: the lowest row with the entry's ROW bits (notes/assumptions/54.md). -/
def entryWord (e : Word × Word) : Nat := fld e.2 23 12 * 8 + fld e.2 11 9

/-- The memory an entry names. -/
def entryMem (e : Word × Word) : Nat := ((List.range 74).find? (fun m => mapUnit m == e.1.toNat)).getD 73

/-- The index of word 0 of a memory. -/
def memBase (m : Nat) : Nat :=
  if m < 16 then kBank m 0 else if m < 32 then kWim (m - 16) 0 else if m < 48 then kWdm (m - 32) 0 else if m < 64 then kCsm (m - 48) 0
  else if m < 66 then kSim (m - 64) 0 else if m < 68 then kSdm (m - 66) 0 else if m = 68 then kCim 0 else if m < 73 then kTap (m - 69) 0 else kCode 0

/-- SPARES in use of a bank, two bits a sub-bank. -/
def spareBits (b : Nat) (es : List (Word × Word)) (s : State) : Nat :=
  ((List.range 8).map (fun q => (2 ^ min 2 (sparesUsed (uBank b) q (es.filter (fun e => fld e.2 35 34 == 1)) s) - 1) * 4 ^ q)).sum

/-- The boot's column repair (R405): candidates take spares or lose their regions, and the map is written. -/
def repairBoot (s : State) : State :=
  let s := s.setReg R.MEM_REPAIR_STAT 0
  let old := repairEntries s.repairMap
  let (es, s) := repairBootGo old [] s
  let s := if es == old then s else nvsQueue 3 (repairWords es) s
  let s := (List.range 16).foldl (fun a b => a.setF (R.BANK_REPAIR b) 31 16 (spareBits b es s)) (repairSync s)
  let lost := (old.zip es).filter (fun p => fld p.1.2 35 34 == 0 && fld p.2.2 35 34 == 2)
  let s := lost.foldl (fun a p => regionRetire (memBase (entryMem p.2) + entryWord p.2) a) s
  { s with sol := { s.sol with takeover := false } }

/-! ## Scrubbing (R390, R393, R394) -/

/-- Take a word out of a memory's repeat filter. -/
def filtDrop (k : Nat) (s : State) : State :=
  let m := (memOf k).1
  let e := s.merr m
  s.setMerr m { e with filt := e.filt.filter (fun f => f.word != k) }

/-- Mark a word HARD. -/
def filtHard (k : Nat) (s : State) : State :=
  let m := (memOf k).1
  let e := s.merr m
  s.setMerr m { e with filt := e.filt.map (fun f => if f.word = k then ⟨k, true⟩ else f) }

/-- The scrubber finds an uncorrectable word: it is poisoned, counted, and event 0x906 names it (R394). -/
def scrubPoison (k : Nat) (s : State) : State :=
  let m := (memOf k).1
  let s := s.storeBits k poisonWord
  let s := (s.cnt R.MEM_POISON_CNT).sticky R.MEM_STATUS 3
  let s := if m < 16 then (s.cnt (R.BANK_POISON_CNT m)).sticky (R.BANK_STATUS m) 4 else s
  raise 0x906 2 (uMemory m) [wd (uMemory m), wd (memOf k).2, wd (if m < 16 then s.rf (R.BANK_OWNER m) 5 0 else 0)] s

/-- Is the memory of a word powered for the Conservator, and its region in service? -/
def scrubbable (k : Nat) (s : State) : Bool :=
  !(decide (k < 4194304) && (s.bankPower (k / 262144) == 3 || s.bankPower (k / 262144) == 4)) && !s.isRetired (uRegion k)

/-- PRIORITY_SCRUB: the oldest one requested; `persists` when the word read again still shows a correctable error, `retryOk` when the region
then passes its scrub and test (R390, R391). -/
def execPriorityScrub (persists retryOk : Bool) (s : State) : Host.Outcome State Fault Refusal :=
  match s.cons.prio with
  | [] => .next s
  | k :: rest =>
    let s := { s with cons := { s.cons with prio := rest } }
    if !scrubbable k s then .next (filtDrop k s) else
    let m := (memOf k).1
    match eccDec (s.stored k) with
    | .clean _ => .next (filtDrop k s)
    | .poisoned => .next (filtDrop k s)
    | .uncorrectable => .next (scrubPoison k (filtDrop k s))
    | .corrected d p =>
      let s := s.store k d
      if !persists then .next (filtDrop k s) else
      let s := (((filtHard k s).cnt R.MEM_HARD_CNT)).sticky R.MEM_STATUS 2
      let s := if m < 16 then s.sticky (R.BANK_STATUS m) 3 else s
      let s := raise 0x904 2 (uMemory m) [wd (uMemory m), wd (memOf k).2, wd p] s
      let (perm, s) := regionFault k [p] retryOk s
      .next (if perm then s else filtDrop k s)

/-- The next word to scrub at or after `k`: banks that are OFF are passed over; `n` bounds the banks. -/
def scrubNext : Nat → Nat → State → Nat
  | 0, k, _ => k
  | n + 1, k, s => if k < 4194304 ∧ s.bankPower (k / 262144) = 3 then scrubNext n ((k / 262144 + 1) * 262144) s else k

/-- The background scrub of word `k` must wait: for a priority scrub of its sub-bank (R396), or for its bank to wake (R393). -/
def scrubWaits (k : Nat) (s : State) : Bool :=
  s.cons.prio.any (fun p => (memOf p).1 == (memOf k).1 && p % 8 == k % 8)
    || (decide (k < 4194304) && (s.bankPower (k / 262144) == 1 || s.bankPower (k / 262144) == 2))

/-- The Conservator wakes a bank in RETAIN for its burst (R393). -/
def scrubWake (k : Nat) (s : State) : State :=
  if k < 4194304 ∧ s.bankPower (k / 262144) = 1 then
    (setBankPower (k / 262144) 2 s).setBh (k / 262144) { s.bh (k / 262144) with scrubbing := true, woken := false }
  else s

/-- After the last word of a bank that the Conservator woke it returns to RETAIN (R393). -/
def scrubRest (k : Nat) (s : State) : State :=
  let b := k / 262144
  if k < 4194304 ∧ k % 262144 = 262143 ∧ (s.bh b).scrubbing then
    let s := s.setBh b { s.bh b with scrubbing := false }
    if s.bankPower b = 0 ∧ s.rf (R.BANK_POWER b) 1 0 = 1 ∧ !(s.bh b).woken then setBankPower b 1 s else s
  else s

/-- The scrub of one word (R393). -/
def scrubOne (k : Nat) (s : State) : State :=
  if !scrubbable k s then s else
  match eccDec (s.stored k) with
  | .clean _ => s
  | .poisoned => s
  | .corrected d _ => ceCount k (syndrome (s.stored k)) (s.store k d)
  | .uncorrectable => scrubPoison k s

/-- The pass goes on behind word `k`, or ends. -/
def scrubOn (k : Nat) (s : State) : State :=
  if sramWords ≤ k + 1 then ({ s with cons := { s.cons with scrubPos := 0 } }.setReg R.MEM_SCRUB_STAT 0).cnt R.MEM_SCRUB_PASS_CNT
  else { s with cons := { s.cons with scrubPos := k + 1 } }.setReg R.MEM_SCRUB_STAT (wd (s.rf R.MEM_SCRUB_STAT 22 0 + 1))

/-- SCRUB_WORD: the Conservator scrubs the next word of its pass, or waits for it. -/
def execScrubWord (s : State) : Host.Outcome State Fault Refusal :=
  if !bit (s.reg R.MEM_SCRUB_CFG) 12 then .next s else
  let k := scrubNext 16 s.cons.scrubPos s
  if scrubWaits k s then .next (scrubWake k s) else .next (scrubOn k (scrubRest k (scrubOne k s)))

/-- One bucket leaks (R392). -/
def bucketLeak (s : State) (p : Nat × MemErr) : State :=
  let e := p.2
  let l := e.level - 1
  s.setMerr p.1 { e with level := l, ovf := e.ovf && !decide (2 * l < s.rf R.MEM_BUCKET_CFG 7 0) }

/-- BUCKET_LEAK: DT_SEC has reached a multiple of LEAK. -/
def execBucketLeak (s : State) : Host.Outcome State Fault Refusal :=
  let sec := dtSec s.dt
  let leak := s.rf R.MEM_BUCKET_CFG 19 8
  if leak = 0 || sec.toNat % leak != 0 || s.cons.leakSec == some sec then .next s
  else .next (s.memErr.foldl bucketLeak { s with cons := { s.cons with leakSec := some sec } })

/-! ## Borrowed regions (R397 to R399) -/

/-- May region `r` of the shared store be tested? -/
def testable (r : Nat) (s : State) : Bool :=
  s.bankPower (r / 4096) == 0 && s.bankStage (r / 4096) == 0 && (s.bh (r / 4096)).wiping.isNone && !s.isRetired (uRgn r)

/-- The next region to test from `r` on, ascending and round; `n` bounds the search. -/
def nextRegion : Nat → Nat → State → Option Nat
  | 0, _, _ => none
  | n + 1, r, s => if testable (r % 65536) s then some (r % 65536) else nextRegion n (r + 1) s

/-- The shadow takes a word: correctable ones corrected and counted, others as they stand. -/
def shadowWord (s : State) (k : Nat) : State :=
  match eccDec (s.stored k) with
  | .corrected d _ => ceFound k (syndrome (s.stored k)) (s.putStored k (eccEnc d))
  | _ => s

/-- REGION_BORROW: the next region is copied to the shadow and its test begins. -/
def execRegionBorrow (s : State) : Host.Outcome State Fault Refusal :=
  if !bit (s.reg R.MEM_TEST_CFG) 12 || s.cons.borrowed.isSome then .next s else
  match nextRegion 65536 s.cons.testNext s with
  | none => .next s
  | some r =>
    let s := if r < s.cons.testNext then s.cnt R.MEM_TEST_PASS_CNT else s
    let s := ((List.range 64).map (fun i => kBank (r / 4096) (64 * (r % 4096) + i))).foldl shadowWord s
    .next ({ s with cons := { s.cons with borrowed := some r, testNext := r + 1 } }.setReg R.MEM_TEST_STAT (wd (65536 + r)))

/-- MARCH_TEST_COMPLETE: the test of the borrowed region ends; `mask` has the bits that failed, at word `a`; `retryOk` when the region passes
its scrub and retest. -/
def execMarchTestComplete (a : Fin 64) (mask : Stored) (retryOk : Bool) (s : State) : Host.Outcome State Fault Refusal :=
  match s.cons.borrowed with
  | none => .next s
  | some r =>
    let s := shadowBack r s
    if mask = 0 then .next s else
    let s := (s.cnt R.MEM_TEST_FAIL_CNT).sticky R.MEM_STATUS 4
    let s := raise 0x907 2 (uRgn r) [wd (uRgn r), wd mask.toNat, wd (mask.toNat / 68719476736)] s
    .next (regionFault (kBank (r / 4096) (64 * (r % 4096) + a)) ((List.range 43).filter (fun i => mask.getLsbD i)) retryOk s).2

/-- The effect of a write to MEM_CTRL. -/
def memCtrl (v : Nat) (s : State) : State :=
  let s := if v / 2 % 2 = 1 then { s with cons := { s.cons with scrubPos := 0 } }.setReg R.MEM_SCRUB_STAT 0 else s
  if v % 2 = 1 then { s with cons := { s.cons with testNext := 0 } } else s

end Sys2Proof.Machine
end

