-- ==== Sys2Proof/Machine/Rings.lean ====
section
/-! DEFINITION. Rings.lean: rings as the host drives them, the PCI Express link, host-memory failures and the resets of the host
interface (R410 to R414, R421 to R428, R432 to R434). -/

namespace Sys2Proof.Machine

/-! ## Configuration (R421, R427) -/

/-- The entry-size code of a class (R421). -/
def classSize (cls : Nat) : Nat :=
  if cls = 3 ∨ cls = 7 ∨ cls = 9 then 1
  else if cls = 2 ∨ cls = 8 ∨ cls = 11 then 0
  else if cls = 12 ∨ cls = 13 then 3 else 2

/-- A host-to-device class. -/
def hostToDev (cls : Nat) : Bool := cls == 0 || cls == 0xD

/-- CLASS, ESIZE and the ring number agree with the table of ring classes; stream and replay rings are refused in SPI mode. -/
def ringClassOk (q : Nat) (s : State) : Bool :=
  let cls := s.ringClass q
  let es := s.rf (R.RING_CFG q) 11 10
  (if q < 3 then cls == q else decide (3 ≤ cls ∧ cls ≤ 14))
    && (if cls = 14 then es != 3 else es == classSize cls)
    && !(s.spiMode && (cls == 0xC || cls == 0xD))

/-- In SPI mode `n` words from word address `a` lie wholly within one bank on loan to HOST. -/
def inHostBank (a n : Nat) (s : State) : Bool :=
  a / 262144 == (a + n - 1) / 262144 && decide (a + n ≤ 4194304) && s.rf (R.BANK_OWNER (a / 262144 % 16)) 5 0 == 1

/-- The base is valid. -/
def ringBaseOk (q : Nat) (s : State) : Bool :=
  if s.spiMode then inHostBank (s.ringBase q) (s.ringSize q * (s.ringEntry q / 8)) s
  else s.ringBase q != 0 && s.ringBase q % 4096 == 0

/-- The write-back address, where enabled, is valid. -/
def ringWbOk (q : Nat) (s : State) : Bool :=
  !bit (s.reg (R.RING_CFG q)) 9
    || (if s.spiMode then inHostBank (s.rf (R.RING_WB_LO q) 21 0) 1 s else s.rf (R.RING_WB_LO q) 2 0 == 0)

/-- The configuration of a ring is valid (R427), and a stream ring has a bank on loan to STREAM (R426). -/
def ringValid (q : Nat) (s : State) : Bool :=
  ringBaseOk q s && ringWbOk q s && ringClassOk q s && decide (4 ≤ s.rf (R.RING_CFG q) 16 12 ∧ s.rf (R.RING_CFG q) 16 12 ≤ 16)
    && !((s.ringClass q == 0xC || s.ringClass q == 0xD) && !s.streamBank)

/-! ## Enable, disable (R427) -/

/-- A ring goes ON with both indices zero, with event 0x040. -/
def ringEnable (q : Nat) (s : State) : State :=
  let s := (s.setReg (R.RING_PROD q) 0).setReg (R.RING_CONS q) 0
  let s := s.setRh q { RingH.idle with drops := (s.rh q).drops }
  let s := syncFull q (setRingState q 1 s)
  raise 0x040 0 (uRing q) [0, 1] s

/-- A ring goes OFF from ON, with event 0x040, or from HALT. -/
def ringDisable (q : Nat) (s : State) : State :=
  match s.ringState q with
  | 1 => raise 0x040 0 (uRing q) [1, 0] ((setRingState q 0 s).setRh q { s.rh q with u := 0, stall := false })
  | 2 => (setRingState q 0 s).setRh q { s.rh q with u := 0, stall := false }
  | _ => s

/-- A write to RINGq_CTRL that is not a reserved value. -/
def ringCtrl (q v : Nat) (s : State) : State :=
  if v / 2 % 2 = 1 then ringDisable q s
  else if v % 2 = 1 ∧ s.ringState q = 0 then ringEnable q s else s

/-- Is a write to RINGq_CTRL a reserved value: both bits, or ENABLE of an OFF ring whose configuration is not valid (R427)? -/
def ringCtrlBad (q v : Nat) (s : State) : Bool := v % 4 == 3 || (v % 2 == 1 && s.ringState q == 0 && !ringValid q s)

/-- A write to RINGq_BASE_LO taken: it enables rings 0 to 2 where it commits a valid base (R427). -/
def ringBaseLo (q : Nat) (v : Word) (s : State) : State :=
  let v := if s.spiMode then setFld v 31 22 0 else v
  let s := s.setReg (R.RING_BASE_LO q) v
  if q < 3 && ringValid q s then ringEnable q s else s

/-! ## Indices (R422, R423) -/

/-- A host write of an index: `prod` for PROD, else CONS. Refused with IDX_ERR and event 0x043 where R423 does not take it. PROD of ring 0
is the host's command doorbell to the Curator core (R366, R422). -/
def ringIndex (prod : Bool) (q v : Nat) (s : State) : State :=
  let m := 2 * s.ringSize q
  let cls := s.ringClass q
  let o := if prod then R.RING_PROD q else R.RING_CONS q
  let old := s.rf o 16 0
  let owned := cls == 14 || prod == hostToDev cls
  let room := if prod then s.ringSize q - s.ringOcc q else s.ringOcc q
  if owned && decide ((v + m - old % m) % m ≤ room) then
    let s := syncFull q (s.setF o 16 0 (v % m))
    let occ := s.ringOcc q
    if prod then
      let s := s.maxF (R.RING_OCC_MAX q) 16 0 occ
      let s := if q = 0 then pendLine 18 1 s else s
      if occ = s.ringSize q then s.sticky (R.RING_STATUS q) 0 else s
    else if occ < s.rf (R.RING_HWM q) 16 0 then s.setRh q { s.rh q with hwmArmed := true } else s
  else
    let s := (s.sticky (R.RING_STATUS q) 1).sticky R.HIF_STATUS 0
    raise 0x043 2 (uRing q) [wd v, wd (b2n (!prod)), wd old] s

/-! ## Moderation (R428) -/

/-- A write to RINGq_MOD: the conditions of R428 hold at any time. -/
def ringMod (q : Nat) (v : Word) (s : State) : State :=
  let s := s.setReg (R.RING_MOD q) v
  if s.ringOn q && s.ringClass q != 14 && decide (1 ≤ (s.rh q).u ∧ fld v 15 0 ≤ (s.rh q).u) then ringMessage q s else s

/-- RING_MOD_TIMEOUT: MOD_TIME µs of the management oscillator have passed since T0. -/
def execRingModTimeout (q : Fin 32) (s : State) : Host.Outcome State Fault Refusal :=
  if s.ringOn q && s.ringClass q != 14 && decide (1 ≤ (s.rh q).u) then .next (ringMessage q s) else .next s

/-! ## The link (R411 to R414) -/

/-- The configuration space of the endpoint (R411): device, revision and class identifiers, the MSI-X vectors, the spans of BAR0 and
BAR2, the greatest payload and read request, and the fastest link (Gen3, ×4). -/
def pcieDevice : Nat := 0x4620
def pcieRevision : Nat := 0xA1
def pcieClass : Nat := 0x118000
def msixVectors : Nat := 34
def bar0Bytes : Nat := 128 * 1024
def bar2Bytes : Nat := 32 * 1024 * 1024
def payloadBytes : Nat := 512
def readRequestBytes : Nat := 4096
/-- The subsystem identifiers, as the settings record gives them, or zero (R411). -/
def State.pcieSubsystem (s : State) : BitVec 32 := s.cur.pciIds.setWidth 32

/-- The link went down: counted, LINK, event 0x046 (R414, R429, R432). -/
def linkDown (s : State) : State :=
  if !s.linkUp then s else
  let s := ((s.setReg R.HIF_LINK_STAT 0).cnt R.HIF_LINK_DOWN_CNT).sticky R.HIF_STATUS 2
  raise 0x046 2 uPcie [] (alertSet 1 s)

/-- Send the pending messages of unmasked vectors (R412). -/
def msixFlush : List Nat → State → State
  | [], s => s
  | v :: vs, s =>
    msixFlush vs (if tget (fun _ => false) s.hif.msixPend v && !s.msixMasked v && s.linkUp then
        ({ s with hif := { s.hif with msixPend := tset (fun _ => false) s.hif.msixPend v false } }).emit (.msi v)
      else s)

/-- LINK_DOWN. -/
def execLinkDown (s : State) : Host.Outcome State Fault Refusal :=
  if s.spiMode || s.pwr.inReset then .next s else .next (linkDown s)

/-- LINK_UP: at a speed (Gen1 to Gen3) and width (×1, ×2, ×4); pending messages are sent, event 0x047. -/
def execLinkUp (speed width : Fin 3) (s : State) : Host.Outcome State Fault Refusal :=
  if s.spiMode || s.pwr.inReset || s.linkUp then .next s else
  let s := s.setReg R.HIF_LINK_STAT (wd (2 ^ width.val * 16 + (speed.val + 1) * 4 + 1))
  let s := raise 0x047 1 uPcie [wd (speed.val + 1), wd (2 ^ width.val)] s
  .next (msixFlush (List.range msixVectors) s)

/-- MSIX_VECTOR_UNMASK: the host clears the mask bit of a vector; its pending message is sent. -/
def execMsixVectorUnmask (v : Fin 34) (s : State) : Host.Outcome State Fault Refusal :=
  if s.spiMode || !s.linkUp then .next s else
  let d (k : Nat) : BitVec 32 := if k % 4 = 3 then 1#32 else 0#32
  let w := tget d s.hif.msix (4 * v.val + 3)
  let s := { s with hif := { s.hif with msix := tset d s.hif.msix (4 * v.val + 3) (w &&& 0xFFFFFFFE#32), hiSlot := none, loSlot := none } }
  .next (msixFlush [v.val] s)

/-! ## Failing reads of host memory (R414) -/

/-- A failed read of ring `q`'s host memory, detected: captured, event 0x044, HALT. -/
def dmaFail (q cause addr : Nat) (s : State) : State :=
  let s := s.cnt R.HIF_DMA_ERR_CNT
  let s := raise 0x044 3 uPcie [wd q, wd cause] (dmaCapture q cause (some addr) s)
  ringHalt q cause (some addr) s

/-- Is the device reading ring `q` from host memory now? -/
def ringReading (q : Nat) (s : State) : Bool :=
  !s.spiMode && s.ringOn q && hostToDev (s.ringClass q) && decide (0 < s.ringOcc q)

/-- DMA_READ_FAILURE: a read of host memory fails; `detected` when the failing completion (1 UR, 2 CA, 3 poisoned) arrives; before
that the ring consumes nothing. -/
def execDmaReadFailure (q : Fin 32) (addr : BitVec 64) (cause : Fin 3) (detected : Bool) (s : State) : Host.Outcome State Fault Refusal :=
  if !ringReading q s then .next s
  else if detected then .next (dmaFail q (cause.val + 1) addr.toNat s)
  else .next (s.setRh q { s.rh q with stall := true })

/-- DMA_COMPLETION_TIMEOUT: a read of host memory is unanswered; `detected` 50 ms after it. -/
def execDmaCompletionTimeout (q : Fin 32) (addr : BitVec 64) (detected : Bool) (s : State) : Host.Outcome State Fault Refusal :=
  if !ringReading q s then .next s
  else if detected then .next (dmaFail q 4 addr.toNat s)
  else .next (s.setRh q { s.rh q with stall := true })

/-! ## Resets of the host interface (R413, R501) -/

/-- A register of the host interface or of a ring that a reset of R413 clears; those it keeps: MODE, BOOT, ACC_NEXT, LINK_STAT and
FLR_CNT. -/
def hifCleared (o : Nat) : Bool :=
  (decide (0x800 ≤ o ∧ o < 0x1000) && !(o == R.HIF_MODE || o == R.HIF_BOOT || o == R.HIF_ACC_NEXT || o == R.HIF_LINK_STAT || o == R.HIF_FLR_CNT))
    || decide (0x7000 ≤ o ∧ o < 0x8000)

/-- The host interface takes its reset values, and event 0x045 follows with its parameter (0 FLR, 1 PERST_N, 2 warm reset); a warm
reset keeps the MSI-X capability. -/
def hifReset (kind : Nat) (s : State) : State :=
  let h := s.hif
  let s := { s with regs := s.regs.filter (fun p => !hifCleared p.1), ringH := [],
                    hif := if kind = 2 then { HifSt.reset with msix := h.msix, msixPend := h.msixPend } else HifSt.reset }
  let s := dropSnaps (fun k => decide (k < 2)) s
  raise 0x045 1 uPcie [wd kind] (s.incr R.HIF_FLR_CNT)

/-- FUNCTION_LEVEL_RESET. -/
def execFunctionLevelReset (s : State) : Host.Outcome State Fault Refusal :=
  if s.spiMode || s.pwr.inReset || !s.linkUp then .next s else .next (hifReset 0 s)

/-- PERST_N: the ball takes a level; low (asserted) resets the link and the host interface. Ignored in SPI mode (R410). -/
def execPerstN (level : Bool) (s : State) : Host.Outcome State Fault Refusal :=
  if s.spiMode || s.pwr.inReset || level then .next s else .next (hifReset 1 (linkDown s))

end Sys2Proof.Machine
end

