-- ==== Sys2Proof/Machine/Access.lean ====
section
/-! DEFINITION. Access.lean: register and shared-store accesses of the host links and the cores (R9, R10, R377, R386, R415 to R420,
R512 to R521), and the register writes that act. -/

namespace Sys2Proof.Machine

/-! ## Sources -/

/-- The key of a requester's snapshots (R519, R520). -/
def srcKey : Src → Nat
  | .pcie => 0
  | .spi => 1
  | .core c => 2 + c.val

/-- The SRC code of R518. -/
def srcCode : Src → Nat
  | .pcie => 0
  | .spi => 1
  | .core c => if c.val = 18 then 2 else if c.val < 16 then 4 else 3

/-- Can this source make an access now? -/
def State.srcLive (s : State) (src : Src) : Bool :=
  !s.pwr.inReset && !s.pwr.warmHeld && (match src with
    | .pcie => !s.spiMode && s.linkUp
    | .spi => s.spiMode
    | .core c => (s.core c.val).started && !(s.core c.val).stopped)

/-! ## Undefined offsets and reserved values (R513, R515) -/

/-- The index of the block that holds a defined offset (R512). -/
def blkIndex (o : Nat) : Nat := if o < 0x800 then 0 else if o < 0x1000 then 1 else if o < 0xB000 then o / 4096 + 1 else 12

/-- An access to an undefined offset (R513). -/
def undefAccess (src : Src) (write : Bool) (o : Nat) (v : Word) (s : State) : State :=
  let s := s.cnt R.GLB_UNDEF_CNT
  if bit (s.reg R.GLB_UNDEF_ADDR) 35 then s else
  let s := s.setReg R.GLB_UNDEF_ADDR (wd (34359738368 + srcCode src * 4294967296 + b2n write * 2147483648 + o))
  (s.setReg R.GLB_UNDEF_DATA (if write then v else 0)).setReg R.GLB_UNDEF_SEC (dtSec s.dt)

/-- A write discarded as a reserved value (R515, R516). -/
def resVal (src : Src) (o : Nat) (v : Word) (s : State) : State :=
  let s := s.cnt R.GLB_RESVAL_CNT
  if bit (s.reg R.GLB_RESVAL) 35 then s else
  let s := s.setReg R.GLB_RESVAL (wd (34359738368 + srcCode src * 4294967296 + o))
  (s.setReg R.GLB_RESVAL_DATA v).setReg R.GLB_RESVAL_SEC (dtSec s.dt)

/-- The registers FEn_COEXk_* of every front end are one set (R98). -/
def canonOff (o : Nat) : Nat :=
  if 0x3000 ≤ o ∧ o < 0x4000 ∧ 0xA0 ≤ (o - 0x3000) % 0x400 ∧ (o - 0x3000) % 0x400 < 0x110 then 0x3000 + (o - 0x3000) % 0x400 else o

/-! ## Registers computed when read -/

/-- GLB_SUMMARY: the blocks in which a W1C field holds 1. -/
def summaryWord (s : State) : Word :=
  s.regs.foldl (fun a p => match regAt p.1 with
    | some l => if p.2.toNat &&& l.row.w1c ≠ 0 then setBit a (blkIndex p.1) true else a
    | none => a) 0

/-- GLB_RETIRED. -/
def retiredWord (s : State) : Word :=
  let f (u sh : Nat) : Nat := b2n (s.isRetired u) * 2 ^ sh
  wd (((List.range 16).map (fun w => f (uWg w) w)).sum + ((List.range 4).map (fun n => f (uFe n) (16 + n))).sum
    + f (uHalf 0) 20 + f (uHalf 1) 21 + f (uSolk 0) 22 + f (uSolk 1) 23)

/-- A channel shows RETIRED (R188, R220). -/
def chRetired (c : Nat) (s : State) : Bool := s.wgState (c / 128) == 3 || s.isRetired (uCh c)

/-- Channels 128w + a to 128w + a + n − 1 that pass a test, as a bit map from bit 0. -/
def chMap (w a n : Nat) (p : Nat → Bool) : Nat := ((List.range n).map (fun m => b2n (p (128 * w + a + m)) * 2 ^ m)).sum

/-- WGw_CHk_STAT. -/
def chStatWord (c : Nat) (s : State) : Word :=
  let x := s.chan c
  let cond := if chRetired c s then 5 else if s.wgState (c / 128) ≠ 2 then 6 else if x.draining s then 2
    else if x.entered then x.cond else 0
  let live := x.cond != 0 && x.entered || x.draining s
  wd (cond * 8589934592 + b2n (x.running && x.runProf) * 4294967296 + b2n (x.running && x.runWide) * 2147483648 + b2n (live && x.freerun) * 1073741824
    + (if live then x.units * 33554432 + x.fe * 8388608 + x.tap * 524288 else 0) + (if live && x.entered then min (chLag x s) 524287 else 0))

/-- The registers of a wing that are computed when read. -/
def wgView (w : Nat) (row : Nat) (i : Nat) (s : State) : Option Word :=
  let count (p : Nat → Bool) : Nat := ((List.range 128).filter (fun k => p (128 * w + k))).length
  let live (c : Nat) : Bool := (s.chan c).cond != 0
  if row = 0x20 then some (wd (wgCount w s * 1048576 + wgHeld w s * 1024 + (if s.wgState w = 2 then wgAuto w s else 0)))
  else if row = 0x28 then some (wd (count (fun c => chFree c s) * 16777216 + wgCount w s * 65536 + count (fun c => live c && (s.chan c).freerun) * 256
      + count (fun c => chRetired c s)))
  else if row = 0x38 then some (wd (((List.range 128).map (fun k => if live (128 * w + k) && (s.chan (128 * w + k)).entered then
      min (chLag (s.chan (128 * w + k)) s) 524287 else 0)).foldl max 0))
  else if row = 0x100 then some (wd (chMap w (32 * i) 32 (fun c => chFree c s)))
  else if row = 0x120 then some (wd (chMap w (32 * i) 32 (fun c => chRetired c s)))
  else if row = 0x140 then some (wd (chMap w (32 * i) 32 (fun c => live c && (s.chan c).freerun)))
  else if row = 0x160 then some (wd (chMap w (32 * i) 32 (fun c => live c && (s.chan c).lastProf)))
  else if row = 0x400 then some (chStatWord (128 * w + i) s)
  else none

/-- CAPn_RATE: edges of the last whole second of sample time. -/
def capRateWord (n : Nat) (s : State) : Word :=
  let c := s.cap n
  wd (if c.sec = dtSec s.dt then c.prevCnt else if c.sec + 1#36 = dtSec s.dt then c.secCnt else 0)

/-- BANKb_RPT_DATA. -/
def rptWord (b : Nat) (s : State) : Word :=
  match (s.merr b).filt[s.rf (R.BANK_RPT_IDX b) 1 0]? with
  | some f => wd (524288 + b2n f.hard * 262144 + (memOf f.word).2)
  | none => 0

/-- CUR_HIST_DATA: word WORD of the entry ENTRY before the newest (R484). -/
def histWord (s : State) : Word :=
  let e := s.rf R.CUR_HIST_IDX 9 0
  (tget (fun _ => ([] : List Word)) s.cur.hist ((s.cur.histNext + 727 - e) % 728)).getD (s.rf R.CUR_HIST_IDX 14 10) 0

/-- The snapshots of GLB_DT_* and GLB_LASTEVT* of a requester (R519, R520). -/
def State.dtSnapOf (s : State) (src : Src) : DtSnap := tget (fun _ => DtSnap.zero) s.dtSnap (srcKey src)
def State.evtSnapOf (s : State) (src : Src) : List Word := tget (fun _ => ([] : List Word)) s.evtSnap (srcKey src)

/-- What a read of a register returns, with no side effect. -/
def viewWord (src : Src) (o : Nat) (l : RegLoc) (s : State) : Word :=
  let n := l.unit
  let r := l.row.off
  let dflt : Word := s.reg (canonOff o)
  match l.blk with
  | .glb =>
    if o = R.GLB_SUMMARY then summaryWord s
    else if o = R.GLB_MODE then wd (b2n s.booted * 2 + b2n s.keepTime)
    else if o = R.GLB_RETIRED then retiredWord s
    else if o = R.GLB_DT_SEC then (s.dtSnapOf src).sec
    else if o = R.GLB_DT_FRAC then (s.dtSnapOf src).frac
    else if o = R.GLB_DT_SUB then (s.dtSnapOf src).sub
    else if r = 0x100 then (s.evtSnapOf src).getD l.inst 0
    else dflt
  | .cur => if o = R.CUR_HIST_DATA then histWord s else dflt
  | .syn => if o = R.SYN_SMP_HOLD then smpHoldWord dflt s else dflt
  | .fe =>
    if o = R.FE_AGC_DATA n then tget (fun _ => 0#36) (s.fe n).agc (s.rf (R.FE_AGC_IDX n) 7 0)
    else if r = 0xD0 then coexStatWord l.inst dflt s
    else dflt
  | .acq =>
    if o = R.ACQ_STATE then acqStateWord s
    else if o = R.ACQ_QUEUE then acqQueueWord s
    else if o = R.ACQ_PAGES then acqPagesWord s
    else if o = R.ACQ_PLAN_STAT then acqPlanStatWord s
    else if r = 0x520 then acqEntries l.inst (-1000) s
    else if r = 0x528 then acqEntries l.inst (s.rf R.ACQ_SCHED_CFG 7 0) s
    else if r = 0x530 then acqPendingWord l.inst s
    else dflt
  | .bank => if o = R.BANK_RPT_DATA n then rptWord n s else dflt
  | .tp =>
    if o = R.TP_DELTA n then wdI (tpDelta n s.now16 s)
    else if o = R.TP_STATE n then setFld dflt 5 5 (b2n (s.tpState n != 0 && !s.smpLocked))
    else dflt
  | .chz => if l.row.off = 0x110 then setFld dflt 12 0 (s.tapUsers n l.inst) else dflt
  | .cap => if o = R.CAP_RATE n then capRateWord n s else dflt
  | .caln =>
    if o = R.CALN_APPLIED n then wdI (calApplied n s)
    else if o = R.CALN_FAC_D0 n then wdI (s.facD n)
    else if o = R.CALN_TBL_DATA n then tblData n s
    else dflt
  | .obs =>
    if o = R.OBS_NEXT_SEC then dtSec s.nextEpoch.dt
    else if o = R.OBS_NEXT_FRAC then dtFrac s.nextEpoch.dt
    else dflt
  | .wg => (wgView n r l.inst s).getD dflt
  | _ => dflt

/-! ## Reads -/

/-- The registers of a least value, which load from the next measurement after a read (R10). -/
def loadsNext (l : RegLoc) : Bool :=
  match l.blk with
  | .fe => l.row.off == R.FE_BIAS_I_MIN 0 - 0x3000
  | .cap => l.row.off == 0x50
  | .sens => l.row.off == 8
  | _ => false

/-- The snapshot of device time of the sample cycle in progress (R519). -/
def takeDt (src : Src) (s : State) : State :=
  let x : DtSnap := if s.smpState = 0 then .zero else ⟨dtSec s.dt, dtFrac s.dt, wd s.acc⟩
  { s with dtSnap := tset (fun _ => DtSnap.zero) s.dtSnap (srcKey src) x }

/-- The newest event record of the Accession log (R520). -/
def newestEvent (s : State) : List Word :=
  let a := s.reg R.HIF_ACC_NEXT - 1#36
  let ws := (List.range 8).map (fun i => s.peek (kBank 15 (8 * (a.toNat % 32768) + i)))
  if a ≠ 0 ∧ ws.getD 0 0 = a then ws else []

/-- The snapshot of the newest event (R520). -/
def takeEvt (src : Src) (s : State) : State :=
  { s with evtSnap := tset (fun _ => ([] : List Word)) s.evtSnap (srcKey src) (newestEvent s) }

/-- A whole read of a BAR0 slot with its side effects (R9, R10, R513, R519, R520). -/
def regRead (src : Src) (o : Nat) (s : State) : Word × State :=
  match regAt o with
  | none => (0, undefAccess src false o 0 s)
  | some l =>
    if o = R.GLB_DT_SEC then
      let s := takeDt src s
      ((s.dtSnapOf src).sec, s)
    else if o = R.GLB_LASTEVT 0 then
      let s := takeEvt src s
      ((s.evtSnapOf src).getD 0 0, s)
    else
      let v := viewWord src o l s
      if l.row.rc then
        let s := s.setReg o 0
        (v, if loadsNext l then { s with fresh := tset (fun _ => false) s.fresh o true } else s)
      else (v, s)

/-- What a slot holds now, with no side effect. -/
def regPeek (src : Src) (o : Nat) (s : State) : Word :=
  match regAt o with
  | none => 0
  | some l => viewWord src o l s

/-! ## Writes -/

/-- A register naming a ring takes 0 or a ring of the class. -/
def ringIs (q cls : Nat) (s : State) : Bool := q == 0 || s.ringClass q == cls

/-- The combinations and state-dependent ranges that chapters name reserved values (R515). -/
def comboBad (o : Nat) (l : RegLoc) (v : Word) (s : State) : Bool :=
  let n := l.unit
  let r := l.row.off
  match l.blk with
  | .cur => o == R.CUR_THERM_CFG && decide (fld v 15 8 < fld v 7 0)
  | .syn => o == R.SYN_SMP_CTRL && fld v 1 0 == 3
  | .lo => o == R.LO_RAMP_FRAC n && decide (n < 4) && !rampOk n s
  | .fe => (o == R.FE_CTRL n && fld v 1 0 == 3) || (o == R.FE_MATCH_CFG n && matchCfgBad v)
      || (r == 0xB8 && coexWinBad (s.reg (R.FE_COEX_WIN_LEN 0 l.inst)).toNat (s.reg (R.FE_COEX_WIN_PER 0 l.inst)).toNat)
  | .chz => (o == R.CHZ_CTRL n && fld v 1 0 == 3) || (r == 0x388 && nfRangeBad v) || (r == 0x100 && decide (4 < fld v 7 5))
  | .acq => o == R.ACQ_PLAN_CFG && decide (1000 * fld v 35 24 ≤ fld v 11 0)
  | .ring =>
    let off := s.ringState n == 0
    (o == R.RING_CTRL n && ringCtrlBad n v.toNat s)
      || ((o == R.RING_BASE_LO n || o == R.RING_BASE_HI n || o == R.RING_CFG n || o == R.RING_WB_LO n || o == R.RING_WB_HI n) && !off)
      || (o == R.RING_HWM n && decide (s.ringSize n < fld v 16 0))
  | .tpc => o == R.TPC_RINGS && !(ringIs (fld v 4 0) 9 s && ringIs (fld v 12 8) 8 s)
  | .cap => o == R.CAP_CFG n && !scaleOk (fld v 8 5)
  | .oss =>
    (o == R.OSS_CFG && decide (s.rf R.OSS_FRAME 29 24 < ossBits v))
      || (o == R.OSS_FRAME && (decide (fld v 29 24 < 16 ∨ 32 < fld v 29 24) || decide (fld v 29 24 < ossBits (s.reg R.OSS_CFG))))
      || (o == R.OSS_MIN && decide (s.rf R.OSS_MAX 23 0 < fld v 23 0)) || (o == R.OSS_MAX && decide (fld v 23 0 < s.rf R.OSS_MIN 23 0))
  | .cal => o == R.CAL_RING && !ringIs (fld v 4 0) 0xA s
  | .obs => o == R.OBS_RINGS && !(ringIs (fld v 4 0) 3 s && ringIs (fld v 12 8) 4 s && ringIs (fld v 20 16) 5 s)
  | .sol => o == R.SOL_RING && !ringIs (fld v 4 0) 6 s
  | .wg => o == R.WG_CTRL n && fld v 1 0 == 3
  | _ => false

/-- The value a write is judged by: CLASS is read-only on rings 0 to 2 (R434), SERIES and SHUNT of the tuner outside manual mode (R74). -/
def judged (l : RegLoc) (v : Word) (s : State) : Word :=
  if l.blk = .ring ∧ l.row.off = 0x10 ∧ l.unit < 3 then setFld v 20 17 (s.ringClass l.unit) else v

/-- What a register holds after a write of `v`: RW bits replaced, W1C bits cleared where written 1, the rest unchanged (R9, R514). -/
def wMerge (row : RegRow) (old v : Word) : Word :=
  let keep : Word := BitVec.ofNat 36 (68719476735 - (row.rw ||| row.w1c))
  (old &&& keep) ||| (v &&& BitVec.ofNat 36 row.rw) ||| (old &&& ~~~v &&& BitVec.ofNat 36 row.w1c)

/-- The write with no action of its own. -/
def plainWrite (o : Nat) (row : RegRow) (v : Word) (s : State) : State := s.setReg o (wMerge row (s.reg o) v)

/-- OBS_RINGS takes effect at the next epoch: the value in force until then is kept with the DT of the write (R268). -/
def obsRingsWrite (v : Word) (s : State) : State :=
  let keep := match s.obs.closed with
    | none => s.obs.ringsOld
    | some d => s.obs.ringsOld.filter (fun p => later 72 p.2 d)
  { s with obs := { s.obs with ringsOld := keep ++ [(s.reg R.OBS_RINGS, s.dt)] } }.setReg R.OBS_RINGS v

/-- Writes to a bank's registers by a requester (R379, R380, R384, R402, R470). -/
def bankRegWrite (src : Src) (o b : Nat) (row : RegRow) (v : Word) (s : State) : State :=
  let own := ownerCode src
  if o = R.BANK_OWNER b then bankOwnerWrite own (uSrc src) b (fld v 5 0) s
  else if o = R.BANK_POWER b then bankPowerWrite own (uSrc src) b (wMerge row (s.reg o) v) s
  else if o = R.BANK_CFG b then
    if !bankMay own b s then bankDenied b (uSrc src) o s
    else bankCfgSet b ((if b = 15 then setFld v 1 1 (s.rf (R.BANK_CFG b) 1 1) else v).toNat % 8) s
  else if o = R.BANK_DELEGATE b then
    if !bankMay own b s then bankDenied b (uSrc src) o s else plainWrite o row v s
  else plainWrite o row v s

/-- Writes to a front end's registers. -/
def feRegWrite (o : Nat) (l : RegLoc) (v : Word) (s : State) : State :=
  let n := l.unit
  let k := l.inst
  let m := wMerge l.row (s.reg (canonOff o)) v
  if o = R.FE_CTRL n then feCtrl n v.toNat s
  else if o = R.FE_CFG n ∨ o = R.FE_CENTRE n then feOffOnly o n m s
  else if o = R.FE_GAIN_CFG n then gainCfgWrite n m s
  else if o = R.FE_TUNER n then tunerWrite n m s
  else if o = R.FE_BIAS_CFG n then biasCfgWrite n m false s
  else if o = R.FE_COEX_MAP n then coexMapWrite n m s
  else if l.row.off = 0xA0 then coexCfgWrite k m s
  else if l.row.off = 0xB8 then coexArm k (s.setReg (canonOff o) m)
  else if o = R.FE_HIST_CTRL n then
    let s := if bit v 0 then histClear (R.FE_HIST n) 64 s else s
    s.setReg o m
  else s.setReg (canonOff o) m

/-- Writes to a channeliser's registers. -/
def chzRegWrite (o : Nat) (l : RegLoc) (v : Word) (s : State) : State :=
  let n := l.unit
  let k := l.inst
  let m := wMerge l.row (s.reg o) v
  if o = R.CHZ_CTRL n then chzCtrl n v.toNat s
  else if o = R.CHZ_STREAM_CFG n then streamCfgWrite n m s
  else if o = R.CHZ_REPLAY_CFG n then replayCfgWrite n m s
  else if l.row.off = 0x100 then tapWrite n k m (s.reg (R.CHZ_TAP_FCW n k)) s
  else if l.row.off = 0x108 then tapWrite n k (s.reg (R.CHZ_TAP_CFG n k)) m s
  else if l.row.off = 0x380 ∨ l.row.off = 0x388 then notchMode n k (s.setReg o m)
  else s.setReg o m

/-- Writes to a synthesiser's registers (R106, R108, R109, R118, R119, R122). -/
def synRegWrite (o : Nat) (l : RegLoc) (v : Word) (s : State) : State :=
  let u := l.unit
  let m := wMerge l.row (s.reg o) v
  if l.blk = .syn then
    if o = R.SYN_SMP_CTRL then synSmpCtrl v.toNat s
    else if o = R.SYN_REF_FREQ then refFreqWrite m s
    else if o = R.SYN_SMP_CFG then smpCfgWrite m s
    else if o = R.SYN_QUAL_CFG then qualCfgWrite m s
    else if o = R.SYN_SMP_LOCK then pllRestart 8 (s.setReg o m)
    else s.setReg o m
  else if o = R.LO_CTRL u then loCtrl u v.toNat s
  else if o = R.LO_CFG u then pllRestart u (s.setReg o (if s.feState (u % 4) = feOff then m else setBit m 0 (bit (s.reg o) 0)))
  else if o = R.LO_LOCK u then pllRestart u (s.setReg o m)
  else if 4 ≤ u ∧ 0x60 ≤ l.row.off then s
  else if o = R.LO_RAMP_FRAC u then (rampFracWrite u m s).1
  else s.setReg o m

/-- Writes to a ring's registers (R422, R423, R427, R428). -/
def ringRegWrite (o q : Nat) (row : RegRow) (v : Word) (s : State) : State :=
  let m := wMerge row (s.reg o) v
  if o = R.RING_BASE_LO q then ringBaseLo q m s
  else if o = R.RING_CTRL q then ringCtrl q v.toNat s
  else if o = R.RING_PROD q then ringIndex true q (fld v 16 0) s
  else if o = R.RING_CONS q then ringIndex false q (fld v 16 0) s
  else if o = R.RING_MOD q then ringMod q m s
  else if o = R.RING_CFG q then syncFull q (s.setReg o (judged ⟨.ring, q, row, 0⟩ m s))
  else if o = R.RING_HWM q then
    let s := s.setReg o m
    if s.ringOcc q < fld m 16 0 then s.setRh q { s.rh q with hwmArmed := true } else s
  else s.setReg o m

/-- A write that passed R515, with the action of its register. -/
def actWrite (src : Src) (o : Nat) (l : RegLoc) (v : Word) (s : State) : State :=
  let n := l.unit
  let m := wMerge l.row (s.reg o) v
  match l.blk with
  | .hif => if o = R.HIF_RING_IRQ then syncRingBit (s.setReg o m) else s.setReg o m
  | .sens => if n < 12 then s.setReg o (setFld (s.reg o) 0 0 (fld v 0 0)) else s
  | .syn => synRegWrite o l v s
  | .lo => synRegWrite o l v s
  | .fe => feRegWrite o l v s
  | .chz => chzRegWrite o l v s
  | .acq =>
    if o = R.ACQ_CTRL then (if bit v 0 then { s with acq := { s.acq with planNow := true } } else s)
    else if o = R.ACQ_CFG then acqCfgSet m s
    else if o = R.ACQ_HIST_CTRL then (if bit v 0 then histClear R.ACQ_HIST 32 s else s).setReg o m
    else s.setReg o m
  | .mem =>
    if o = R.MEM_CTRL then memCtrl v.toNat s
    else if (o = R.MEM_FLIP_DATA ∨ o = R.MEM_FLIP_CHECK ∨ o = R.MEM_FLIP_ARM) ∧ 2 < ownerCode src then s
    else s.setReg o m
  | .bank => bankRegWrite src o n l.row v s
  | .ring => ringRegWrite o n l.row v s
  | .tp => if o = R.TP_CTRL n then tpCtrl n v.toNat s else s.setReg o m
  | .cap => if o = R.CAP_CFG n then capCfgSet n m s else s.setReg o m
  | .oss => if o = R.OSS_CFG then ossSync (s.setReg o m) else s.setReg o m
  | .caln => if o = R.CALN_CTRL n then calCtrl n v.toNat s else s.setReg o m
  | .obs => if o = R.OBS_RINGS then obsRingsWrite m s else s.setReg o m
  | .wg => if o = R.WG_CTRL n then wgCtrl n v.toNat s else s.setReg o m
  | _ => s.setReg o m

/-- R515, R516: a write that is discarded as a reserved value. -/
def writeBad (o : Nat) (l : RegLoc) (v : Word) (s : State) : Bool :=
  (!s.booted && !(blkIndex o == 0 || blkIndex o == 1 || blkIndex o == 8))
    || ((l.row.rw ||| l.row.w1c ||| l.row.wo) != 0 && (!rulesOk l.row.rules (judged l v s) || comboBad o l v s))

/-- A whole write of 36 bits to a BAR0 slot (R9, R513 to R516). -/
def regWrite (src : Src) (o : Nat) (v : Word) (s : State) : State :=
  match regAt o with
  | none => undefAccess src true o v s
  | some l =>
    if writeBad o l v s then resVal src o v s
    else if l.row.rw ||| l.row.w1c ||| l.row.wo = 0 then s
    else actWrite src o l v s

/-! ## The MSI-X table and pending bits (R412) -/

/-- A BAR0 offset in the MSI-X table or the pending-bit array, which carry dwords. -/
def msixOff (o : Nat) : Bool := decide (0xC00 ≤ o ∧ o < 0xE20) || decide (0xF00 ≤ o ∧ o < 0xF08)

/-- A dword of the table, or of the pending-bit array. -/
def msixDword (o : Nat) (s : State) : BitVec 32 :=
  if o < 0xF00 then tget (fun k => if k % 4 = 3 then 1#32 else 0#32) s.hif.msix ((o - 0xC00) / 4)
  else BitVec.ofNat 32 (((List.range 32).map (fun i => b2n (tget (fun _ => false) s.hif.msixPend ((o - 0xF00) * 8 + i)) * 2 ^ i)).sum)

/-- A write of a dword of the table; a vector unmasked sends its pending message. The pending-bit array is read-only. -/
def msixWrite (o : Nat) (v : BitVec 32) (s : State) : State :=
  if 0xF00 ≤ o then s else
  let s := { s with hif := { s.hif with msix := tset (fun k => if k % 4 = 3 then 1#32 else 0#32) s.hif.msix ((o - 0xC00) / 4) v } }
  msixFlush [(o - 0xC00) / 16] s

/-! ## The dwords of a link (R415, R416) -/

/-- The key of a slot for the dword holds: BAR2 slots follow BAR0's. -/
def bar2Key (a : Nat) : Nat := 0x20000 + a

/-- Drop what the link holds. -/
def linkClear (s : State) : State := { s with hif := { s.hif with hiSlot := none, hiBits := 0, loSlot := none, loBits := 0 } }

/-- Bits 35:0 that a write of a width commits: a low dword takes the held bits 35:32 of its slot. -/
def commitWord (src : Src) (key : Nat) (wid : Width) (v : BitVec 64) (s : State) : Word :=
  match src, wid with
  | .pcie, .loDword => wd ((if s.hif.hiSlot = some key then s.hif.hiBits else 0) * 4294967296 + v.toNat % 4294967296)
  | _, _ => wd v.toNat

/-- Hold bits 3:0 of a high dword written for its slot. -/
def holdHigh (key : Nat) (v : BitVec 32) (s : State) : State :=
  let s := linkClear s
  { s with hif := { s.hif with hiSlot := some key, hiBits := v.toNat % 16 } }

/-- Answer a read of a width: `full` reads the word with its side effects, `cur` is its value without. -/
def linkRead (src : Src) (key : Nat) (wid : Width) (full : State → Option Word × State) (cur : Word) (s : State) : State :=
  match src, wid with
  | .pcie, .hiDword =>
    let b := if s.hif.loSlot = some key then s.hif.loBits else fld cur 35 32
    (linkClear s).emit (.readDword src (BitVec.ofNat 32 b))
  | .pcie, .loDword =>
    match full (linkClear s) with
    | (some w, s) => ({ s with hif := { s.hif with loSlot := some key, loBits := fld w 35 32 } }).emit (.readDword src (BitVec.ofNat 32 w.toNat))
    | (none, s) => ({ s with hif := { s.hif with loSlot := some key, loBits := 15 } }).emit .poisoned
  | .pcie, .qword =>
    match full (linkClear s) with
    | (some w, s) => s.emit (.readData src w)
    | (none, s) => s.emit .poisoned
  | _, _ =>
    match full s with
    | (some w, s) => s.emit (.readData src w)
    | (none, s) => s

/-- The BAR0 byte offset of a slot number. -/
def slotOff (slot : BitVec 14) : Nat := 8 * slot.toNat

/-- A write by a source to a BAR0 slot. -/
def busWrite (src : Src) (slot : BitVec 14) (wid : Width) (v : BitVec 64) (s : State) : State :=
  let o := slotOff slot
  if src = .pcie ∧ msixOff o then
    match wid with
    | .qword => msixWrite (o + 4) (BitVec.ofNat 32 (v.toNat / 4294967296)) (msixWrite o (BitVec.ofNat 32 v.toNat) (linkClear s))
    | .loDword => msixWrite o (BitVec.ofNat 32 v.toNat) (linkClear s)
    | .hiDword => msixWrite (o + 4) (BitVec.ofNat 32 v.toNat) (linkClear s)
  else if src = .pcie ∧ wid = .hiDword then holdHigh o (BitVec.ofNat 32 v.toNat) s
  else if msixOff o then s
  else
    let w := commitWord src o wid v s
    regWrite src o w (if src = .pcie then linkClear s else s)

/-- A read by a source of a BAR0 slot; a slot of the MSI-X dwords has no 36-bit value for SPI or a core. -/
def busRead (src : Src) (slot : BitVec 14) (wid : Width) (s : State) : State :=
  let o := slotOff slot
  if msixOff o then
    match src with
    | .pcie =>
      let s := linkClear s
      match wid with
      | .qword => s.emit (.readBytes src 8 ((msixDword (o + 4) s).toNat * 4294967296 + (msixDword o s).toNat))
      | .loDword => s.emit (.readDword src (msixDword o s))
      | .hiDword => s.emit (.readDword src (msixDword (o + 4) s))
    | _ =>
      let (i, s) := s.takeFree
      s.emit (.readData src (Config.freeWord i))
  else linkRead src o wid (fun s => ((some (regRead src o s).1), (regRead src o s).2)) (regPeek src o s) s

/-! ## Commands: register accesses -/

/-- REGISTER_WRITE: a source writes a BAR0 slot. -/
def execRegisterWrite (src : Src) (slot : BitVec 14) (wid : Width) (v : BitVec 64) (s : State) : Host.Outcome State Fault Refusal :=
  if s.srcLive src then .next (busWrite src slot wid v s) else .next s

/-- REGISTER_READ_CLEAR: a source reads a BAR0 slot; an RC register clears. -/
def execRegisterReadClear (src : Src) (slot : BitVec 14) (wid : Width) (s : State) : Host.Outcome State Fault Refusal :=
  if s.srcLive src then .next (busRead src slot wid s) else .next s

/-- HIGH_DWORD_WRITE on the PCI Express link, to a BAR0 slot or (`bar2`) a BAR2 slot. -/
def execHighDwordWrite (bar2 : Bool) (slot : BitVec 22) (v : BitVec 32) (s : State) : Host.Outcome State Fault Refusal :=
  if !s.srcLive .pcie then .next s
  else if bar2 then .next (holdHigh (bar2Key slot.toNat) v s)
  else .next (busWrite .pcie (slot.setWidth 14) .hiDword (v.setWidth 64) s)

/-- UNDEFINED_OFFSET_ACCESS: a source reads or writes an undefined BAR0 offset. -/
def execUndefinedOffsetAccess (src : Src) (slot : BitVec 14) (wid : Width) (write : Bool) (v : BitVec 64) (s : State) : Host.Outcome State Fault Refusal :=
  if !s.srcLive src || (regAt (slotOff slot)).isSome || msixOff (slotOff slot) then .next s
  else if write then .next (busWrite src slot wid v s) else .next (busRead src slot wid s)

/-- GLB_DT_SEC_READ. -/
def execGlbDtSecRead (src : Src) (wid : Width) (s : State) : Host.Outcome State Fault Refusal :=
  if s.srcLive src then .next (busRead src (BitVec.ofNat 14 (R.GLB_DT_SEC / 8)) wid s) else .next s

/-- GLB_LASTEVT0_READ. -/
def execGlbLastevt0Read (src : Src) (wid : Width) (s : State) : Host.Outcome State Fault Refusal :=
  if s.srcLive src then .next (busRead src (BitVec.ofNat 14 (R.GLB_LASTEVT 0 / 8)) wid s) else .next s

/-! ## The shared store from the host (R377, R386) -/

/-- A host read of a shared-store word. -/
def hostWordRead (a requester : Nat) (s : State) : Option Word × State :=
  match bankRead 1 0 (a / 262144 % 16) (a % 262144) requester (serveFor a s) with
  | (s, .ok w) => (some w, s)
  | (s, _) => (none, s)

/-- What a shared-store word holds for a read with no side effect; all ones where the host may not read it. -/
def hostWordPeek (a : Nat) (s : State) : Word := if spiBankOk a s then s.peek (kBank (a / 262144 % 16) (a % 262144)) else 0xFFFFFFFFF#36

/-- BAR2_READ of word address `a`. -/
def execBar2Read (a : BitVec 22) (wid : Width) (s : State) : Host.Outcome State Fault Refusal :=
  if !s.srcLive .pcie then .next s
  else .next (linkRead .pcie (bar2Key a.toNat) wid (hostWordRead a.toNat uPcie) (hostWordPeek a.toNat s) s)

/-- A posted write of a shared-store word; a bus error discards it, with event 0x90D (R386). -/
def bar2Put (a : Nat) (d : Word) (s : State) : State :=
  match bankWrite 1 0 (a / 262144 % 16) (a % 262144) d uPcie (serveFor a s) with
  | (s, .ok _) => s
  | (s, _) =>
    let s := ((s.cnt R.MEM_HOST_DISCARD_CNT).sticky R.MEM_STATUS 9).cnt R.HIF_AER_CNT
    raise 0x90D 2 (uBank (a / 262144 % 16)) [wd (a / 262144 % 16), wd (a % 262144)] (s.emit .aer)

/-- BAR2_WRITE of word address `a`. -/
def execBar2Write (a : BitVec 22) (wid : Width) (v : BitVec 64) (s : State) : Host.Outcome State Fault Refusal :=
  if !s.srcLive .pcie then .next s
  else if wid = .hiDword then .next (holdHigh (bar2Key a.toNat) (BitVec.ofNat 32 v.toNat) s)
  else .next (bar2Put a.toNat (commitWord .pcie (bar2Key a.toNat) wid v s) (linkClear s))

/-! ## Accesses of less than a dword (R417) -/

/-- The bytes of a dword that a byte-enable mask names, the others zero. -/
def byteMask (be : BitVec 4) (v : BitVec 32) : Nat :=
  ((List.range 4).map (fun i => if be.getLsbD i then (v.toNat >>> (8 * i)) % 256 * 256 ^ i else 0)).sum

/-- The dword that the last read sent out, and the state before it was sent. -/
def takeDword (s : State) : Option (BitVec 32) × State :=
  match s.out with
  | .readDword _ v :: t => (some v, { s with out := t })
  | _ => (none, s)

/-- PARTIAL_ACCESS: an access that covers some bytes (`be`) of the low or high dword of a slot of BAR0 or BAR2. A write is discarded. -/
def execPartialAccess (bar2 : Bool) (slot : BitVec 22) (hi : Bool) (be : BitVec 4) (write : Bool) (s : State) : Host.Outcome State Fault Refusal :=
  if !s.srcLive .pcie || be = 15#4 then .next s else
  let a := slot.toNat
  let wid : Width := if hi then .hiDword else .loDword
  let s :=
    if write then linkClear s else
    let r := if bar2 then linkRead .pcie (bar2Key a) wid (hostWordRead a uPcie) (hostWordPeek a s) s
      else busRead .pcie (slot.setWidth 14) wid s
    match takeDword r with
    | (some v, s) => s.emit (.readBytes .pcie 4 (byteMask be v))
    | (none, s) => s
  let s := (s.cnt R.HIF_PARTIAL_CNT).sticky R.HIF_STATUS 3
  .next (raise 0x048 1 uHif [wd (if bar2 then 2 else 0), wd (8 * (if bar2 then a else a % 16384) + (if hi then 4 else 0))] s)

/-! ## SPI frames (R418 to R420) -/

/-- A frame that the device ignores from here on: counted, SPI_ERR, event 0x04A with the command byte and the address. -/
def spiRefuse (cmd addr : Nat) (s : State) : State :=
  let s := ((s.cnt R.HIF_SPI_ERR_CNT).setReg R.HIF_SPI_STAT (wd cmd)).sticky R.HIF_STATUS 5
  raise 0x04A 1 uSpi [wd cmd, wd addr] (s.emit .spiIgnored)

/-- Is the SPI slave listening? -/
def State.spiLive (s : State) : Bool := s.srcLive .spi

/-- Register units from byte offset `o` on. -/
def spiRegRead (cmd : Nat) : Nat → Nat → State → State
  | 0, _, s => s
  | n + 1, o, s =>
    if 0x20000 ≤ o then spiRefuse cmd o s
    else if msixOff o then
      let (i, s) := s.takeFree
      spiRegRead cmd n (o + 8) (s.emit (.spiData 0 (Config.freeWord i)))
    else
      let (v, s) := regRead .spi o s
      spiRegRead cmd n (o + 8) (s.emit (.spiData 0 v))

/-- SPI_REGISTER_READ: command 0x0B, `n` units. -/
def execSpiRegisterRead (addr : BitVec 24) (n : Nat) (s : State) : Host.Outcome State Fault Refusal :=
  if !s.spiLive then .next s
  else if 0x20000 ≤ addr.toNat ∨ addr.toNat % 8 ≠ 0 then .next (spiRefuse 0x0B addr.toNat s)
  else .next (spiRegRead 0x0B n addr.toNat s)

/-- A unit of a register write: five bytes, STAT in bits 39:36. -/
def spiRegWrite : List (BitVec 40) → Nat → State → State
  | [], _, s => s
  | u :: us, o, s =>
    if 0x20000 ≤ o then spiRefuse 0x02 o s
    else if u.extractLsb' 36 4 ≠ 0#4 then spiRegWrite us (o + 8) (resVal .spi o (u.setWidth 36) (s.cnt R.HIF_SPI_ERR_CNT))
    else spiRegWrite us (o + 8) (if msixOff o then s else regWrite .spi o (u.setWidth 36) s)

/-- SPI_REGISTER_WRITE: command 0x02 with the units received whole; a last partial unit is not written. -/
def execSpiRegisterWrite (addr : BitVec 24) (units : List (BitVec 40)) (s : State) : Host.Outcome State Fault Refusal :=
  if !s.spiLive then .next s
  else if 0x20000 ≤ addr.toNat ∨ addr.toNat % 8 ≠ 0 then .next (spiRefuse 0x02 addr.toNat s)
  else .next (spiRegWrite units addr.toNat s)

/-- Word-read units; each with whether the word was ready by the end of the dummy clocks. -/
def spiWordRead : List Bool → Nat → State → State
  | [], _, s => s
  | ready :: rs, a, s =>
    if 4194304 ≤ a then spiRefuse 0x1B a s
    else if !ready then spiWordRead rs (a + 1) (s.emit (.spiData 15 0xFFFFFFFFF#36))
    else match bankRead 1 0 (a / 262144) (a % 262144) uSpi s with
      | (s, .ok w) => spiWordRead rs (a + 1) (s.emit (.spiData 0 w))
      | (s, .stall) => spiWordRead rs (a + 1) (s.emit (.spiData 15 0xFFFFFFFFF#36))
      | (s, .err c) => spiWordRead rs (a + 1) (s.emit (.spiData c 0xFFFFFFFFF#36))

/-- SPI_WORD_READ: command 0x1B. -/
def execSpiWordRead (addr : BitVec 24) (ready : List Bool) (s : State) : Host.Outcome State Fault Refusal :=
  if !s.spiLive then .next s
  else if 4194304 ≤ addr.toNat then .next (spiRefuse 0x1B addr.toNat s)
  else .next (spiWordRead ready addr.toNat s)

/-- Word-write units; a failed write sets ERR and its sub-code in the status byte. -/
def spiWordWrite : List (BitVec 40) → Nat → State → State
  | [], _, s => s
  | u :: us, a, s =>
    if 4194304 ≤ a then spiRefuse 0x12 a s
    else if u.extractLsb' 36 4 ≠ 0#4 then spiWordWrite us (a + 1) (s.cnt R.HIF_SPI_ERR_CNT)
    else match bankWrite 1 0 (a / 262144) (a % 262144) (u.setWidth 36) uSpi (serveFor a s) with
      | (s, .err c) => spiWordWrite us (a + 1) { s with hif := { s.hif with spiErr := true, spiSub := c } }
      | (s, _) => spiWordWrite us (a + 1) s

/-- SPI_WORD_WRITE: command 0x12. -/
def execSpiWordWrite (addr : BitVec 24) (units : List (BitVec 40)) (s : State) : Host.Outcome State Fault Refusal :=
  if !s.spiLive then .next s
  else if 4194304 ≤ addr.toNat then .next (spiRefuse 0x12 addr.toNat s)
  else .next (spiWordWrite units addr.toNat s)

/-- SPI_STATUS_READ: command 0x05; the read clears ERR. -/
def execSpiStatusRead (s : State) : Host.Outcome State Fault Refusal :=
  if !s.spiLive then .next s else
  let b := b2n s.booted * 128 + b2n (!s.alertN) * 64 + b2n s.hif.spiErr * 32 + s.hif.spiSub % 16
  .next ({ s with hif := { s.hif with spiErr := false } }.emit (.spiStatus (BitVec.ofNat 8 b)))

/-- SPI_FRAME_REFUSED: a command byte the device does not know, or an address outside its command's range. -/
def execSpiFrameRefused (cmd : BitVec 8) (addr : BitVec 24) (s : State) : Host.Outcome State Fault Refusal :=
  let c := cmd.toNat
  let a := addr.toNat
  let good := if c = 0x0B ∨ c = 0x02 then decide (a < 0x20000 ∧ a % 8 = 0) else if c = 0x1B ∨ c = 0x12 then decide (a < 4194304) else c == 5
  if !s.spiLive || good then .next s else .next (spiRefuse c a s)

/-! ## Commands: register writes that act -/

/-- A whole write by a source to a register that acts. -/
def actRow (src : Src) (o : Nat) (v : Word) (s : State) : Host.Outcome State Fault Refusal :=
  if s.srcLive src then .next (regWrite src o v (if src = .pcie then linkClear s else s)) else .next s

/-- SYN_SMP_CTRL_ENABLE. -/
def execSynSmpCtrlEnable (src : Src) (s : State) : Host.Outcome State Fault Refusal := actRow src R.SYN_SMP_CTRL 1 s
/-- SYN_SMP_CTRL_REENGAGE. -/
def execSynSmpCtrlReengage (src : Src) (s : State) : Host.Outcome State Fault Refusal := actRow src R.SYN_SMP_CTRL 2 s
/-- RAMP_FRAC_WRITE of synthesiser `u` (LO 0–3, injection 4–7). -/
def execRampFracWrite (src : Src) (u : Fin 8) (v : Word) (s : State) : Host.Outcome State Fault Refusal := actRow src (R.LO_RAMP_FRAC u) v s
/-- RAMP_STOP. -/
def execRampStop (src : Src) (u : Fin 8) (s : State) : Host.Outcome State Fault Refusal := actRow src (R.LO_CTRL u) 1 s
/-- FE_CTRL_ENABLE. -/
def execFeCtrlEnable (src : Src) (n : Fin 4) (s : State) : Host.Outcome State Fault Refusal := actRow src (R.FE_CTRL n) 1 s
/-- FE_CTRL_DISABLE. -/
def execFeCtrlDisable (src : Src) (n : Fin 4) (s : State) : Host.Outcome State Fault Refusal := actRow src (R.FE_CTRL n) 2 s
/-- FE_CTRL_RECAL. -/
def execFeCtrlRecal (src : Src) (n : Fin 4) (s : State) : Host.Outcome State Fault Refusal := actRow src (R.FE_CTRL n) 4 s
/-- BIAS_CFG_WRITE. -/
def execBiasCfgWrite (src : Src) (n : Fin 4) (v : Word) (s : State) : Host.Outcome State Fault Refusal := actRow src (R.FE_BIAS_CFG n) v s
/-- COEX_WIN_FRAC_WRITE of pair `k`, through the registers of front end `n`. -/
def execCoexWinFracWrite (src : Src) (n : Fin 4) (k : Fin 2) (v : Word) (s : State) : Host.Outcome State Fault Refusal := actRow src (R.FE_COEX_WIN_FRAC n k) v s
/-- TAP_CFG_WRITE: of CFG, or with `fcw` of the frequency word. -/
def execTapCfgWrite (src : Src) (n : Fin 4) (t : Fin 16) (fcw : Bool) (v : Word) (s : State) : Host.Outcome State Fault Refusal :=
  actRow src (if fcw then R.CHZ_TAP_FCW n t else R.CHZ_TAP_CFG n t) v s
/-- CHZ_CTRL_REPLAY_START. -/
def execChzCtrlReplayStart (src : Src) (n : Fin 4) (s : State) : Host.Outcome State Fault Refusal := actRow src (R.CHZ_CTRL n) 2 s
/-- CHZ_CTRL_REPLAY_STOP. -/
def execChzCtrlReplayStop (src : Src) (n : Fin 4) (s : State) : Host.Outcome State Fault Refusal := actRow src (R.CHZ_CTRL n) 1 s
/-- ACQ_CFG_WRITE. -/
def execAcqCfgWrite (src : Src) (v : Word) (s : State) : Host.Outcome State Fault Refusal := actRow src R.ACQ_CFG v s
/-- ACQ_CTRL_PLAN_NOW. -/
def execAcqCtrlPlanNow (src : Src) (s : State) : Host.Outcome State Fault Refusal := actRow src R.ACQ_CTRL 1 s
/-- WG_CTRL_ENABLE. -/
def execWgCtrlEnable (src : Src) (w : Fin 16) (s : State) : Host.Outcome State Fault Refusal := actRow src (R.WG_CTRL w) 1 s
/-- WG_CTRL_DISABLE. -/
def execWgCtrlDisable (src : Src) (w : Fin 16) (s : State) : Host.Outcome State Fault Refusal := actRow src (R.WG_CTRL w) 2 s
/-- TP_CTRL_JUMP. -/
def execTpCtrlJump (src : Src) (n : Fin 4) (s : State) : Host.Outcome State Fault Refusal := actRow src (R.TP_CTRL n) 1 s
/-- CAL_CTRL_INJ_STOP. -/
def execCalCtrlInjStop (src : Src) (n : Fin 4) (s : State) : Host.Outcome State Fault Refusal := actRow src (R.CALN_CTRL n) 1 s
/-- CAL_CTRL_SWEEP_ABORT. -/
def execCalCtrlSweepAbort (src : Src) (n : Fin 4) (s : State) : Host.Outcome State Fault Refusal := actRow src (R.CALN_CTRL n) 2 s
/-- BANK_OWNER_WRITE. -/
def execBankOwnerWrite (src : Src) (b : Fin 16) (v : Word) (s : State) : Host.Outcome State Fault Refusal := actRow src (R.BANK_OWNER b) v s
/-- BANK_POWER_WRITE. -/
def execBankPowerWrite (src : Src) (b : Fin 16) (v : Word) (s : State) : Host.Outcome State Fault Refusal := actRow src (R.BANK_POWER b) v s
/-- MEM_CTRL_SCRUB_NOW. -/
def execMemCtrlScrubNow (src : Src) (s : State) : Host.Outcome State Fault Refusal := actRow src R.MEM_CTRL 2 s
/-- MEM_CTRL_TEST_RESTART. -/
def execMemCtrlTestRestart (src : Src) (s : State) : Host.Outcome State Fault Refusal := actRow src R.MEM_CTRL 1 s
/-- FE_HIST_CTRL_CLEAR: CLEAR with the other bits of the register written as they stand. -/
def execFeHistCtrlClear (src : Src) (n : Fin 4) (s : State) : Host.Outcome State Fault Refusal :=
  actRow src (R.FE_HIST_CTRL n) (setBit (s.reg (R.FE_HIST_CTRL n)) 0 true) s
/-- ACQ_HIST_CTRL_CLEAR: CLEAR with the other bits of the register written as they stand. -/
def execAcqHistCtrlClear (src : Src) (s : State) : Host.Outcome State Fault Refusal :=
  actRow src R.ACQ_HIST_CTRL (setBit (s.reg R.ACQ_HIST_CTRL) 0 true) s
/-- RING_CTRL_ENABLE. -/
def execRingCtrlEnable (src : Src) (q : Fin 32) (s : State) : Host.Outcome State Fault Refusal := actRow src (R.RING_CTRL q) 1 s
/-- RING_CTRL_DISABLE. -/
def execRingCtrlDisable (src : Src) (q : Fin 32) (s : State) : Host.Outcome State Fault Refusal := actRow src (R.RING_CTRL q) 2 s
/-- RING_BASE_LO_WRITE. -/
def execRingBaseLoWrite (src : Src) (q : Fin 32) (v : Word) (s : State) : Host.Outcome State Fault Refusal := actRow src (R.RING_BASE_LO q) v s
/-- RING_PROD_WRITE. -/
def execRingProdWrite (src : Src) (q : Fin 32) (v : Word) (s : State) : Host.Outcome State Fault Refusal := actRow src (R.RING_PROD q) v s
/-- RING_CONS_WRITE. -/
def execRingConsWrite (src : Src) (q : Fin 32) (v : Word) (s : State) : Host.Outcome State Fault Refusal := actRow src (R.RING_CONS q) v s

end Sys2Proof.Machine
end

