-- ==== Sys2Proof/Machine/Apone.lean ====
section
/-! DEFINITION. Apone.lean: the Apone cores: fetch, issue, products, repetition, traps and address map (R349 to R372), shared by the
instructions of ApInstr.lean. -/

namespace Sys2Proof.Machine

/-! ## Registers -/

/-- General register `r`; w0 reads zero (R350). -/
def ApCore.get (x : ApCore) (r : BitVec 5) : Word := if r = 0 then 0 else tget (fun _ => 0#36) x.w r.toNat

/-- Write general register `r`; a write to w0 is discarded. -/
def ApCore.put (x : ApCore) (r : BitVec 5) (v : Word) : ApCore := if r = 0 then x else { x with w := tset (fun _ => 0#36) x.w r.toNat v }

/-- STATUS.PRIV: the core is at user level. -/
def ApCore.user (x : ApCore) : Bool := bit x.status 0
def ApCore.trapped (x : ApCore) : Bool := bit x.status 3

/-- The budget governs this instruction (R367). -/
def ApCore.budgeted (x : ApCore) : Bool := bit x.status 4 && !bit x.status 3

/-- A core that may issue. -/
def ApCore.live (x : ApCore) : Bool := x.started && !x.stopped && !x.waiting

/-! ## Products (R355) -/

/-- A product lands. -/
def landOne (x : ApCore) (p : Product) : ApCore :=
  if p.mac then
    let a : BitVec 72 := (x.p2 ++ x.p3) + p.val
    { x with p2 := a.extractLsb' 36 36, p3 := a.extractLsb' 0 36 }
  else { x with p0 := p.val.extractLsb' 36 36, p1 := p.val.extractLsb' 0 36 }

/-- Products whose two following instructions have completed land, in issue order. -/
def landDue (x : ApCore) : ApCore :=
  let y := (x.flight.filter (fun p => decide (2 ≤ p.age))).foldl landOne x
  { y with flight := x.flight.filter (fun p => decide (p.age < 2)) }

/-- Every product in flight lands. -/
def landAll (x : ApCore) : ApCore := { x.flight.foldl landOne x with flight := [] }

/-! ## Address map (R369) -/

/-- The word of local memory at an address of core `c`: instruction, data and channel state memory. -/
def apLocal (c a : Nat) : Option Nat :=
  if c < 16 then
    if a < 0x4000 then some (kWim c a)
    else if 0x100000 ≤ a ∧ a < 0x108000 then some (kWdm c (a - 0x100000))
    else if 0x200000 ≤ a ∧ a < 0x204000 then some (kCsm c (a - 0x200000))
    else none
  else if c < 18 then
    if a < 0x8000 then some (kSim (c - 16) a)
    else if 0x100000 ≤ a ∧ a < 0x120000 then some (kSdm (c - 16) (a - 0x100000))
    else none
  else if a < 0x4000 then some (kCim a)
  else if 0x100000 ≤ a ∧ a < 0x108000 then some (kCdm (a - 0x100000))
  else none

/-- An address of the Curator's ROM. -/
def apRom (c a : Nat) : Bool := c == 18 && decide (0x8000 ≤ a ∧ a < 0xC000)

/-- R371: an access that user level may not make. -/
def apForbid (c a : Nat) (store : Bool) (x : ApCore) : Bool :=
  x.user && !(decide (c < 16) && (decide (0x107000 ≤ a ∧ a < 0x108000)
    || (decide (0x200000 ≤ a ∧ a < 0x204000) && (!store || a % 128 == 31))))

/-- A load of one word (R353, R363, R369, R370). -/
def apLoad (c : Fin 19) (a : Nat) (s : State) : State × Acc :=
  if 0x400000 ≤ a ∧ a < 0x800000 then
    bankRead (ownerCode (.core c)) 0 ((a - 0x400000) / 262144) ((a - 0x400000) % 262144) (uCore c) s
  else if 0x800000 ≤ a ∧ a < 0x804000 then
    let o := 8 * (a - 0x800000)
    if msixOff o then (s.takeFree.2, .ok (Config.freeWord s.takeFree.1))
    else
      let (v, s) := regRead (.core c) o s
      (s, .ok v)
  else if apRom c a then (s, .ok (Config.romWord (a - 0x8000)))
  else match apLocal c a with
    | some k => memRead k (uCore c) s
    | none => (s, .err 1)

/-- A store of one word. -/
def apStore (c : Fin 19) (a : Nat) (d : Word) (s : State) : State × Acc :=
  if 0x400000 ≤ a ∧ a < 0x800000 then
    bankWrite (ownerCode (.core c)) 0 ((a - 0x400000) / 262144) ((a - 0x400000) % 262144) d (uCore c) s
  else if 0x800000 ≤ a ∧ a < 0x804000 then
    let o := 8 * (a - 0x800000)
    (if msixOff o then s else regWrite (.core c) o d s, .ok d)
  else if apRom c a then (s, .err 8)
  else match apLocal c a with
    | some k =>
      if 0x200000 ≤ a ∧ 32 ≤ a % 128 then (((s.cnt (R.WG_CSM_TRAP_CNT c)).sticky (R.WG_STATUS c) 4), .err 5)
      else (s.store k d, .ok d)
    | none => (s, .err 1)

/-! ## Fetch (R353, R362, R369, R371) -/

/-- What a fetch gives: the word, a privilege violation, or a bus error with its sub-code. -/
inductive FetchRes where
  | word (w : Word)
  | priv
  | err (sub : Nat)
deriving DecidableEq, Repr

/-- Fetch the instruction at `pc`. -/
def apFetch (c : Fin 19) (x : ApCore) (pc : Addr24) (s : State) : State × FetchRes :=
  let a := pc.toNat
  if x.user && !(decide (c.val < 16) && decide (0x3000 ≤ a ∧ a < 0x4000)) then (s, .priv)
  else if apRom c a then (s, .word (Config.romWord (a - 0x8000)))
  else if 0x10000 ≤ a then (s, .err 6)
  else match apLocal c a with
    | none => (s, .err 6)
    | some k => match memRead k (uCore c) s with
      | (s, .ok w) => (s, .word w)
      | (s, .err e) => (s, .err e)
      | (s, .stall) => (s, .err 1)

/-! ## Encodings (R351, R352) -/

/-- The major opcode of a word. -/
def apOp (w : Word) : Nat := fld w 35 30

/-- The word is one of the instructions listed (R352). -/
def apListed (w : Word) : Bool :=
  let o := apOp w
  if o = 0 then decide (fld w 14 9 ≤ 0xE)
  else decide (o ≤ 0x1A) || decide (0x20 ≤ o ∧ o ≤ 0x2A) || o == 0x30 || o == 0x31

/-- A shift with kind 0b11, which is no instruction of the table but a reserved field. -/
def apBadKind (w : Word) : Bool := apOp w == 6 && fld w 19 18 == 3

/-- A control-transfer instruction. -/
def apControl (w : Word) : Bool := decide (0x20 ≤ apOp w ∧ apOp w ≤ 0x2A)

/-- Format R under major opcode 0x00 with function code `fn`. -/
def encR (fn : BitVec 6) (f : FmtR) : Word := 0#6 ++ f.rd ++ f.ra ++ f.rb ++ fn ++ f.lo
/-- Format R of another major opcode. -/
def encM (op : BitVec 6) (f : FmtM) : Word := op ++ f.rd ++ f.ra ++ f.rb ++ f.fn ++ f.lo
/-- Format I. -/
def encI (op : BitVec 6) (f : FmtI) : Word := op ++ f.rd ++ f.ra ++ f.imm
/-- Format S of a kind, under major opcode 0x06. -/
def encS (kind : BitVec 2) (f : FmtS) : Word := 6#6 ++ f.rd ++ f.ra ++ kind ++ f.amt ++ f.lo
/-- Format F. -/
def encF (op : BitVec 6) (f : FmtF) : Word := op ++ f.rd ++ f.ra ++ f.pos ++ f.wid ++ f.lo
/-- Format B. -/
def encB (op : BitVec 6) (f : FmtB) : Word := op ++ f.ra ++ f.z ++ f.off
/-- Format J. -/
def encJ (op : BitVec 6) (f : FmtJ) : Word := op ++ f.z ++ f.target
/-- Format P. -/
def encP (op : BitVec 6) (f : FmtP) : Word := op ++ f.rd ++ f.ra ++ f.i ++ f.lo
/-- Format C. -/
def encC (op : BitVec 6) (f : FmtC) : Word := op ++ f.rd ++ f.ra ++ f.n ++ f.lo
/-- Format X. -/
def encX (op : BitVec 6) (f : FmtX) : Word := op ++ f.z ++ f.code
/-- The instructions whose bits 29:0 are all marked zero. -/
def encZ (op : BitVec 6) (z : BitVec 30) : Word := op ++ z

/-! ## Traps (R360 to R366, R371, R372) -/

/-- A trap at user level on a wing core ends the hook; any but SYS with code 0 detaches it (R372). An interrupt does not: the firmware
resumes from it, and it never moves the point at which a hook's budget runs out (R365, R367; DEDUCED: notes/assumptions/57.md). -/
def hookTrap (w cause addr : Nat) (s : State) : State :=
  match s.loop.hookRun.find? (fun p => p.1 == w) with
  | none => s
  | some (_, (c, j, _)) =>
    let s := { s with loop := { s.loop with hookRun := s.loop.hookRun.filter (fun p => p.1 != w) } }
    if cause = 0xB ∧ addr = 0 then s else hookDetach c j s

/-- R364: the core stops instead of entering its handler. -/
def apStops (x : ApCore) (sync : Bool) (cause sub addr : Nat) : Bool :=
  sync && (x.trapped || (!x.user && (cause == 1 || cause == 2
    || (cause == 4 && (sub == 3 || sub == 4) && decide (addr < 0x200000)))))

/-- STATUS as trap entry leaves it: PRIV 0, IE 0, TRAPPED 1. -/
def statusTrapped (w : Word) : Word := setBit (setBit (setBit w 0 false) 1 false) 3 true

/-- The registers of a core after trap entry (R360). -/
def apEnter (x : ApCore) (cause sub addr : Nat) (tpc : Addr24) : ApCore :=
  let x := landAll x
  { x with
    tstat := setBit x.status 5 x.rep.isSome
    trep := match x.rep with
      | some n => wd n
      | none => x.trep
    tpc := tpc
    tcause := wd (sub * 32 + cause)
    taddr := BitVec.ofNat 24 addr
    status := statusTrapped x.status
    pc := x.tvec
    rep := none
    repMul := false
    waiting := false }

/-- Take a trap: entry, or the stop of R364; a wing core's cause and PC show in WGw_CORE_STAT. -/
def apTrap (c : Fin 19) (x : ApCore) (sync : Bool) (cause sub addr : Nat) (tpc : Addr24) (s : State) : State :=
  let at_ := if cause = 0xB then x.pc else tpc
  let s := if c.val < 16 then s.setReg (R.WG_CORE_STAT c) (wd (at_.toNat * 32 + cause)) else s
  if apStops x sync cause sub addr then
    s.setCore c { x with stopped := true, pc := at_, tcause := wd (sub * 32 + cause), taddr := BitVec.ofNat 24 addr }
  else
    let s := s.setCore c (apEnter x cause sub addr tpc)
    if x.user && sync && decide (c.val < 16) then hookTrap c cause addr s else s

/-! ## Issue (R355, R358, R362, R367) -/

/-- What an instruction does: the registers with pc at the next instruction and the state; a trap with cause, sub-code, TADDR and the
distance of TPC from the instruction; or a stall. -/
inductive ApRes where
  | go (x : ApCore) (s : State)
  | trap (cause sub addr ofs : Nat) (s : State)
  | stall (s : State)

/-- An issued instruction is counted and takes from an armed budget (R367, R368). -/
def apCount (was x : ApCore) : ApCore :=
  { x with icount := x.icount + 1, budget := if was.budgeted then x.budget - 1 else x.budget }

/-- An instruction completes: counted; the products in flight before it age; a repeated instruction counts an iteration. -/
def apDone (was y : ApCore) : ApCore :=
  let n := was.flight.length
  let y := apCount was { y with flight := (y.flight.take n).map (fun p => { p with age := p.age + 1 }) ++ y.flight.drop n }
  match was.rep with
  | none => y
  | some k => if k ≤ 1 then { y with rep := none, repMul := false } else { y with rep := some (k - 1), pc := was.pc, repMul := decide (n < y.flight.length) }

/-- Put a completed instruction's registers back: a line pended meanwhile stays, and a core that the instruction stopped stays off. -/
def apPut (c : Nat) (before : State) (y : ApCore) (s : State) : State :=
  let z := s.core c
  if !z.started then s else s.setCore c { y with ipend := y.ipend ||| (z.ipend &&& ~~~(before.core c).ipend) }

/-- The core `c` issues the instruction encoded by `w` at its pc, where the fetch gives that word; `legal` is whether its reserved fields
are zero. In the order of R362: budget, (fetch), reserved field, and what the instruction itself raises. -/
def apIssue (c : Fin 19) (w : Word) (legal : Bool) (fx : ApCore → State → ApRes) (s : State) : State :=
  let x := s.core c
  if !x.live then s else
  match apFetch c x x.pc s with
  | (s1, .word v) =>
    if v ≠ w then s else
    let x := landDue x
    if x.budgeted && x.budget == 0 then apTrap c x true 9 0 0 x.pc s
    else if !legal then apTrap c (apCount x x) true 2 0 0 x.pc s1
    else match fx x s1 with
      | .go y s2 => apPut c s1 (apDone x y) s2
      | .trap cause sub addr ofs s2 => apTrap c (apCount x x) true cause sub addr (x.pc + BitVec.ofNat 24 ofs) s2
      | .stall s2 => s2
  | _ => s

/-- The meaning of an instruction row. -/
def apRow (c : Fin 19) (w : Word) (legal : Bool) (fx : ApCore → State → ApRes) (s : State) : Host.Outcome State Fault Refusal :=
  .next (apIssue c w legal fx s)

/-- An instruction that writes one general register and goes on. -/
def apSet (rd : BitVec 5) (f : ApCore → Word) (x : ApCore) (s : State) : ApRes := .go { x.put rd (f x) with pc := x.pc + 1 } s

/-- An instruction that user level may not issue. -/
def apPriv (fx : ApCore → State → ApRes) (x : ApCore) (s : State) : ApRes := if x.user then .trap 3 0 0 0 s else fx x s

/-! ## Loads and stores (R353) -/

/-- The effective address. -/
def apAddr (f : FmtI) (x : ApCore) : Nat := ((x.get f.ra).toNat + (f.imm.signExtend 36).toNat) % 16777216

/-- LD. -/
def apLd (c : Fin 19) (f : FmtI) (x : ApCore) (s : State) : ApRes :=
  let a := apAddr f x
  if apForbid c a false x then .trap 3 0 a 0 s else
  match apLoad c a s with
  | (s, .ok v) => .go { x.put f.rd v with pc := x.pc + 1 } s
  | (s, .stall) => .stall s
  | (s, .err e) => .trap 4 e a 0 s

/-- ST. -/
def apSt (c : Fin 19) (f : FmtI) (x : ApCore) (s : State) : ApRes :=
  let a := apAddr f x
  if apForbid c a true x then .trap 3 0 a 0 s else
  match apStore c a (x.get f.rd) s with
  | (s, .ok _) => .go { x with pc := x.pc + 1 } s
  | (s, .stall) => .stall s
  | (s, .err e) => .trap 4 e a 0 s

/-- LDD: an odd address traps; both words or none. -/
def apLdd (c : Fin 19) (f : FmtI) (x : ApCore) (s : State) : ApRes :=
  let a := apAddr f x
  if apForbid c a false x || apForbid c (a + 1) false x then .trap 3 0 a 0 s
  else if a % 2 = 1 then .trap 8 0 a 0 s
  else match apLoad c a s with
    | (s, .stall) => .stall s
    | (s, .err e) => .trap 4 e a 0 s
    | (s, .ok v) => match apLoad c (a + 1) s with
      | (s, .stall) => .stall s
      | (s, .err e) => .trap 4 e (a + 1) 0 s
      | (s, .ok u) => .go { (x.put f.rd v).put (f.rd + 1) u with pc := x.pc + 1 } s

/-- STD: a word that fails leaves neither written. -/
def apStd (c : Fin 19) (f : FmtI) (x : ApCore) (s : State) : ApRes :=
  let a := apAddr f x
  if apForbid c a true x || apForbid c (a + 1) true x then .trap 3 0 a 0 s
  else if a % 2 = 1 then .trap 8 0 a 0 s
  else match apStore c a (x.get f.rd) s with
    | (s, .stall) => .stall s
    | (s, .err e) => .trap 4 e a 0 s
    | (s1, .ok _) => match apStore c (a + 1) (x.get (f.rd + 1)) s1 with
      | (s2, .ok _) => .go { x with pc := x.pc + 1 } s2
      | (_, .stall) => .stall s
      | (_, .err e) => .trap 4 e (a + 1) 0 (apStore c (a + 1) (x.get (f.rd + 1)) s).1

/-! ## Return stack (R357) -/

/-- CALL and CALLR to an address. -/
def apCall (t : Addr24) (x : ApCore) (s : State) : ApRes :=
  let n := x.rsp.toNat
  let z (_ : Nat) : Addr24 := 0
  if n < 8 then .go { x with rs := tset z x.rs n (x.pc + 1), rsp := x.rsp + 1, pc := t } s
  else if !bit x.status 2 then .trap 5 0 0 0 s
  else
    let down := (List.range 7).foldl (fun r i => tset z r i (tget z x.rs (i + 1))) x.rs
    .go { x with rs := tset z down 7 (x.pc + 1), pc := t } s

/-- RET. -/
def apRet (x : ApCore) (s : State) : ApRes :=
  if x.rsp = 0 then .trap 6 0 0 0 s
  else .go { x with pc := tget (fun _ => 0#24) x.rs (x.rsp.toNat - 1), rsp := x.rsp - 1 } s

/-! ## Repetition (R358, R359, R365) -/

/-- REP: checks what follows, then latches the count; zero skips the repeated instruction. -/
def apRep (c : Fin 19) (x : ApCore) (s : State) : ApRes :=
  let go (s : State) : ApRes :=
    let n := (x.get 31).toNat
    if n = 0 then .go { x with pc := x.pc + 2 } s else .go { x with pc := x.pc + 1, rep := some n, repMul := false } s
  match apFetch c x (x.pc + 1) s with
  | (s1, .word w) =>
    if !apListed w then .trap 1 0 0 1 s1
    else if apControl w || apOp w == 0x1A then .trap 7 0 0 0 s1
    else go s1
  | _ => go s

/-- RETT. -/
def apRett (c : Fin 19) (x : ApCore) (s : State) : ApRes :=
  let st := setBit (x.tstat &&& 0x3F#36) 5 false
  let y := { landAll x with pc := x.tpc, status := st }
  if !bit x.tstat 5 then .go y s else
  let n := x.trep.toNat
  let go (s : State) : ApRes := if n = 0 then .go { y with pc := x.tpc + 1 } s else .go { y with rep := some n } s
  match apFetch c y x.tpc s with
  | (s1, .word w) => if apControl w || apOp w == 0x1A then .trap 7 0 0 0 s1 else go s1
  | _ => go s

/-! ## Control registers (R368) -/

/-- The register numbers defined. -/
def apCtlOk (n : Nat) : Bool := decide (n ≤ 0xC) || decide (0x10 ≤ n ∧ n ≤ 0x17)

/-- MFC of register `n`. -/
def apCtlRead (c : Fin 19) (n : Nat) (x : ApCore) : Word :=
  match n with
  | 0x00 => setBit x.status 5 false
  | 0x01 => x.tstat
  | 0x02 => wd x.tpc.toNat
  | 0x03 => x.tcause
  | 0x04 => wd x.taddr.toNat
  | 0x05 => x.trep
  | 0x06 => wd x.tvec.toNat
  | 0x07 => x.budget
  | 0x08 => wd x.rsp.toNat
  | 0x09 => wd x.ipend.toNat
  | 0x0A => wd x.imask.toNat
  | 0x0B => x.icount
  | 0x0C => wd (uCore c)
  | _ => wd (tget (fun _ => 0#24) x.rs (n - 0x10)).toNat

/-- MTC to register `n`; RO registers ignore it, IPEND clears where 1, an RSP above 8 is discarded. -/
def apCtlWrite (n : Nat) (v : Word) (x : ApCore) : ApCore :=
  match n with
  | 0x00 => { x with status := (x.status &&& ~~~(0x16#36)) ||| (v &&& 0x16#36) }
  | 0x01 => { x with tstat := v &&& 0x3F#36 }
  | 0x02 => { x with tpc := v.setWidth 24 }
  | 0x05 => { x with trep := v }
  | 0x06 => { x with tvec := v.setWidth 24 }
  | 0x07 => { x with budget := v }
  | 0x08 => if fld v 3 0 ≤ 8 then { x with rsp := v.setWidth 4 } else x
  | 0x09 => { x with ipend := x.ipend &&& ~~~(v.setWidth 8) }
  | 0x0A => { x with imask := v.setWidth 8 }
  | _ => if 0x10 ≤ n then { x with rs := tset (fun _ => 0#24) x.rs (n - 0x10) (v.setWidth 24) } else x

end Sys2Proof.Machine
end

