-- ==== Sys2Proof/Machine/ApInstr.lean ====
section
/-! DEFINITION. ApInstr.lean: the Apone instructions (R352), and the traps and interrupts that no instruction raises (R355, R362, R366). -/

namespace Sys2Proof.Machine

/-! ## Arithmetic, logic and compares: major opcode 0x00 -/

/-- An instruction of format R that computes rd from ra and rb. -/
def apR (c : Fin 19) (fn : BitVec 6) (g : Word → Word → Word) (f : FmtR) (s : State) : Host.Outcome State Fault Refusal :=
  apRow c (encR fn f) (f.lo == 0) (apSet f.rd (fun x => g (x.get f.ra) (x.get f.rb))) s

/-- A truth value as a word. -/
def truth (b : Bool) : Word := if b then 1 else 0

/-- A shift amount rb[5:0]. -/
def amt6 (b : Word) : Nat := b.toNat % 64

/-- ADD: rd := ra + rb. -/
def execAdd (c : Fin 19) (f : FmtR) (s : State) : Host.Outcome State Fault Refusal := apR c 0 (fun a b => a + b) f s
/-- SUB: rd := ra − rb. -/
def execSub (c : Fin 19) (f : FmtR) (s : State) : Host.Outcome State Fault Refusal := apR c 1 (fun a b => a - b) f s
/-- AND: bitwise and. -/
def execAnd (c : Fin 19) (f : FmtR) (s : State) : Host.Outcome State Fault Refusal := apR c 2 (fun a b => a &&& b) f s
/-- OR: bitwise or. -/
def execOr (c : Fin 19) (f : FmtR) (s : State) : Host.Outcome State Fault Refusal := apR c 3 (fun a b => a ||| b) f s
/-- XOR: bitwise exclusive or. -/
def execXor (c : Fin 19) (f : FmtR) (s : State) : Host.Outcome State Fault Refusal := apR c 4 (fun a b => a ^^^ b) f s
/-- ANDN: ra and not rb. -/
def execAndn (c : Fin 19) (f : FmtR) (s : State) : Host.Outcome State Fault Refusal := apR c 5 (fun a b => a &&& ~~~b) f s
/-- SLL: left shift, zero for 36 or more. -/
def execSll (c : Fin 19) (f : FmtR) (s : State) : Host.Outcome State Fault Refusal := apR c 6 (fun a b => a <<< amt6 b) f s
/-- SRL: logical right shift. -/
def execSrl (c : Fin 19) (f : FmtR) (s : State) : Host.Outcome State Fault Refusal := apR c 7 (fun a b => a >>> amt6 b) f s
/-- SRA: arithmetic right shift. -/
def execSra (c : Fin 19) (f : FmtR) (s : State) : Host.Outcome State Fault Refusal := apR c 8 (fun a b => a.sshiftRight (amt6 b)) f s
/-- SEQ: equal. -/
def execSeq (c : Fin 19) (f : FmtR) (s : State) : Host.Outcome State Fault Refusal := apR c 9 (fun a b => truth (a == b)) f s
/-- SNE: not equal. -/
def execSne (c : Fin 19) (f : FmtR) (s : State) : Host.Outcome State Fault Refusal := apR c 10 (fun a b => truth (a != b)) f s
/-- SLT: less, signed. -/
def execSlt (c : Fin 19) (f : FmtR) (s : State) : Host.Outcome State Fault Refusal := apR c 11 (fun a b => truth (a.slt b)) f s
/-- SLTU: less, unsigned. -/
def execSltu (c : Fin 19) (f : FmtR) (s : State) : Host.Outcome State Fault Refusal := apR c 12 (fun a b => truth (a.ult b)) f s
/-- SGE: greater or equal, signed. -/
def execSge (c : Fin 19) (f : FmtR) (s : State) : Host.Outcome State Fault Refusal := apR c 13 (fun a b => truth (!a.slt b)) f s
/-- SGEU: greater or equal, unsigned. -/
def execSgeu (c : Fin 19) (f : FmtR) (s : State) : Host.Outcome State Fault Refusal := apR c 14 (fun a b => truth (!a.ult b)) f s

/-! ## Immediate forms -/

/-- An instruction of format I that computes rd from ra and the immediate. -/
def apI (c : Fin 19) (op : BitVec 6) (g : Word → BitVec 20 → Word) (f : FmtI) (s : State) : Host.Outcome State Fault Refusal :=
  apRow c (encI op f) true (apSet f.rd (fun x => g (x.get f.ra) f.imm)) s

/-- The immediate sign-extended, and zero-extended. -/
def immS (i : BitVec 20) : Word := i.signExtend 36
def immZ (i : BitVec 20) : Word := i.setWidth 36

/-- ADDI. -/
def execAddi (c : Fin 19) (f : FmtI) (s : State) : Host.Outcome State Fault Refusal := apI c 1 (fun a i => a + immS i) f s
/-- ANDI. -/
def execAndi (c : Fin 19) (f : FmtI) (s : State) : Host.Outcome State Fault Refusal := apI c 2 (fun a i => a &&& immZ i) f s
/-- ORI. -/
def execOri (c : Fin 19) (f : FmtI) (s : State) : Host.Outcome State Fault Refusal := apI c 3 (fun a i => a ||| immZ i) f s
/-- XORI. -/
def execXori (c : Fin 19) (f : FmtI) (s : State) : Host.Outcome State Fault Refusal := apI c 4 (fun a i => a ^^^ immZ i) f s
/-- SEQI. -/
def execSeqi (c : Fin 19) (f : FmtI) (s : State) : Host.Outcome State Fault Refusal := apI c 7 (fun a i => truth (a == immS i)) f s
/-- SNEI. -/
def execSnei (c : Fin 19) (f : FmtI) (s : State) : Host.Outcome State Fault Refusal := apI c 8 (fun a i => truth (a != immS i)) f s
/-- SLTI. -/
def execSlti (c : Fin 19) (f : FmtI) (s : State) : Host.Outcome State Fault Refusal := apI c 9 (fun a i => truth (a.slt (immS i))) f s
/-- SLTUI. -/
def execSltui (c : Fin 19) (f : FmtI) (s : State) : Host.Outcome State Fault Refusal := apI c 10 (fun a i => truth (a.ult (immS i))) f s
/-- SGEI. -/
def execSgei (c : Fin 19) (f : FmtI) (s : State) : Host.Outcome State Fault Refusal := apI c 11 (fun a i => truth (!a.slt (immS i))) f s
/-- SGEUI. -/
def execSgeui (c : Fin 19) (f : FmtI) (s : State) : Host.Outcome State Fault Refusal := apI c 12 (fun a i => truth (!a.ult (immS i))) f s
/-- LUI: rd := imm × 2^16; ra must be zero. -/
def execLui (c : Fin 19) (f : FmtI) (s : State) : Host.Outcome State Fault Refusal :=
  apRow c (encI 5 f) (f.ra == 0) (apSet f.rd (fun _ => immZ f.imm <<< 16)) s

/-! ## Shifts by an amount, and bit fields -/

/-- A shift by `amt`, at most 35. -/
def apS (c : Fin 19) (kind : BitVec 2) (g : Word → Nat → Word) (f : FmtS) (s : State) : Host.Outcome State Fault Refusal :=
  apRow c (encS kind f) (f.lo == 0 && decide (f.amt.toNat ≤ 35)) (apSet f.rd (fun x => g (x.get f.ra) f.amt.toNat)) s

/-- SLLI. -/
def execSlli (c : Fin 19) (f : FmtS) (s : State) : Host.Outcome State Fault Refusal := apS c 0 (fun a n => a <<< n) f s
/-- SRLI. -/
def execSrli (c : Fin 19) (f : FmtS) (s : State) : Host.Outcome State Fault Refusal := apS c 1 (fun a n => a >>> n) f s
/-- SRAI. -/
def execSrai (c : Fin 19) (f : FmtS) (s : State) : Host.Outcome State Fault Refusal := apS c 2 (fun a n => a.sshiftRight n) f s

/-- A bit-field instruction: wid 1 to 36, pos + wid at most 36. -/
def apF (c : Fin 19) (op : BitVec 6) (g : Word → Word → Nat → Nat → Word) (f : FmtF) (s : State) : Host.Outcome State Fault Refusal :=
  apRow c (encF op f) (f.lo == 0 && decide (1 ≤ f.wid.toNat ∧ f.pos.toNat + f.wid.toNat ≤ 36))
    (apSet f.rd (fun x => g (x.get f.ra) (x.get f.rd) f.pos.toNat f.wid.toNat)) s

/-- EXT: the field, zero-extended. -/
def execExt (c : Fin 19) (f : FmtF) (s : State) : Host.Outcome State Fault Refusal := apF c 0xD (fun a _ p w => wd (fld a (p + w - 1) p)) f s
/-- EXTS: the field, sign-extended. -/
def execExts (c : Fin 19) (f : FmtF) (s : State) : Host.Outcome State Fault Refusal := apF c 0xE (fun a _ p w => wdI (sfld a (p + w - 1) p)) f s
/-- INS: the low bits of ra into the field of rd. -/
def execIns (c : Fin 19) (f : FmtF) (s : State) : Host.Outcome State Fault Refusal :=
  apF c 0xF (fun a d p w => setFld d (p + w - 1) p (fld a (w - 1) 0)) f s

/-! ## Loads and stores -/

/-- LD. -/
def execLd (c : Fin 19) (f : FmtI) (s : State) : Host.Outcome State Fault Refusal := apRow c (encI 0x10 f) true (apLd c f) s
/-- ST. -/
def execSt (c : Fin 19) (f : FmtI) (s : State) : Host.Outcome State Fault Refusal := apRow c (encI 0x11 f) true (apSt c f) s
/-- LDD: an odd rd is a reserved field. -/
def execLdd (c : Fin 19) (f : FmtI) (s : State) : Host.Outcome State Fault Refusal :=
  apRow c (encI 0x12 f) (!f.rd.getLsbD 0) (apLdd c f) s
/-- STD: an odd rd is a reserved field. -/
def execStd (c : Fin 19) (f : FmtI) (s : State) : Host.Outcome State Fault Refusal :=
  apRow c (encI 0x13 f) (!f.rd.getLsbD 0) (apStd c f) s

/-! ## Products (R355, R356) -/

/-- A multiply issues: its product is in flight. -/
def apMul (mac : Bool) (g : Word → Word → BitVec 72) (f : FmtM) (x : ApCore) (s : State) : ApRes :=
  .go { x with flight := x.flight ++ [⟨0, mac, g (x.get f.ra) (x.get f.rb)⟩], pc := x.pc + 1 } s

/-- The signed product of two words. -/
def mulS (a b : Word) : BitVec 72 := BitVec.ofInt 72 (a.toInt * b.toInt)

/-- MUL. -/
def execMul (c : Fin 19) (f : FmtM) (s : State) : Host.Outcome State Fault Refusal :=
  apRow c (encM 0x14 f) (f.rd == 0 && f.lo == 0) (apMul false mulS f) s
/-- MULU. -/
def execMulu (c : Fin 19) (f : FmtM) (s : State) : Host.Outcome State Fault Refusal :=
  apRow c (encM 0x15 f) (f.rd == 0 && f.lo == 0) (apMul false (fun a b => BitVec.ofNat 72 (a.toNat * b.toNat)) f) s
/-- MAC. -/
def execMac (c : Fin 19) (f : FmtM) (s : State) : Host.Outcome State Fault Refusal :=
  apRow c (encM 0x16 f) (f.rd == 0 && f.lo == 0) (apMul true mulS f) s

/-- One division step of p0:p1 by `d` (R356). -/
def dstep (d : Word) (x : ApCore) : ApCore :=
  let t := 2 * x.p0.toNat + x.p1.toNat / 34359738368
  let q := 2 * x.p1.toNat
  if d.toNat ≤ t then { x with p0 := wd (t - d.toNat), p1 := wd (q + 1) } else { x with p0 := wd t, p1 := wd q }

/-- DSTEP. -/
def execDstep (c : Fin 19) (f : FmtM) (s : State) : Host.Outcome State Fault Refusal :=
  apRow c (encM 0x17 f) (f.rd == 0 && f.ra == 0 && f.lo == 0) (fun x s => .go { dstep (x.get f.rb) x with pc := x.pc + 1 } s) s

/-- Product register `i`. -/
def ApCore.prod (x : ApCore) (i : BitVec 2) : Word := if i = 0 then x.p0 else if i = 1 then x.p1 else if i = 2 then x.p2 else x.p3

/-- Write product register `i`. -/
def ApCore.setProd (x : ApCore) (i : BitVec 2) (v : Word) : ApCore :=
  if i = 0 then { x with p0 := v } else if i = 1 then { x with p1 := v } else if i = 2 then { x with p2 := v } else { x with p3 := v }

/-- MFP. -/
def execMfp (c : Fin 19) (f : FmtP) (s : State) : Host.Outcome State Fault Refusal :=
  apRow c (encP 0x18 f) (f.ra == 0 && f.lo == 0) (apSet f.rd (fun x => x.prod f.i)) s
/-- MTP. -/
def execMtp (c : Fin 19) (f : FmtP) (s : State) : Host.Outcome State Fault Refusal :=
  apRow c (encP 0x19 f) (f.rd == 0 && f.lo == 0) (fun x s => .go { x.setProd f.i (x.get f.ra) with pc := x.pc + 1 } s) s

/-- REP. -/
def execRep (c : Fin 19) (z : BitVec 30) (s : State) : Host.Outcome State Fault Refusal := apRow c (encZ 0x1A z) (z == 0) (apRep c) s

/-! ## Control transfer (R354, R357, R365, R366) -/

/-- A branch where a test holds. -/
def apBranch (c : Fin 19) (op : BitVec 6) (t : Word → Bool) (f : FmtB) (s : State) : Host.Outcome State Fault Refusal :=
  apRow c (encB op f) (f.z == 0) (fun x s => .go { x with pc := if t (x.get f.ra) then x.pc + f.off else x.pc + 1 } s) s

/-- BZ. -/
def execBz (c : Fin 19) (f : FmtB) (s : State) : Host.Outcome State Fault Refusal := apBranch c 0x20 (fun a => a == 0) f s
/-- BNZ. -/
def execBnz (c : Fin 19) (f : FmtB) (s : State) : Host.Outcome State Fault Refusal := apBranch c 0x21 (fun a => a != 0) f s
/-- JMP. -/
def execJmp (c : Fin 19) (f : FmtJ) (s : State) : Host.Outcome State Fault Refusal :=
  apRow c (encJ 0x22 f) (f.z == 0) (fun x s => .go { x with pc := f.target } s) s
/-- JR. -/
def execJr (c : Fin 19) (f : FmtM) (s : State) : Host.Outcome State Fault Refusal :=
  apRow c (encM 0x23 f) (f.rd == 0 && f.rb == 0 && f.fn == 0 && f.lo == 0) (fun x s => .go { x with pc := (x.get f.ra).setWidth 24 } s) s
/-- CALL. -/
def execCall (c : Fin 19) (f : FmtJ) (s : State) : Host.Outcome State Fault Refusal :=
  apRow c (encJ 0x24 f) (f.z == 0) (apCall f.target) s
/-- CALLR. -/
def execCallr (c : Fin 19) (f : FmtM) (s : State) : Host.Outcome State Fault Refusal :=
  apRow c (encM 0x25 f) (f.rd == 0 && f.rb == 0 && f.fn == 0 && f.lo == 0) (fun x s => apCall ((x.get f.ra).setWidth 24) x s) s
/-- RET. -/
def execRet (c : Fin 19) (z : BitVec 30) (s : State) : Host.Outcome State Fault Refusal := apRow c (encZ 0x26 z) (z == 0) apRet s
/-- RETT. -/
def execRett (c : Fin 19) (z : BitVec 30) (s : State) : Host.Outcome State Fault Refusal :=
  apRow c (encZ 0x27 z) (z == 0) (apPriv (apRett c)) s
/-- SYS: a trap, cause system call, with TPC at the next instruction. -/
def execSys (c : Fin 19) (f : FmtX) (s : State) : Host.Outcome State Fault Refusal :=
  apRow c (encX 0x28 f) (f.z == 0) (fun _ s => .trap 0xB 0 f.code.toNat 1 s) s
/-- BRK: a trap, cause breakpoint. -/
def execBrk (c : Fin 19) (f : FmtX) (s : State) : Host.Outcome State Fault Refusal :=
  apRow c (encX 0x29 f) (f.z == 0) (fun _ s => .trap 0xA 0 f.code.toNat 0 s) s
/-- WAIT: stalls until a line that is enabled is pending. -/
def execWait (c : Fin 19) (z : BitVec 30) (s : State) : Host.Outcome State Fault Refusal :=
  apRow c (encZ 0x2A z) (z == 0) (apPriv (fun x s => .go { x with pc := x.pc + 1, waiting := x.ipend &&& x.imask == 0 } s)) s

/-! ## Control registers -/

/-- MFC; at user level only BUDGET. -/
def execMfc (c : Fin 19) (f : FmtC) (s : State) : Host.Outcome State Fault Refusal :=
  apRow c (encC 0x30 f) (f.ra == 0 && f.lo == 0 && apCtlOk f.n.toNat)
    (fun x s => if x.user && f.n != 7 then .trap 3 0 0 0 s else apSet f.rd (apCtlRead c f.n.toNat) x s) s
/-- MTC. -/
def execMtc (c : Fin 19) (f : FmtC) (s : State) : Host.Outcome State Fault Refusal :=
  apRow c (encC 0x31 f) (f.rd == 0 && f.lo == 0 && apCtlOk f.n.toNat)
    (apPriv (fun x s => .go { apCtlWrite f.n.toNat (x.get f.ra) x with pc := x.pc + 1 } s)) s

/-! ## What no instruction raises -/

/-- PRODUCT_LANDING: the products whose two following instructions have completed land. -/
def execProductLanding (c : Fin 19) (s : State) : Host.Outcome State Fault Refusal :=
  let x := s.core c
  if x.started && !x.stopped then .next (s.setCore c (landDue x)) else .next s

/-- The lowest line pending and enabled. -/
def apLine (x : ApCore) : Option Nat := (List.range 8).find? (fun i => (x.ipend &&& x.imask).getLsbD i)

/-- INTERRUPT (R366). -/
def execInterrupt (c : Fin 19) (s : State) : Host.Outcome State Fault Refusal :=
  let x := s.core c
  let y := landDue x
  match apLine x with
  | none => .next s
  | some l =>
    if !x.started || x.stopped || !bit x.status 1 || x.trapped || !(y.flight.isEmpty || x.repMul) then .next s
    else .next (apTrap c y false 0x1F 0 l x.pc s)

/-- WAIT_RESUME: a waiting core goes on once an enabled line is pending. -/
def execWaitResume (c : Fin 19) (s : State) : Host.Outcome State Fault Refusal :=
  let x := s.core c
  if x.waiting && x.ipend &&& x.imask != 0 then .next (s.setCore c { x with waiting := false }) else .next s

/-- ILLEGAL_INSTRUCTION: the word at pc is no instruction of the table, or a shift of kind 0b11, a reserved field (R351). -/
def execIllegalInstruction (c : Fin 19) (s : State) : Host.Outcome State Fault Refusal :=
  let x := s.core c
  match apFetch c x x.pc s with
  | (_, .word w) =>
    if !apListed w then
      if !x.live then .next s else
      let y := landDue x
      if y.budgeted && y.budget == 0 then .next (apTrap c y true 9 0 0 x.pc s)
      else .next (apTrap c (apCount y y) true 1 0 0 x.pc (apFetch c x x.pc s).1)
    else if apBadKind w then .next (apIssue c w false (fun _ s => .stall s) s)
    else .next s
  | _ => .next s

/-- INSTRUCTION_FETCH_FAULT: the fetch at pc is refused (R362). -/
def execInstructionFetchFault (c : Fin 19) (s : State) : Host.Outcome State Fault Refusal :=
  let x := s.core c
  if !x.live then .next s else
  let y := landDue x
  if y.budgeted && y.budget == 0 then
    match apFetch c x x.pc s with
    | (_, .word _) => .next s
    | _ => .next (apTrap c y true 9 0 0 x.pc s)
  else match apFetch c x x.pc s with
    | (_, .word _) => .next s
    | (s, .priv) => .next (apTrap c y true 3 0 0 x.pc s)
    | (s, .err e) => .next (apTrap c y true 4 e x.pc.toNat x.pc s)

end Sys2Proof.Machine
end

