-- ==== Sys2Proof/Machine/Store.lean ====
section
/-! DEFINITION. Store.lean: what the Curator keeps in the non-volatile store: the carrying out of a record write, the boot
record, firmware slots and their checks, Provenance entries (R472 to R478, R485 to R487). -/

namespace Sys2Proof.Machine

/-! ## Record writes (R476, R477) -/

/-- A new version of a record: over the copy not in force with SEQ plus one; over copy A with SEQ 1 when neither is valid. -/
def NvsRec.write (r : NvsRec) (body : List Word) : NvsRec :=
  if !(r.validA || r.validB) then { r with validA := true, seqA := 1, body := body }
  else if r.isB then { r with validA := true, seqA := r.seq + 1, body := body }
  else { r with validB := true, seqB := r.seq + 1, body := body }

/-- A record write is carried out. -/
def nvsCommit (kind : Nat) (body : List Word) (s : State) : State :=
  let r := (s.nvsRec kind).write body
  let s := { s with nvs := { s.nvs with recs := tset (fun _ => NvsRec.blank) s.nvs.recs kind r } }
  nvsSync (s.cnt R.CUR_NVS_WRITE_CNT)

/-- The copy of a record that a write begun and not finished leaves invalid. -/
def NvsRec.torn (r : NvsRec) : NvsRec :=
  if !(r.validA || r.validB) then { r with validA := false } else if r.isB then { r with validA := false } else { r with validB := false }

/-- A reset during a write leaves that copy invalid and the previous version in force; writes that wait are lost. -/
def nvsAbort (s : State) : State :=
  match s.nvs.writes with
  | w :: _ =>
    let recs := if w.begun then tmod (fun _ => NvsRec.blank) s.nvs.recs w.kind NvsRec.torn else s.nvs.recs
    { s with nvs := { s.nvs with recs := recs, writes := [] } }
  | [] => s

/-- Store commands are processed one at a time, and none begins while a supply monitor is below its warning level. -/
def State.storeBusy (s : State) : Bool := !s.nvs.writes.isEmpty || s.supplyLow

/-! ## The boot record (R487): its layout is the model's own (notes/assumptions) -/

/-- SEL, TRIAL and the attempt counts as CUR_BOOT holds them with the last reset cause; power-on count; powered time; refresh
position; watchdog resets. -/
def bootBody (s : State) : List Word :=
  [wd ((s.reg R.CUR_BOOT).toNat &&& 0xF000060FF), s.reg R.CUR_POWER_ON, s.reg R.CUR_POWERED, s.reg R.CUR_REFRESH, s.reg R.CUR_WDOG_CNT]

/-- The boot record is written through the queue of the store. -/
def bootQueue (s : State) : State := nvsQueue 5 (bootBody s) s

/-- The powered time is kept whenever the device is reset. -/
def poweredKeep (s : State) : State :=
  let r := s.nvsRec 5
  if !(r.validA || r.validB) then s else
  let body := [r.body.getD 0 0, r.body.getD 1 0, s.reg R.CUR_POWERED, r.body.getD 3 0, r.body.getD 4 0]
  { s with nvs := { s.nvs with recs := tset (fun _ => NvsRec.blank) s.nvs.recs 5 { r with body := body } } }

/-- SEL and the attempt count of a slot. -/
def State.sel (s : State) : Nat := s.rf R.CUR_BOOT 14 14
def State.attempts (s : State) (x : Nat) : Nat := if x = 0 then s.rf R.CUR_BOOT 3 0 else s.rf R.CUR_BOOT 7 4
def setAttempts (x v : Nat) (s : State) : State := if x = 0 then s.setF R.CUR_BOOT 3 0 v else s.setF R.CUR_BOOT 7 4 v
def setSel (x : Nat) (s : State) : State := s.setF R.CUR_BOOT 14 14 x

/-! ## Firmware slots (R485, R486) -/

/-- A firmware slot. -/
def State.slot (s : State) (x : Nat) : FwSlot := if x = 0 then s.nvs.slotA else s.nvs.slotB
def State.setSlot (s : State) (x : Nat) (f : FwSlot) : State :=
  if x = 0 then { s with nvs := { s.nvs with slotA := f } } else { s with nvs := { s.nvs with slotB := f } }

/-- Bytes `i` to `i + n - 1` of an image as a little-endian number. -/
def imgField (bs : List Nat) (i n : Nat) : Nat := ((bs.drop i).take n).foldr (fun b a => b + 256 * a) 0

/-- All of bytes `i` to `i + n - 1` are zero. -/
def imgZero (bs : List Nat) (i n : Nat) : Bool := ((bs.drop i).take n).all (fun b => b == 0)

/-- The header of an image (R485): MAGIC, FORMAT, LENGTH, ARB and the zero fields. -/
def imgHeader (bs : List Nat) : Bool :=
  let co := imgField bs 20 4 % 2 == 1
  decide (512 < bs.length) && imgField bs 0 4 == 0x31534C53 && imgField bs 4 2 == 1 && imgZero bs 6 2 && decide (imgField bs 12 1 ≤ 64)
    && imgZero bs 13 3 && decide (1 ≤ imgField bs 16 4) && decide (imgField bs 16 4 ≤ 1572352) && decide (imgField bs 16 4 + 512 ≤ bs.length)
    && decide (imgField bs 20 4 < 2) && (co || imgZero bs 184 128) && imgZero bs 312 200

/-- An image passes the checks of R486 but the anti-rollback one. The hash and the signatures are Config.imageCrypto. -/
def imageGood (ws : List Word) (cosign : Option (List Word)) : Bool :=
  let bs := packBytes ws
  imgHeader bs && Config.imageCrypto 0 ws [] && Config.imageCrypto 1 ws [] && (match cosign with
    | none => true
    | some k => imgField bs 20 4 % 2 == 1 && Config.imageCrypto 2 ws k)

/-- The image of a slot is valid (R486). -/
def State.slotGood (s : State) (x : Nat) : Bool :=
  let f := s.slot x
  (match f.image with
   | none => f.good
   | some ws => imageGood ws s.fuses.cosign) && decide (s.fuses.arb ≤ f.arb)

/-- A slot can be chosen: valid and not marked invalid (R487, R488). -/
def State.slotValid (s : State) (x : Nat) : Bool := s.slotGood x && !(s.slot x).failed

/-- CUR_FW_STAT: validity of the slots, and a slot failed when its attempt count is 3 or more. -/
def fwStat (s : State) : State :=
  s.setReg R.CUR_FW_STAT (wd (b2n (s.slotValid 1) * 8 + b2n (s.slotValid 0) * 4 + b2n (decide (3 ≤ s.attempts 1)) * 2 + b2n (decide (3 ≤ s.attempts 0))))

/-- What FW_WRITE puts into a slot. -/
def slotOf (ws : List Word) : FwSlot :=
  let bs := packBytes ws
  ⟨some ws, false, wd (imgField bs 8 4), imgField bs 12 1, wd (crc32 bs), true⟩

/-! ## Provenance (R472, R473) -/

/-- An entry is stored at PSEQ mod 1024. -/
def provStore (e : ProvEntry) (s : State) : State :=
  let q := s.reg R.CUR_PROV_SEQ
  let x : ProvStored := ⟨e.words, q, (s.reg R.CUR_POWER_ON).toNat % 1048576, e.lost, true⟩
  let s := { s with cur := { s.cur with provRing := tput (terase s.cur.provRing (q.toNat % 1024)) (q.toNat % 1024) x } }
  s.incr R.CUR_PROV_SEQ

/-- The entries with a valid CRC, from the greatest PSEQ back (`n` bounds them), ascending. -/
def provBack : Nat → Word → State → List ProvStored
  | 0, _, _ => []
  | n + 1, q, s =>
    let q := q - 1
    provBack n q s ++ (match s.cur.provRing.find? (fun p => p.1 == q.toNat % 1024) with
      | some p => if p.2.crcOk && p.2.pseq == q then [p.2] else []
      | none => [])

/-- The PSEQ at which the Curator continues: one past the greatest by R37 among the valid entries; 0 in an empty ring. -/
def provNext (s : State) : Word :=
  match s.cur.provRing.filter (fun p => p.2.crcOk) with
  | [] => 0
  | p :: t => (t.foldl (fun a e => if later 36 e.2.pseq a then e.2.pseq else a) p.2.pseq) + 1

/-- The ten words PROV_READ writes for an entry. -/
def provWords (e : ProvStored) : List Word := padTo 8 e.words ++ [e.pseq, wd (e.powerOn * 65536 + b2n e.lost * 32768)]

/-! ## Buffers of whole entries (R450) -/

/-- The entries that fit in `n` words, from the first on: how many, and their words. -/
def fitEntries : Nat → List (List Word) → Nat × List Word
  | _, [] => (0, [])
  | n, e :: es =>
    if n < e.length then (0, []) else
    let (k, ws) := fitEntries (n - e.length) es
    (k + 1, e ++ ws)

end Sys2Proof.Machine
end

