-- ==== Sys2Proof/Machine/General.lean ====
section
/-! DEFINITION. General.lean: the commands of the device, code-RAM, Curator, firmware and user-program groups (R373, R374, R453, R456
to R458, R471, R473, R481 to R483, R488, R490), and the map of opcodes (R452). -/

namespace Sys2Proof.Machine

/-! ## Device and general (R453) -/

/-- DEV_NOP (R453). -/
def devNopSpec : CmdSpec where
  op := 0x000
  lens := fun n => n == 0
  late := lateProc
  at_ := atProc
  eff := fun _ s => (.done (dtWords s.dt), s)

/-- DEV_CANCEL: pending and parked commands of a TAG, or all, are removed without a reply. A command committed to its target and an
unstamped one that waits for its boundary are not pending (R440, R453). -/
def devCancelSpec : CmdSpec where
  op := 0x001
  lens := fun n => n == 1
  resv := fun p _ => p.outside 0 0x1FFF
  late := lateProc
  at_ := atProc
  eff := fun h s =>
    let hit (g : HeldCmd) : Bool := (g.stamped || g.waited) && (h.pk.pf 0 12 12 == 1 || g.pk.tag.toNat == h.pk.pf 0 11 0)
    (.done [wd ((s.cmdPend ++ s.cmdPark).countP hit)],
     { s with cmdPend := s.cmdPend.filter (fun g => !hit g), cmdPark := s.cmdPark.filter (fun g => !hit g) })

/-- A policy in the layout of DEV_FAULT_POLICY. -/
def policyWord (p : Policy) (kind : Nat) : Word := wd (p.win * 65536 + p.k * 256 + kind)

/-- DEV_FAULT_POLICY (R453). -/
def devFaultPolicySpec : CmdSpec where
  op := 0x002
  lens := fun n => n == 1
  resv := fun p _ => p.outside 0 0xFFF0F07 || decide (5 < p.pf 0 2 0)
  parm := fun p _ => decide (p.pf 0 27 16 < 1 ∨ 3600 < p.pf 0 27 16) || p.pf 0 11 8 == 0
  late := lateProc
  at_ := atProc
  eff := fun h s =>
    let k := h.pk.pf 0 2 0
    let old := s.policyOf k
    let s := { s with policy := tset (fun _ => (⟨3, 10⟩ : Policy)) s.policy k ⟨h.pk.pf 0 11 8, h.pk.pf 0 27 16⟩ }
    (.done [policyWord old 0], settingsPut 2 ((List.range 6).map (fun i => policyWord (s.policyOf i) i)) s)

/-- DEV_RESET: the warm reset follows in the same step, with no reply. -/
def devResetSpec : CmdSpec where
  op := 0x003
  lens := fun n => n == 1
  resv := fun p _ => p.outside 0 0xFFFF
  parm := fun p _ => p.pf 0 15 0 != 0x4620
  late := lateProc
  at_ := atProc
  eff := fun _ s => (.later, { s with cur := { s.cur with resetReq := some 3 } })

/-- DEV_CMD_CFG (R453). -/
def devCmdCfgSpec : CmdSpec where
  op := 0x004
  lens := fun n => n == 1
  resv := fun p _ => p.outside 0 0xFFFF
  parm := fun p _ => decide (60000 < p.pf 0 15 0)
  late := lateProc
  at_ := atProc
  eff := fun h s =>
    let v := if h.pk.pf 0 15 0 = 0 then s.waitMax else h.pk.pf 0 15 0
    (.done [wd v], { s with waitMax := v })

/-! ## Code RAM (R63, R64, R456) -/

/-- A defect of the entries of an image from word `p` on (R63, R64); `n` bounds the entries. R64 does not name an entry whose SIG and
SVK are of different systems among the defects: such an image is accepted (DESIGN CHOICE; notes/assumptions/70.md). -/
def codeImageBad (rd : Nat → Word) : Nat → Nat → Bool
  | 0, _ => false
  | n + 1, p =>
    let h := rd p
    let g := rd (p + 1)
    if 65536 ≤ p ∨ h = 0#36 ∧ g = 0#36 then false else
    let sig := fld h 28 21
    let len := fld g 19 0
    fld h 35 29 != 0 || fld h 7 0 != 0 || fld g 35 20 != 0 || decide (2 ≤ fld h 9 8) || !svkOk (fld h 20 10) || len == 0
      || decide (65536 < p + 2 + ceilDiv len 36)
      || (match sigOf sig with
          | none => true
          | some r => !(r.srcM || r.sec != 0))
      || codeImageBad rd n (p + 2 + ceilDiv len 36)

/-- Two entries with one SIG, SVK and KIND. -/
def codeTwice : List CodeEntry → Bool
  | [] => false
  | e :: es => es.any (fun f => f.sig == e.sig && f.svk == e.svk && f.kind == e.kind) || codeTwice es

/-- The words of an entry after its header. -/
def codeChips (rd : Nat → Word) (e : CodeEntry) : List Word := (List.range (ceilDiv e.len 36)).map (fun i => rd (e.at_ + i))

/-- The SIGs whose codes a signal uses: E5 AltBOC those of its two pilots (R59, R195). -/
def codeSigs (sig : Nat) : List Nat := if sig = 0x46 then [0x43, 0x45] else [sig]

/-- Is an entry in use by an assigned channel or a queued or running acquisition job? A secondary code of a geostationary BeiDou satellite
is never used (R544). -/
def codeInUse (e : CodeEntry) (s : State) : Bool :=
  let hit (sig svk : Nat) : Bool := (codeSigs sig).contains e.sig && svk == e.svk
  !(e.kind == 1 && (e.sig == 0x60 || e.sig == 0x66) && beidouGeo e.svk)
    && (s.chans.any (fun p => p.2.cond != 0 && hit p.2.sig p.2.svk) || s.assignQ.any (fun a => hit a.sig a.svk)
      || s.acq.jobs.any (fun j => decide (j.stage < 2) && hit j.sig j.svk) || s.acq.fb.any (fun f => hit f.job.sig f.job.svk))

/-- Would an image remove or change an entry in use? -/
def codeClash (ws : List Word) (s : State) : Bool :=
  let rd := fun p => ws.getD p 0#36
  let new := codeEntries rd 21846 0
  s.codeRam.any (fun e => codeInUse e s && !new.any (fun f => f.sig == e.sig && f.svk == e.svk && f.kind == e.kind && f.len == e.len
    && codeChips rd f == codeChips (fun p => s.peek (kCode p)) e))

/-- Replace the whole image. -/
def codeLoad (ws : List Word) (s : State) : State := storeList (kCode 0) (ws.take 65536) (s.zeroMem (kCode 0) 65536)

/-- CODE_RAM_LOAD (R64). -/
def codeRamLoadSpec : CmdSpec where
  op := 0x305
  lens := fun n => n == 4
  resv := fun p _ => p.outside 3 0xFFFFFFFF
  buf := some (0, true)
  bufSt := fun p _ =>
    let rd := fun i => (Packet.words p).getD i 0#36
    if crc32 (slotBytes (Packet.words p)) ≠ p.pf 3 31 0 then 10
    else if codeImageBad rd 21846 0 || codeTwice (codeEntries rd 21846 0) then 3 else 0
  late := lateSample
  bnd := bndSample
  chk := fun h s => [(codeClash (Packet.words h.pk) s, 4)]
  at_ := atSample
  eff := fun h s =>
    (.done (wd (codeEntries (fun i => (Packet.words h.pk).getD i 0#36) 21846 0).length :: dtWords (atSample h s)), codeLoad (Packet.words h.pk) s)

/-- The image as it stands, entry by entry, and its terminator. -/
def codeImage (s : State) : List (List Word) :=
  s.codeRam.map (fun e => s.peek (kCode (e.at_ - 2)) :: s.peek (kCode (e.at_ - 1)) :: codeChips (fun p => s.peek (kCode p)) e) ++ [[0#36, 0#36]]

/-- CODE_RAM_READ (R456). -/
def codeRamReadSpec : CmdSpec where
  op := 0x306
  lens := fun n => n == 3
  buf := some (0, false)
  late := lateSample
  bnd := bndSample
  at_ := atSample
  eff := fun h s =>
    let (_, ws) := fitEntries (bufLen 0 h.pk) (codeImage s)
    (.done [wd ws.length], bufPut 0 h.pk ws s)

/-! ## Logs and the store (R457, R471, R473, R481 to R483) -/

/-- Is an accession number held in the Accession log? -/
def logHeld (a : Word) (s : State) : Bool := a != 0#36 && s.peek (kBank 15 (8 * (a.toNat % 32768))) == a

/-- The numbers LOG_DRAIN drains, ascending. -/
def logNumbers (first : Word) (most : Nat) (s : State) : List Word :=
  let next := s.reg R.HIF_ACC_NEXT
  let held := ((List.range 32769).map (fun i => next - wd (32769 - i))).filter (fun a => logHeld a s && (first == 0#36 || a == first || later 36 a first))
  if most = 0 then held else held.take most

/-- Drain entries to a log-drain ring: how many were written, and the last. -/
def logDrain (q : Nat) : List Word → Nat → Word → State → Nat × Word × State
  | [], n, l, s => (n, l, s)
  | a :: as, n, l, s =>
    let ws := (List.range 8).map (fun i => s.peek (kBank 15 (8 * (a.toNat % 32768) + i)))
    let (s, es, ok) := ringPut q 11 ws s
    let s := raiseList 8 es s
    logDrain q as (if ok then n + 1 else n) (if ok then a else l) s

/-- LOG_DRAIN (R471). -/
def logDrainSpec : CmdSpec where
  op := 0xA00
  lens := fun n => n == 3
  resv := fun p _ => p.outside 0 0x1F || p.outside 2 0xFFFF
  late := lateProc
  units := fun p => [uRing (p.pf 0 4 0)]
  chk := fun h s => [(s.ringClass (h.pk.pf 0 4 0) != 11 || !s.ringOn (h.pk.pf 0 4 0), 3)]
  at_ := atProc
  eff := fun h s =>
    let (n, l, s) := logDrain (h.pk.pf 0 4 0) (logNumbers (h.pk.par 1) (h.pk.pf 2 15 0) s) 0 0 s
    (.done [wd n, l], s)

/-- PROV_READ (R473). -/
def provReadSpec : CmdSpec where
  op := 0xA01
  lens := fun n => n == 3
  buf := some (0, false)
  late := lateProc
  at_ := atProc
  eff := fun h s =>
    let (n, ws) := fitEntries (bufLen 0 h.pk) ((provBack 1024 (s.reg R.CUR_PROV_SEQ) s).map provWords)
    (.done [wd n], bufPut 0 h.pk ws s)

/-- The entries of a map body. -/
def mapEntries : List Word → List (List Word)
  | a :: b :: c :: t => [a, b, c] :: mapEntries t
  | _ => []

/-- RETIRED_READ (R483). -/
def retiredReadSpec : CmdSpec where
  op := 0xA02
  lens := fun n => n == 3
  buf := some (0, false)
  late := lateProc
  at_ := atProc
  eff := fun h s =>
    let (n, ws) := fitEntries (bufLen 0 h.pk) (mapEntries (s.nvsBody 4))
    (.done [wd n], bufPut 0 h.pk ws s)

/-- RETIRED_REMOVE (R35). -/
def retiredRemoveSpec : CmdSpec where
  op := 0xA03
  lens := fun n => n == 1
  resv := fun p _ => !unitDefined (p.par 0).toNat
  late := lateProc
  units := fun p => [(p.par 0).toNat]
  chk := fun h s => [(!mapHas (h.pk.par 0).toNat (s.nvsBody 4), 3), (s.storeBusy, 4)]
  at_ := atProc
  store := some 4
  eff := fun h s =>
    let s := nvsQueue 4 (mapWithout (h.pk.par 0).toNat (s.nvsBody 4)) s
    (.later, { s with waitReply := s.waitReply ++ [(132, h)] })

/-- A packet of inline words, as a settings item or STARTUP gives it. -/
def packetOf (ws : List Word) : Packet :=
  ⟨0, BitVec.ofNat 8 ws.length, false, false, false, false, 0, ws, .ok []⟩

/-- A wrong LEN of a settings item. -/
def itemLenBad (code len : Nat) : Bool :=
  match code with
  | 1 => len != 1
  | 2 => len != 6
  | 3 => len != 1
  | 4 => len != 1
  | 5 => len != 56
  | 6 => len != 1
  | 7 => len == 0
  | 8 => len != 4
  | 9 => len == 0 || decide (16384 < len)
  | _ => false

/-- A nonzero reserved bit of a settings item. -/
def itemResv (code : Nat) (ws : List Word) : Bool :=
  let out (i mask : Nat) : Bool := ((ws.getD i 0#36).toNat &&& (68719476735 - mask)) != 0
  match code with
  | 1 => out 0 1
  | 2 => (List.range 6).any (fun i => out i 0xFFF0F07 || fld (ws.getD i 0#36) 2 0 != i)
  | 3 => out 0 0xFFFFFFFF
  | 4 => out 0 0xFFFFFFFF
  | 5 => (List.range 8).any (fun k => lpReserved (packetOf ((ws.drop (7 * k)).take 7)))
  | 6 => out 0 0xFFF
  | 7 => out 0 0xFFFFFFFF
  | 8 => out 3 0xFFFFC0001
  | 9 => false
  | _ => true

/-- A settings body with an item code twice. -/
def itemTwice : List (Nat × List Word) → Bool
  | [] => false
  | e :: es => es.any (fun f => f.1 == e.1) || itemTwice es

/-- The checks of a settings body (R482), INTEGRITY first (R447). -/
def settingsCheck (ws : List Word) : Nat :=
  let (is, ended) := settingsItems (ws.length + 1) ws
  if is.any (fun e => e.1 == 7 && !e.2.isEmpty && crc32 (slotBytes (e.2.drop 1)) != fld (e.2.getD 0 0#36) 31 0) then 10
  else if is.any (fun e => itemResv e.1 e.2) then 2
  else if !ended || itemTwice is || is.any (fun e => itemLenBad e.1 e.2.length) then 3
  else if 72813 < (settingsBody is).length then 6
  else 0

/-- SETTINGS_WRITE (R482). -/
def settingsWriteSpec : CmdSpec where
  op := 0xA04
  lens := fun n => n == 3
  buf := some (0, true)
  bufSt := fun p _ => settingsCheck (Packet.words p)
  late := lateProc
  chk := fun _ s => [(s.storeBusy, 4)]
  at_ := atProc
  store := some 1
  eff := fun h s =>
    let s := nvsQueue 1 (settingsBody (settingsOf (Packet.words h.pk))) s
    (.later, { s with waitReply := s.waitReply ++ [(129, h)] })

/-- The body in force, item by item. -/
def settingsEntries (body : List Word) : List (List Word) :=
  if body.isEmpty then [] else (settingsOf body).map (fun p => wd (p.1 * 16777216 + p.2.length) :: p.2) ++ [[0#36]]

/-- SETTINGS_READ (R482). -/
def settingsReadSpec : CmdSpec where
  op := 0xA05
  lens := fun n => n == 3
  buf := some (0, false)
  late := lateProc
  at_ := atProc
  eff := fun h s =>
    let (_, ws) := fitEntries (bufLen 0 h.pk) (settingsEntries (s.nvsRec 1).body)
    (.done [wd ws.length], bufPut 0 h.pk ws s)

/-- SENSOR_READ (R464). -/
def sensorReadSpec : CmdSpec where
  op := 0xA06
  lens := fun n => n == 1
  resv := fun p _ => p.outside 0 0x3F
  parm := fun p _ => decide (46 < p.pf 0 5 0)
  late := lateProc
  units := fun p => [uSens (p.pf 0 5 0)]
  at_ := atProc
  eff := fun h s =>
    let i := h.pk.pf 0 5 0
    (.done (s.reg (R.CUR_S_VAL i) :: dtWords (tget (fun _ => (0 : Dt)) s.cur.senAt i)), s)

/-! ## Life cycle (R457, R490) -/

/-- The fuses take a life-cycle state; Vault banks are wiped. -/
def lifeCycle (t : Nat) (s : State) : State :=
  let o := s.fuses.life
  let s := ({ s with fuses := { s.fuses with life := t } }).setF R.CUR_LIFECYCLE 1 0 t
  raise 0xA16 4 uCur [wd o, wd t] (vaultWipeAll 2 s)

/-- LIFECYCLE (R490). -/
def lifecycleSpec : CmdSpec where
  op := 0xA07
  lens := fun n => n == 1
  resv := fun p _ => p.outside 0 0xFFFF00003 || p.pf 0 1 0 == 0 || p.pf 0 1 0 == 3
  parm := fun p _ => p.pf 0 35 20 != 0x4620
  late := lateProc
  chk := fun h s => [(decide (h.pk.pf 0 1 0 ≤ s.fuses.life), 7)]
  at_ := atProc
  eff := fun h s => (.done [], lifeCycle (h.pk.pf 0 1 0) s)

/-! ## Firmware (R458, R488) -/

/-- The slot that runs. -/
def State.runningSlot (s : State) : Option Nat := if s.cur.runningRom then none else some s.cur.running

/-- FW_WRITE (R488). -/
def fwWriteSpec : CmdSpec where
  op := 0xB00
  lens := fun n => n == 4
  resv := fun p _ => p.outside 0 1
  buf := some (1, true)
  late := lateProc
  chk := fun h s => [(s.runningSlot == some (h.pk.pf 0 0 0) || decide (1572864 < (packBytes (Packet.words h.pk)).length), 7), (s.storeBusy, 4)]
  at_ := atProc
  eff := fun h s =>
    let x := h.pk.pf 0 0 0
    let f := slotOf (Packet.words h.pk)
    let s := s.setSlot x f
    let s := match s.runningSlot with
      | some r => if s.sel = x then bootQueue (setSel r s) else s
      | none => s
    (.done [f.crc], raise 0xA04 0 uCur [wd x, f.crc] (fwStat s))

/-- FW_VERIFY (R488). -/
def fwVerifySpec : CmdSpec where
  op := 0xB01
  lens := fun n => n == 1
  resv := fun p _ => p.outside 0 1
  late := lateProc
  chk := fun h s => [(!s.slotGood (h.pk.pf 0 0 0), 10)]
  at_ := atProc
  eff := fun h s =>
    let x := h.pk.pf 0 0 0
    let f := s.slot x
    (.done [f.version, wd f.arb], fwStat (s.setSlot x { f with failed := false }))

/-- FW_ACTIVATE: SEL, the attempt count and TRIAL; the reply follows the write of the boot record. -/
def fwActivateSpec : CmdSpec where
  op := 0xB02
  lens := fun n => n == 1
  resv := fun p _ => p.outside 0 3
  late := lateProc
  chk := fun h s => [(!s.slotGood (h.pk.pf 0 0 0), 10), (s.storeBusy, 4)]
  at_ := atProc
  store := some 5
  eff := fun h s =>
    let x := h.pk.pf 0 0 0
    let f := s.slot x
    let s := s.setSlot x { f with failed := false }
    let s := fwStat ((setAttempts x 0 (setSel x s)).setF R.CUR_BOOT 13 13 1)
    let s := raise 0xA05 1 uCur [wd x, f.version] s
    if h.pk.pf 0 1 1 = 1 then
      let s := nvsCommit 5 (bootBody s) s
      (.later, { s with cur := { s.cur with resetReq := some 5 } })
    else
      let s := bootQueue s
      (.later, { s with waitReply := s.waitReply ++ [(133, h)] })

/-- FW_INFO: how the second word of a slot holds step and validity, and the ROM's values, are not stated. -/
def fwInfoSpec : CmdSpec where
  op := 0xB03
  lens := fun n => n == 0
  late := lateProc
  at_ := atProc
  eff := fun _ s =>
    let (i, s) := s.takeFree
    let (j, s) := s.takeFree
    let (k, s) := s.takeFree
    let (l, s) := s.takeFree
    (.done [(s.slot 0).version, Config.freeWord i, (s.slot 1).version, Config.freeWord j, Config.freeWord k, Config.freeWord l], s)

/-- FW_COSIGN_KEY (R488). -/
def fwCosignKeySpec : CmdSpec where
  op := 0xB04
  lens := fun n => n == 3
  buf := some (0, true)
  late := lateProc
  chk := fun _ s => [(s.fuses.cosign.isSome, 7)]
  at_ := atProc
  eff := fun h s =>
    let s := { s with fuses := { s.fuses with cosign := some (Packet.words h.pk) } }
    (.done [], fwStat (s.setF R.CUR_LIFECYCLE 8 8 1))

/-! ## User programs (R373, R374) -/

/-- The wings of a mask. -/
def maskWings (m : Nat) : List Nat := (List.range 16).filter (fun w => tbit m w)

/-- Channels of a wing with a hook attached. -/
def hooksOn (w : Nat) (s : State) : Nat :=
  (s.chans.filter (fun p => p.1 / 128 == w && p.2.cond != 0 && hookOf p.1 s != 0 && !p.2.hookOff)).length

/-- The refusals of USER_LOAD and USER_CLEAR. -/
def userChk (m : Nat) (s : State) : List (Bool × Nat) :=
  [((maskWings m).any (fun w => s.wgState w == 3), 11), ((maskWings m).any (fun w => decide (s.wgState w < 2)), 5),
   ((maskWings m).any (fun w => hooksOn w s != 0), 4)]

/-- Both user partitions of a wing are zeroed. -/
def userZero (w : Nat) (s : State) : State := (s.zeroMem (kWim w 0x3000) 4096).zeroMem (kWdm w 0x7000) 4096

/-- An image is loaded into the partitions of a wing. -/
def userPut (ws : List Word) (w : Nat) (s : State) : State :=
  let i := fld (ws.getD 0 0#36) 25 13
  let d := fld (ws.getD 0 0#36) 12 0
  let s := storeList (kWim w 0x3000) ((ws.drop 2).take i) (userZero w s)
  let s := storeList (kWdm w 0x7000) ((ws.drop (2 + i)).take d) s
  { s with loop := { s.loop with user := tset (fun _ => ([] : List Word)) s.loop.user w [ws.getD 0 0#36, wd (fld (ws.getD 1 0#36) 31 0)] } }

/-- USER_LOAD (R373). -/
def userLoadSpec : CmdSpec where
  op := 0xC00
  lens := fun n => n == 4
  resv := fun p _ => p.outside 0 0xFFFF
  parm := fun p _ => p.pf 0 15 0 == 0
  buf := some (1, true)
  bufSt := fun p _ =>
    let ws := Packet.words p
    let i := fld (ws.getD 0 0#36) 25 13
    let d := fld (ws.getD 0 0#36) 12 0
    if crc32 (slotBytes ((ws.drop 2).take (i + d))) ≠ fld (ws.getD 1 0#36) 31 0 then 10
    else if 4096 < i ∨ 4096 < d ∨ ws.length < 2 + i + d then 3 else 0
  late := lateProc
  units := fun p => (maskWings (p.pf 0 15 0)).map uWg
  chk := fun h s => userChk (h.pk.pf 0 15 0) s
  at_ := atProc
  eff := fun h s =>
    (.done [wd (fld ((Packet.words h.pk).getD 1 0#36) 31 0), wd (h.pk.pf 0 15 0)], (maskWings (h.pk.pf 0 15 0)).foldl (fun s w => userPut (Packet.words h.pk) w s) s)

/-- USER_CLEAR (R373). -/
def userClearSpec : CmdSpec where
  op := 0xC01
  lens := fun n => n == 1
  resv := fun p _ => p.outside 0 0xFFFF
  parm := fun p _ => p.pf 0 15 0 == 0
  late := lateProc
  units := fun p => (maskWings (p.pf 0 15 0)).map uWg
  chk := fun h s => userChk (h.pk.pf 0 15 0) s
  at_ := atProc
  eff := fun h s =>
    (.done [], (maskWings (h.pk.pf 0 15 0)).foldl (fun s w =>
      { userZero w s with loop := { s.loop with user := tset (fun _ => ([] : List Word)) s.loop.user w [] } }) s)

/-- USER_INFO (R373). -/
def userInfoSpec : CmdSpec where
  op := 0xC02
  lens := fun n => n == 1
  resv := fun p _ => p.outside 0 0xF
  late := lateProc
  units := fun p => [uWg (p.pf 0 3 0)]
  at_ := atProc
  eff := fun h s =>
    let u := tget (fun _ => ([] : List Word)) s.loop.user (h.pk.pf 0 3 0)
    (.done [u.getD 0 0#36, u.getD 1 0#36, wd (hooksOn (h.pk.pf 0 3 0) s)], s)

/-! ## The map of opcodes (R452) -/

/-- Every command of the opcode map. -/
def cmdSpecs : List CmdSpec :=
  [devNopSpec, devCancelSpec, devFaultPolicySpec, devResetSpec, devCmdCfgSpec, feStateSpec, feConfigSpec, feCalibrateSpec, feBiasSpec, feCoexSpec,
   synSmpSpec, synRefConfigSpec, synLoConfigSpec, synRampSegSpec, synRampArmSpec, tapConfigSpec, chzConfigSpec, notchConfigSpec, streamConfigSpec,
   replayCtrlSpec, codeRamLoadSpec, codeRamReadSpec, acqJobSpec, acqSnapSpec, acqReleaseSpec, acqCancelSpec, acqListSpec, acqReturnSpec]
  ++ [chAssignSpec, chReleaseSpec, chConfigSpec, chMoveSpec, wgCtrlSpec, loopParamSetSpec, loopSelectSpec, loopParamGetSpec, loopDefaultSpec,
   loopStatusSpec, loopHookSpec, obsConfigSpec, solConfigSpec, solModeSpec, solPositionSpec, solOscSpec, solSteerSpec, catLoadSpec, catTimeSpec,
   catReadSpec, catClearSpec, tpConfigSpec, tpJumpSpec, capConfigSpec, calInjectSpec, calSweepSpec, calConfigSpec]
  ++ [bankHandoverSpec, bankConfigSpec, bankPowerSpec, memRepairReadSpec, logDrainSpec, provReadSpec, retiredReadSpec, retiredRemoveSpec,
   settingsWriteSpec, settingsReadSpec, sensorReadSpec, lifecycleSpec, fwWriteSpec, fwVerifySpec, fwActivateSpec, fwInfoSpec, fwCosignKeySpec,
   userLoadSpec, userClearSpec, userInfoSpec]

/-- The command of an opcode. -/
def cmdSpecOf (op : Nat) : Option CmdSpec := cmdSpecs.find? (fun c => c.op == op)

/-! ## The rows -/

/-- DEV_NOP. -/
def execDevNop (p : Packet) (s : State) : Host.Outcome State Fault Refusal := .next (consumeCmd devNopSpec p s)
/-- DEV_CANCEL. -/
def execDevCancel (p : Packet) (s : State) : Host.Outcome State Fault Refusal := .next (consumeCmd devCancelSpec p s)
/-- DEV_FAULT_POLICY. -/
def execDevFaultPolicy (p : Packet) (s : State) : Host.Outcome State Fault Refusal := .next (consumeCmd devFaultPolicySpec p s)
/-- DEV_CMD_CFG. -/
def execDevCmdCfg (p : Packet) (s : State) : Host.Outcome State Fault Refusal := .next (consumeCmd devCmdCfgSpec p s)
/-- CODE_RAM_LOAD. -/
def execCodeRamLoad (p : Packet) (s : State) : Host.Outcome State Fault Refusal := .next (consumeCmd codeRamLoadSpec p s)
/-- CODE_RAM_READ. -/
def execCodeRamRead (p : Packet) (s : State) : Host.Outcome State Fault Refusal := .next (consumeCmd codeRamReadSpec p s)
/-- LOG_DRAIN. -/
def execLogDrain (p : Packet) (s : State) : Host.Outcome State Fault Refusal := .next (consumeCmd logDrainSpec p s)
/-- PROV_READ. -/
def execProvRead (p : Packet) (s : State) : Host.Outcome State Fault Refusal := .next (consumeCmd provReadSpec p s)
/-- RETIRED_READ. -/
def execRetiredRead (p : Packet) (s : State) : Host.Outcome State Fault Refusal := .next (consumeCmd retiredReadSpec p s)
/-- RETIRED_REMOVE. -/
def execRetiredRemove (p : Packet) (s : State) : Host.Outcome State Fault Refusal := .next (consumeCmd retiredRemoveSpec p s)
/-- SETTINGS_WRITE. -/
def execSettingsWrite (p : Packet) (s : State) : Host.Outcome State Fault Refusal := .next (consumeCmd settingsWriteSpec p s)
/-- SETTINGS_READ. -/
def execSettingsRead (p : Packet) (s : State) : Host.Outcome State Fault Refusal := .next (consumeCmd settingsReadSpec p s)
/-- SENSOR_READ. -/
def execSensorRead (p : Packet) (s : State) : Host.Outcome State Fault Refusal := .next (consumeCmd sensorReadSpec p s)
/-- LIFECYCLE. -/
def execLifecycle (p : Packet) (s : State) : Host.Outcome State Fault Refusal := .next (consumeCmd lifecycleSpec p s)
/-- FW_WRITE. -/
def execFwWrite (p : Packet) (s : State) : Host.Outcome State Fault Refusal := .next (consumeCmd fwWriteSpec p s)
/-- FW_VERIFY. -/
def execFwVerify (p : Packet) (s : State) : Host.Outcome State Fault Refusal := .next (consumeCmd fwVerifySpec p s)
/-- FW_INFO. -/
def execFwInfo (p : Packet) (s : State) : Host.Outcome State Fault Refusal := .next (consumeCmd fwInfoSpec p s)
/-- FW_COSIGN_KEY. -/
def execFwCosignKey (p : Packet) (s : State) : Host.Outcome State Fault Refusal := .next (consumeCmd fwCosignKeySpec p s)
/-- USER_LOAD. -/
def execUserLoad (p : Packet) (s : State) : Host.Outcome State Fault Refusal := .next (consumeCmd userLoadSpec p s)
/-- USER_CLEAR. -/
def execUserClear (p : Packet) (s : State) : Host.Outcome State Fault Refusal := .next (consumeCmd userClearSpec p s)
/-- USER_INFO. -/
def execUserInfo (p : Packet) (s : State) : Host.Outcome State Fault Refusal := .next (consumeCmd userInfoSpec p s)

/-- COMMAND_UNKNOWN_OPCODE: an entry whose opcode the map does not define is consumed and answered. -/
def execCommandUnknownOpcode (op : BitVec 12) (p : Packet) (s : State) : Host.Outcome State Fault Refusal :=
  if (cmdSpecOf op.toNat).isSome || !(s.booted && s.ringReady 0) then .next s else
  let (there, s) := if s.spiMode then spiEntry op.toNat p s else (true, s)
  if !there then .next s else
  let h : HeldCmd := ⟨op.toNat, p, s.rf (R.RING_CONS 0) 16 0, false, false, s.dt, [], none⟩
  .next (reply h 1 0 [] ((ringConsume 0 s).cnt R.HIF_CMD_CNT))

end Sys2Proof.Machine
end

