-- ==== Sys2Proof/Machine/Curator.lean ====
section
/-! DEFINITION. Curator.lean: the Curator's own events: sensors and thermal protection (R464 to R469), the store's writes, refresh and
history (R472 to R484), boot confirmation (R487), tamper (R491), supply warnings (R504, R505) and the console (R530). -/

namespace Sys2Proof.Machine

/-- Ticks in ten seconds of DT. -/
def tenSec : Nat := 687194767360

/-- Has DT run ten seconds since `d`? -/
def tenSecSince (d now : Dt) : Bool := dtGe now d && decide (tenSec ≤ (now - d).toNat)

/-! ## Sensor words (R464, R465) -/

/-- The rail a supply sensor watches (R464, R495), in the order of PwrSt. -/
def railOf (i : Nat) : Nat := if i < 16 then 0 else if i < 18 then 1 else if i < 20 then 2 else i - 17

/-- The warning and reset level of a rail in mV, and its hysteresis (R495, R496). -/
def railLevels (r : Nat) (iob33 : Bool) : Nat × Nat × Nat :=
  match r with
  | 0 => (680, 620, 10)
  | 1 => (740, 700, 10)
  | 2 => (1120, 1050, 20)
  | 6 => if iob33 then (3050, 2900, 40) else (1680, 1600, 20)
  | 7 => (840, 800, 10)
  | _ => (1680, 1600, 20)

/-- CUR_Si_EXT takes a reading: both values load from the first one after a read. -/
def sensorExt (i : Nat) (first : Bool) (v : Int) (s : State) : State :=
  let o := R.CUR_S_EXT i
  let e (x : Int) : Nat := bitsS 18 (max (-131072) (min 262143 x))
  let rd (hi lo : Nat) : Int := if i < 12 then sfld (s.reg o) hi lo else fld (s.reg o) hi lo
  if first || tget (fun _ => false) s.fresh o then
    { s.setReg o (wd (e v * 262144 + e v)) with fresh := tset (fun _ => false) s.fresh o false }
  else s.setReg o (wd (e (max v (rd 35 18)) * 262144 + e (min v (rd 17 0))))

/-- A reading of sensor `i`, clamped to its range `lo` to `hi` with RANGE and event 0xA19 (R465). -/
def sensorPut (i level : Nat) (lo hi v : Int) (s : State) : State :=
  let c := max lo (min v hi)
  let first := !bit (s.reg (R.CUR_S_VAL i)) 35
  let w := if i < 12 then bitsS 12 c else c.toNat
  let s := s.setReg (R.CUR_S_VAL i) (wd (34359738368 + b2n (c != v) * 17179869184 + level * 4294967296 + w))
  let s := sensorExt i first c s
  let s := { s with cur := { s.cur with senAt := tset (fun _ => (0 : Dt)) s.cur.senAt i s.dt } }
  if c = v then s else raise 0xA19 2 (uSens i) [wd i, wdI v] s

/-- WARN and SHED in 2^-4 °C (R466). -/
def thWarn (s : State) : Int := 16 * (s.rf R.CUR_THERM_CFG 7 0 : Int)
def thShed (s : State) : Int := 16 * (s.rf R.CUR_THERM_CFG 15 8 : Int)

/-- The thermal level of a temperature (R466). -/
def tempLevel (t : Int) (s : State) : Nat := if 2000 ≤ t then 3 else if thShed s ≤ t then 2 else if thWarn s ≤ t then 1 else 0

/-- Temperature readings from sensor `i` on. -/
def tempPut : Nat → List Int → State → State
  | _, [], s => s
  | i, t :: ts, s => if 12 ≤ i then s else tempPut (i + 1) ts (sensorPut i (tempLevel t s) (-2048) 2047 t s)

/-- Supply readings in mV from sensor `i` on. -/
def supplyPut : Nat → List Nat → State → State
  | _, [], s => s
  | i, v :: vs, s =>
    if i < 12 ∨ 26 ≤ i then s else
    let (w, r, _) := railLevels (railOf i) s.pwr.iob33
    supplyPut (i + 1) vs (sensorPut i (if v < r then 2 else if v < w then 1 else 0) 0 4095 v s)

/-- The reading of a temperature sensor, 2^-4 °C. -/
def State.tempOf (s : State) (i : Nat) : Int := sfld (s.reg (R.CUR_S_VAL i)) 11 0

/-- The greatest of the sensors given, and which; the first of equals. -/
def tempMax : List Nat → State → Option (Nat × Int)
  | [], _ => none
  | i :: is, s => match tempMax is s with
    | none => some (i, s.tempOf i)
    | some (j, t) => if t ≤ s.tempOf i then some (i, s.tempOf i) else some (j, t)

/-- Tj: the greatest reading of the sensors not excluded (R466). -/
def tjOf (s : State) : Option (Nat × Int) := tempMax ((List.range 12).filter (fun i => !bit (s.reg (R.CUR_S_CFG i)) 0)) s

/-- Set the state of thermal protection (R466). -/
def State.setTherm (s : State) (x : ThermSt) : State := { s with cur := { s.cur with therm := x } }

/-! ## Thermal protection (R467 to R469) -/

/-- The warning (R467); it is a sensor alarm to the Curator core (R366, notes/assumptions/57.md). -/
def thermWarn (i : Nat) (t : Int) (s : State) : State :=
  if thWarn s ≤ t ∧ !bit (s.reg R.CUR_THERM_STAT) 32 then
    raise 0xA10 2 uCur [wd i, wdI t] (pendLine 18 3 ((s.sticky R.CUR_THERM_STAT 32).sticky R.CUR_STATUS 4))
  else if t < thWarn s - 80 ∧ bit (s.reg R.CUR_THERM_STAT) 32 then
    raise 0xA11 1 uCur [wdI t] (s.setF R.CUR_THERM_STAT 32 32 0)
  else s

/-- How long Tj has stayed at or above SHED, and below SHED − 5 °C. -/
def thermTimes (t : Int) (s : State) : State :=
  let x := s.cur.therm
  s.setTherm { x with aboveSince := (if thShed s ≤ t then some (x.aboveSince.getD s.dt) else none),
                      belowSince := (if t < thShed s - 80 then some (x.belowSince.getD s.dt) else none) }

/-- Ten seconds of DT since an instant, if there is one, and since the last change of step. -/
def heldTen (since : Option Dt) (s : State) : Bool :=
  match since with
  | some d => tenSecSince d s.dt && tenSecSince s.cur.therm.stepAt s.dt
  | none => false

/-- A load-shed step is taken when it is due (R468). -/
def shedTake (t : Int) (s : State) : State :=
  let k := s.rf R.CUR_THERM_STAT 34 33
  if k = 3 ∨ !(decide (thShed s + 80 * k ≤ t) || (k != 0 && heldTen s.cur.therm.aboveSince s)) then s else
  let s := ((s.setF R.CUR_THERM_STAT 34 33 (k + 1)).sticky R.CUR_STATUS 5).setTherm { s.cur.therm with stepAt := s.dt }
  let s := if k = 0 then acqPause (wdI t) s else s
  raise 0xA12 2 uCur [wd (k + 1), wdI t] s

/-- The latest step is lifted when it is due (R468). -/
def shedLift (t : Int) (s : State) : State :=
  let k := s.rf R.CUR_THERM_STAT 34 33
  if k = 0 ∨ !heldTen s.cur.therm.belowSince s then s else
  let s := (s.setF R.CUR_THERM_STAT 34 33 (k - 1)).setTherm { s.cur.therm with stepAt := s.dt }
  let s := if k = 1 then acqResume s else s
  raise 0xA13 1 uCur [wd k, wdI t] s

/-- Thermal shutdown and its end (R469). -/
def thermShut (s : State) : State :=
  match tempMax (List.range 12) s with
  | none => s
  | some (i, t) =>
    let x := s.cur.therm
    if !bit (s.reg R.CUR_THERM_STAT) 35 then
      if t < 2000 then s else
      let s := (s.sticky R.CUR_THERM_STAT 35).sticky R.CUR_STATUS 6
      let s := tpShut (feThermal 3 (feThermal 2 (feThermal 1 (feThermal 0 s))))
      raise 0xA14 4 uCur [wd i, wdI t] (pendLine 18 3 (s.setTherm { s.cur.therm with coolSince := none }))
    else
      let s := s.setTherm { x with coolSince := (if t < 1680 then some (x.coolSince.getD s.dt) else none) }
      match s.cur.therm.coolSince with
      | none => s
      | some d =>
        if tenSecSince d s.dt then raise 0xA15 1 uCur [wdI t] ((s.setF R.CUR_THERM_STAT 35 35 0).setTherm { s.cur.therm with coolSince := none }) else s

/-- The rules of R466 to R468 on Tj. -/
def thermTj (s : State) : State :=
  match tjOf s with
  | none => s
  | some (i, t) =>
    let s := s.setF R.CUR_THERM_STAT 19 0 (i * 4096 + bitsS 12 t)
    let s := { s with cur := { s.cur with tjSum := s.cur.tjSum + t, tjCnt := s.cur.tjCnt + 1, tjSumD := s.cur.tjSumD + t, tjCntD := s.cur.tjCntD + 1 } }
    let s := thermTimes t (thermWarn i t s)
    shedLift t (shedTake t (shedTake t (shedTake t s)))

/-- R87: a front end in RUN whose temperature has moved by TEMP_RECAL °C is recalibrated, steps 1 to 3. -/
def tempRecal (n : Nat) (s : State) : State :=
  let d := s.rf (R.FE_CAL_CFG n) 15 8
  if d ≠ 0 ∧ s.feState n = feRun ∧ 16 * d ≤ (s.tempOf n - sfld (s.reg (R.FE_CAL_TEMP n)) 11 0).natAbs then calRunBegin n 14 false feRecal s else s

/-- A millisecond of powered time. -/
def poweredTick (s : State) : State :=
  if s.cur.ms + 1 < 1000 then { s with cur := { s.cur with ms := s.cur.ms + 1 } }
  else ({ s with cur := { s.cur with ms := 0 } }).incr R.CUR_POWERED

/-- SENSOR_SAMPLE: twelve temperatures (2^-4 °C) and fourteen supplies (mV) as measured; sensors 26 to 30 follow their registers. -/
def execSensorSample (temps : List Int) (mv : List Nat) (s : State) : Host.Outcome State Fault Refusal :=
  if !s.booted then .next s else
  let s := poweredTick s
  let s := supplyPut 12 mv (tempPut 0 temps s)
  let s := [0, 1, 2, 3].foldl (fun a n => sensorPut (26 + n) 0 0 65535 (a.rf (R.FE_BIAS_STAT n) 15 0) a) s
  let s := sensorPut 30 0 0 65535 (s.rf R.SYN_REF_EST 15 0) s
  .next ([0, 1, 2, 3].foldl (fun a n => tempRecal n a) (thermShut (thermTj s)))

/-- Readings of the ageing monitors from sensor `i` on. -/
def ageingPut : Nat → List Nat → State → State
  | _, [], s => s
  | i, v :: vs, s => if 47 ≤ i then s else ageingPut (i + 1) vs (sensorPut i 0 0 1048575 v s)

/-- AGEING_MEASURE: the sixteen ratios measured, once every 86,400 s of DT, with the temperature of the moment. -/
def execAgeingMeasure (vals : List Nat) (s : State) : Host.Outcome State Fault Refusal :=
  let last := tget (fun _ => (0 : Dt)) s.cur.senAt 31
  if !s.booted || (bit (s.reg (R.CUR_S_VAL 31)) 35 && decide ((s.dt - last).toNat < 86400 * 68719476736)) then .next s else
  let s := ageingPut 31 vals s
  .next { s with cur := { s.cur with ageTemp := wd (s.rf R.CUR_THERM_STAT 11 0) } }

/-! ## The timing unit's delays (R313, R314) -/

/-- A delay at 25 °C with its coefficient in 2^-8 ps/°C, at a temperature in 2^-4 °C, to the nearest ps, halves up. -/
def delayAt (d25 tc : Word) (t : Int) : Int := ((d25.toNat : Int) * 4096 + tc.toInt * (t - 400) + 2048) / 4096

/-- TPC_DELAY_REFRESH. -/
def execTpcDelayRefresh (s : State) : Host.Outcome State Fault Refusal :=
  if !s.booted then .next s else
  if !s.facValid then .next ((s.setReg R.TPC_DFIX 1500).setReg R.TPC_DIN 900) else
  let f (i : Nat) : Int := delayAt (Config.factory 4 i 0) (Config.factory 4 (i + 1) 0) (s.tempOf 11)
  .next ((s.setReg R.TPC_DFIX (wd (bitsS 16 (f 10)))).setReg R.TPC_DIN (wd (bitsS 16 (f 12))))

/-! ## The store (R472, R477, R479, R484) -/

/-- PROVENANCE_WRITE: the entry at the head of the queue reaches the store; with LOST it is followed by event 0xA0D. -/
def execProvenanceWrite (s : State) : Host.Outcome State Fault Refusal :=
  match s.cur.provQ with
  | [] => .next s
  | e :: q =>
    if !s.booted then .next s else
    let s := provStore e { s with cur := { s.cur with provQ := q } }
    if !e.lost then .next s else
    let n := s.cur.provLost
    .next (raise 0xA0D 2 uNvs [wd n] { s with cur := { s.cur with provLost := 0 } })

/-- The next write begins, or is deferred with event 0xA0A while a supply monitor is below its warning level (R477). -/
def nvsBegin (s : State) : State :=
  match s.nvs.writes with
  | [] => nvsSync s
  | w :: ws =>
    let low := s.supplyLow
    let t := nvsSync { s with nvs := { s.nvs with writes := { w with begun := w.begun || !low } :: ws } }
    if low && !w.begun then raise 0xA0A 1 uNvs [wd w.kind] t else t

/-- The command that waited for a record write is answered. -/
def storeReply (kind : Nat) (s : State) : State :=
  match takeReply (128 + kind) s with
  | (none, s) => s
  | (some h, s) =>
    let s := if kind = 4 then raise 0xA0F 1 uCur [h.pk.par 0] s else s
    reply h 0 s.dt (if kind = 1 then [(s.nvsRec 1).seq] else []) s

/-- NVS_WRITE_COMPLETE: the write in progress is done; the next begins. -/
def execNvsWriteComplete (s : State) : Host.Outcome State Fault Refusal :=
  match s.nvs.writes with
  | [] => .next s
  | w :: ws =>
    if !(w.begun || !s.supplyLow) then .next s else
    let s := nvsCommit w.kind w.body { s with nvs := { s.nvs with writes := ws } }
    let s := nvsBegin s
    let s := if w.kind = 1 then raise 0xA0E 0 uNvs [(s.nvsRec 1).seq] s else s
    .next (storeReply w.kind s)

/-- Sectors refreshed in all. -/
def State.refreshed (s : State) : Nat := s.rf R.CUR_REFRESH 35 20 * 1024 + s.rf R.CUR_REFRESH 9 0

/-- NVS_SECTOR_REFRESH: the next sector; `bad` is the byte offset, within it, of a group that reads back different. -/
def execNvsSectorRefresh (bad : Option Nat) (s : State) : Host.Outcome State Fault Refusal :=
  if !s.booted || s.storeBusy || decide ((s.reg R.CUR_POWERED).toNat / 61440 ≤ s.refreshed) then .next s else
  let k := s.rf R.CUR_REFRESH 9 0
  let s := { s with cur := { s.cur with refreshPart := k } }
  let s := match bad with
    | none => s
    | some o => if o / 4096 = k then raise 0xA0B 3 uNvs [wd o] (s.sticky R.CUR_STATUS 2) else s
  if k < 1023 then .next (bootQueue ((s.sticky (R.CUR_REFRESHED (k / 32)) (k % 32)).setF R.CUR_REFRESH 9 0 (k + 1))) else
  let p := (s.rf R.CUR_REFRESH 35 20 + 1) % 65536
  let s := (List.range 32).foldl (fun a i => a.setReg (R.CUR_REFRESHED i) 0) s
  .next (raise 0xA0C 0 uNvs [wd p] (bootQueue (s.setReg R.CUR_REFRESH (wd (p * 1048576)))))

/-- The powered time of the latest history entry of a kind; 0 for none. -/
def histLast (kind : Nat) (s : State) : Nat :=
  (s.cur.hist.filter (fun p => fld (p.2.getD 0 0#36) 35 32 == kind)).foldl (fun a p => max a (p.2.getD 1 0#36).toNat) 0

/-- An entry is written to the history ring. -/
def histPut (ws : List Word) (s : State) : State :=
  { s with cur := { s.cur with hist := tset (fun _ => ([] : List Word)) s.cur.hist s.cur.histNext ws, histNext := (s.cur.histNext + 1) % 728 } }

/-- Words 0 to 3 of a history entry. -/
def histHead (kind : Nat) (sum : Int) (cnt : Nat) (s : State) : List Word :=
  [wd (kind * 4294967296 + (s.reg R.CUR_POWER_ON).toNat % 1048576 * 4096), s.reg R.CUR_POWERED, dtSec s.dt, wd (bitsS 12 (if cnt = 0 then 0 else sum / cnt))]

/-- HISTORY_ENTRY: the ageing entry before the delay entry when both are due. -/
def execHistoryEntry (s : State) : Host.Outcome State Fault Refusal :=
  let t := (s.reg R.CUR_POWERED).toNat
  let due (kind p : Nat) : Bool := decide (histLast kind s / p < t / p)
  if !s.booted then .next s
  else if due 1 31536000 then
    let s := histPut (histHead 1 s.cur.tjSum s.cur.tjCnt s ++ (List.range 16).map (fun i => wd (s.rf (R.CUR_S_VAL (31 + i)) 19 0))) s
    .next (raise 0xA18 0 uCur [wd (t / 31536000)] { s with cur := { s.cur with tjSum := 0, tjCnt := 0 } })
  else if due 2 2592000 then
    let l (n : Nat) : Int × Nat := tget (fun _ => ((0, 0) : Int × Nat)) s.cur.live n
    let mean (n : Nat) : Word := wdI (if (l n).2 = 0 then 0 else (l n).1 / (l n).2)
    let s := histPut (histHead 2 s.cur.tjSumD s.cur.tjCntD s ++ [mean 0, mean 1, mean 2, mean 3] ++ [wd (l 0).2, wd (l 1).2, wd (l 2).2, wd (l 3).2]
      ++ List.replicate 8 0#36) s
    .next { s with cur := { s.cur with tjSumD := 0, tjCntD := 0, live := [] } }
  else .next s

/-! ## Boot confirmed, tamper, console (R487, R491, R530) -/

/-- BOOT_CONFIRM: 10 s of DT after HIF_BOOT.DONE. -/
def execBootConfirm (s : State) : Host.Outcome State Fault Refusal :=
  match s.cur.bootDone with
  | none => .next s
  | some d =>
    if !s.booted || s.cur.confirmed || !tenSecSince d s.dt then .next s else
    let r := if s.cur.runningRom then 2 else s.cur.running
    let s := { s with cur := { s.cur with confirmed := true } }
    let s := ((if r < 2 then setAttempts r 0 s else s).setF R.CUR_BOOT 13 12 1)
    let s := raise 0xA06 1 uCur [wd r, wd (s.rf R.GLB_FW_VER 31 0)] s
    let a := (s.slot r).arb
    let s := if r < 2 ∧ s.fuses.arb < a then
        let s := ({ s with fuses := { s.fuses with arb := a } }).setF R.CUR_LIFECYCLE 22 16 a
        raise 0xA07 1 uCur [wd a] s
      else s
    .next (bootQueue (fwStat s))

/-- The banks a wipe would wipe now. -/
def vaultMask (s : State) : Nat :=
  ((List.range 16).map (fun b => b2n (vaultDue b s) * 2 ^ b)).sum

/-- TAMPER_FILTER_PASS: TAMPER_N has stood at a level for 1 ms. -/
def execTamperFilterPass (level : Bool) (s : State) : Host.Outcome State Fault Refusal :=
  if s.pwr.inReset then .next s else
  let s := s.setF R.CUR_TAMPER 35 35 (b2n level)
  if level then .next { s with cur := { s.cur with tamperPassed := false } } else
  if s.cur.tamperPassed then .next s else
  let s := { s with cur := { s.cur with tamperPassed := true } }
  let s := (s.setF R.CUR_TAMPER 34 0 (min (s.rf R.CUR_TAMPER 34 0 + 1) 34359738367)).sticky R.CUR_STATUS 7
  let m := vaultMask s
  .next (raise 0xA17 4 uCur [wd m] (vaultWipeAll 1 s))

/-- CONSOLE_LINE: the line at the head of the queue goes out on CUR_TX. -/
def execConsoleLine (s : State) : Host.Outcome State Fault Refusal :=
  match s.cur.consoleQ with
  | [] => .next s
  | ws :: q => .next (({ s with cur := { s.cur with consoleQ := q } }).emit (.console ws))

/-! ## Supply-warning intervals (R504, R505) -/

/-- VDD_CORE where R497 guarantees nothing. -/
def coreUnsafe (i mv : Nat) : Bool := decide (12 ≤ i ∧ i < 16) && decide (620 < mv ∧ mv < 650)

/-- The interval of a rail begins, or its least value is updated. -/
def supplyWarn (i mv : Nat) (s : State) : State :=
  let r := railOf i
  let x := tget (fun _ => SupplyIv.none) s.pwr.ivs r
  if (railLevels r s.pwr.iob33).1 ≤ mv then s
  else if x.isOpen then { s with pwr := { s.pwr with ivs := tset (fun _ => SupplyIv.none) s.pwr.ivs r { x with least := min x.least mv } } }
  else
    let s := { s with pwr := { s.pwr with ivs := tset (fun _ => SupplyIv.none) s.pwr.ivs r ⟨true, s.dt, i, mv⟩ } }
    nvsSync (raise 0xA20 2 (uSens i) [wd i, wd mv] (pendLine 18 3 s))

/-- SUPPLY_WARNING: supply sensor 12 + `i` shows its rail below the warning level. -/
def execSupplyWarning (i : Fin 14) (mv : Nat) (s : State) : Host.Outcome State Fault Refusal :=
  if s.pwr.inReset || decide (mv < (railLevels (railOf (12 + i.val)) s.pwr.iob33).2.1) then .next s
  else if coreUnsafe (12 + i.val) mv then .fault .coreBelowFunctional
  else .next (supplyWarn (12 + i.val) mv s)

/-- SUPPLY_RECOVERY: the rail of sensor 12 + `i` has stood above its warning level plus hysteresis for 1 ms; `us` is the time from the
start of the interval to its last rise. -/
def execSupplyRecovery (i : Fin 14) (us : Nat) (s : State) : Host.Outcome State Fault Refusal :=
  let r := railOf (12 + i.val)
  let x := tget (fun _ => SupplyIv.none) s.pwr.ivs r
  if !x.isOpen then .next s else
  let s := { s with pwr := { s.pwr with ivs := tset (fun _ => SupplyIv.none) s.pwr.ivs r SupplyIv.none, closed := (r, x.start, s.dt) :: s.pwr.closed } }
  let s := raiseAt x.start 0xA21 2 (uSens x.sensor) [wd x.sensor, wd x.least, wd (min us 68719476735), dtSec x.start] s
  .next (if s.supplyLow then nvsSync s else nvsBegin s)

end Sys2Proof.Machine
end

