-- ==== Sys2Proof/Machine/Jtag.lean ====
section
/-! DEFINITION. Jtag.lean: the test port (R531), with the controller of IEEE 1149.1. -/

namespace Sys2Proof.Machine

/-- The controller's next state on a rising edge of TCK with TMS. -/
def Tap.next (tms : Bool) : Tap → Tap
  | .testLogicReset => if tms then .testLogicReset else .runTestIdle
  | .runTestIdle => if tms then .selectDr else .runTestIdle
  | .selectDr => if tms then .selectIr else .captureDr
  | .captureDr => if tms then .exit1Dr else .shiftDr
  | .shiftDr => if tms then .exit1Dr else .shiftDr
  | .exit1Dr => if tms then .updateDr else .pauseDr
  | .pauseDr => if tms then .exit2Dr else .pauseDr
  | .exit2Dr => if tms then .updateDr else .shiftDr
  | .updateDr => if tms then .selectDr else .runTestIdle
  | .selectIr => if tms then .testLogicReset else .captureIr
  | .captureIr => if tms then .exit1Ir else .shiftIr
  | .shiftIr => if tms then .exit1Ir else .shiftIr
  | .exit1Ir => if tms then .updateIr else .pauseIr
  | .pauseIr => if tms then .exit2Ir else .pauseIr
  | .exit2Ir => if tms then .updateIr else .shiftIr
  | .updateIr => if tms then .selectDr else .runTestIdle

/-- The bits of a number, least significant first. -/
def bitsLsb : Nat → Nat → List Bool
  | 0, _ => []
  | n + 1, v => (v % 2 == 1) :: bitsLsb n (v / 2)

/-- IDCODE. -/
def idcode : Nat := 0x1462049D

/-- What the data register of an instruction captures: the levels at the boundary cells, IDCODE, or the bypass bit. -/
def drCapture (ir : JInstr) (pins : List Bool) : List Bool :=
  match ir with
  | .idcode => bitsLsb 32 idcode
  | .sample => pins
  | .extest => pins
  | _ => [false]

/-- What the instruction register captures: 01 in its lowest bits. -/
def irCaptured : List Bool := true :: false :: (List.range (Config.irLen - 2)).map Config.irCapture

/-- The instruction a code selects; every code without one selects BYPASS, as all ones does. -/
def irOf (code : List Bool) : JInstr :=
  if code.all (fun b => b) then .bypass else
  match Config.irDecode code with
  | 1 => .idcode
  | 2 => .sample
  | 3 => .extest
  | 4 => .clamp
  | 5 => .highz
  | 6 => .diagnostic
  | _ => .bypass

/-- The reset of the port. -/
def jtagReset (s : State) : State := { s with jtag := { s.jtag with tap := .testLogicReset, ir := .idcode, shift := [] } }

/-- A rising edge: the capture or shift of the state the controller is in, then its move; Test-Logic-Reset selects IDCODE. -/
def tckRise (tms tdi : Bool) (pins : List Bool) (s : State) : State :=
  let j := s.jtag
  let shift := match j.tap with
    | .captureDr => drCapture j.ir pins
    | .captureIr => irCaptured
    | .shiftDr => j.shift.drop 1 ++ [tdi]
    | .shiftIr => j.shift.drop 1 ++ [tdi]
    | _ => j.shift
  let t := j.tap.next tms
  { s with jtag := { j with tap := t, shift := shift, ir := if t = .testLogicReset then .idcode else j.ir } }

/-- A falling edge in Update-DR: the boundary cells take the bits shifted in. -/
def updateDr (s : State) : State :=
  let j := s.jtag
  if j.ir = .sample ∨ j.ir = .extest then { s with jtag := { j with cells := j.shift } } else s

/-- TCK_EDGE: an edge of TCK with the levels of TMS, TDI and TRST_N and of the boundary balls. With TRST_N low the port stays in reset. A
diagnostic code selects BYPASS except in RETURNED, where its instruction is outside the manual. -/
def execTckEdge (rising tms tdi trst : Bool) (pins : List Bool) (s : State) : Host.Outcome State Fault Refusal :=
  if !trst then .next (jtagReset s)
  else if rising then .next (tckRise tms tdi pins s)
  else match s.jtag.tap with
    | .shiftDr => .next (s.emit (.tdo (s.jtag.shift.headD false)))
    | .shiftIr => .next (s.emit (.tdo (s.jtag.shift.headD false)))
    | .updateDr => .next (updateDr s)
    | .updateIr =>
      if irOf s.jtag.shift = .diagnostic then
        if s.fuses.life = 2 then .refused .jtagDiagnostic else .next { s with jtag := { s.jtag with ir := .bypass } }
      else .next { s with jtag := { s.jtag with ir := irOf s.jtag.shift } }
    | _ => .next s

/-- TRST_N_ASSERT. -/
def execTrstNAssert (s : State) : Host.Outcome State Fault Refusal := .next (jtagReset s)

end Sys2Proof.Machine
end

