-- ==== Sys2Proof/Machine/Power.lean ====
section
/-! DEFINITION. Power.lean: resets and boot (R461 to R463, R478, R481, R487, R489, R499 to R503, R543), and the commands held as
pending or parked (R438 to R442). -/

namespace Sys2Proof.Machine

/-! ## What a warm reset keeps (R502) -/

/-- A register that a warm reset leaves as it is, besides those of the host interface that R413 names. -/
def warmKept (o : Nat) : Bool :=
  decide (0x2000 ≤ o ∧ o < 0x3000) || decide (R.GLB_SCRATCH 0 ≤ o ∧ o ≤ R.GLB_SCRATCH 15) || decide (R.SOL_CFG ≤ o ∧ o ≤ R.SOL_MODE)
    || decide (R.SOL_POS_X ≤ o ∧ o ≤ R.SOL_POS_Z) || decide (R.SOL_SCL_TIME0 0 ≤ o ∧ o < R.SOL_SCL_TIME0 16)
    || o == R.HIF_MODE || o == R.HIF_LINK_STAT || o == R.HIF_ACC_NEXT || o == R.HIF_FLR_CNT || o == R.MEM_FILL_STAT || o == R.CUR_TAMPER
    || (List.range 16).any (fun b => o == R.BANK_STATE b || o == R.BANK_CFG b || o == R.BANK_POWER b)

/-- A bank's ownership returns to its reset state; its power state, VAULT and VLOCK stay (R383, R384, R401). -/
def bankWarm (s : State) (b : Nat) : State :=
  let s := s.setReg (R.BANK_STATE b) (wd (s.bankPower b * 256))
  s.setReg (R.BANK_CFG b) (wd (s.rf (R.BANK_CFG b) 2 1 * 2))

/-- The synthesisers of front ends stop. -/
def synthWarm (s : State) (u : Nat) : State :=
  let s := (s.setF (R.LO_STATE u) 3 0 0).setReg (R.LO_ACT u) 0
  if u < 4 then s.setReg (R.LO_RAMP_STAT u) 0 else s

/-- What the Curator's own state keeps through any reset: the store's rings; and through a warm reset, what waits for the store. -/
def CurSt.after (warm : Bool) (x : CurSt) : CurSt :=
  let y := { CurSt.reset with provRing := x.provRing, hist := x.hist, histNext := x.histNext, ms := x.ms }
  if warm then { y with provQ := x.provQ, provLost := x.provLost, provMark := x.provMark, tamperPassed := x.tamperPassed, ageTemp := x.ageTemp } else y

/-- The pins of the coexistence pairs as a reset leaves them: GNT follows REQ (R498). -/
def coexAfter (s : State) : List (Nat × CoexSt) :=
  [0, 1].foldl (fun t k =>
    let r := (tget (fun _ => CoexSt.idle) s.coex k).req
    tset (fun _ => CoexSt.idle) t k { CoexSt.idle with req := r, gnt := r }) []

/-- The device enters a warm reset for a cause (R501, R502). -/
def enterWarm (cause : Nat) (s : State) : State :=
  let s := poweredKeep (nvsAbort s)
  let sol := { s.sol with steer := .idle, takeover := false, epochs := [] }
  let s := { s with
    regs := s.regs.filter (fun p => warmKept p.1), fresh := [], memErr := [], cons := .idle, cores := [], rate := [], dtSnap := [], evtSnap := []
    cmdPend := [], cmdPark := [], waitReply := [], waitMax := 1000, policy := [], faults := []
    cur := { CurSt.after true s.cur with resetReq := some cause }
    ramp := [], fes := [], coex := coexAfter s, chans := [], assignQ := [], loop := .idle
    acq := .idle
    obs := { ObsSt.idle with from_ := s.cycle }
    sol := sol, tpc := { TpcSt.idle with models := s.tpc.models }
    pwr := { s.pwr with warmHeld := true } }
  let s := { s with bankH := s.bankH.map (fun (p : Nat × BankH) => (p.1, { BankH.idle with woken := p.2.woken, scrubbing := p.2.scrubbing })) }
  let s := { s with bankH := s.bankH.filter (fun (p : Nat × BankH) => p.2 != BankH.idle) }
  hifReset 2 ((List.range 8).foldl synthWarm ((List.range 16).foldl bankWarm s))

/-- A power-on or supply reset takes hold: everything but the store, the fuses, the Curator's rings in the store, the test port and the levels at
input pins is as State.reset has it; supply monitoring starts again. -/
def enterPower (s : State) (cause : Nat) (rail : Option Nat) : State :=
  let s := poweredKeep (nvsAbort s)
  { State.reset with
    pending := s.pending, freeCtr := s.freeCtr, out := s.out, nvs := s.nvs, fuses := s.fuses, cur := CurSt.after false s.cur
    retiredNow := s.retiredNow, retiredVol := [], coex := coexAfter s, jtag := s.jtag
    pwr := { State.reset.pwr with cause := cause, rail := rail } }

/-! ## Boot: records and slots (R476, R478, R487) -/

/-- The selection of an A/B record, with the events for copies that are not valid. -/
def recordRead (kind : Nat) (s : State) : State :=
  let r := s.nvsRec kind
  if r.validA && r.validB then
    if later 36 r.seqA r.seqB || later 36 r.seqB r.seqA then s else raise 0xA08 2 uNvs [wd kind, 1] (s.sticky R.CUR_STATUS 1)
  else if r.validA || r.validB then raise 0xA08 2 uNvs [wd kind, wd (b2n r.validA)] (s.sticky R.CUR_STATUS 1)
  else raise 0xA09 4 uNvs [wd kind] (s.sticky R.CUR_STATUS 1)

/-- Is a record in force at all? -/
def State.recordThere (s : State) (kind : Nat) : Bool := (s.nvsRec kind).validA || (s.nvsRec kind).validB

/-- The attempts of a slot as the choice counts them: a slot that is not valid counts 3. -/
def State.attemptsFor (s : State) (x : Nat) : Nat := if s.slotValid x then s.attempts x else max 3 (s.attempts x)

/-- R487: the slot to run; none for the ROM firmware. -/
def slotChoose (s : State) : Option Nat × State :=
  let x := s.sel
  if s.attemptsFor x < 3 then (some x, s)
  else if s.attemptsFor (1 - x) < 3 then
    (some (1 - x), raise 0xA02 4 uCur [wd x, wd (s.attemptsFor x)] ((setSel (1 - x) (s.setF R.CUR_BOOT 13 13 0)).sticky R.CUR_STATUS 0))
  else (none, raise 0xA03 4 uCur [wd (b2n (s.slotValid 0 || s.slotValid 1))] s)

/-- Step 4: the registers the boot record gives, the choice of the slot, and the record written. -/
def bootRecord (cause : Nat) (warm : Bool) (s : State) : State :=
  let s := recordRead 5 s
  let b := if s.recordThere 5 then (s.nvsRec 5).body else []
  let s := s.setReg R.CUR_BOOT (wd (cause * 4294967296 + ((b.getD 0 0#36).toNat &&& 0x60FF)))
  let s := s.setReg R.GLB_RESET_CAUSE (wd cause)
  let s := s.setReg R.CUR_POWER_ON (if warm then b.getD 1 0 else b.getD 1 0 + 1)
  let s := ((s.setReg R.CUR_POWERED (b.getD 2 0)).setReg R.CUR_REFRESH (b.getD 3 0)).setReg R.CUR_WDOG_CNT (if cause = 4 then b.getD 4 0 + 1 else b.getD 4 0)
  let k := s.rf R.CUR_REFRESH 9 0
  let s := (List.range 32).foldl (fun a i => a.setReg (R.CUR_REFRESHED i) (wd (2 ^ min 32 (k - 32 * i) - 1))) s
  match slotChoose s with
  | (some x, s) =>
    let s := setAttempts x (min 15 (s.attempts x + 1)) s
    let s := nvsCommit 5 (bootBody s) { s with cur := { s.cur with running := x, runningRom := false } }
    fwStat ((s.setF R.CUR_BOOT 17 16 x).setReg R.GLB_FW_VER (wd (x * 17179869184 + fld (s.slot x).version 31 0)))
  | (none, s) =>
    let (i, s) := s.takeFree
    let s := nvsCommit 5 (bootBody s) { s with cur := { s.cur with running := 0, runningRom := true } }
    fwStat ((s.setF R.CUR_BOOT 17 16 2).setReg R.GLB_FW_VER (wd (2 * 17179869184 + fld (Config.freeWord i) 31 0)))

/-! ## Boot: retired units (R34, R35, R461 step 6) -/

/-- Units of a list of map entries held for this power-on. -/
def volUnits (es : List (List Word)) : List Nat := es.map (fun e => (e.getD 0 0#36).toNat)

/-- Mark the units of a list RETIRED. -/
def retireMark (us : List Nat) (s : State) : State :=
  { s with retiredNow := us.foldl (fun t u => tset (fun _ => false) t u true) [] }

/-- Is a unit a region of bank `b`, or a region that MEM_RETIRED_RGN counts? -/
def bankRegion (b u : Nat) : Bool := u / 65536 == 8 * 64 + 12 && u % 65536 / 4096 == b
def anyRegion (u : Nat) : Bool := u / 65536 == 8 * 64 + 12 || (decide (1 ≤ u / 4194304 ∧ u / 4194304 ≤ 4) && u / 65536 % 64 == 9)

/-- The registers show the retired units. -/
def retireShow (us : List Nat) (s : State) : State :=
  let s := (List.range 16).foldl (fun a w => if a.isRetired (uWg w) then a.setF (R.WG_STATE w) 1 0 3 else a) s
  let s := (List.range 4).foldl (fun a n => if a.isRetired (uFe n) then a.setF (R.FE_STATE n) 3 0 7 else a) s
  let s := [0, 1].foldl (fun a h => if a.isRetired (uHalf h) then a.setReg (R.ACQ_H_STATE h) 4 else a) s
  let r0 := s.isRetired (uSolk 0)
  let r1 := s.isRetired (uSolk 1)
  let s := s.setReg R.SOL_CORES (wd (b2n r1 * 32 + b2n r0 * 16 + b2n (!r1) * 2 + b2n r0))
  let s := s.setReg R.MEM_RETIRED_RGN (wd (us.countP anyRegion))
  let s := (List.range 4).foldl (fun a n => chzSync n (a.setReg (R.CHZ_REGION_RET n) (wd (us.countP (fun u => decide (u / 65536 = (1 + n) * 64 + 9)))))) s
  let s := fbSync s
  (List.range 16).foldl (fun a b => a.setF (R.BANK_REPAIR b) 12 0 (us.countP (bankRegion b))) s

/-- The event of severity fault that reports a retirement at boot, by the kind of the unit (R34): the cause is that a retry failed, no
channel moves and no job is named (DEDUCED: notes/assumptions/14.md). -/
def retireEvent (u : Nat) (s : State) : State :=
  let sub := u / 4194304
  let cls := u / 65536 % 64
  if cls = 9 ∨ cls = 10 ∨ cls = 11 ∨ cls = 12 then raise 0x908 3 u [wd u] s
  else if 16 ≤ sub then (if cls = 1 then raise 0x503 3 u [0, 0] s else raise 0x508 3 u [0, 0] s)
  else if sub = 5 then raise 0x408 3 u [0, 0] s
  else if sub = 6 ∨ sub = 7 then raise 0x616 3 u [wd (7 - sub), 0] s
  else raise 0x100 3 u [0, 7] s

/-- The map as it stands, with what this boot has added to it (R405). -/
def bootMap (s : State) : List Nat :=
  if s.recordThere 4 || s.nvs.writes.any (fun w => w.kind == 4) then mapUnits (s.nvsBody 4) else []

/-- Step 6: the retired-unit map is read, and the units removed from it since the boot before are tested; `bad` lists those that fail. -/
def bootRetired (bad : List Nat) (s : State) : State :=
  let s := recordRead 4 s
  let map := bootMap s
  let vol := volUnits s.retiredVol
  let was := s.retiredNow.map (fun p => p.1)
  let failed := (bad.eraseDups).filter (fun u => unitDefined u && !map.contains u && !vol.contains u && (!s.recordThere 4 || was.contains u))
  let s := retireMark (map ++ vol) s
  let s := failed.foldl (fun a u => retireEvent u (retireUnit u 0xA01 a)) s
  retireShow (map ++ vol ++ failed) s

/-! ## Boot: settings (R461 step 7, R481) -/

/-- VAULT and VLOCK of a bank as the settings give them; a bank already locked keeps its VAULT (R384). -/
def vaultItem (v : Word) (s : State) (b : Nat) : State :=
  let s := if bit (s.reg (R.BANK_CFG b)) 2 then s else s.setF (R.BANK_CFG b) 1 1 (b2n (bit v b))
  if bit v (16 + b) then s.setF (R.BANK_CFG b) 2 2 1 else s

/-- One settings item is applied. A saved position is held after a power-on with auto-start (R277). -/
def itemApply (warm auto : Bool) (s : State) (e : Nat × List Word) : State :=
  let w (i : Nat) : Word := e.2.getD i 0#36
  match e.1 with
  | 2 => { s with policy := (List.range 6).foldl (fun t i => tset (fun _ => (⟨3, 10⟩ : Policy)) t i ⟨fld (w i) 11 8, fld (w i) 27 16⟩) s.policy }
  | 3 => { s with cur := { s.cur with pciIds := wd (fld (w 0) 31 0) } }
  | 4 => (List.range 15).foldl (vaultItem (w 0)) s
  | 5 => { s with loop := { s.loop with sets := (List.range 8).foldl (fun t k => tput (terase t k) k ((e.2.drop (7 * k)).take 7)) s.loop.sets } }
  | 6 => { s with loop := { s.loop with dflt := (List.range 4).foldl (fun t n => tset (fun _ => 0) t n (fld (w 0) (3 * n + 2) (3 * n))) s.loop.dflt } }
  | 7 => codeLoad (e.2.drop 1) s
  | 8 => if warm || !auto then s else (solShowPos (e.2.take 3) (solHold (e.2.take 3) s)).setF R.SOL_MODE 2 0 3
  | _ => s

/-- The settings in force. -/
def State.settings (s : State) : List (Nat × List Word) := if s.recordThere 1 then settingsOf (s.nvsRec 1).body else []

/-- The settings enable auto-start. -/
def State.autoStart (s : State) : Bool := s.settings.any (fun e => e.1 == 1 && bit (e.2.getD 0 0#36) 0)

/-- The calibration record: the registers it gives, or event 0x80B of each unit (R332, R340). -/
def bootCal (s : State) : State :=
  let s := recordRead 2 s
  let r := s.nvsRec 2
  let s := s.setReg R.CAL_FAC_STAT (wd (fld (Config.factory 4 0 0) 15 0 * 1048576 + b2n r.validB * 2 + b2n r.validA))
  if s.recordThere 2 then
    (List.range 4).foldl (fun a n => ((a.setReg (R.CALN_BASE n) (wd (fld (Config.factory n 8 0) 11 0))).setReg (R.CALN_FAC_DINJ n) (Config.factory n 0 0)).setReg
      (R.CALN_FAC_DOUT n) (Config.factory n 1 0)) s
  else ((s.setReg R.CAL_FAC_STAT 0)).setReg R.TPC_DFIX 1500 |>.setReg R.TPC_DIN 900 |> fun s =>
    [0, 1, 2, 3].foldl (fun a n => raise 0x80B 4 (uCal n) [] a) s

/-! ## Boot: start-up commands (R461 step 9, R481) -/

/-- The packet that ring words 0 onward of a start-up entry make; the contents of a host buffer are not there to read. -/
def startPacket (ws : List Word) : Packet :=
  let h := ws.getD 0 0#36
  ⟨BitVec.ofNat 12 (fld h 23 12), BitVec.ofNat 8 (fld h 11 4), bit h 3, bit h 2, bit h 1, bit h 0, 0, ws.drop 1, .failed 0⟩

/-- Execute start-up entries in order; `n` bounds them. A warm reset asked for ends them. -/
def startup : Nat → Nat → List Word → State → State
  | 0, _, _, s => s
  | _, _, [], s => s
  | n + 1, i, h :: t, s =>
    let p := startPacket (h :: t.take (fld h 11 4))
    let op := fld h 35 24
    let c : HeldCmd := ⟨op, p, 131072 + i, false, false, s.dt, [], none⟩
    let s := match cmdSpecOf op with
      | none => reply c 1 0 [] s
      | some spec => if p.atEpoch then reply c 2 0 [] s else admitCmd spec { c with units := spec.units p } s
    if s.cur.resetReq.isSome then s else startup n (i + 1) (t.drop (fld h 11 4)) s

/-- STARTUP of the settings runs (R461). -/
def bootStartup (s : State) : State :=
  match s.settings.find? (fun e => e.1 == 9) with
  | some e => if s.autoStart && !bit (s.reg R.HIF_MODE) 1 then startup e.2.length 0 e.2 s else s
  | none => s

/-! ## Boot (R461, R462) -/

/-- A warm reset asked for by a command takes hold. -/
def resetCheck (s : State) : State :=
  match s.cur.resetReq with
  | some c => if s.pwr.warmHeld then s else enterWarm c s
  | none => s

/-- Registers the fuses and the factory give. -/
def bootFuses (s : State) : State :=
  let s := ((s.setReg R.GLB_SERIAL0 s.fuses.serial0).setReg R.GLB_SERIAL1 s.fuses.serial1).setReg R.GLB_PROD_DATE s.fuses.date
  let s := s.setReg R.CUR_LIFECYCLE (wd (s.fuses.arb * 65536 + b2n s.fuses.cosign.isSome * 256 + s.fuses.life))
  let (w, r, _) := railLevels 6 s.pwr.iob33
  let s := s.setReg (R.CUR_S_CFG 23) (wd (w * 4096 + r))
  (List.range 16).foldl (fun a i => a.setReg (R.CUR_S_CFG (31 + i)) (wd (fld (Config.factory 5 i 0) 19 0))) s

/-- Boot from step 4 on: `cause` and rail of the reset, units failing their power-on test, and whether it was a warm reset. -/
def bootFrom4 (cause : Nat) (rail : Option Nat) (bad : List Nat) (warm : Bool) (s : State) : State :=
  let s := startCore 18 (bootFuses s)
  let s := bootRecord cause warm s
  let s := if s.cur.runningRom then s else loadImage 18 (kCim 0) 16384 s
  let s := bootRetired bad (bootCal (recordRead 1 s))
  let s := nvsSync (s.setReg R.CUR_PROV_SEQ (provNext s))
  let auto := s.autoStart
  let s := s.settings.foldl (itemApply warm auto) s
  let s := if s.cur.runningRom then s else
    [0, 1].foldl (fun a k => if a.isRetired (uSolk k) then a else solStart k a) s
  let s := s.setF R.CUR_TAMPER 35 35 (b2n (!s.cur.tamperPassed))
  let s := raise 0xA01 1 uCur (match rail with
    | some r => [wd cause, wd r]
    | none => [wd cause]) s
  let s := raise 0xA00 1 uCur [wd (s.rf R.CUR_BOOT 17 16), wd (s.rf R.GLB_FW_VER 31 0), s.reg R.CUR_POWER_ON] s
  let s := { (s.setReg R.HIF_BOOT 1) with cur := { s.cur with bootDone := some s.dt, confirmed := false, resetReq := none } }
  resetCheck (keepSync (bootStartup s))

/-- The boot after a power-on or supply reset: the repair map, the fill, then step 4 on. -/
def bootPower (bad : List Nat) (s : State) : State :=
  let s := { s with mem := [] }
  let (i, s) := s.takeFree
  let s := s.setReg R.MEM_FILL_STAT (wd (1048576 + 1400 + (Config.freeWord i).toNat % 601))
  bootFrom4 s.pwr.cause s.pwr.rail bad false (repairBoot (recordRead 3 s))

/-- The boot after a warm reset: Vault banks are wiped; the Catalogue is cleared when its CRC fails (R290). -/
def bootWarm (cause : Nat) (bad : List Nat) (catOk : Bool) (s : State) : State :=
  let s := { s with pwr := { s.pwr with warmHeld := false } }
  let s := if catOk then s else { s with sol := { s.sol with cat := [], timeAid := [], posAid := [] } }
  bootFrom4 cause none bad true (repairSync (vaultReset s))

/-! ## The rows of resets -/

/-- POWER_ON_RESET_RELEASE: the straps HOSTSEL and BOOTSEL and the choice of the VDD_IOB row are sampled, and the device boots; `bad`
lists the units that fail their power-on test (R496, R499, R528). -/
def execPowerOnResetRelease (hostsel bootsel iob33 : Bool) (bad : List Nat) (s : State) : Host.Outcome State Fault Refusal :=
  if !s.pwr.inReset then .next s else
  let s := { s with pwr := { s.pwr with inReset := false, iob33 := iob33 } }
  .next (bootPower bad (s.setReg R.HIF_MODE (wd (b2n bootsel * 2 + b2n hostsel))))

/-- The Provenance entry the store controller writes for a supply reset: the event record of 0xA01 with cause 1 and the rail; its
accession number is not stated (R503). -/
def supplyEntry (rail : Nat) (s : State) : State :=
  let (i, s) := s.takeFree
  let head := wd (uCur / 65536 % 4096 * 16777216 + 0xA01 * 4096 + 256 + 128)
  provStore ⟨[Config.freeWord i, dtSec s.dt, dtFrac s.dt, head, 1, wd rail, 0, 0], s.cur.provMark⟩ s

/-- SUPPLY_RESET: a rail (in the order of PwrSt) falls below its reset level. -/
def execSupplyReset (rail : Fin 9) (s : State) : Host.Outcome State Fault Refusal :=
  if s.pwr.inReset then .next s
  else if rail.val = 4 then .next (enterPower s 0 none)
  else
    .next (enterPower (supplyEntry rail (if s.booted then s else s.setReg R.CUR_PROV_SEQ (provNext s))) 1 (some rail.val))

/-- RESET_N_ASSERT: RESET_N held low for 1 µs; in a power-on reset it only extends that reset. -/
def execResetNAssert (s : State) : Host.Outcome State Fault Refusal :=
  if s.pwr.inReset then .next s
  else if s.pwr.warmHeld then .next { s with cur := { s.cur with resetReq := some 2 } }
  else .next (enterWarm 2 s)

/-- RESET_N_RELEASE: RESET_N rises; the warm reset it held ends and the device boots. -/
def execResetNRelease (bad : List Nat) (catOk : Bool) (s : State) : Host.Outcome State Fault Refusal :=
  if s.pwr.inReset || !s.pwr.warmHeld || s.cur.resetReq != some 2 then .next s else .next (bootWarm 2 bad catOk s)

/-- WARM_RESET: a warm reset that a command or the watchdog caused, which RESET_N does not hold, ends after its 10 µs and the device boots. -/
def execWarmReset (bad : List Nat) (catOk : Bool) (s : State) : Host.Outcome State Fault Refusal :=
  match s.cur.resetReq with
  | none => .next s
  | some c => if s.pwr.inReset || !s.pwr.warmHeld || c == 2 then .next s else .next (bootWarm c bad catOk s)

/-- WATCHDOG_EXPIRY: the Curator's watchdog expires, or its core has stopped. -/
def execWatchdogExpiry (s : State) : Host.Outcome State Fault Refusal :=
  if s.pwr.inReset || s.pwr.warmHeld then .next s else .next (enterWarm 4 s)

/-! ## Commands that may cause a reset, and held commands (R438 to R442) -/

/-- DEV_RESET. -/
def execDevReset (p : Packet) (s : State) : Host.Outcome State Fault Refusal := .next (resetCheck (consumeCmd devResetSpec p s))
/-- FW_ACTIVATE. -/
def execFwActivate (p : Packet) (s : State) : Host.Outcome State Fault Refusal := .next (resetCheck (consumeCmd fwActivateSpec p s))

/-- A command that waits and whose boundary has come (R438, R440, R545). -/
def pendDue (s : State) (h : HeldCmd) : Bool :=
  match cmdSpecOf h.op with
  | none => false
  | some c => boundaryCome c h s

/-- The due commands of a list that no earlier one blocks (R442). -/
def pendReady (s : State) : List HeldCmd → List HeldCmd → List HeldCmd
  | _, [] => []
  | before, h :: t =>
    (if pendDue s h && !blockedBy h.units (before ++ s.cmdPark ++ s.heldMoves) then [h] else []) ++ pendReady s (before ++ [h]) t

/-- The command with the earliest boundary of a list in ring order; of those at one boundary the first in ring order (R49). -/
def earliest (s : State) : List HeldCmd → Option HeldCmd
  | [] => none
  | h :: t => match earliest s t with
    | none => some h
    | some g => if g.n s < h.n s then some g else some h

/-- The commands that name a unit of `h` take effect at the boundary of `h` or later (R442). -/
def heldAfter (h : HeldCmd) (n : Nat) (s : State) : State :=
  { s with cmdPend := s.cmdPend.map (fun g =>
      if blockedBy g.units [h] then (match cmdSpecOf g.op with
        | none => g
        | some c => g.after c.grid n) else g) }

/-- PENDING_COMMAND_DUE: the next waiting command whose boundary has come takes effect or is refused. -/
def execPendingCommandDue (s : State) : Host.Outcome State Fault Refusal :=
  if !s.booted then .next s else
  match earliest s (pendReady s [] s.cmdPend) with
  | none => .next s
  | some h => match cmdSpecOf h.op with
    | none => .next s
    | some c => .next (resetCheck (heldAfter h (h.n s) (applyCmd c h { s with cmdPend := s.cmdPend.erase h })))

/-- Would a parked command still be busy? -/
def parkBusy (s : State) (h : HeldCmd) : Bool :=
  match cmdSpecOf h.op with
  | none => true
  | some c => firstStatus (chkCommon c h s ++ c.chk h s) == 4

/-- Is this a boundary of a command's kind (R441)? -/
def atBoundary (s : State) (h : HeldCmd) : Bool :=
  match cmdSpecOf h.op with
  | none => false
  | some c => c.clock h.pk s % c.grid == 0

/-- A parked command meets the boundary of now. -/
def parkNow (s : State) (h : HeldCmd) : HeldCmd :=
  match cmdSpecOf h.op with
  | none => h
  | some c => { h with bnd := h.bnd.map (fun _ => c.clock h.pk s) }

/-- The first parked command that no earlier parked one blocks and that is no longer busy. -/
def parkReady (s : State) : List HeldCmd → List HeldCmd → Option HeldCmd
  | _, [] => none
  | before, h :: t =>
    if atBoundary s h && !parkBusy s (parkNow s h) && !blockedBy h.units (before ++ s.heldMoves) then some h else parkReady s (before ++ [h]) t

/-- PARKED_COMMAND_RETRY: a parked command is checked again at a boundary of its kind. -/
def execParkedCommandRetry (s : State) : Host.Outcome State Fault Refusal :=
  if !s.booted then .next s else
  match parkReady s [] s.cmdPark with
  | none => .next s
  | some h => match cmdSpecOf h.op with
    | none => .next s
    | some c => .next (resetCheck (heldAfter h s.cycle (applyCmd c (parkNow s h) { s with cmdPark := s.cmdPark.erase h })))

/-- Has the wait limit passed since a command's consumption? While DT is held its passing is the row's own. -/
def parkExpired (s : State) (h : HeldCmd) : Bool :=
  !s.fsOn || decide (s.waitMax * 68719476736 ≤ (s.dt - h.at_).toNat * 1000)

/-- PARKED_COMMAND_TIMEOUT: a parked command still busy when the wait limit has passed is answered TIMEOUT. -/
def execParkedCommandTimeout (s : State) : Host.Outcome State Fault Refusal :=
  if !s.booted then .next s else
  match s.cmdPark.find? (fun h => parkBusy s (parkNow s h) && parkExpired s h) with
  | none => .next s
  | some h => .next (heldAfter h s.cycle (reply h 8 0 [] { s with cmdPark := s.cmdPark.erase h }))

end Sys2Proof.Machine
end

