-- ==== Sys2Proof/Machine/Dispatch.lean ====
section
/-! DEFINITION. Dispatch.lean: the meaning of each command, one arm per constructor of Instr. -/

namespace Sys2Proof.Machine

def exec (i : Instr) (s : State) : Host.Outcome State Fault Refusal :=
  match i with
  | .registerWrite src slot wid v => Sys2Proof.Machine.execRegisterWrite src slot wid v s
  | .registerReadClear src slot wid => Sys2Proof.Machine.execRegisterReadClear src slot wid s
  | .highDwordWrite bar2 slot v => Sys2Proof.Machine.execHighDwordWrite bar2 slot v s
  | .partialAccess bar2 slot hi be write => Sys2Proof.Machine.execPartialAccess bar2 slot hi be write s
  | .undefinedOffsetAccess src slot wid write v => Sys2Proof.Machine.execUndefinedOffsetAccess src slot wid write v s
  | .glbDtSecRead src wid => Sys2Proof.Machine.execGlbDtSecRead src wid s
  | .glbLastevt0Read src wid => Sys2Proof.Machine.execGlbLastevt0Read src wid s
  | .msixVectorUnmask v => Sys2Proof.Machine.execMsixVectorUnmask v s
  | .bar2Read a wid => Sys2Proof.Machine.execBar2Read a wid s
  | .bar2Write a wid v => Sys2Proof.Machine.execBar2Write a wid v s
  | .spiRegisterRead addr n => Sys2Proof.Machine.execSpiRegisterRead addr n s
  | .spiRegisterWrite addr units => Sys2Proof.Machine.execSpiRegisterWrite addr units s
  | .spiWordRead addr ready => Sys2Proof.Machine.execSpiWordRead addr ready s
  | .spiWordWrite addr units => Sys2Proof.Machine.execSpiWordWrite addr units s
  | .spiStatusRead => Sys2Proof.Machine.execSpiStatusRead s
  | .spiFrameRefused cmd addr => Sys2Proof.Machine.execSpiFrameRefused cmd addr s
  | .powerOnResetRelease hostsel bootsel iob33 bad => Sys2Proof.Machine.execPowerOnResetRelease hostsel bootsel iob33 bad s
  | .supplyReset rail => Sys2Proof.Machine.execSupplyReset rail s
  | .resetNAssert => Sys2Proof.Machine.execResetNAssert s
  | .warmReset bad catOk => Sys2Proof.Machine.execWarmReset bad catOk s
  | .watchdogExpiry => Sys2Proof.Machine.execWatchdogExpiry s
  | .bootConfirm => Sys2Proof.Machine.execBootConfirm s
  | .functionLevelReset => Sys2Proof.Machine.execFunctionLevelReset s
  | .perstN level => Sys2Proof.Machine.execPerstN level s
  | .linkDown => Sys2Proof.Machine.execLinkDown s
  | .linkUp speed width => Sys2Proof.Machine.execLinkUp speed width s
  | .dmaReadFailure q addr cause detected => Sys2Proof.Machine.execDmaReadFailure q addr cause detected s
  | .dmaCompletionTimeout q addr detected => Sys2Proof.Machine.execDmaCompletionTimeout q addr detected s
  | .supplyWarning sn mv => Sys2Proof.Machine.execSupplyWarning sn mv s
  | .supplyRecovery sn us => Sys2Proof.Machine.execSupplyRecovery sn us s
  | .tamperFilterPass level => Sys2Proof.Machine.execTamperFilterPass level s
  | .sensorSample temps mv => Sys2Proof.Machine.execSensorSample temps mv s
  | .ageingMeasure vals => Sys2Proof.Machine.execAgeingMeasure vals s
  | .tpcDelayRefresh => Sys2Proof.Machine.execTpcDelayRefresh s
  | .provenanceWrite => Sys2Proof.Machine.execProvenanceWrite s
  | .nvsWriteComplete => Sys2Proof.Machine.execNvsWriteComplete s
  | .nvsSectorRefresh bad => Sys2Proof.Machine.execNvsSectorRefresh bad s
  | .historyEntry => Sys2Proof.Machine.execHistoryEntry s
  | .consoleLine => Sys2Proof.Machine.execConsoleLine s
  | .sampleClockAbsent => Sys2Proof.Machine.execSampleClockAbsent s
  | .sampleClockReturned cycles => Sys2Proof.Machine.execSampleClockReturned cycles s
  | .referenceLost gross est => Sys2Proof.Machine.execReferenceLost gross est s
  | .qualWindowEnd offset => Sys2Proof.Machine.execQualWindowEnd offset s
  | .synthLocked which slip => Sys2Proof.Machine.execSynthLocked which slip s
  | .synthLockLost which => Sys2Proof.Machine.execSynthLockLost which s
  | .lockTimeout => Sys2Proof.Machine.execLockTimeout s
  | .discDeclared => Sys2Proof.Machine.execDiscDeclared s
  | .synSmpCtrlEnable src => Sys2Proof.Machine.execSynSmpCtrlEnable src s
  | .synSmpCtrlReengage src => Sys2Proof.Machine.execSynSmpCtrlReengage src s
  | .rampFracWrite src u v => Sys2Proof.Machine.execRampFracWrite src u v s
  | .rampStart u => Sys2Proof.Machine.execRampStart u s
  | .rampSegmentEnd u => Sys2Proof.Machine.execRampSegmentEnd u s
  | .rampStop src u => Sys2Proof.Machine.execRampStop src u s
  | .feCtrlEnable src n => Sys2Proof.Machine.execFeCtrlEnable src n s
  | .feCtrlDisable src n => Sys2Proof.Machine.execFeCtrlDisable src n s
  | .feCtrlRecal src n => Sys2Proof.Machine.execFeCtrlRecal src n s
  | .feLockTimeout n => Sys2Proof.Machine.execFeLockTimeout n s
  | .calStepEnd n ms => Sys2Proof.Machine.execCalStepEnd n ms s
  | .calStepRestart n => Sys2Proof.Machine.execCalStepRestart n s
  | .agcBlockEnd n => Sys2Proof.Machine.execAgcBlockEnd n s
  | .agcCodeApply n => Sys2Proof.Machine.execAgcCodeApply n s
  | .levelScaleApply n t => Sys2Proof.Machine.execLevelScaleApply n t s
  | .notchEngage n k => Sys2Proof.Machine.execNotchEngage n k s
  | .notchRelease n k => Sys2Proof.Machine.execNotchRelease n k s
  | .mismatchCheckStart n => Sys2Proof.Machine.execMismatchCheckStart n s
  | .mismatchCheckEnd n lo mid hi refl => Sys2Proof.Machine.execMismatchCheckEnd n lo mid hi refl s
  | .biasSample n uv => Sys2Proof.Machine.execBiasSample n uv s
  | .biasRetry n => Sys2Proof.Machine.execBiasRetry n s
  | .biasCfgWrite src n v => Sys2Proof.Machine.execBiasCfgWrite src n v s
  | .coexReqEdge k level => Sys2Proof.Machine.execCoexReqEdge k level s
  | .coexGntEdge k level => Sys2Proof.Machine.execCoexGntEdge k level s
  | .coexWinFracWrite src n k v => Sys2Proof.Machine.execCoexWinFracWrite src n k v s
  | .coexWindowStart k => Sys2Proof.Machine.execCoexWindowStart k s
  | .coexWindowEnd k => Sys2Proof.Machine.execCoexWindowEnd k s
  | .tapCfgWrite src n t fcw v => Sys2Proof.Machine.execTapCfgWrite src n t fcw v s
  | .tapStart n t => Sys2Proof.Machine.execTapStart n t s
  | .streamBlockEnd n t => Sys2Proof.Machine.execStreamBlockEnd n t s
  | .chzCtrlReplayStart src n => Sys2Proof.Machine.execChzCtrlReplayStart src n s
  | .chzCtrlReplayStop src n => Sys2Proof.Machine.execChzCtrlReplayStop src n s
  | .replayBlock n h bytes => Sys2Proof.Machine.execReplayBlock n h bytes s
  | .captureComplete sn failed => Sys2Proof.Machine.execCaptureComplete sn failed s
  | .jobStart h us => Sys2Proof.Machine.execJobStart h us s
  | .jobComplete h us => Sys2Proof.Machine.execJobComplete h us s
  | .acqHalfFault h retryOk => Sys2Proof.Machine.execAcqHalfFault h retryOk s
  | .resultRecordWrite => Sys2Proof.Machine.execResultRecordWrite s
  | .jobNominalEnd => Sys2Proof.Machine.execJobNominalEnd s
  | .acqCfgWrite src v => Sys2Proof.Machine.execAcqCfgWrite src v s
  | .acqCtrlPlanNow src => Sys2Proof.Machine.execAcqCtrlPlanNow src s
  | .planRebuildStart => Sys2Proof.Machine.execPlanRebuildStart s
  | .planRebuildComplete => Sys2Proof.Machine.execPlanRebuildComplete s
  | .planActivate => Sys2Proof.Machine.execPlanActivate s
  | .schedulerTick => Sys2Proof.Machine.execSchedulerTick s
  | .fallbackDwellEnd c => Sys2Proof.Machine.execFallbackDwellEnd c s
  | .wgCtrlEnable src w => Sys2Proof.Machine.execWgCtrlEnable src w s
  | .wgCtrlDisable src w => Sys2Proof.Machine.execWgCtrlDisable src w s
  | .wingCoreReady w => Sys2Proof.Machine.execWingCoreReady w s
  | .channelAssignmentEntry => Sys2Proof.Machine.execChannelAssignmentEntry s
  | .integrationStart c => Sys2Proof.Machine.execIntegrationStart c s
  | .tokenLatch c => Sys2Proof.Machine.execTokenLatch c s
  | .integrationEnd c => Sys2Proof.Machine.execIntegrationEnd c s
  | .residueCheckpoint c mismatch retryOk => Sys2Proof.Machine.execResidueCheckpoint c mismatch retryOk s
  | .channelOverrun c => Sys2Proof.Machine.execChannelOverrun c s
  | .channelMove c => Sys2Proof.Machine.execChannelMove c s
  | .loopProcessIntegration c budgetTrap => Sys2Proof.Machine.execLoopProcessIntegration c budgetTrap s
  | .wingCoreFault w cause pc retryOk part => Sys2Proof.Machine.execWingCoreFault w cause pc retryOk part s
  | .epochRecords => Sys2Proof.Machine.execEpochRecords s
  | .solutionEpoch => Sys2Proof.Machine.execSolutionEpoch s
  | .solutionCoreFault k retryOk => Sys2Proof.Machine.execSolutionCoreFault k retryOk s
  | .ossGridPoint => Sys2Proof.Machine.execOssGridPoint s
  | .tpModelUpdate => Sys2Proof.Machine.execTpModelUpdate s
  | .tpFirstAlignment n => Sys2Proof.Machine.execTpFirstAlignment n s
  | .tpEdgeCommit n => Sys2Proof.Machine.execTpEdgeCommit n s
  | .tpLeadingEdge n => Sys2Proof.Machine.execTpLeadingEdge n s
  | .tpTrailingEdge n => Sys2Proof.Machine.execTpTrailingEdge n s
  | .slewComplete n => Sys2Proof.Machine.execSlewComplete n s
  | .tpCtrlJump src n => Sys2Proof.Machine.execTpCtrlJump src n s
  | .captureEdge n rising d => Sys2Proof.Machine.execCaptureEdge n rising d s
  | .captureRecordWrite n => Sys2Proof.Machine.execCaptureRecordWrite n s
  | .injectionStart n => Sys2Proof.Machine.execInjectionStart n s
  | .injectWaitTimeout n => Sys2Proof.Machine.execInjectWaitTimeout n s
  | .calSecondEnd => Sys2Proof.Machine.execCalSecondEnd s
  | .liveDelayApply => Sys2Proof.Machine.execLiveDelayApply s
  | .calCtrlInjStop src n => Sys2Proof.Machine.execCalCtrlInjStop src n s
  | .calCtrlSweepAbort src n => Sys2Proof.Machine.execCalCtrlSweepAbort src n s
  | .sweepDue n => Sys2Proof.Machine.execSweepDue n s
  | .sweepEnd n => Sys2Proof.Machine.execSweepEnd n s
  | .sweepTableApply n => Sys2Proof.Machine.execSweepTableApply n s
  | .bankOwnerWrite src b v => Sys2Proof.Machine.execBankOwnerWrite src b v s
  | .handoverDrainComplete b => Sys2Proof.Machine.execHandoverDrainComplete b s
  | .handoverActivate b => Sys2Proof.Machine.execHandoverActivate b s
  | .bankPowerWrite src b v => Sys2Proof.Machine.execBankPowerWrite src b v s
  | .bankWakeComplete b => Sys2Proof.Machine.execBankWakeComplete b s
  | .bankRefillComplete b => Sys2Proof.Machine.execBankRefillComplete b s
  | .bankIdleTimeout b => Sys2Proof.Machine.execBankIdleTimeout b s
  | .vaultWipeComplete b => Sys2Proof.Machine.execVaultWipeComplete b s
  | .priorityScrub persists retryOk => Sys2Proof.Machine.execPriorityScrub persists retryOk s
  | .scrubWord => Sys2Proof.Machine.execScrubWord s
  | .bucketLeak => Sys2Proof.Machine.execBucketLeak s
  | .regionBorrow => Sys2Proof.Machine.execRegionBorrow s
  | .marchTestComplete a mask retryOk => Sys2Proof.Machine.execMarchTestComplete a mask retryOk s
  | .memCtrlScrubNow src => Sys2Proof.Machine.execMemCtrlScrubNow src s
  | .memCtrlTestRestart src => Sys2Proof.Machine.execMemCtrlTestRestart src s
  | .feHistCtrlClear src n => Sys2Proof.Machine.execFeHistCtrlClear src n s
  | .acqHistCtrlClear src => Sys2Proof.Machine.execAcqHistCtrlClear src s
  | .ringCtrlEnable src q => Sys2Proof.Machine.execRingCtrlEnable src q s
  | .ringCtrlDisable src q => Sys2Proof.Machine.execRingCtrlDisable src q s
  | .ringBaseLoWrite src q v => Sys2Proof.Machine.execRingBaseLoWrite src q v s
  | .ringProdWrite src q v => Sys2Proof.Machine.execRingProdWrite src q v s
  | .ringConsWrite src q v => Sys2Proof.Machine.execRingConsWrite src q v s
  | .ringModTimeout q => Sys2Proof.Machine.execRingModTimeout q s
  | .commandUnknownOpcode op p => Sys2Proof.Machine.execCommandUnknownOpcode op p s
  | .pendingCommandDue => Sys2Proof.Machine.execPendingCommandDue s
  | .parkedCommandRetry => Sys2Proof.Machine.execParkedCommandRetry s
  | .parkedCommandTimeout => Sys2Proof.Machine.execParkedCommandTimeout s
  | .productLanding c => Sys2Proof.Machine.execProductLanding c s
  | .interrupt c => Sys2Proof.Machine.execInterrupt c s
  | .waitResume c => Sys2Proof.Machine.execWaitResume c s
  | .add c f => Sys2Proof.Machine.execAdd c f s
  | .sub c f => Sys2Proof.Machine.execSub c f s
  | .and c f => Sys2Proof.Machine.execAnd c f s
  | .or c f => Sys2Proof.Machine.execOr c f s
  | .xor c f => Sys2Proof.Machine.execXor c f s
  | .andn c f => Sys2Proof.Machine.execAndn c f s
  | .sll c f => Sys2Proof.Machine.execSll c f s
  | .srl c f => Sys2Proof.Machine.execSrl c f s
  | .sra c f => Sys2Proof.Machine.execSra c f s
  | .seq c f => Sys2Proof.Machine.execSeq c f s
  | .sne c f => Sys2Proof.Machine.execSne c f s
  | .slt c f => Sys2Proof.Machine.execSlt c f s
  | .sltu c f => Sys2Proof.Machine.execSltu c f s
  | .sge c f => Sys2Proof.Machine.execSge c f s
  | .sgeu c f => Sys2Proof.Machine.execSgeu c f s
  | .addi c f => Sys2Proof.Machine.execAddi c f s
  | .andi c f => Sys2Proof.Machine.execAndi c f s
  | .ori c f => Sys2Proof.Machine.execOri c f s
  | .xori c f => Sys2Proof.Machine.execXori c f s
  | .lui c f => Sys2Proof.Machine.execLui c f s
  | .slli c f => Sys2Proof.Machine.execSlli c f s
  | .srli c f => Sys2Proof.Machine.execSrli c f s
  | .srai c f => Sys2Proof.Machine.execSrai c f s
  | .seqi c f => Sys2Proof.Machine.execSeqi c f s
  | .snei c f => Sys2Proof.Machine.execSnei c f s
  | .slti c f => Sys2Proof.Machine.execSlti c f s
  | .sltui c f => Sys2Proof.Machine.execSltui c f s
  | .sgei c f => Sys2Proof.Machine.execSgei c f s
  | .sgeui c f => Sys2Proof.Machine.execSgeui c f s
  | .ext c f => Sys2Proof.Machine.execExt c f s
  | .exts c f => Sys2Proof.Machine.execExts c f s
  | .ins c f => Sys2Proof.Machine.execIns c f s
  | .ld c f => Sys2Proof.Machine.execLd c f s
  | .st c f => Sys2Proof.Machine.execSt c f s
  | .ldd c f => Sys2Proof.Machine.execLdd c f s
  | .std c f => Sys2Proof.Machine.execStd c f s
  | .mul c f => Sys2Proof.Machine.execMul c f s
  | .mulu c f => Sys2Proof.Machine.execMulu c f s
  | .mac c f => Sys2Proof.Machine.execMac c f s
  | .dstep c f => Sys2Proof.Machine.execDstep c f s
  | .mfp c f => Sys2Proof.Machine.execMfp c f s
  | .mtp c f => Sys2Proof.Machine.execMtp c f s
  | .rep c z => Sys2Proof.Machine.execRep c z s
  | .bz c f => Sys2Proof.Machine.execBz c f s
  | .bnz c f => Sys2Proof.Machine.execBnz c f s
  | .jmp c f => Sys2Proof.Machine.execJmp c f s
  | .jr c f => Sys2Proof.Machine.execJr c f s
  | .call c f => Sys2Proof.Machine.execCall c f s
  | .callr c f => Sys2Proof.Machine.execCallr c f s
  | .ret c z => Sys2Proof.Machine.execRet c z s
  | .rett c z => Sys2Proof.Machine.execRett c z s
  | .sys c f => Sys2Proof.Machine.execSys c f s
  | .brk c f => Sys2Proof.Machine.execBrk c f s
  | .wait c z => Sys2Proof.Machine.execWait c z s
  | .mfc c f => Sys2Proof.Machine.execMfc c f s
  | .mtc c f => Sys2Proof.Machine.execMtc c f s
  | .devNop p => Sys2Proof.Machine.execDevNop p s
  | .devCancel p => Sys2Proof.Machine.execDevCancel p s
  | .devFaultPolicy p => Sys2Proof.Machine.execDevFaultPolicy p s
  | .devReset p => Sys2Proof.Machine.execDevReset p s
  | .devCmdCfg p => Sys2Proof.Machine.execDevCmdCfg p s
  | .feState p => Sys2Proof.Machine.execFeState p s
  | .feConfig p => Sys2Proof.Machine.execFeConfig p s
  | .feCalibrate p => Sys2Proof.Machine.execFeCalibrate p s
  | .feBias p => Sys2Proof.Machine.execFeBias p s
  | .feCoex p => Sys2Proof.Machine.execFeCoex p s
  | .synSmp p => Sys2Proof.Machine.execSynSmp p s
  | .synRefConfig p => Sys2Proof.Machine.execSynRefConfig p s
  | .synLoConfig p => Sys2Proof.Machine.execSynLoConfig p s
  | .synRampSeg p => Sys2Proof.Machine.execSynRampSeg p s
  | .synRampArm p => Sys2Proof.Machine.execSynRampArm p s
  | .tapConfig p => Sys2Proof.Machine.execTapConfig p s
  | .chzConfig p => Sys2Proof.Machine.execChzConfig p s
  | .notchConfig p => Sys2Proof.Machine.execNotchConfig p s
  | .streamConfig p => Sys2Proof.Machine.execStreamConfig p s
  | .replayCtrl p => Sys2Proof.Machine.execReplayCtrl p s
  | .codeRamLoad p => Sys2Proof.Machine.execCodeRamLoad p s
  | .codeRamRead p => Sys2Proof.Machine.execCodeRamRead p s
  | .acqJob p => Sys2Proof.Machine.execAcqJob p s
  | .acqSnap p => Sys2Proof.Machine.execAcqSnap p s
  | .acqSnapRelease p => Sys2Proof.Machine.execAcqSnapRelease p s
  | .acqCancel p => Sys2Proof.Machine.execAcqCancel p s
  | .acqSchedList p => Sys2Proof.Machine.execAcqSchedList p s
  | .acqBankReturn p => Sys2Proof.Machine.execAcqBankReturn p s
  | .chAssign p => Sys2Proof.Machine.execChAssign p s
  | .chRelease p => Sys2Proof.Machine.execChRelease p s
  | .chConfig p => Sys2Proof.Machine.execChConfig p s
  | .chMove p => Sys2Proof.Machine.execChMove p s
  | .wgCtrl p => Sys2Proof.Machine.execWgCtrl p s
  | .loopParamSet p => Sys2Proof.Machine.execLoopParamSet p s
  | .loopSelect p => Sys2Proof.Machine.execLoopSelect p s
  | .loopParamGet p => Sys2Proof.Machine.execLoopParamGet p s
  | .loopDefault p => Sys2Proof.Machine.execLoopDefault p s
  | .loopStatus p => Sys2Proof.Machine.execLoopStatus p s
  | .loopHook p => Sys2Proof.Machine.execLoopHook p s
  | .obsConfig p => Sys2Proof.Machine.execObsConfig p s
  | .solConfig p => Sys2Proof.Machine.execSolConfig p s
  | .solModeSet p => Sys2Proof.Machine.execSolModeSet p s
  | .solPosition p => Sys2Proof.Machine.execSolPosition p s
  | .solOscModel p => Sys2Proof.Machine.execSolOscModel p s
  | .solSteer p => Sys2Proof.Machine.execSolSteer p s
  | .catLoad p => Sys2Proof.Machine.execCatLoad p s
  | .catTime p => Sys2Proof.Machine.execCatTime p s
  | .catRead p => Sys2Proof.Machine.execCatRead p s
  | .catClear p => Sys2Proof.Machine.execCatClear p s
  | .tpConfig p => Sys2Proof.Machine.execTpConfig p s
  | .tpJump p => Sys2Proof.Machine.execTpJump p s
  | .capConfig p => Sys2Proof.Machine.execCapConfig p s
  | .calInject p => Sys2Proof.Machine.execCalInject p s
  | .calSweep p => Sys2Proof.Machine.execCalSweep p s
  | .calConfig p => Sys2Proof.Machine.execCalConfig p s
  | .bankHandover p => Sys2Proof.Machine.execBankHandover p s
  | .bankConfig p => Sys2Proof.Machine.execBankConfig p s
  | .bankPower p => Sys2Proof.Machine.execBankPower p s
  | .memRepairRead p => Sys2Proof.Machine.execMemRepairRead p s
  | .logDrain p => Sys2Proof.Machine.execLogDrain p s
  | .provRead p => Sys2Proof.Machine.execProvRead p s
  | .retiredRead p => Sys2Proof.Machine.execRetiredRead p s
  | .retiredRemove p => Sys2Proof.Machine.execRetiredRemove p s
  | .settingsWrite p => Sys2Proof.Machine.execSettingsWrite p s
  | .settingsRead p => Sys2Proof.Machine.execSettingsRead p s
  | .sensorRead p => Sys2Proof.Machine.execSensorRead p s
  | .lifecycle p => Sys2Proof.Machine.execLifecycle p s
  | .fwWrite p => Sys2Proof.Machine.execFwWrite p s
  | .fwVerify p => Sys2Proof.Machine.execFwVerify p s
  | .fwActivate p => Sys2Proof.Machine.execFwActivate p s
  | .fwInfo p => Sys2Proof.Machine.execFwInfo p s
  | .fwCosignKey p => Sys2Proof.Machine.execFwCosignKey p s
  | .userLoad p => Sys2Proof.Machine.execUserLoad p s
  | .userClear p => Sys2Proof.Machine.execUserClear p s
  | .userInfo p => Sys2Proof.Machine.execUserInfo p s
  | .sampleCycle a b c d cmps starved => Sys2Proof.Machine.execSampleCycle a b c d cmps starved s
  | .resetNRelease bad catOk => Sys2Proof.Machine.execResetNRelease bad catOk s
  | .referenceReturn est => Sys2Proof.Machine.execReferenceReturn est s
  | .illegalInstruction c => Sys2Proof.Machine.execIllegalInstruction c s
  | .instructionFetchFault c => Sys2Proof.Machine.execInstructionFetchFault c s
  | .tckEdge rising tms tdi trst pins => Sys2Proof.Machine.execTckEdge rising tms tdi trst pins s
  | .trstNAssert => Sys2Proof.Machine.execTrstNAssert s

end Sys2Proof.Machine
end

