-- ==== Sys2Proof/Machine/ApCode.lean ====
section
/-! DEFINITION. ApCode.lean: the words of the Apone instructions, and the instruction a word is (R351, R352). -/

namespace Sys2Proof.Machine

/-! ## The operand fields of a word, format by format (R351) -/

/-- The fields of the register form (R351). -/
def wordR (w : Word) : FmtR := ⟨w.extractLsb' 25 5, w.extractLsb' 20 5, w.extractLsb' 15 5, w.extractLsb' 0 9⟩
def wordM (w : Word) : FmtM := ⟨w.extractLsb' 25 5, w.extractLsb' 20 5, w.extractLsb' 15 5, w.extractLsb' 9 6, w.extractLsb' 0 9⟩
def wordI (w : Word) : FmtI := ⟨w.extractLsb' 25 5, w.extractLsb' 20 5, w.extractLsb' 0 20⟩
def wordS (w : Word) : FmtS := ⟨w.extractLsb' 25 5, w.extractLsb' 20 5, w.extractLsb' 12 6, w.extractLsb' 0 12⟩
def wordF (w : Word) : FmtF := ⟨w.extractLsb' 25 5, w.extractLsb' 20 5, w.extractLsb' 14 6, w.extractLsb' 8 6, w.extractLsb' 0 8⟩
def wordB (w : Word) : FmtB := ⟨w.extractLsb' 25 5, w.extractLsb' 24 1, w.extractLsb' 0 24⟩
def wordJ (w : Word) : FmtJ := ⟨w.extractLsb' 24 6, w.extractLsb' 0 24⟩
def wordP (w : Word) : FmtP := ⟨w.extractLsb' 25 5, w.extractLsb' 20 5, w.extractLsb' 18 2, w.extractLsb' 0 18⟩
def wordC (w : Word) : FmtC := ⟨w.extractLsb' 25 5, w.extractLsb' 20 5, w.extractLsb' 14 6, w.extractLsb' 0 14⟩
def wordX (w : Word) : FmtX := ⟨w.extractLsb' 20 10, w.extractLsb' 0 20⟩
def wordZ (w : Word) : BitVec 30 := w.extractLsb' 0 30

/-- The core and the word of an instruction row. -/
def apWord : Instr → Option (Fin 19 × Word)
  | .add c f => some (c, encR 0 f)
  | .sub c f => some (c, encR 1 f)
  | .and c f => some (c, encR 2 f)
  | .or c f => some (c, encR 3 f)
  | .xor c f => some (c, encR 4 f)
  | .andn c f => some (c, encR 5 f)
  | .sll c f => some (c, encR 6 f)
  | .srl c f => some (c, encR 7 f)
  | .sra c f => some (c, encR 8 f)
  | .seq c f => some (c, encR 9 f)
  | .sne c f => some (c, encR 10 f)
  | .slt c f => some (c, encR 11 f)
  | .sltu c f => some (c, encR 12 f)
  | .sge c f => some (c, encR 13 f)
  | .sgeu c f => some (c, encR 14 f)
  | .addi c f => some (c, encI 1 f)
  | .andi c f => some (c, encI 2 f)
  | .ori c f => some (c, encI 3 f)
  | .xori c f => some (c, encI 4 f)
  | .lui c f => some (c, encI 5 f)
  | .seqi c f => some (c, encI 7 f)
  | .snei c f => some (c, encI 8 f)
  | .slti c f => some (c, encI 9 f)
  | .sltui c f => some (c, encI 10 f)
  | .sgei c f => some (c, encI 11 f)
  | .sgeui c f => some (c, encI 12 f)
  | .ld c f => some (c, encI 16 f)
  | .st c f => some (c, encI 17 f)
  | .ldd c f => some (c, encI 18 f)
  | .std c f => some (c, encI 19 f)
  | .slli c f => some (c, encS 0 f)
  | .srli c f => some (c, encS 1 f)
  | .srai c f => some (c, encS 2 f)
  | .ext c f => some (c, encF 13 f)
  | .exts c f => some (c, encF 14 f)
  | .ins c f => some (c, encF 15 f)
  | .mul c f => some (c, encM 20 f)
  | .mulu c f => some (c, encM 21 f)
  | .mac c f => some (c, encM 22 f)
  | .dstep c f => some (c, encM 23 f)
  | .jr c f => some (c, encM 35 f)
  | .callr c f => some (c, encM 37 f)
  | .mfp c f => some (c, encP 24 f)
  | .mtp c f => some (c, encP 25 f)
  | .rep c z => some (c, encZ 26 z)
  | .ret c z => some (c, encZ 38 z)
  | .rett c z => some (c, encZ 39 z)
  | .wait c z => some (c, encZ 42 z)
  | .bz c f => some (c, encB 32 f)
  | .bnz c f => some (c, encB 33 f)
  | .jmp c f => some (c, encJ 34 f)
  | .call c f => some (c, encJ 36 f)
  | .sys c f => some (c, encX 40 f)
  | .brk c f => some (c, encX 41 f)
  | .mfc c f => some (c, encC 48 f)
  | .mtc c f => some (c, encC 49 f)
  | _ => none

/-- The instruction of major opcode 0x00 with a function code. -/
def apDecodeR (c : Fin 19) (w : Word) : Option Instr :=
  match w.extractLsb' 9 6 with
  | 0#6 => some (.add c (wordR w))
  | 1#6 => some (.sub c (wordR w))
  | 2#6 => some (.and c (wordR w))
  | 3#6 => some (.or c (wordR w))
  | 4#6 => some (.xor c (wordR w))
  | 5#6 => some (.andn c (wordR w))
  | 6#6 => some (.sll c (wordR w))
  | 7#6 => some (.srl c (wordR w))
  | 8#6 => some (.sra c (wordR w))
  | 9#6 => some (.seq c (wordR w))
  | 10#6 => some (.sne c (wordR w))
  | 11#6 => some (.slt c (wordR w))
  | 12#6 => some (.sltu c (wordR w))
  | 13#6 => some (.sge c (wordR w))
  | 14#6 => some (.sgeu c (wordR w))
  | _ => none

/-- The shift of a kind; kind 0b11 is none. -/
def apDecodeS (c : Fin 19) (w : Word) : Option Instr :=
  match w.extractLsb' 18 2 with
  | 0#2 => some (.slli c (wordS w))
  | 1#2 => some (.srli c (wordS w))
  | 2#2 => some (.srai c (wordS w))
  | _ => none

/-- The instruction a word is on core `c`; none for a word that is none of the table. -/
def apDecode (c : Fin 19) (w : Word) : Option Instr :=
  match w.extractLsb' 30 6 with
  | 0#6 => apDecodeR c w
  | 6#6 => apDecodeS c w
  | 1#6 => some (.addi c (wordI w))
  | 2#6 => some (.andi c (wordI w))
  | 3#6 => some (.ori c (wordI w))
  | 4#6 => some (.xori c (wordI w))
  | 5#6 => some (.lui c (wordI w))
  | 7#6 => some (.seqi c (wordI w))
  | 8#6 => some (.snei c (wordI w))
  | 9#6 => some (.slti c (wordI w))
  | 10#6 => some (.sltui c (wordI w))
  | 11#6 => some (.sgei c (wordI w))
  | 12#6 => some (.sgeui c (wordI w))
  | 13#6 => some (.ext c (wordF w))
  | 14#6 => some (.exts c (wordF w))
  | 15#6 => some (.ins c (wordF w))
  | 16#6 => some (.ld c (wordI w))
  | 17#6 => some (.st c (wordI w))
  | 18#6 => some (.ldd c (wordI w))
  | 19#6 => some (.std c (wordI w))
  | 20#6 => some (.mul c (wordM w))
  | 21#6 => some (.mulu c (wordM w))
  | 22#6 => some (.mac c (wordM w))
  | 23#6 => some (.dstep c (wordM w))
  | 24#6 => some (.mfp c (wordP w))
  | 25#6 => some (.mtp c (wordP w))
  | 26#6 => some (.rep c (wordZ w))
  | 32#6 => some (.bz c (wordB w))
  | 33#6 => some (.bnz c (wordB w))
  | 34#6 => some (.jmp c (wordJ w))
  | 35#6 => some (.jr c (wordM w))
  | 36#6 => some (.call c (wordJ w))
  | 37#6 => some (.callr c (wordM w))
  | 38#6 => some (.ret c (wordZ w))
  | 39#6 => some (.rett c (wordZ w))
  | 40#6 => some (.sys c (wordX w))
  | 41#6 => some (.brk c (wordX w))
  | 42#6 => some (.wait c (wordZ w))
  | 48#6 => some (.mfc c (wordC w))
  | 49#6 => some (.mtc c (wordC w))
  | _ => none

end Sys2Proof.Machine
end

