-- ==== Sys2Proof/Safety.lean ====
section
/-! DEFINITION. Safety.lean: the notions claims about the block are stated with: the invariant of every step, what raising an event
or delivering a record may touch, and a command that passes every check. -/

namespace Sys2Proof.Machine

/-- The canonical form of the SRAM: indices strictly rise and no entry is the word an unlisted index reads as. -/
def Memory.wf (m : List (Nat × Stored)) : Bool := twf (fun _ => 0#43) m

/-- What every step keeps: the SRAM and the registers are held in canonical form, and device time is the floor of R41 with the sub-tick
accumulator the remainder. -/
def State.Inv (s : State) : Prop :=
  Memory.wf s.mem = true ∧ twf regReset s.regs = true
    ∧ s.acc = s.cycle * 268435456 % 639375 ∧ s.dt = dtOfCycle s.cycle

/-- A step that stops at neither a fault nor a refusal. -/
def NoStop (o : Host.Outcome State Fault Refusal) : Prop := ∃ t, o = .next t

/-- The state an access works on: a PCI Express access drops the dwords its link held (R415, R416). -/
def State.onBus (s : State) (src : Src) : State := if src = .pcie then linkClear s else s

/-- The state without what raising an event or delivering a record may change: registers and SRAM (spoken of apart), what was sent
out, the moderation of rings, rate limits, waiting messages and byte remainders, the lists of Provenance entries and console lines,
and the hidden state of banks. -/
def State.still (s : State) : State :=
  { s with
    regs := [], mem := [], out := [], ringH := [], rate := [], bankH := []
    hif := { s.hif with txRem := 0, msixPend := [] }
    cur := { s.cur with provQ := [], consoleQ := [], provLost := 0, provMark := false } }

/-- The registers that delivering a record to ring `q` may change. -/
def ringRegs (q : Nat) : List Nat :=
  [R.RING_STATE q, R.RING_PROD q, R.RING_DROP_CNT q, R.RING_STATUS q, R.RING_OCC_MAX q, R.HIF_VEC_CNT q, R.HIF_VEC_LAT q]

/-- The registers that raising an event may change, ring 2 apart. -/
def evRegs : List Nat :=
  [R.HIF_STATUS, R.HIF_ALERT_STAT, R.HIF_ACC_NEXT, R.HIF_DMA_ERR_LO, R.HIF_DMA_ERR_HI, R.HIF_DMA_ERR_INFO, R.HIF_MISROUTE_CNT,
   R.HIF_TX_CNT, R.HIF_EVT_CNT, R.HIF_RING_ON, R.HIF_RING_HALT, R.HIF_RING_IRQ, R.HIF_RING_FULL, R.HIF_VEC_CNT 32, R.HIF_VEC_CNT 33,
   R.CUR_STATUS, R.CUR_PROV_LOST_CNT, R.MEM_STATUS, R.MEM_VAULT_WIPE_CNT, R.MEM_FLIP_ARM]

/-- A register that raising an event or delivering a record to ring `q` may change. -/
def evReg (q o : Nat) : Bool :=
  evRegs.contains o || (ringRegs 2).contains o || (ringRegs q).contains o
    || (List.range 16).any (fun b => o == R.BANK_STATE b || o == R.BANK_STATUS b)

/-- A word of SRAM that raising an event or delivering a record may change: the Accession log in bank 15 and, in SPI mode, the shared
store, where the rings lie. -/
def evWord (s : State) (k : Nat) : Bool :=
  decide (kBank 15 0 ≤ k ∧ k < kBank 16 0) || (s.spiMode && decide (k < 4194304))

/-- In SPI mode the ring lies inside the shared store, as R427 asks when it is enabled. -/
def State.ringInside (s : State) (q : Nat) : Prop :=
  s.spiMode = true → s.ringBase q + s.ringSize q * (s.ringEntry q / 8) ≤ 4194304

/-- `t` differs from `s` only in what raising events and delivering records to ring `q` may change. -/
def Quiet (q : Nat) (s t : State) : Prop :=
  t.still = s.still ∧ (∀ o, evReg q o = false → t.reg o = s.reg o)
    ∧ (s.ringInside 2 → s.ringInside q → ∀ k, evWord s k = false → t.stored k = s.stored k)

/-- The state in which the entry at the head of ring 0 has been read: in SPI mode its words are read from the shared store (R422). -/
def entryRead (op : Nat) (p : Packet) (s : State) : State := if s.spiMode then (spiEntry op p s).2 else s

/-- The state in which that entry has been consumed and counted (R436). -/
def entryTaken (op : Nat) (p : Packet) (s : State) : State := (ringConsume 0 (entryRead op p s)).cnt R.HIF_CMD_CNT

/-- A command entry `p` of a command `c` that is not stamped and passes phases A and B of R447 in state `s`: `h` is the command as read, with the
words of its buffer and the boundary that its kind fixes, and `u` the state then. -/
structure Admitted (c : CmdSpec) (p : Packet) (s : State) (h : HeldCmd) (u : State) : Prop where
  booted : s.booted = true
  ready : s.ringReady 0 = true
  entry : s.spiMode = true → (spiEntry c.op p s).1 = true
  header : phaseA c p (entryTaken c.op p s) = 0
  buffer : phaseB c p (entryTaken c.op p s) = (0, [], h.pk, u)
  command : h = ⟨c.op, h.pk, (entryRead c.op p s).rf (R.RING_CONS 0) 16 0, false, false, (entryRead c.op p s).dt, c.units p, c.bnd h.pk false u⟩
  now : h.pk.atEpoch = false

/-- That command meets its boundary in the step that consumes it, and no check of phase C refuses it (R438, R442, R447, R545). -/
structure Passes (c : CmdSpec) (p : Packet) (s : State) (h : HeldCmd) (u : State) : Prop extends Admitted c p s h u where
  free : cmdWaits c h u = false
  allowed : firstStatus (chkCommon c h u ++ c.chk h u) = 0

/-- The command `h` is the one of those that wait whose boundary is the next to be met in state `s`, `u` is that state without it, and no check of
phase C refuses it (R438, R440, R442, R447). -/
structure Due (c : CmdSpec) (s : State) (h : HeldCmd) (u : State) : Prop where
  booted : s.booted = true
  first : earliest s (pendReady s [] s.cmdPend) = some h
  spec : cmdSpecOf h.op = some c
  rest : u = { s with cmdPend := s.cmdPend.erase h }
  allowed : firstStatus (chkCommon c h u ++ c.chk h u) = 0

/-- The command of a row that waits for its boundary is held, and gives `t` in the step of PENDING_COMMAND_DUE (R438 to R442). -/
def Waits (row : Packet → Instr) (c : CmdSpec) (h : HeldCmd) (u t : State) : Prop :=
  (∀ p s, Admitted c p s h u → cmdWaits c h u = true → exec (row p) s = .next { u with cmdPend := u.cmdPend ++ [h] })
    ∧ ∀ s, Due c s h u → exec .pendingCommandDue s = .next (resetCheck (heldAfter h (h.n s) t))

/-- The command of a row that meets its boundary in state `u` gives `t`: in the step that consumes it, or, where it waits for its boundary, in the step
of PENDING_COMMAND_DUE (R436 to R442). -/
def Takes (row : Packet → Instr) (c : CmdSpec) (h : HeldCmd) (u t : State) : Prop :=
  (∀ p s, Passes c p s h u → exec (row p) s = .next t) ∧ Waits row c h u t

/-- Core `c` issues the word `w` at its pc in state `s`: the core may issue, the fetch gives that word and state `u`, and no armed budget is
used up (R362, R367). -/
structure Issues (c : Fin 19) (w : Word) (s u : State) : Prop where
  live : (s.core c).live = true
  fetch : apFetch c (s.core c) (s.core c).pc s = (u, .word w)
  budget : ((landDue (s.core c)).budgeted && (landDue (s.core c)).budget == 0) = false

/-- The step in which core `c`, with registers `x` as its instruction issued in state `u`, completes it with registers `y` and state `t`: counted, the
products in flight older by one, a repetition one iteration on. -/
def completes (c : Fin 19) (x y : ApCore) (u t : State) : Host.Outcome State Fault Refusal := .next (apPut c u (apDone x y) t)

end Sys2Proof.Machine
end

