-- ==== Sys2Proof/Certificates/Slice0/Obligations.lean ====
section
/-! DEFINITION. Obligations.lean: the statements for the provers, from the spec's numbered rules. -/

open Sys2Proof Sys2Proof.Machine

/-! ## The block: its queue, reset, the invariant -/

/-- A step takes the command at the front of the queue and runs it on the state with the queue's rest; on an empty queue the block
idles (the idling is the model's choice, notes/assumptions/1.md). -/
def Obligations.StepRunsFrontCommand : Prop :=
  (∀ (c : Instr) (rest : List Instr) (s : State), s.pending = c :: rest → step s = exec c { s with pending := rest })
    ∧ ∀ s : State, s.pending = [] → step s = .next s

/-- Reset leaves device time and the sub-tick accumulator zero (R40, R41), every register at its reset value, every ring OFF and empty,
every SRAM word zero data with valid check bits (R401), bank 15 with the Curator and every other bank with NONE, and nothing waiting. The model's choices in it: notes/assumptions 6.md, 7.md. -/
def Obligations.ResetLeavesStatedValues : Prop :=
  State.reset.pending = [] ∧ State.reset.cmdPend = [] ∧ State.reset.cmdPark = [] ∧ State.reset.out = []
    ∧ State.reset.dt = 0 ∧ State.reset.acc = 0 ∧ State.reset.cycle = 0
    ∧ (∀ o : Nat, State.reset.reg o = regReset o)
    ∧ (∀ q : Fin 32, State.reset.ringState q = 0 ∧ State.reset.ringOcc q = 0)
    ∧ (∀ k : Nat, State.reset.stored k = eccEnc 0 ∧ State.reset.peek k = 0)
    ∧ (∀ b : Fin 16, State.reset.rf (R.BANK_OWNER b) 5 0 = if b = 15 then 2 else 0)
    ∧ State.reset.reg R.GLB_DT_SEC = 0

/-- The state at reset has the invariant. -/
def Obligations.InvariantHoldsAtReset : Prop := State.reset.Inv

/-- Every step that answers a next state keeps the invariant: the SRAM and the registers stay in canonical form, device time is the
floor of R41 and the sub-tick accumulator its remainder. -/
def Obligations.EveryStepKeepsInvariant : Prop :=
  ∀ s t : State, s.Inv → step s = .next t → t.Inv

/-! ## Accesses of the host links and the cores (R9, R10, R377, R386, R412 to R420, R513 to R520) -/

/-- A whole write that passes the checks of R515 to a register with no action of its own replaces its RW fields, clears the W1C bits written
1 and leaves every other bit, register and word of memory as it was. The high dword held for the link is dropped. A write whose value is reserved is discarded (R515): no register changes but GLB_RESVAL_CNT, which counts it, and the three that
capture the first such write. Until HIF_BOOT.DONE is set, a write to any register outside blocks 0, 1 and 8 is such a write (R516). The model's choices in it: notes/assumptions 25.md. -/
def Obligations.RegisterWritesReplaceOrAreDiscarded : Prop :=
  (∀ (src : Src) (slot : BitVec 14) (v : BitVec 64) (l : RegLoc) (s : State),
    s.srcLive src = true → regAt (slotOff slot) = some l → l.blk ∈ [Blk.glb, Blk.cur, Blk.tpc, Blk.cap, Blk.cal, Blk.sol] → (l.blk = .cap → slotOff slot ≠ R.CAP_CFG l.unit) →
    writeBad (slotOff slot) l (wd v.toNat) s = false → l.row.rw ||| l.row.w1c ||| l.row.wo ≠ 0 →
    ∃ t, exec (.registerWrite src slot .qword v) s = .next t
      ∧ (∀ i, i < 36 → bit (t.reg (slotOff slot)) i
          = if tbit l.row.rw i then v.getLsbD i else if tbit l.row.w1c i then bit (s.reg (slotOff slot)) i && !v.getLsbD i
            else bit (s.reg (slotOff slot)) i)
      ∧ (∀ o, o ≠ slotOff slot → t.reg o = s.reg o)
      ∧ { t with regs := s.regs, hif := s.hif } = s ∧ { t.hif with hiSlot := s.hif.hiSlot, hiBits := s.hif.hiBits, loSlot := s.hif.loSlot, loBits := s.hif.loBits } = s.hif)
  ∧ (∀ (src : Src) (slot : BitVec 14) (v : BitVec 64) (l : RegLoc) (s : State),
    s.srcLive src = true → regAt (slotOff slot) = some l →
    writeBad (slotOff slot) l (wd v.toNat) s = true ∨ s.booted = false ∧ blkIndex (slotOff slot) ∉ [0, 1, 8] →
    ∃ t, exec (.registerWrite src slot .qword v) s = .next t
      ∧ t.reg R.GLB_RESVAL_CNT = bump (s.reg R.GLB_RESVAL_CNT) 1
      ∧ (bit (s.reg R.GLB_RESVAL) 35 = false →
          t.reg R.GLB_RESVAL = wd (34359738368 + srcCode src * 4294967296 + slotOff slot) ∧ t.reg R.GLB_RESVAL_DATA = wd v.toNat
            ∧ t.reg R.GLB_RESVAL_SEC = dtSec s.dt)
      ∧ (∀ o, o ∉ [R.GLB_RESVAL_CNT, R.GLB_RESVAL, R.GLB_RESVAL_DATA, R.GLB_RESVAL_SEC] → t.reg o = s.reg o)
      ∧ t.mem = s.mem ∧ t.out = s.out)

/-- A whole read of a register with an RC field returns its value and clears it; nothing else changes but the marks the link holds (R9, R10). A read of GLB_DT_SEC holds, for its requester alone, DT_SEC, DT_FRAC and the sub-tick accumulator of that sample cycle, which its reads
of GLB_DT_FRAC and GLB_DT_SUB then return (R519); a read of GLB_LASTEVT0 holds the newest event record of the Accession log (R520). Both
change no register and no memory. The model's choices in it: notes/assumptions 23.md, 24.md. -/
def Obligations.ReadsHaveTheirSideEffects : Prop :=
  (∀ (src : Src) (slot : BitVec 14) (l : RegLoc) (s : State),
    s.srcLive src = true → regAt (slotOff slot) = some l → l.row.rc = true →
    ∃ t, exec (.registerReadClear src slot .qword) s = .next t
      ∧ t.out = Out.readData src (viewWord src (slotOff slot) l (s.onBus src)) :: s.out
      ∧ t.reg (slotOff slot) = 0 ∧ (∀ o, o ≠ slotOff slot → t.reg o = s.reg o) ∧ t.mem = s.mem)
  ∧ ((∀ (src : Src) (s : State), s.srcLive src = true → s.smpState ≠ 0 →
    ∃ t, exec (.glbDtSecRead src .qword) s = .next t
      ∧ t.out = Out.readData src (dtSec s.dt) :: s.out
      ∧ t.dtSnapOf src = ⟨dtSec s.dt, dtFrac s.dt, wd s.acc⟩
      ∧ (∀ u, srcKey u ≠ srcKey src → t.dtSnapOf u = s.dtSnapOf u)
      ∧ t.regs = s.regs ∧ t.mem = s.mem)
  ∧ (∀ (src : Src) (s : State), s.srcLive src = true →
    ∃ t, exec (.registerReadClear src (BitVec.ofNat 14 (R.GLB_DT_FRAC / 8)) .qword) s = .next t
      ∧ t.out = Out.readData src (s.dtSnapOf src).frac :: s.out ∧ t.dtSnap = s.dtSnap)
  ∧ ∀ (src : Src) (s : State), s.srcLive src = true →
      ∃ t, exec (.glbLastevt0Read src .qword) s = .next t
        ∧ t.evtSnapOf src = newestEvent s ∧ t.out = Out.readData src ((newestEvent s).getD 0 0) :: s.out
        ∧ t.regs = s.regs ∧ t.mem = s.mem)

/-- A high dword written for a slot and then its low dword act as one write of the 36 bits (R416): the high dword write changes nothing but
what the link holds, and the low dword write that follows answers what a whole write of both answers. -/
def Obligations.DwordPairActsAsWholeWrite : Prop :=
  ∀ (slot : BitVec 14) (hi lo : BitVec 32) (s : State),
    s.srcLive .pcie = true → msixOff (slotOff slot) = false →
    ∃ t, exec (.highDwordWrite false (slot.setWidth 22) hi) s = .next t
      ∧ t.hif.hiSlot = some (slotOff slot) ∧ t.hif.hiBits = hi.toNat % 16
      ∧ { t with hif := { t.hif with hiSlot := s.hif.hiSlot, hiBits := s.hif.hiBits, loSlot := s.hif.loSlot, loBits := s.hif.loBits } } = s
      ∧ exec (.registerWrite .pcie slot .loDword (lo.setWidth 64)) t = exec (.registerWrite .pcie slot .qword (hi ++ lo)) s

/-- An access of less than a dword that writes is discarded (R417), and an access to an undefined offset reads zero or is discarded (R513): the
first counts HIF_PARTIAL_CNT, sets PARTIAL and raises event 0x048; the second counts GLB_UNDEF_CNT and captures the first such access. -/
def Obligations.PartialAndUndefinedAccesses : Prop :=
  (∀ (bar2 : Bool) (slot : BitVec 22) (hi : Bool) (be : BitVec 4) (s : State), s.srcLive .pcie = true → be ≠ 15#4 →
    exec (.partialAccess bar2 slot hi be true) s
      = .next (raise 0x048 1 uHif [wd (if bar2 then 2 else 0), wd (8 * (if bar2 then slot.toNat else slot.toNat % 16384) + (if hi then 4 else 0))]
          (((linkClear s).cnt R.HIF_PARTIAL_CNT).sticky R.HIF_STATUS 3)))
  ∧ ∀ (src : Src) (slot : BitVec 14) (write : Bool) (v : BitVec 64) (s : State), s.srcLive src = true →
      regAt (slotOff slot) = none → msixOff (slotOff slot) = false →
      ∃ t, exec (.undefinedOffsetAccess src slot .qword write v) s = .next t
        ∧ t.reg R.GLB_UNDEF_CNT = bump (s.reg R.GLB_UNDEF_CNT) 1
        ∧ (bit (s.reg R.GLB_UNDEF_ADDR) 35 = false →
            t.reg R.GLB_UNDEF_ADDR = wd (34359738368 + srcCode src * 4294967296 + b2n write * 2147483648 + slotOff slot)
              ∧ t.reg R.GLB_UNDEF_DATA = (if write then wd v.toNat else 0) ∧ t.reg R.GLB_UNDEF_SEC = dtSec s.dt)
        ∧ t.out = (if write then s.out else Out.readData src 0 :: s.out)
        ∧ (∀ o, o ∉ [R.GLB_UNDEF_CNT, R.GLB_UNDEF_ADDR, R.GLB_UNDEF_DATA, R.GLB_UNDEF_SEC] → t.reg o = s.reg o) ∧ t.mem = s.mem

/-- On a bank on loan to HOST that is active and ON, with no test or flip pending, a host write through BAR2 stores all 36 bits with valid check bits and
leaves every other word as it was (R377); a host read returns the word held (R386). A BAR2 access to a bank that is not on loan to HOST is a bus error (R386): a read completes poisoned and a write is discarded, counted in
MEM_HOST_DISCARD_CNT and raises event 0x90D; no word of the bank changes. The model's choices in it: notes/assumptions 26.md. -/
def Obligations.HostAccessesSharedStore : Prop :=
  (∀ (a : BitVec 22) (s : State), s.srcLive .pcie = true →
    s.rf (R.BANK_OWNER (a.toNat / 262144)) 5 0 = 1 → s.bankStage (a.toNat / 262144) = 0 → s.bankPower (a.toNat / 262144) = 0 →
    (s.bh (a.toNat / 262144)).wiping = none → s.cons.borrowed = none → s.isRetired (uRegion a.toNat) = false →
    bit (s.reg R.MEM_FLIP_ARM) (a.toNat / 262144) = false →
    (∀ v : BitVec 64, ∃ t, exec (.bar2Write a .qword v) s = .next t
        ∧ t.peek a.toNat = wd v.toNat ∧ t.stored a.toNat = eccEnc (wd v.toNat)
        ∧ (∀ k, k ≠ a.toNat → t.stored k = s.stored k) ∧ t.regs = s.regs ∧ t.out = s.out)
    ∧ (∀ d : Word, eccDec (s.stored a.toNat) = .clean d →
        ∃ t, exec (.bar2Read a .qword) s = .next t ∧ t.out = Out.readData .pcie d :: s.out ∧ t.mem = s.mem ∧ t.regs = s.regs))
  ∧ (∀ (a : BitVec 22) (s : State), s.srcLive .pcie = true →
    s.rf (R.BANK_OWNER (a.toNat / 262144)) 5 0 ≠ 1 →
    exec (.bar2Read a .qword) s = .next ((nonOwner (a.toNat / 262144) (a.toNat % 262144) uPcie (linkClear s)).emit .poisoned)
    ∧ ∀ v : BitVec 64, exec (.bar2Write a .qword v) s
        = .next (raise 0x90D 2 (uBank (a.toNat / 262144)) [wd (a.toNat / 262144), wd (a.toNat % 262144)]
            (((((nonOwner (a.toNat / 262144) (a.toNat % 262144) uPcie (linkClear s)).cnt R.MEM_HOST_DISCARD_CNT).sticky R.MEM_STATUS 9).cnt
              R.HIF_AER_CNT).emit .aer)))

/-- SPI frames of whole units (R418, R419, R420): a register write commits each unit to its slot in order; a register read returns the slots in
order with their side effects; word writes and reads go to the shared store as requester HOST; a status read returns the status byte and clears
ERR; a frame with an unknown command byte or a bad address is ignored, counted, and raises event 0x04A. The model's choices in it: notes/assumptions 27.md. -/
def Obligations.SpiFramesAct : Prop :=
  ∀ s : State, s.srcLive .spi = true →
    (∀ (addr : BitVec 24) (u v : BitVec 40), addr.toNat + 8 < 0x20000 → addr.toNat % 8 = 0 → msixOff addr.toNat = false → msixOff (addr.toNat + 8) = false →
      u.extractLsb' 36 4 = 0#4 → v.extractLsb' 36 4 = 0#4 →
      exec (.spiRegisterWrite addr [u, v]) s = .next (regWrite .spi (addr.toNat + 8) (v.setWidth 36) (regWrite .spi addr.toNat (u.setWidth 36) s)))
    ∧ (∀ addr : BitVec 24, addr.toNat < 0x20000 → addr.toNat % 8 = 0 → msixOff addr.toNat = false →
      exec (.spiRegisterRead addr 1) s = .next ((regRead .spi addr.toNat s).2.emit (.spiData 0 (regRead .spi addr.toNat s).1)))
    ∧ (∀ addr : BitVec 24, addr.toNat < 4194304 → s.rf (R.BANK_OWNER (addr.toNat / 262144)) 5 0 = 1 → s.bankStage (addr.toNat / 262144) = 0 →
        s.bankPower (addr.toNat / 262144) = 0 → (s.bh (addr.toNat / 262144)).wiping = none → s.cons.borrowed = none →
        s.isRetired (uRegion addr.toNat) = false → bit (s.reg R.MEM_FLIP_ARM) (addr.toNat / 262144) = false →
      (∀ u : BitVec 40, u.extractLsb' 36 4 = 0#4 → exec (.spiWordWrite addr [u]) s = .next (s.putStored addr.toNat (eccEnc (u.setWidth 36))))
      ∧ ∀ d : Word, eccDec (s.stored addr.toNat) = .clean d → exec (.spiWordRead addr [true]) s = .next (s.emit (.spiData 0 d)))
    ∧ (∃ t b, exec .spiStatusRead s = .next t ∧ t = { s with hif := { s.hif with spiErr := false } }.emit (.spiStatus b)
        ∧ b.getLsbD 7 = s.booted ∧ b.getLsbD 6 = !s.alertN ∧ b.getLsbD 5 = s.hif.spiErr ∧ b.extractLsb' 0 4 = BitVec.ofNat 4 s.hif.spiSub)
    ∧ ∀ (cmd : BitVec 8) (addr : BitVec 24), cmd ∉ [0x0B#8, 0x02#8, 0x1B#8, 0x12#8, 0x05#8] →
        exec (.spiFrameRefused cmd addr) s
          = .next (raise 0x04A 1 uSpi [wd cmd.toNat, wd addr.toNat]
              ((((s.cnt R.HIF_SPI_ERR_CNT).setReg R.HIF_SPI_STAT (wd cmd.toNat)).sticky R.HIF_STATUS 5).emit .spiIgnored))

/-- The PCI Express link and its resets (R412, R413, R414): unmasking a vector with a pending message sends it; the link going down is counted and
raises event 0x046; coming up it raises 0x047 with its speed and width; a function-level reset and PERST_N return the host interface and the rings
to their reset values but for MODE, BOOT, ACC_NEXT, LINK_STAT and FLR_CNT, count FLR_CNT and raise 0x045. The model's choices in it: notes/assumptions 11.md, 29.md. -/
def Obligations.LinkEventsAct : Prop :=
  ∀ s : State, s.spiMode = false → s.pwr.inReset = false →
    (∀ v : Fin 34, s.linkUp = true → tget (fun _ => false) s.hif.msixPend v = true →
      ∃ t, exec (.msixVectorUnmask v) s = .next t ∧ t.out = Out.msi v :: s.out ∧ t.msixMasked v = false
        ∧ tget (fun _ => false) t.hif.msixPend v = false ∧ t.regs = s.regs ∧ t.mem = s.mem)
    ∧ (s.linkUp = true → exec .linkDown s
        = .next (raise 0x046 2 uPcie [] (alertSet 1 (((s.setReg R.HIF_LINK_STAT 0).cnt R.HIF_LINK_DOWN_CNT).sticky R.HIF_STATUS 2))))
    ∧ (∀ speed width : Fin 3, s.linkUp = false → exec (.linkUp speed width) s
        = .next (msixFlush (List.range 34) (raise 0x047 1 uPcie [wd (speed.val + 1), wd (2 ^ width.val)]
            (s.setReg R.HIF_LINK_STAT (wd (2 ^ width.val * 16 + (speed.val + 1) * 4 + 1))))))
    ∧ (s.linkUp = true → ∃ t u, exec .functionLevelReset s = .next t ∧ t = raise 0x045 1 uPcie [0] u
        ∧ (∀ o, u.reg o = if o = R.HIF_FLR_CNT then s.reg o + 1 else if hifCleared o then regReset o else s.reg o)
        ∧ u.ringH = [] ∧ u.hif = .reset ∧ u.mem = s.mem ∧ u.dt = s.dt ∧ u.chans = s.chans)
    ∧ (s.linkUp = false → ∃ t u, exec (.perstN false) s = .next t ∧ t = raise 0x045 1 uPcie [1] u
        ∧ (∀ o, u.reg o = if o = R.HIF_FLR_CNT then s.reg o + 1 else if hifCleared o then regReset o else s.reg o)
        ∧ u.ringH = [] ∧ u.hif = .reset ∧ u.mem = s.mem)

/-! ## Resets and boot (R461, R462, R487, R499 to R503) -/

/-- With no settings in force (as in the model's reset state, log entry 8), a reset ends in boot complete: the power-on release boots from a power-on or supply reset, WARM_RESET from a
warm reset that RESET_N does not hold, and RESET_N_RELEASE from one that it holds; device time stays as the reset left it. Ten seconds of device time after boot complete the boot is confirmed (R487): the attempt count of the slot running is cleared, TRIAL cleared and
CONFIRMED set, event 0xA06 raised, and the boot record written. The model's choices in it: notes/assumptions 9.md, 10.md, 12.md. -/
def Obligations.ResetReleaseBootsAndConfirms : Prop :=
  (∀ (bad : List Nat) (catOk : Bool) (s : State), s.settings = [] →
    (∀ hostsel bootsel iob33 : Bool, s.pwr.inReset = true → s.pwr.warmHeld = false →
      ∃ t, exec (.powerOnResetRelease hostsel bootsel iob33 bad) s = .next t ∧ t.booted = true ∧ t.pwr.inReset = false
        ∧ t.dt = s.dt ∧ t.cur.bootDone = some s.dt ∧ t.pending = s.pending)
    ∧ (∀ c, s.cur.resetReq = some c → c ≠ 2 → s.pwr.inReset = false → s.pwr.warmHeld = true →
      ∃ t, exec (.warmReset bad catOk) s = .next t ∧ t.booted = true ∧ t.pwr.warmHeld = false ∧ t.dt = s.dt
        ∧ t.cur.bootDone = some s.dt ∧ t.pending = s.pending)
    ∧ (s.cur.resetReq = some 2 → s.pwr.inReset = false → s.pwr.warmHeld = true →
      ∃ t, exec (.resetNRelease bad catOk) s = .next t ∧ t.booted = true ∧ t.pwr.warmHeld = false ∧ t.dt = s.dt
        ∧ t.cur.bootDone = some s.dt ∧ t.pending = s.pending))
  ∧ (∀ (d : Dt) (s : State), s.cur.bootDone = some d → s.booted = true → s.cur.confirmed = false → tenSecSince d s.dt = true →
    s.cur.runningRom = false → s.cur.running < 2 → (s.slot s.cur.running).arb ≤ s.fuses.arb →
    exec .bootConfirm s = .next (bootQueue (fwStat (raise 0xA06 1 uCur [wd s.cur.running, wd (s.rf R.GLB_FW_VER 31 0)]
      ((setAttempts s.cur.running 0 { s with cur := { s.cur with confirmed := true } }).setF R.CUR_BOOT 13 12 1)))))

/-- RESET_N held low and the watchdog's expiry begin a warm reset of causes 2 and 4 (R463, R501, R502): device time, the memories outside the
Accession log, the sample synthesiser, the Catalogue, the store and the fuses stay; the rings go OFF, the cores stop, the channels and the
commands held are gone, and boot is no longer complete. The model's choices in it: notes/assumptions 10.md, 11.md. -/
def Obligations.WarmResetKeepsAndClears : Prop :=
  ∀ (s : State), s.pwr.inReset = false → s.pwr.warmHeld = false →
    ∀ p ∈ [(Instr.resetNAssert, 2), (Instr.watchdogExpiry, 4)],
      ∃ t, exec p.1 s = .next t ∧ t.pwr.warmHeld = true ∧ t.cur.resetReq = some p.2 ∧ t.booted = false
        ∧ t.dt = s.dt ∧ t.acc = s.acc ∧ t.cycle = s.cycle ∧ t.smp = s.smp ∧ t.sol.cat = s.sol.cat ∧ t.fuses = s.fuses
        ∧ t.nvs.slotA = s.nvs.slotA ∧ t.nvs.slotB = s.nvs.slotB
        ∧ (∀ k, k < kBank 15 0 ∨ kBank 16 0 ≤ k → t.stored k = s.stored k)
        ∧ (∀ q : Fin 32, t.ringState q = 0) ∧ (∀ i : Fin 16, t.reg (R.GLB_SCRATCH i) = s.reg (R.GLB_SCRATCH i))
        ∧ t.cores = [] ∧ t.chans = [] ∧ t.cmdPend = [] ∧ t.cmdPark = [] ∧ t.pending = s.pending

/-- A rail below its reset level acts as a power-on reset after a hardware Provenance entry (R501, R503): every register and memory word returns to
its reset value, device time to zero; the fuses stay, and the entry written names cause 1 and the rail. The model's choices in it: notes/assumptions 17.md. -/
def Obligations.SupplyResetActsAsPowerOn : Prop :=
  ∀ (rail : Fin 9) (s : State), s.pwr.inReset = false → rail ≠ 4 → s.booted = true →
    ∃ t, exec (.supplyReset rail) s = .next t ∧ t.pwr.inReset = true ∧ t.pwr.cause = 1 ∧ t.pwr.rail = some rail.val
      ∧ t.regs = [] ∧ t.mem = [] ∧ t.dt = 0 ∧ t.acc = 0 ∧ t.cycle = 0 ∧ t.cores = [] ∧ t.chans = [] ∧ t.cmdPend = [] ∧ t.cmdPark = []
      ∧ t.fuses = s.fuses ∧ t.pending = s.pending
      ∧ ∃ e, (t.cur.provRing.find? (fun p => p.1 == (s.reg R.CUR_PROV_SEQ).toNat % 1024)) = some ((s.reg R.CUR_PROV_SEQ).toNat % 1024, e)
          ∧ e.words.drop 4 = [1, wd rail.val, 0, 0] ∧ e.pseq = s.reg R.CUR_PROV_SEQ

/-! ## The Curator (R464 to R491, R504, R505, R530) -/

/-- The Curator's measurements (R314, R464 to R469): a sample of the sensors counts a millisecond of powered time, records the temperatures, the supplies
and the readings the front ends and the reference give, then applies the rules of Tj, of shutdown and of temperature recalibration; ageing monitors are
recorded with the temperature of the moment; TPC_DFIX and TPC_DIN follow sensor 11, or hold 1500 and 900 ps without factory data. A reading is recorded clamped to its sensor's range (R465): CUR_S_VAL takes VALID, RANGE when it was clamped, its level and the clamped value, and a
reading out of range raises event 0xA19. The model's choices in it: notes/assumptions 5.md, 18.md. -/
def Obligations.CuratorMeasuresAndClamps : Prop :=
  (∀ s : State, s.booted = true →
    (∀ (temps : List Int) (mv : List Nat), exec (.sensorSample temps mv) s
      = .next (tempRecal 3 (tempRecal 2 (tempRecal 1 (tempRecal 0 (thermShut (thermTj
          (let u := [0, 1, 2, 3].foldl (fun a n => sensorPut (26 + n) 0 0 65535 (a.rf (R.FE_BIAS_STAT n) 15 0) a) (supplyPut 12 mv (tempPut 0 temps (poweredTick s)))
           sensorPut 30 0 0 65535 (u.rf R.SYN_REF_EST 15 0) u))))))))
    ∧ (∀ vals : List Nat, bit (s.reg (R.CUR_S_VAL 31)) 35 = false →
      exec (.ageingMeasure vals) s
        = .next { ageingPut 31 vals s with cur := { (ageingPut 31 vals s).cur with ageTemp := wd ((ageingPut 31 vals s).rf R.CUR_THERM_STAT 11 0) } })
    ∧ (s.facValid = false → ∃ t, exec .tpcDelayRefresh s = .next t ∧ t.reg R.TPC_DFIX = 1500 ∧ t.reg R.TPC_DIN = 900
        ∧ (∀ o, o ≠ R.TPC_DFIX → o ≠ R.TPC_DIN → t.reg o = s.reg o) ∧ { t with regs := s.regs } = s)
    ∧ (s.facValid = true → ∃ t, exec .tpcDelayRefresh s = .next t
        ∧ t.reg R.TPC_DFIX = wd (bitsS 16 (delayAt (Config.factory 4 10 0) (Config.factory 4 11 0) (s.tempOf 11)))
        ∧ t.reg R.TPC_DIN = wd (bitsS 16 (delayAt (Config.factory 4 12 0) (Config.factory 4 13 0) (s.tempOf 11)))
        ∧ (∀ o, o ≠ R.TPC_DFIX → o ≠ R.TPC_DIN → t.reg o = s.reg o) ∧ { t with regs := s.regs } = s))
  ∧ (∀ (i level : Nat) (lo hi v : Int) (s : State), i < 47 → level < 4 → lo ≤ hi → (i < 12 → -2048 ≤ lo ∧ hi ≤ 2047) → (12 ≤ i → 0 ≤ lo ∧ hi < 2 ^ 20) →
    (sensorPut i level lo hi v s).reg (R.CUR_S_VAL i)
        = wd (34359738368 + b2n (max lo (min v hi) != v) * 17179869184 + level * 4294967296
            + (if i < 12 then bitsS 12 (max lo (min v hi)) else (max lo (min v hi)).toNat))
      ∧ ((lo ≤ v ∧ v ≤ hi) → ∀ o, o ≠ R.CUR_S_VAL i → o ≠ R.CUR_S_EXT i → (sensorPut i level lo hi v s).reg o = s.reg o))

/-- The store (R472 to R484): a queued Provenance entry is written at PSEQ with the next PSEQ following; a record write that completes makes the new
version of the copy not in force valid and starts the next write; a sector refresh marks its sector; a due ageing entry is written to the history ring. The model's choices in it: notes/assumptions 12.md, 19.md, 65.md. -/
def Obligations.StoreRowsAct : Prop :=
  ∀ s : State, s.booted = true →
    (∀ (e : ProvEntry) (q : List ProvEntry), s.cur.provQ = e :: q → e.lost = false →
      exec .provenanceWrite s = .next (provStore e { s with cur := { s.cur with provQ := q } }))
    ∧ (∀ (w : NvsWrite) (ws : List NvsWrite), s.nvs.writes = w :: ws → w.begun = true →
      ∃ t, exec .nvsWriteComplete s = .next t ∧ t.nvsRec w.kind = (s.nvsRec w.kind).write w.body
        ∧ (∀ k, k ≠ w.kind → t.nvsRec k = s.nvsRec k) ∧ t.nvs.writes.length = ws.length)
    ∧ (s.storeBusy = false → s.refreshed < (s.reg R.CUR_POWERED).toNat / 61440 → s.rf R.CUR_REFRESH 9 0 < 1023 →
      exec (.nvsSectorRefresh none) s
        = .next (bootQueue ((({ s with cur := { s.cur with refreshPart := s.rf R.CUR_REFRESH 9 0 } }).sticky
            (R.CUR_REFRESHED (s.rf R.CUR_REFRESH 9 0 / 32)) (s.rf R.CUR_REFRESH 9 0 % 32)).setF R.CUR_REFRESH 9 0 (s.rf R.CUR_REFRESH 9 0 + 1))))
    ∧ (histLast 1 s / 31536000 < (s.reg R.CUR_POWERED).toNat / 31536000 →
      ∃ u, exec .historyEntry s = .next (raise 0xA18 0 uCur [wd ((s.reg R.CUR_POWERED).toNat / 31536000)] u)
        ∧ tget (fun _ => ([] : List Word)) u.cur.hist s.cur.histNext
            = histHead 1 s.cur.tjSum s.cur.tjCnt s ++ (List.range 16).map (fun i => wd (s.rf (R.CUR_S_VAL (31 + i)) 19 0))
        ∧ u.cur.histNext = (s.cur.histNext + 1) % 728 ∧ u.cur.tjSum = 0 ∧ u.cur.tjCnt = 0 ∧ u.regs = s.regs ∧ u.mem = s.mem)

/-- The tamper filter, the console and the supply-warning intervals (R491, R504, R505, R530): TAMPER_N low past its filter is counted, wipes the
Vault banks and raises event 0xA17; the console sends its oldest line; a rail below its warning level opens an interval with event 0xA20 and its
recovery closes it with event 0xA21 and lets the store go on when no rail is low any more. A supply warning of VDD_CORE between 0.62 V and 0.65 V stops the model, since no result is guaranteed there (R497). The model's choices in it: notes/assumptions 35.md, 36.md. -/
def Obligations.CuratorPinsAndSupplies : Prop :=
  (∀ s : State, s.pwr.inReset = false →
    (s.cur.tamperPassed = false → ∃ u, exec (.tamperFilterPass false) s = .next (raise 0xA17 4 uCur [wd (vaultMask u)] (vaultWipeAll 1 u))
        ∧ u.cur = { s.cur with tamperPassed := true } ∧ u.rf R.CUR_TAMPER 34 0 = min (s.rf R.CUR_TAMPER 34 0 + 1) 34359738367
        ∧ bit (u.reg R.CUR_TAMPER) 35 = false ∧ bit (u.reg R.CUR_STATUS) 7 = true ∧ (∀ o, o ≠ R.CUR_TAMPER → o ≠ R.CUR_STATUS → u.reg o = s.reg o)
        ∧ { u with regs := s.regs, cur := s.cur } = s)
    ∧ (∀ (ws : List Word) (q : List (List Word)), s.cur.consoleQ = ws :: q →
      exec .consoleLine s = .next (({ s with cur := { s.cur with consoleQ := q } }).emit (.console ws)))
    ∧ (∀ (i : Fin 14) (mv : Nat), (tget (fun _ => SupplyIv.none) s.pwr.ivs (railOf (12 + i.val))).isOpen = false →
        mv < (railLevels (railOf (12 + i.val)) s.pwr.iob33).1 → (railLevels (railOf (12 + i.val)) s.pwr.iob33).2.1 ≤ mv →
        coreUnsafe (12 + i.val) mv = false →
      exec (.supplyWarning i mv) s = .next (nvsSync (raise 0xA20 2 (uSens (12 + i.val)) [wd (12 + i.val), wd mv] (pendLine 18 3
        { s with pwr := { s.pwr with ivs := tset (fun _ => SupplyIv.none) s.pwr.ivs (railOf (12 + i.val)) ⟨true, s.dt, 12 + i.val, mv⟩ } }))))
    ∧ (∀ (i : Fin 14) (us : Nat) (x : SupplyIv), tget (fun _ => SupplyIv.none) s.pwr.ivs (railOf (12 + i.val)) = x → x.isOpen = true →
      ∃ u, u = raiseAt x.start 0xA21 2 (uSens x.sensor) [wd x.sensor, wd x.least, wd (min us 68719476735), dtSec x.start]
          { s with pwr := { s.pwr with ivs := tset (fun _ => SupplyIv.none) s.pwr.ivs (railOf (12 + i.val)) SupplyIv.none,
                                       closed := (railOf (12 + i.val), x.start, s.dt) :: s.pwr.closed } }
        ∧ exec (.supplyRecovery i us) s = .next (if u.supplyLow then nvsSync u else nvsBegin u)))
  ∧ (∀ (i : Fin 14) (mv : Nat) (s : State), s.pwr.inReset = false → i.val < 4 → 620 < mv → mv < 650 →
    exec (.supplyWarning i mv) s = .fault .coreBelowFunctional)

/-! ## Rings and their indices (R414, R422 to R428) -/

/-- Enabling and disabling a ring (R427): ENABLE of an OFF ring whose configuration is valid turns it ON with both indices zero and raises event
0x040; DISABLE turns an ON ring OFF with event 0x040; on rings 0 to 2 a write of BASE_LO that commits a valid base enables the ring. The model's choices in it: notes/assumptions 25.md. -/
def Obligations.RingsEnableAndDisable : Prop :=
  ∀ (src : Src) (q : Fin 32) (s : State), s.srcLive src = true →
    (s.ringState q = 0 → ringValid q s = true →
      ∃ u, exec (.ringCtrlEnable src q) s = .next (raise 0x040 0 (uRing q) [0, 1] u)
        ∧ u.ringState q = 1 ∧ u.rf (R.RING_PROD q) 16 0 = 0 ∧ u.rf (R.RING_CONS q) 16 0 = 0 ∧ bit (u.reg R.HIF_RING_ON) q = true
        ∧ bit (u.reg R.HIF_RING_FULL) q = false
        ∧ (∀ o, o ∉ [R.RING_STATE q, R.RING_PROD q, R.RING_CONS q, R.HIF_RING_ON, R.HIF_RING_HALT, R.HIF_RING_FULL] → u.reg o = s.reg o)
        ∧ u.mem = s.mem)
    ∧ (s.ringState q = 1 →
      ∃ u, exec (.ringCtrlDisable src q) s = .next (raise 0x040 0 (uRing q) [1, 0] u)
        ∧ u.ringState q = 0 ∧ bit (u.reg R.HIF_RING_ON) q = false
        ∧ (∀ o, o ∉ [R.RING_STATE q, R.HIF_RING_ON, R.HIF_RING_HALT] → u.reg o = s.reg o) ∧ u.mem = s.mem)
    ∧ ∀ (v : Word) (l : RegLoc), q < 3 → s.spiMode = false → s.ringState q = 0 → regAt (R.RING_BASE_LO q) = some l →
        writeBad (R.RING_BASE_LO q) l v s = false →
        ringValid q (s.setReg (R.RING_BASE_LO q) (wMerge l.row (s.reg (R.RING_BASE_LO q)) v)) = true →
        exec (.ringBaseLoWrite src q v) s
          = .next (ringEnable q ((s.onBus src).setReg (R.RING_BASE_LO q) (wMerge l.row (s.reg (R.RING_BASE_LO q)) v)))

/-- Index writes (R423): a write that moves the index the host owns by no more than the room there is replaces it; any other, and a write of CONS of a host-to-device ring, sets IDX_ERR, leaves
the indices as they were and raises event 0x043. The model's choices in it: notes/assumptions 25.md, 29.md. -/
def Obligations.RingIndexWritesChecked : Prop :=
  ∀ (src : Src) (q : Fin 32) (v : Word) (s : State), s.srcLive src = true →
    (hostToDev (s.ringClass q) = true ∨ s.ringClass q = 14 →
      ((fld v 16 0 + 2 * s.ringSize q - s.rf (R.RING_PROD q) 16 0 % (2 * s.ringSize q)) % (2 * s.ringSize q) ≤ s.ringSize q - s.ringOcc q →
        ∃ t, exec (.ringProdWrite src q v) s = .next t ∧ t.rf (R.RING_PROD q) 16 0 = fld v 16 0 % (2 * s.ringSize q)
          ∧ (∀ o, o ∉ [R.RING_PROD q, R.HIF_RING_FULL, R.RING_OCC_MAX q, R.RING_STATUS q] → t.reg o = s.reg o) ∧ t.mem = s.mem)
      ∧ (s.ringSize q - s.ringOcc q < (fld v 16 0 + 2 * s.ringSize q - s.rf (R.RING_PROD q) 16 0 % (2 * s.ringSize q)) % (2 * s.ringSize q) →
        exec (.ringProdWrite src q v) s = .next (raise 0x043 2 (uRing q) [wd (fld v 16 0), 0, wd (s.rf (R.RING_PROD q) 16 0)]
          (((s.onBus src).sticky (R.RING_STATUS q) 1).sticky R.HIF_STATUS 0))))
    ∧ (hostToDev (s.ringClass q) = true → exec (.ringConsWrite src q v) s
        = .next (raise 0x043 2 (uRing q) [wd (fld v 16 0), 1, wd (s.rf (R.RING_CONS q) 16 0)]
            (((s.onBus src).sticky (R.RING_STATUS q) 1).sticky R.HIF_STATUS 0)))
    ∧ (hostToDev (s.ringClass q) = false →
      ((fld v 16 0 + 2 * s.ringSize q - s.rf (R.RING_CONS q) 16 0 % (2 * s.ringSize q)) % (2 * s.ringSize q) ≤ s.ringOcc q →
        ∃ t, exec (.ringConsWrite src q v) s = .next t ∧ t.rf (R.RING_CONS q) 16 0 = fld v 16 0 % (2 * s.ringSize q)
          ∧ (∀ o, o ∉ [R.RING_CONS q, R.HIF_RING_FULL] → t.reg o = s.reg o) ∧ t.mem = s.mem)
      ∧ (s.ringOcc q < (fld v 16 0 + 2 * s.ringSize q - s.rf (R.RING_CONS q) 16 0 % (2 * s.ringSize q)) % (2 * s.ringSize q) →
        exec (.ringConsWrite src q v) s = .next (raise 0x043 2 (uRing q) [wd (fld v 16 0), 1, wd (s.rf (R.RING_CONS q) 16 0)]
          (((s.onBus src).sticky (R.RING_STATUS q) 1).sticky R.HIF_STATUS 0))))

/-- A ring's message falls due when its moderation time passes (R428): its U clears, its bit of HIF_RING_IRQ is set, its vector is counted. A read of host memory that
fails stops the ring's consumption (R414); when the failure is detected it is captured, event 0x044 is raised and the ring goes to HALT, with cause 4
after 50 ms without a completion. A ring in HALT (R427): the state, the error capture, STATUS.HALT, the error vector, HIF_ALERT_STAT.HALT and event 0x041; no other ring, no memory outside
the Accession log in PCI Express mode and no other unit changes. The model's choices in it: notes/assumptions 29.md. -/
def Obligations.RingMessagesAndFailures : Prop :=
  (∀ (q : Fin 32) (s : State), s.ringOn q = true →
    (s.ringClass q ≠ 14 → 1 ≤ (s.rh q).u →
      ∃ t, exec (.ringModTimeout q) s = .next t ∧ bit (t.reg R.HIF_RING_IRQ) q = true ∧ (t.rh q).u = 0
        ∧ t.reg (R.HIF_VEC_CNT q) = bump (s.reg (R.HIF_VEC_CNT q)) 1 ∧ Quiet q s t)
    ∧ (s.spiMode = false → hostToDev (s.ringClass q) = true → 0 < s.ringOcc q → ∀ addr : BitVec 64,
      (∀ cause : Fin 3,
        (∃ t, exec (.dmaReadFailure q addr cause false) s = .next t ∧ t.ringReady q = false ∧ { t with ringH := s.ringH } = s)
        ∧ exec (.dmaReadFailure q addr cause true) s
          = .next (ringHalt q (cause.val + 1) (some addr.toNat) (raise 0x044 3 uPcie [wd q, wd (cause.val + 1)]
              (dmaCapture q (cause.val + 1) (some addr.toNat) (s.cnt R.HIF_DMA_ERR_CNT)))))
      ∧ (∃ t, exec (.dmaCompletionTimeout q addr false) s = .next t ∧ t.ringReady q = false ∧ { t with ringH := s.ringH } = s)
      ∧ exec (.dmaCompletionTimeout q addr true) s
          = .next (ringHalt q 4 (some addr.toNat) (raise 0x044 3 uPcie [wd q, wd 4] (dmaCapture q 4 (some addr.toNat) (s.cnt R.HIF_DMA_ERR_CNT))))))
  ∧ (∀ (q : Fin 32) (cause addr : Nat) (s : State), cause < 16 →
    (ringHalt q cause (some addr) s).ringState q = 2 ∧ bit ((ringHalt q cause (some addr) s).reg (R.RING_STATUS q)) 4 = true
      ∧ (s.spiMode = false → (ringHalt q cause (some addr) s).reg R.HIF_DMA_ERR_INFO = wd (q * 256 + cause))
      ∧ bit ((ringHalt q cause (some addr) s).reg R.HIF_ALERT_STAT) 3 = true
      ∧ Quiet q s (ringHalt q cause (some addr) s))

/-! ## Events and records (R424, R430, R431) -/

/-- Raising an event and delivering a record leave everything else alone: every register outside those of the ring they use, of the alert, the
accession number, the messages, the Provenance counter and (in SPI mode) the bank that holds the ring; every word of memory outside the Accession log and, in
SPI mode, the shared store that holds the rings; every unit, every command held, device time and the store. The model's choices in it: notes/assumptions 62.md, 63.md. -/
def Obligations.EventsAndRecordsDisturbNothing : Prop :=
  (∀ (code sev unit : Nat) (ps : List Word) (s : State), Quiet 2 s (raise code sev unit ps s))
  ∧ ∀ (q : Fin 32) (cls : Nat) (ws : List Word) (s : State), Quiet q s (record q cls ws s)

/-- An event that is enabled takes the next accession number (R431), and the eight words of its record stand in the Accession log in bank 15 at that number
modulo 32,768 (R470); one that is masked changes nothing. -/
def Obligations.EventsAreNumberedAndLogged : Prop :=
  ∀ (e : EvReq) (s : State), e.params.length ≤ 4 → s.spiMode = false → bit (s.reg R.MEM_FLIP_ARM) 15 = false →
    (evEnabled e s = false → (postEvent e s) = (s, []))
    ∧ (evEnabled e s = true → ∃ prov rate : Bool,
        (postEvent e s).1.reg R.HIF_ACC_NEXT = accNext (s.reg R.HIF_ACC_NEXT)
        ∧ ∀ i, i < 8 → (postEvent e s).1.peek (kBank 15 (8 * ((s.reg R.HIF_ACC_NEXT).toNat % 32768) + i))
            = (evWords e (s.reg R.HIF_ACC_NEXT) prov rate).getD i 0)

/-- A record for a ring of another class is counted as misrouted (R424) and written nowhere; for a ring that is not ON, that is full, or with the link down, it is
dropped and counted, and PROD stays. A record delivered to an ON ring of its class with room, over PCI Express, is sent as one entry of the ring's size at slot PROD modulo S, and PROD moves on
by one modulo 2S (R422, R424). -/
def Obligations.RecordsDeliveredOrDropped : Prop :=
  (∀ (q : Fin 32) (cls : Nat) (ws : List Word) (s : State), q ≠ 0 → s.ringClass 2 = 2 →
    (s.ringClass q ≠ cls → (record q cls ws s).reg R.HIF_MISROUTE_CNT = bump (s.reg R.HIF_MISROUTE_CNT) 1)
    ∧ (s.ringClass q = cls → q ≠ 2 → (s.ringOn q = false ∨ s.ringSize q ≤ s.ringOcc q) →
        (record q cls ws s).reg (R.RING_DROP_CNT q) = bump (s.reg (R.RING_DROP_CNT q)) 1
          ∧ (record q cls ws s).rf (R.RING_PROD q) 16 0 = s.rf (R.RING_PROD q) 16 0))
  ∧ (∀ (q : Fin 32) (cls : Nat) (ws : List Word) (s : State), s.spiMode = false → s.linkUp = true → s.ringClass q = cls → s.ringOn q = true →
    s.ringOcc q < s.ringSize q → s.ringSize q ≤ 65536 →
    Out.ringEntry q (s.rf (R.RING_PROD q) 16 0 % s.ringSize q) (padTo (s.ringEntry q / 8) ws) ∈ (ringPut q cls ws s).1.out
      ∧ (ringPut q cls ws s).1.rf (R.RING_PROD q) 16 0 = (s.rf (R.RING_PROD q) 16 0 + 1) % (2 * s.ringSize q)
      ∧ (ringPut q cls ws s).2 = ([], true))

/-! ## Held commands (R437 to R442, R447, R452) -/

/-- A command entry with an opcode the map does not define is consumed, counted and answered UNKNOWN_OPCODE (R452). A stamped command that passes phases A and B and is not late waits for its boundary with no reply and no effect, where fewer than 64 stamped commands
wait, and is answered NO_RESOURCE otherwise (R438, R440); a late one without LATE_OK is answered LATE, and one with it acts as a command that is not
stamped, with LATE in its reply (R439). The lists of held commands (R440 to R442): the pending command with the earliest boundary that has come and that no earlier one blocks leaves the list, and takes
effect when its checks hold; the first parked command that is no longer busy does the same at the boundary of now; one still busy when the wait limit has
passed is answered TIMEOUT; the commands that name a unit of the one that left take effect at its boundary or later. The model's choices in it: notes/assumptions 30.md, 31.md, 84.md. -/
def Obligations.CommandsAnsweredHeldAndReleased : Prop :=
  (∀ (op : BitVec 12) (p : Packet) (s : State), cmdSpecOf op.toNat = none → s.booted = true → s.ringReady 0 = true →
    (s.spiMode = true → (spiEntry op.toNat p s).1 = true) →
    exec (.commandUnknownOpcode op p) s
      = .next (reply ⟨op.toNat, p, (entryRead op.toNat p s).rf (R.RING_CONS 0) 16 0, false, false, (entryRead op.toNat p s).dt, [], none⟩ 1 0 []
          (entryTaken op.toNat p s)))
  ∧ (∀ (c : CmdSpec) (p pk : Packet) (s u : State), s.booted = true → s.ringReady 0 = true → s.spiMode = false →
    phaseA c p (entryTaken c.op p s) = 0 → phaseB c p (entryTaken c.op p s) = (0, [], pk, u) → pk.atEpoch = true →
    (∀ h : HeldCmd, h = ⟨c.op, pk, s.rf (R.RING_CONS 0) 16 0, false, false, s.dt, c.units p, c.bnd pk true u⟩ → c.late pk u = false → cmdWaits c h u = true →
      (u.cmdPend.countP HeldCmd.stamped < 64 → consumeCmd c p s = { u with cmdPend := u.cmdPend ++ [h] })
      ∧ (64 ≤ u.cmdPend.countP HeldCmd.stamped → consumeCmd c p s = reply h 6 0 [] u))
    ∧ (c.late pk u = true → pk.lateOk = false →
      consumeCmd c p s = reply ⟨c.op, pk, s.rf (R.RING_CONS 0) 16 0, false, false, s.dt, c.units p, none⟩ 9 0 [] u)
    ∧ ∀ h : HeldCmd, h = ⟨c.op, pk, s.rf (R.RING_CONS 0) 16 0, true, false, s.dt, c.units p, c.bnd pk false u⟩ → c.late pk u = true → pk.lateOk = true →
      consumeCmd c p s = if cmdWaits c h u then { u with cmdPend := u.cmdPend ++ [h] } else applyCmd c h u)
  ∧ (∀ (h : HeldCmd) (s : State), s.booted = true →
    (∀ c, earliest s (pendReady s [] s.cmdPend) = some h → cmdSpecOf h.op = some c →
      exec .pendingCommandDue s = .next (resetCheck (heldAfter h (h.n s) (applyCmd c h { s with cmdPend := s.cmdPend.erase h }))))
    ∧ (∀ c, parkReady s [] s.cmdPark = some h → cmdSpecOf h.op = some c →
      exec .parkedCommandRetry s = .next (resetCheck (heldAfter h s.cycle (applyCmd c (parkNow s h) { s with cmdPark := s.cmdPark.erase h }))))
    ∧ (s.cmdPark.find? (fun g => parkBusy s (parkNow s g) && parkExpired s g) = some h →
      exec .parkedCommandTimeout s = .next (heldAfter h s.cycle (reply h 8 0 [] { s with cmdPark := s.cmdPark.erase h })))
    ∧ (∀ (n : Nat) (u : State), { heldAfter h n u with cmdPend := u.cmdPend } = u
        ∧ ∀ g ∈ u.cmdPend, ∀ c, cmdSpecOf g.op = some c → blockedBy g.units [h] = true → g.after c.grid n ∈ (heldAfter h n u).cmdPend)
    ∧ ∀ (c : CmdSpec) (u : State), firstStatus (chkCommon c h u ++ c.chk h u) = 0 →
        applyCmd c h u = (match c.eff h u with
          | (.done ws, t) => reply h 0 (c.at_ h u) ws t
          | (.doneAt d ws, t) => reply h 0 d ws t
          | (.later, t) => t))

/-- The conditions of R447 are judged in its order: the status answered is TIMEOUT (of an access at the boundary), INTEGRITY, NOT_PERMITTED, OWNERSHIP, RETIRED,
BAD_PARAM, NOT_READY, BUSY or NO_RESOURCE, the first in that order that holds, and OK exactly when none of them holds. -/
def Obligations.CheckOrderIsThatOfR447 : Prop :=
  ∀ l : List (Bool × Nat), (∀ c ∈ l, c.2 ∈ phaseC) →
    (firstStatus l = 0 ↔ ∀ c ∈ l, c.1 = false)
    ∧ (∀ i j, i < j → j < phaseC.length → firstStatus l = phaseC.getD j 0 → ∀ c ∈ l, c.2 = phaseC.getD i 0 → c.1 = false)
    ∧ (firstStatus l ≠ 0 → (true, firstStatus l) ∈ l)

/-! ## The reference, the synthesisers and the sample clock (R99 to R122) -/

/-- The sample synthesiser's enable and the reference (R94, R100, R106, R107, R108): enabled in OFF with a reference and a valid plan it closes its loop and is
LOCKING, with no reference it coasts on the centre code and qualification restarts, and the coexistence modes resume; REENGAGE in QUALIFIED closes the loop; a lost
reference is counted, captured and sends a running loop to COAST with the code of 2 µs before, opening an episode when it was locked before; a
frequency counted within 10 % is a return and restarts qualification, one beyond it is none; a window whose offset is within TOL counts, and one beyond restarts. The model's choices in it: notes/assumptions 5.md, 37.md, 73.md, 74.md, 75.md. -/
def Obligations.SampleSynthesiserFollowsReference : Prop :=
  ∀ s : State,
    (∀ src, s.srcLive src = true → s.booted = true → s.smpState = 0 → smpPlanOk s = true →
      (s.refPresent = true → ¬ 6 * s.rf R.SYN_REF_FREQ 25 0 < 100 * ((1000 * s.rf R.SYN_REF_EST 15 0 : Int) - s.rf R.SYN_REF_FREQ 25 0).natAbs →
        exec (.synSmpCtrlEnable src) s = .next (coexResume 1 (coexResume 0 (smpClose 1 (s.onBus src)))))
      ∧ (s.refPresent = false → exec (.synSmpCtrlEnable src) s
          = .next (coexResume 1 (coexResume 0 (qualRestart (smpSetState 4 (smpHold Config.centreCode.toNat (s.onBus src))))))))
    ∧ (∀ src, s.srcLive src = true → s.booted = true → s.smpState = 5 → smpPlanOk s = true →
        exec (.synSmpCtrlReengage src) s = .next (smpClose 6 (s.onBus src)))
    ∧ (∀ v, 0 < v → v < 8 → v ≠ 2 → s.smpState ≠ 2 → (smpClose v s).smpState = v ∧ (smpClose v s).smp.closedN = s.cycle
        ∧ (smpClose v s).rf R.SYN_SMP_HOLD 16 16 = 0 ∧ (smpClose v s).reg R.SYN_SMP_DIV = (smpPlan s).reg R.SYN_SMP_DIV
        ∧ ((smpClose v s).pllOf 8).good = 0 ∧ ((smpClose v s).pllOf 8).bad = 0)
    ∧ (∀ (gross : Bool) (est : BitVec 16), s.refPresent = true → s.smpState ∈ [1, 2, 3, 6] → (gross = true → s.refGross est.toNat = true) →
        ∃ u, exec (.referenceLost gross est) s = .next (raise 0x202 2 uRef [wd (b2n gross)] u)
          ∧ u.smpState = 4 ∧ u.reg R.SYN_SMP_HOLD = wd (65536 + (Config.vcoCode (s.cycle - 328)).toNat % 65536) ∧ u.reg R.SYN_REF_EST = wd est.toNat
          ∧ u.reg R.SYN_QUAL_ELAPSED = 0 ∧ u.reg R.SYN_REF_LOSS_CNT = bump (s.reg R.SYN_REF_LOSS_CNT) 1 ∧ u.smp.qualN = nextWindow s.cycle
          ∧ (s.smp.everLocked = true → s.smp.epi = none → u.smp.epi = some ⟨s.dtAfter 1, s.cycle + 1, (s.pllOf 8).last, true, false, false⟩))
    ∧ (∀ est : BitVec 16, s.refPresent = false →
        (s.refGross est.toNat = false → exec (.referenceReturn est) s
          = .next (qualRestart ((s.setReg R.SYN_REF_EST (wd est.toNat)).setReg R.SYN_REF_STAT 1)))
        ∧ (s.refGross est.toNat = true → exec (.referenceReturn est) s = .next (s.setReg R.SYN_REF_EST (wd est.toNat))))
    ∧ (∀ offset : BitVec 36, s.smpState = 4 → s.refPresent = true → s.fsOn = true → s.cycle % 1636800 = 0 → s.smp.qualN + 1636800 ≤ s.cycle →
        (s.rf R.SYN_QUAL_CFG 27 12 * 1099511627776 < offset.toInt.natAbs * 100000000 →
          exec (.qualWindowEnd offset) s = .next (qualRestart (s.setReg R.SYN_REF_OFS offset)))
        ∧ (offset.toInt.natAbs * 100000000 ≤ s.rf R.SYN_QUAL_CFG 27 12 * 1099511627776 → s.rf R.SYN_QUAL_ELAPSED 11 0 + 1 < s.rf R.SYN_QUAL_CFG 11 0 →
          exec (.qualWindowEnd offset) s
            = .next ((s.setReg R.SYN_REF_OFS offset).setReg R.SYN_QUAL_ELAPSED (wd (s.rf R.SYN_QUAL_ELAPSED 11 0 + 1)))))

/-- Locks and losses (R105, R106, R111 to R116): LOCK_N comparisons in a row within WIN lock a synthesiser: the sample synthesiser ends the episode with its step, an LO or
injection synthesiser is LOCKED; LOSS_K in a row beyond WIN lose it: the sample synthesiser begins an episode in UNLOCKED, an LO or injection synthesiser is
counted and starts again; fewer of them change nothing. A loop that does not lock in time goes to COAST; an episode of 16,368,000 sample cycles is declared; an absent sample
clock sets 0x206 and its return 0x207. The model's choices in it: notes/assumptions 5.md. -/
def Obligations.SynthesiserLocksAndLosses : Prop :=
  ∀ s : State, s.fsOn = true →
    (∀ slip : BitVec 32,
      (s.lockN 8 ≤ (s.pllOf 8).good → s.smpState ∈ [1, 3, 6] →
        exec (.synthLocked 8 slip) s = .next (episodeEnd (s.pllOf 8).first slip.toInt (smpLock s)))
      ∧ ∀ w : Fin 9, ((s.pllOf w.val).good < s.lockN w.val → exec (.synthLocked w slip) s = .next s)
        ∧ (s.lockN w.val ≤ (s.pllOf w.val).good → w.val < 8 → s.loState w.val = 1 ∨ s.loState w.val = 3 → exec (.synthLocked w slip) s
          = .next (feTryStart (w.val % 4) ((s.setF (R.LO_STATE w.val) 3 0 2).setFe (w.val % 4)
              (if w.val < 4 then { s.fe (w.val % 4) with loGap := false } else { s.fe (w.val % 4) with injGap := false })))))
    ∧ (s.lossK 8 ≤ (s.pllOf 8).bad → s.smpState = 2 → s.refPresent = true →
        ∃ u, u = smpSetState 3 (pllRestart 8 (episodeBegin (s.dtAfter 1) (s.cycle + 1) false false s))
          ∧ exec (.synthLockLost 8) s = .next (raise 0x201 2 uSmp [wdI (divRound (u.pllOf 8).last 256)] u))
    ∧ (∀ w : Fin 9, ((s.pllOf w.val).bad < s.lossK w.val → exec (.synthLockLost w) s = .next s)
        ∧ (s.lossK w.val ≤ (s.pllOf w.val).bad → w.val < 8 → s.loState w.val = 2 ∨ s.loState w.val = 4 → exec (.synthLockLost w) s = .next (loLoss w.val s)))
    ∧ (∀ n : Nat, s.refPresent = true → s.smpState = n → n = 1 ∨ n = 6 →
        s.smp.closedN + 16368000 + ceilDiv (s.rf R.SYN_SMP_LOCK 31 16 * s.rf R.SYN_SMP_DIV 11 0 * 163680000) (max 1 (s.rf R.SYN_REF_FREQ 25 0)) ≤ s.cycle →
        exec .lockTimeout s = .next (if n = 1
          then raise 0x20D 2 uSmp [wdI (divRound (s.pllOf 8).last 256)] (qualRestart (smpSetState 4 (smpHold Config.centreCode.toNat s)))
          else qualRestart (smpSetState 4 (smpHold (Config.vcoCode (s.cycle - 328)).toNat s))))
    ∧ (∀ x, s.smp.epi = some x → x.declared = false → x.startN + 16368000 ≤ s.cycle →
        exec .discDeclared s = .next (raise 0x205 2 uSmp [dtSec x.start]
          (State.sticky { s with smp := { s.smp with epi := some { x with declared := true } } } R.SYN_SMP_STATUS 4)))
    ∧ (s.smpState ≠ 2 → s.smp.epi = none →
        exec .sampleClockAbsent s = .next (coexAbsent 1 (coexAbsent 0 (raise 0x206 4 uSmp [dtSec s.dt]
          { (s.cnt R.SYN_CLK_ABS_CNT).sticky R.SYN_SMP_STATUS 5 with smp := { s.smp with absent := true } }))))
    ∧ ∀ (cycles : BitVec 36) (a : State), a.smp.absent = true →
        exec (.sampleClockReturned cycles) a = .next (raise 0x207 1 uSmp [cycles] (coexResume 1 (coexResume 0
          (tpReturned 3 (tpReturned 2 (tpReturned 1 (tpReturned 0 { a with smp := { a.smp with absent := false } })))))))

/-- An episode's end (R111, R112, R114): the step recorded is the phase after it less the phase before plus M reference periods of cycle slip, 2^36/f ticks each, rounded to the nearest tick;
the end DT and length are recorded, the episode is over, the discontinuity counter advances by one exactly when the reference or the clock was lost, a cycle was slipped, the
episode was long or the step is at least 100 ps. -/
def Obligations.EpisodeEndRecordsStep : Prop :=
  ∀ (eAfter slip : Int) (x : Episode) (s : State), s.smp.epi = some x → s.rf R.SYN_DISC_CNT 15 0 < 65535 →
    let f : Int := max 1 (s.rf R.SYN_REF_FREQ 25 0)
    let k : Int := if x.refLost then 0 else slip
    let num : Int := (eAfter - x.eBefore) * f + 256 * k * (68719476736 * s.rf R.SYN_SMP_DIV 11 0)
    let disc := x.refLost || x.clkAbsent || decide (16368000 < s.cycle - x.startN) || k != 0 || decide (68719476736 * 256 * f ≤ num.natAbs * 10000000000)
    ∃ u, episodeEnd eAfter slip s = stepFeed (divRound num (256 * f)) (raise 0x204 1 uSmp
          [wdI (divRound num (256 * f)), wdI k, wd (b2n x.refLost * 12 + b2n (decide (16368000 < s.cycle - x.startN)) * 2 + b2n x.clkAbsent), u.reg R.SYN_DISC_CNT] u)
      ∧ u.smp.epi = none ∧ u.reg R.SYN_STEP = wdI (divRound num (256 * f)) ∧ u.reg R.SYN_EPI_LEN = wd (s.cycle - x.startN)
      ∧ u.reg R.SYN_EPI_END_SEC = dtSec s.dt ∧ u.reg R.SYN_EPI_END_FRAC = dtFrac s.dt
      ∧ u.rf R.SYN_DISC_CNT 15 0 = s.rf R.SYN_DISC_CNT 15 0 + b2n disc

/-- Ramps (R117 to R120, R122): a write of an LO's RAMP_FRAC in RUN arms a valid profile at its DT; an armed ramp starts at that DT with event 0x209 and its front end
in SURVEY; a segment that has run its DUR ramp epochs gives way to the next, and a single profile ends after its last with event 0x20A; STOP fixes the next update
point as the end of a repeating profile, and the ramp ends at the sample cycle of that point. -/
def Obligations.RampsRunTheirProfile : Prop :=
  (∀ (src : Src) (u : Fin 8) (v : Word) (s : State), s.srcLive src = true → s.booted = true → u.val < 4 → rampOk u s = true →
      s.feState u = feRun → (s.rampOf u).active = false →
      exec (.rampFracWrite src u v) s
        = .next (rampArm u (dtOf (s.reg (R.LO_RAMP_SEC u)) v) ((s.onBus src).setReg (R.LO_RAMP_FRAC u) v)))
  ∧ (∀ (u : Nat) (d : Dt) (s : State), u < 8 → later 72 s.dt d = false →
      ((rampArm u d s).rampOf u).armed = some d ∧ bit ((rampArm u d s).reg (R.LO_RAMP_STAT u)) 1 = true)
  ∧ ∀ (u : Fin 8) (s : State), s.fsOn = true →
    (∀ d, (s.rampOf u).armed = some d → dtGe s.dt d = true → (u.val < 4 → s.feState u = feRun) →
      exec (.rampStart u) s = .next ((if u.val < 4 then feSetState u feSurvey else id) (raise 0x209 0 (uSynth u) [dtSec s.dt]
          (((s.setRamp u ⟨none, true, false, s.cycle, none⟩).setReg (R.LO_RAMP_STAT u) 1).setF (R.LO_STATE u) 3 0 4))))
    ∧ (∀ endN, (s.rampOf u).active = true → (s.rampOf u).stopN = none →
      endN = (s.rampOf u).segN + s.rf (R.LO_SEG u (s.rf (R.LO_RAMP_STAT u) 7 4)) 7 0 * 1636800 → endN ≤ s.cycle →
      s.rf (R.LO_RAMP_CFG u) 5 4 = 0 →
        (s.rf (R.LO_RAMP_STAT u) 7 4 < s.rf (R.LO_RAMP_CFG u) 3 0 → exec (.rampSegmentEnd u) s
          = .next ((s.setRamp u { s.rampOf u with segN := endN, back := false }).setF (R.LO_RAMP_STAT u) 7 4 (s.rf (R.LO_RAMP_STAT u) 7 4 + 1)))
        ∧ (s.rf (R.LO_RAMP_CFG u) 3 0 ≤ s.rf (R.LO_RAMP_STAT u) 7 4 → u.val < 4 → exec (.rampSegmentEnd u) s
          = .next (rampEnd u (dtOfCycle endN) (s.setF (R.LO_RAMP_STAT u) 23 8 (s.rf (R.LO_RAMP_STAT u) 23 8 + 1)))))
    ∧ (∀ src, s.srcLive src = true → s.booted = true → u.val < 4 → (s.rampOf u).active = true → (s.rampOf u).stopN = none → s.rf (R.LO_RAMP_CFG u) 5 4 ≠ 0 →
      exec (.rampStop src u) s = .next ((s.onBus src).setRamp u { s.rampOf u with
          stopN := some ((s.rampOf u).segN + ceilDiv (s.cycle - (s.rampOf u).segN) 160 * 160) }))
    ∧ ∀ c, (s.rampOf u).active = true → (s.rampOf u).stopN = some c → c ≤ s.cycle → rampTick u s = rampEnd u (dtOfCycle c) s
        ∧ exec (.rampSegmentEnd u) s = .next (rampEnd u (dtOfCycle c) s)

/-! ## Front ends, aerial bias and coexistence (R66 to R98) -/

/-- Front-end states (R83 to R86, R95): enabling an OFF front end starts its synthesisers; disabling one stops it; a recalibration in RUN runs the selected steps; an unlocked
synthesiser 5 ms after the enable is a front-end fault; a step whose measurements pass is followed by the next, and the last ends the run in RUN;
a suspended step starts over when nothing holds it. The report of a run and of the front end's measurements (R75, R77, R78, R85): a run that ends leaves RESULT 1 and the steps done, the DT, and event 0x101; a due mismatch check
aims the injection synthesiser at the first of the three tones and, 16,368 sample cycles later, records the three return losses, each clamped to 40 dB. The model's choices in it: notes/assumptions 5.md, 38.md, 71.md, 76.md, 77.md. -/
def Obligations.FrontEndStatesCalibrationAndChecks : Prop :=
  (∀ (n : Fin 4) (s : State),
    (∀ src, s.srcLive src = true → s.booted = true →
      (s.feState n = feOff → feEnableStatus n s = 0 → exec (.feCtrlEnable src n) s = .next (feEnable n (s.onBus src)))
      ∧ exec (.feCtrlDisable src n) s = .next (feDisable n (s.onBus src))
      ∧ (s.feState n = feRun → s.rf (R.FE_CAL_CFG n) 6 0 ≠ 0 →
          exec (.feCtrlRecal src n) s = .next (calRunBegin n (s.rf (R.FE_CAL_CFG n) 6 0) false feRecal (s.onBus src))))
    ∧ (s.feState n = feStarting → s.smpState = 2 → s.fsOn = true → ¬ (s.loState n = 2 ∧ s.loState (4 + n) = 2) →
        max (s.fe n).enN s.smp.lockedN + 818400 ≤ s.cycle → exec (.feLockTimeout n) s = .next (feFault n s))
    ∧ (∀ (r : CalRun) (step : Nat) (rest : List Nat) (ms : List Int), (s.fe n).run = some r → r.left = step :: rest → r.suspN = none → s.fsOn = true →
        r.stepN + stepMs.getD step 0 * 163680 ≤ s.cycle →
        (stepPass n step ms s = true → step ≠ 5 → rest = [] →
          exec (.calStepEnd n ms) s = .next (calRunEnd n { r with left := [], done := r.done + 2 ^ step, stepN := s.cycle } (stepResult n step ms s)))
        ∧ (stepPass n step ms s = false → s.rfSupplyHold = false → step ≠ 6 →
          ∃ u, exec (.calStepEnd n ms) s = .next (feFault n (raise 0x102 2 (uFe n) [wd step, wdI (ms.getD 0 0)] u))
            ∧ (u.fe n).run = none ∧ u.reg (R.FE_CAL_STAT n) = wd (2 * 16384 + (r.done + 2 ^ step) * 128 + 2 ^ step)
            ∧ u.reg (R.FE_CAL_FAIL_CNT n) = bump (s.reg (R.FE_CAL_FAIL_CNT n)) 1 ∧ bit (u.reg (R.FE_STATUS n)) 1 = true))
    ∧ (∀ (r : CalRun) (c : Nat), (s.fe n).run = some r → r.suspN = some c → s.smpState = 2 → s.fsOn = true → s.rfSupplyHold = false →
        (r.left.head? = some 5 → s.coexActive n = false) →
        exec (.calStepRestart n) s = .next (s.setFe n { s.fe n with run := some { r with susp := r.susp + (s.cycle - c), suspN := none, stepN := s.cycle } })))
  ∧ (∀ (n : Fin 4) (s : State),
    (let per := s.rf (R.FE_MATCH_CFG n) 11 0
     per ≠ 0 → s.fsOn = true → (s.cycle + per * 163680000 - n.val * 40920000 % (per * 163680000)) % (per * 163680000) = 0 → s.feState n = feRun →
      (s.calU n).sweep = none → s.coexActive n = false → (s.fe n).check = none →
      exec (.mismatchCheckStart n) s
        = .next (loPlan (4 + n) (s.loAct n / 32 - s.bwHz n / 4) (s.setFe n { s.fe n with check := some (s.cycle, false) })))
    ∧ (∀ (c lo mid hi : Nat) (refl : BitVec 12), (s.fe n).check = some (c, false) → s.fsOn = true → c + 16368 ≤ s.cycle → s.feState n = feRun →
      ∃ u, exec (.mismatchCheckEnd n lo mid hi refl) s = .next (matchReport n lo mid hi u) ∧ (u.fe n).check = none ∧ u.reg (R.FE_REFL_PWR n) = wd refl.toNat)
    ∧ (∀ lo mid hi : Nat, s.rf (R.FE_MATCH_CFG n) 27 20 ≤ min (min lo 160) (min (min mid 160) (min hi 160)) → (s.fe n).poor = false →
      s.rf (R.FE_MATCH_CFG n) 19 12 ≤ s.rf (R.FE_MATCH_CFG n) 27 20 →
      ∃ t, matchReport n lo mid hi s = t ∧ t.reg (R.FE_MATCH_STAT n)
          = wd (b2n (decide (160 < lo) || decide (160 < mid) || decide (160 < hi)) * 16777216 + min lo 160 * 65536 + min mid 160 * 256 + min hi 160)
        ∧ (∀ o, o ≠ R.FE_MATCH_STAT n → t.reg o = s.reg o) ∧ t.mem = s.mem))

/-- Aerial bias (R79 to R81): a write of BIAS_CFG with EN clear switches the bias off; with EN newly set, no retry awaited and the front end not retired it switches it on and
starts the inrush interval; while a retry is awaited the switch stays low; a sample records the current, and the second in a row over the limit after 1 ms (a hundred samples) is a
short; a retry due switches the bias on where EN holds. The model's choices in it: notes/assumptions 5.md, 78.md. -/
def Obligations.AerialBiasFollowsItsSamples : Prop :=
  ∀ (n : Fin 4) (s : State),
    (∀ (src : Src) (v : Word) (l : RegLoc), s.srcLive src = true → regAt (R.FE_BIAS_CFG n) = some l → writeBad (R.FE_BIAS_CFG n) l v s = false →
      ∃ t, exec (.biasCfgWrite src n v) s = .next t ∧ t.reg (R.FE_BIAS_CFG n) = wMerge l.row (s.reg (R.FE_BIAS_CFG n)) v
        ∧ (bit v 0 = false → (t.fe n).bias.on = false)
        ∧ (bit v 0 = true → bit (s.reg (R.FE_BIAS_CFG n)) 0 = false → s.feState n ≠ feRetired → (s.fe n).bias.on = false → (s.fe n).bias.retryAt = none →
            (t.fe n).bias.on = true ∧ (t.fe n).bias.onCnt = 0 ∧ bit (t.reg (R.FE_BIAS_STAT n)) 18 = false)
        ∧ (∀ d, (s.fe n).bias.retryAt = some d → (t.fe n).bias.retryAt = some d ∧ ((s.fe n).bias.on = false → (t.fe n).bias.on = false))
        ∧ (∀ o, o ∉ [R.FE_BIAS_CFG n, R.FE_BIAS_STAT n, R.FE_BIAS_RETRY n] → t.reg o = s.reg o) ∧ t.mem = s.mem)
    ∧ (∀ uv cur : Nat, cur = min (uv * 100 / max 1 (s.rf (R.FE_BIAS_CFG n) 33 21)) 65535 → (s.fe n).bias.on = true → 99 ≤ (s.fe n).bias.onCnt →
        200 ≤ cur → 100 * s.rf (R.FE_BIAS_CFG n) 20 13 < cur →
        ((s.fe n).bias.overCnt = 0 → ∃ t, exec (.biasSample n uv) s = .next t ∧ (t.fe n).bias.overCnt = 1 ∧ t.rf (R.FE_BIAS_STAT n) 15 0 = cur
          ∧ t.mem = s.mem)
        ∧ ((s.fe n).bias.overCnt = 1 → ∃ u, exec (.biasSample n uv) s = .next (biasShort n (max cur (s.rf (R.FE_BIAS_STAT n) 15 0)) u) ∧ u.dt = s.dt))
    ∧ (∀ d, (s.fe n).bias.retryAt = some d → s.feState n ≠ feRetired → dtGe s.dt d = true →
        (bit (s.reg (R.FE_BIAS_CFG n)) 0 = true → exec (.biasRetry n) s = .next (biasOn n s))
        ∧ (bit (s.reg (R.FE_BIAS_CFG n)) 0 = false → ∃ t, exec (.biasRetry n) s = .next t ∧ (t.fe n).bias.retryAt = none ∧ (t.fe n).bias.on = (s.fe n).bias.on))
    ∧ ((biasOn n s).fe n).bias.on = true ∧ ((biasOn n s).fe n).bias.onCnt = 0 ∧ ((biasOn n s).fe n).bias.retryAt = none

/-- Coexistence (R88 to R93): an active request of an arbiter pair outside its protected window is granted from EXT.LEAD before, but no more than 16 cycles back; its release closes the blanking EXT.TAIL later; inside a
window that denies, it is withheld, and decided anew when the window ends; windows start at their cycle and end LEN later, moving on by PER; a write of WIN_FRAC arms them; a grant input withdrawn inside a window is reported as denied. The model's choices in it: notes/assumptions 39.md, 82.md. -/
def Obligations.CoexistenceArbiter : Prop :=
  ∀ (k : Fin 2) (s : State), s.fsOn = true →
    (s.coexMode k = 1 → (s.coexP k).req = true →
      exec (.coexReqEdge k false) s = .next (coexSync k ((s.setCoex k { s.coexP k with req := false }).setCoex k { s.coexP k with
        req := false, gnt := false, withheld := false,
        ivs := ivsClose (s.cycle + s.rf (R.FE_COEX_EXT 0 k) 15 0) s.cycle (s.coexP k).ivs })))
    ∧ (s.coexMode k = 1 → (s.coexP k).req = false → ∀ u, u = coexMark k (s.setCoex k { s.coexP k with req := true }) →
      ((s.coexDeny k = true ∧ (s.coexP k).inWin = true) → exec (.coexReqEdge k true) s
        = .next (coexSync k (u.setCoex k { s.coexP k with req := true, withheld := true })))
      ∧ (¬ (s.coexDeny k = true ∧ (s.coexP k).inWin = true) → exec (.coexReqEdge k true) s
        = .next (coexSync k (coexGrant k (s.cycle - min (s.rf (R.FE_COEX_EXT 0 k) 31 16) 16) u))))
    ∧ (∀ level, s.coexMode k = 2 → (s.coexP k).gnt ≠ level → ∀ m, (s.coexP k).winN = some m →
      exec (.coexGntEdge k level) s = .next (if (s.coexP k).inWin && !level then coexDenied k m (coexSync k (s.setCoex k { s.coexP k with gnt := level }))
        else coexSync k (s.setCoex k { s.coexP k with gnt := level })))
    ∧ (∀ m, (s.coexP k).winN = some m → m ≤ s.cycle → (s.coexP k).inWin = false → s.coexMode k ≠ 2 →
      exec (.coexWindowStart k) s = .next (coexSync k (s.setCoex k { s.coexP k with inWin := true })))
    ∧ (∀ m, (s.coexP k).winN = some m → (s.coexP k).inWin = true → m + (s.reg (R.FE_COEX_WIN_LEN 0 k)).toNat ≤ s.cycle →
      exec (.coexWindowEnd k) s = .next (coexSync k (coexRelease k (s.setCoex k { s.coexP k with
          inWin := false, winN := (if (s.reg (R.FE_COEX_WIN_PER 0 k)).toNat = 0 then none else some (m + (s.reg (R.FE_COEX_WIN_PER 0 k)).toNat)),
          relN := m + (s.reg (R.FE_COEX_WIN_LEN 0 k)).toNat + s.rf (R.FE_COEX_EXT 0 k) 15 0 }))))
    ∧ ∀ (src : Src) (n : Fin 4) (v : Word), s.srcLive src = true → s.booted = true →
        coexWinBad (s.reg (R.FE_COEX_WIN_LEN 0 k)).toNat (s.reg (R.FE_COEX_WIN_PER 0 k)).toNat = false →
        exec (.coexWinFracWrite src n k v) s = .next (coexArm k ((s.onBus src).setReg (R.FE_COEX_WIN_FRAC 0 k) v))

/-! ## Commands of front ends and synthesisers (R454, R455) -/

/-- A command of groups 0x1 and 0x2 has its effect when it meets its boundary and is answered OK with the results the map gives: the new state and the boundary, the
boundary alone, the bias status, the synthesiser's state, or the ramp's start; until then it is held. A command of group 0x3 for the channeliser has its effect when it meets its boundary and is answered OK: TAP_CONFIG with the units and the boundary, the others with the boundary or the
stream's first block; until then it is held. The model's choices in it: notes/assumptions 30.md, 32.md. -/
def Obligations.FrontEndSynthesiserAndChannelizerCommands : Prop :=
  (∀ (h : HeldCmd) (u : State),
    ((h.pk.pf 0 6 4 = 1 → u.feState (h.pk.pf 0 1 0) = feOff → Takes .feState feStateSpec h u
        (reply h 0 (atSample h u) (wd ((feEnable (h.pk.pf 0 1 0) u).feState (h.pk.pf 0 1 0)) :: dtWords (atSample h u)) (feEnable (h.pk.pf 0 1 0) u)))
      ∧ (h.pk.pf 0 6 4 = 2 → u.feState (h.pk.pf 0 1 0) ≠ feReplay → Takes .feState feStateSpec h u
        (reply h 0 (atSample h u) (wd ((feDisable (h.pk.pf 0 1 0) u).feState (h.pk.pf 0 1 0)) :: dtWords (atSample h u)) (feDisable (h.pk.pf 0 1 0) u)))
      ∧ (h.pk.pf 0 6 4 = 3 → Takes .feState feStateSpec h u
        (reply h 0 (atSample h u) (wd ((feReplayEnable (h.pk.pf 0 1 0) u).feState (h.pk.pf 0 1 0)) :: dtWords (atSample h u)) (feReplayEnable (h.pk.pf 0 1 0) u))))
    ∧ (∀ n, n = h.pk.pf 0 1 0 → ∃ t, Takes .feConfig feConfigSpec h u (reply h 0 (atSample h u) (dtWords (atSample h u)) t)
        ∧ (u.feState n = feOff → t.reg (R.FE_CENTRE n) = h.pk.par 1 ∧ t.reg (R.FE_CFG n) = h.pk.par 2) ∧ t.reg (R.FE_GAIN_CFG n) = h.pk.par 3
        ∧ t.reg (R.FE_MATCH_CFG n) = h.pk.par 5 ∧ t.reg (R.FE_CAL_CFG n) = h.pk.par 6 ∧ t.reg (R.FE_COEX_MAP n) = h.pk.par 7
        ∧ t.reg (R.FE_EVT_MASK n) = h.pk.par 8 ∧ t.mem = u.mem)
    ∧ Takes .feCalibrate feCalibrateSpec h u
        (reply h 0 (atSample h u) (dtWords (atSample h u)) (calRunBegin (h.pk.pf 0 1 0) (h.pk.pf 0 14 8) false feRecal u))
    ∧ Takes .feBias feBiasSpec h u
        (reply h 0 (atSample h u) [(biasCfgWrite (h.pk.pf 0 1 0) (h.pk.par 1) true u).reg (R.FE_BIAS_STAT (h.pk.pf 0 1 0))]
            (biasCfgWrite (h.pk.pf 0 1 0) (h.pk.par 1) true u))
    ∧ (∀ k, k = h.pk.pf 0 0 0 → ∃ t w, Takes .feCoex feCoexSpec h u (reply h 0 (atSample h u) (dtWords (atSample h u)) t)
        ∧ t = coexArm k w ∧ w.reg (R.FE_COEX_CFG 0 k) = h.pk.par 1 ∧ w.reg (R.FE_COEX_EXT 0 k) = h.pk.par 2
        ∧ w.reg (R.FE_COEX_WIN_SEC 0 k) = h.pk.par 3 ∧ w.reg (R.FE_COEX_WIN_FRAC 0 k) = h.pk.par 4
        ∧ w.reg (R.FE_COEX_WIN_LEN 0 k) = h.pk.par 5 ∧ w.reg (R.FE_COEX_WIN_PER 0 k) = h.pk.par 6 ∧ w.mem = u.mem)
    ∧ ((h.pk.pf 0 0 0 = 1 → Takes .synSmp synSmpSpec h u (reply h 0 (atSample h u) [(smpEnable u).reg R.SYN_SMP_STATE] (smpEnable u)))
      ∧ (h.pk.pf 0 0 0 = 0 → h.pk.pf 0 1 1 = 1 → Takes .synSmp synSmpSpec h u (reply h 0 (atSample h u) [(smpClose 6 u).reg R.SYN_SMP_STATE] (smpClose 6 u))))
    ∧ (∃ t, Takes .synRefConfig synRefConfigSpec h u (reply h 0 (atSample h u) (dtWords (atSample h u)) t)
        ∧ t.reg R.SYN_REF_CFG = h.pk.par 1 ∧ t.reg R.SYN_QUAL_CFG = h.pk.par 2 ∧ t.reg R.SYN_POLICY = h.pk.par 3 ∧ t.reg R.SYN_SMP_LOCK = h.pk.par 5
        ∧ (smpFixed u = false → t.reg R.SYN_REF_FREQ = h.pk.par 0 ∧ t.reg R.SYN_SMP_CFG = h.pk.par 4) ∧ t.reg R.SYN_QUAL_ELAPSED = 0 ∧ t.mem = u.mem)
    ∧ Takes .synLoConfig synLoConfigSpec h u (reply h 0 (atSample h u) (dtWords (atSample h u))
        (pllRestart (loNamed h.pk) ((u.setReg (R.LO_CFG (loNamed h.pk)) (h.pk.par 1)).setReg (R.LO_LOCK (loNamed h.pk)) (h.pk.par 2))))
    ∧ Takes .synRampSeg synRampSegSpec h u (reply h 0 (atSample h u) []
        (segsWrite (h.pk.pf 0 1 0) (h.pk.pf 0 7 4) ((List.range (h.pk.len.toNat - 1)).map (fun i => h.pk.par (i + 1))) u))
    ∧ (h.pk.pf 0 4 4 = 0 → ∀ k, k = h.pk.pf 0 1 0 → later 72 u.dt (dtOf (h.pk.par 2) (h.pk.par 3)) = false →
      Takes .synRampArm synRampArmSpec h u (reply h 0 (atSample h u) (dtWords (dtOfCycle (cycleOf u.cycle (dtOf (h.pk.par 2) (h.pk.par 3)))))
        (rampArm k (dtOf (h.pk.par 2) (h.pk.par 3))
          (((u.setReg (R.LO_RAMP_CFG k) (h.pk.par 1)).setReg (R.LO_RAMP_SEC k) (h.pk.par 2)).setReg (R.LO_RAMP_FRAC k) (h.pk.par 3))))))
  ∧ (∀ (h : HeldCmd) (u : State) (n : Nat), n = h.pk.pf 0 1 0 →
    Takes .tapConfig tapConfigSpec h u (reply h 0 (atSample h u)
        (wd ((tapApply n (h.pk.pf 0 5 2) (h.pk.par 1) (h.pk.par 2) u).rf (R.CHZ_TAP_STAT n (h.pk.pf 0 5 2)) 17 13) :: dtWords (atSample h u))
        (tapApply n (h.pk.pf 0 5 2) (h.pk.par 1) (h.pk.par 2) u))
    ∧ Takes .chzConfig chzConfigSpec h u (reply h 0 (atSample h u) (dtWords (atSample h u))
        ((((u.setReg (R.CHZ_BLANK_CFG n) (h.pk.par 1)).setReg (R.CHZ_BLANK_EXT n) (h.pk.par 2)).setReg (R.CHZ_LVL_CFG n) (h.pk.par 3)).setReg (R.CHZ_EVT_MASK n) (h.pk.par 4)))
    ∧ (∀ k, k = h.pk.pf 0 3 2 → Takes .notchConfig notchConfigSpec h u (reply h 0 (atSample h u) (dtWords (atSample h u))
        (notchMode n k ((u.setReg (R.CHZ_NF_CFG n k) (h.pk.par 1)).setReg (R.CHZ_NF_RANGE n k) (h.pk.par 2)))))
    ∧ (bit (h.pk.par 1) 5 = true → Takes .streamConfig streamConfigSpec h u (reply h 0 (atSample h u)
        (dtWords (dtOfCycle ((streamCfgWrite n (h.pk.par 1) u).fe n).strm.firstN)) (streamCfgWrite n (h.pk.par 1) u)))
    ∧ (h.pk.pf 0 5 5 = 1 → Takes .replayCtrl replayCtrlSpec h u
        (reply h 0 (atSample h u) (dtWords (atSample h u)) (replayStop n 1 (replayCfgWrite n (h.pk.par 1) u))))
    ∧ (h.pk.pf 0 5 5 = 0 → h.pk.pf 0 4 4 = 1 → Takes .replayCtrl replayCtrlSpec h u
        (reply h 0 (atSample h u) (dtWords (atSample h u)) (replayStart n (replayCfgWrite n (h.pk.par 1) u)))))

/-! ## Channelisers and the sample cycle (R38, R41, R70 to R73, R105, R123 to R147) -/

/-- Blocks, gain codes, level scales and notches (R71 to R73, R132, R137): at the end of a live block its means and root mean squares are recorded and, under automatic control with at least 32,736 values used, a code moved
by the half-decibel steps to the target falls due two blocks on; a code falls due by the sample time of the front end, a scale and a notch by that of the sample next at the stream point; a notch due engages with event 0x301 and releases with event 0x302. The model's choices in it: notes/assumptions 40.md, 80.md, 83.md. -/
def Obligations.BlocksSetGainLevelAndNotches : Prop :=
  ∀ (n : Fin 4) (s : State),
    (∀ (k : Nat) (b : BlkSums), (s.fe n).done = some (k, b) → s.feState n ≠ feReplay →
      ∃ t, exec (.agcBlockEnd n) s = .next t ∧ (t.fe n).done = none
        ∧ t.reg (R.FE_RMS_I n) = wd (rms8 b.ssI b.cnt) ∧ t.reg (R.FE_RMS_Q n) = wd (rms8 b.ssQ b.cnt)
        ∧ t.reg (R.FE_DC_I n) = wd (bitsS 18 (mean8 b.smI b.cnt)) ∧ t.reg (R.FE_DC_Q n) = wd (bitsS 18 (mean8 b.smQ b.cnt))
        ∧ t.rf (R.FE_GAIN_STAT n) 24 24 = b2n (decide (2 * b.cnt < 32736))
        ∧ (s.rf (R.FE_GAIN_CFG n) 15 14 = 0 → 32736 ≤ 2 * b.cnt →
            (t.fe n).codes = (s.fe n).codes ++ [((k + 2) * 163680, (max 0 (min 144 ((s.rf (R.FE_GAIN_STAT n) 23 16 : Int)
              + agcDelta (s.rf (R.FE_GAIN_CFG n) 13 8) (2 * b.cnt) (b.ssI + b.ssQ)))).toNat)])
        ∧ (s.rf (R.FE_GAIN_CFG n) 15 14 ≠ 0 ∨ 2 * b.cnt < 32736 → (t.fe n).codes = (s.fe n).codes))
    ∧ (∀ (c code : Nat) (rest : List (Nat × Nat)), (s.fe n).codes = (c, code) :: rest → s.fsOn = true → c ≤ s.cycle →
        ∃ t, exec (.agcCodeApply n) s = .next t ∧ t = gainCode n code c (s.setFe n { s.fe n with codes := rest })
          ∧ t.rf (R.FE_GAIN_STAT n) 23 16 = code % 256 ∧ (∀ o, o ≠ R.FE_GAIN_STAT n → t.reg o = s.reg o) ∧ t.mem = s.mem)
    ∧ (∀ (t : Fin 16) (c v : Nat) (rest : List (Nat × Nat)), (s.tap n t).scales = (c, v) :: rest → s.fsOn = true → c ≤ s.streamN n →
        exec (.levelScaleApply n t) s = .next ((s.setTap n t { s.tap n t with scales := rest }).setF (R.CHZ_TAP_LEVEL n t) 23 12 v))
    ∧ (∀ (k : Fin 4) (c lvl : Nat) (w : Word), (s.nf n k).engage = some (c, w, lvl) → s.fsOn = true → c ≤ s.streamN n → s.nfState n k = 1 →
        exec (.notchEngage n k) s = .next (raise 0x301 1 (unitId (1 + n.val) 7 k) [w, wd lvl]
          (((s.setNf n k NotchSt.idle).setReg (R.CHZ_NF_STAT n k) (wd (512 + lvl))).setReg (R.CHZ_NF_FREQ n k) w)))
    ∧ ∀ (k : Fin 4) (c : Nat), (s.nf n k).release = some c → s.fsOn = true → c ≤ s.streamN n → s.nfState n k = 2 →
        exec (.notchRelease n k) s = .next (raise 0x302 0 (unitId (1 + n.val) 7 k) [wd (s.nf n k).blocks]
          ((s.setNf n k NotchSt.idle).setReg (R.CHZ_NF_STAT n k) 256))

/-- Taps (R127 to R130): a write of a tap's configuration takes effect when it passes the tests of R127, and otherwise only marks the test it fails; enabled, the tap waits with its units; a waiting tap of a front end that produces starts at a sample cycle that its
decimation divides. Streams and replay (R140 to R145): a complete block of a stream is written to its ring as 32 header words and 3,840 payload bytes at slot PROD, SEQ and PROD moving on by one; one that is not
complete writes nothing, and one complete at shed step 3 is dropped; REPLAY_START in REPLAY begins and REPLAY_STOP ends with event 0x306; a replay block that is wrong is counted, no more
blocks are taken, and replay stops with its cause once the samples before it are written; a good one joins the buffer. The model's choices in it: notes/assumptions 40.md, 72.md, 79.md, 80.md, 84.md. -/
def Obligations.TapsStreamsAndReplay : Prop :=
  (∀ (n : Fin 4) (t : Fin 16) (s : State),
    (∀ (src : Src) (fcw : Bool) (v m f : Word) (l : RegLoc), s.srcLive src = true → s.feState n ≠ feRetired →
      regAt (if fcw then R.CHZ_TAP_FCW n t else R.CHZ_TAP_CFG n t) = some l →
      writeBad (if fcw then R.CHZ_TAP_FCW n t else R.CHZ_TAP_CFG n t) l v s = false →
      m = (if fcw then s.reg (R.CHZ_TAP_CFG n t) else wMerge l.row (s.reg (R.CHZ_TAP_CFG n t)) v) →
      f = (if fcw then v else s.reg (R.CHZ_TAP_FCW n t)) →
      (tapStatus n t m f s = 0 → exec (.tapCfgWrite src n t fcw v) s = .next (tapApply n t m f (s.onBus src)))
      ∧ (tapStatus n t m f s = 3 → exec (.tapCfgWrite src n t fcw v) s = .next ((s.onBus src).sticky (R.CHZ_STATUS n) 1))
      ∧ (tapStatus n t m f s = 6 → exec (.tapCfgWrite src n t fcw v) s = .next ((s.onBus src).sticky (R.CHZ_STATUS n) 0)))
    ∧ (∀ cfg f : Word, s.tapEn n t = false → bit cfg 0 = true → fld cfg 7 5 ≤ 4 →
      (tapApply n t cfg f s).reg (R.CHZ_TAP_CFG n t) = cfg ∧ (tapApply n t cfg f s).reg (R.CHZ_TAP_FCW n t) = f
        ∧ (tapApply n t cfg f s).tapState n t = 1 ∧ (tapApply n t cfg f s).rf (R.CHZ_TAP_STAT n t) 17 13 = tapUnits (fld cfg 7 5))
    ∧ (s.tapState n t = 1 → feProduces (s.feState n) = true → s.fsOn = true → s.cycle % tapDec (s.tapRate n t) = 0 →
      exec (.tapStart n t) s = .next (tapSetState n t (if s.feState n = feReplay then 3 else 2)
        (s.setTap n t { s.tap n t with firstN := s.cycle, newest := none }))))
  ∧ (∀ (n : Fin 4) (s : State),
    (∀ (k : Fin 17) (st : StreamSt) (b : StrS) (blk rest : List StrS) (es : List (Nat × Nat × Nat)) (q : Nat) (raw : List Nat) (bytes : List (BitVec 8)) (hdr : List Word),
      st = (if k.val = 16 then (s.fe n).strm else (s.tap n k.val).strm) →
      blockSplit (if k.val = 16 then 1920 else 3840) 0 [] [] st.q.reverse = (b :: blk, es, rest, true) →
      q = (if k.val = 16 then s.rf (R.CHZ_STREAM_CFG n) 4 0 else s.rf (R.CHZ_TAP_CFG n k.val) 14 10) →
      raw = ((b :: blk).map StrS.bytes).flatten → bytes = (raw ++ List.replicate (3840 - raw.length) 0).map (BitVec.ofNat 8) →
      hdr = [if k.val = 16 then s.reg (R.CHZ_STREAM_SEQ n) else (s.tap n k.val).seq, dtSec (dtOfCycle b.n), dtFrac (dtOfCycle b.n),
          wd ((if k.val = 16 then 0 else 17179869184 + k.val * 268435456 + s.tapRate n k.val * 33554432 + s.rf (R.CHZ_TAP_CFG n k.val) 8 8 * 16777216)
            + n * 4294967296 + (b :: blk).length * 4096 + es.length * 128),
          wd (b2n st.drop * 34359738368 + b.disc * 65536), wd (crc32 raw), 0, 0]
        ++ padTo 24 (es.map (fun (e : Nat × Nat × Nat) => wd (2 ^ e.1 * 16777216 + e.2.1 * 4096 + e.2.2))) →
      s.rf R.CUR_THERM_STAT 34 33 ≠ 3 → s.spiMode = false → s.linkUp = true → s.ringClass q = 0xC → s.ringOn q = true → s.ringOcc q < s.ringSize q →
      s.ringSize q ≤ 65536 →
      ∃ t, exec (.streamBlockEnd n k) s = .next t
        ∧ Out.ringBlock q (s.rf (R.RING_PROD q) 16 0 % s.ringSize q) (padTo (s.ringEntry q / 8 - bytes.length / 8) hdr) bytes ∈ t.out
        ∧ t.rf (R.RING_PROD q) 16 0 = (s.rf (R.RING_PROD q) 16 0 + 1) % (2 * s.ringSize q)
        ∧ (if k.val = 16 then t.reg (R.CHZ_STREAM_SEQ n) = s.reg (R.CHZ_STREAM_SEQ n) + 1 ∧ (t.fe n).strm = { st with q := rest.reverse, drop := false }
           else (t.tap n k.val).seq = (s.tap n k.val).seq + 1 ∧ (t.tap n k.val).strm = { st with q := rest.reverse, drop := false }))
    ∧ ((blockSplit 1920 0 [] [] (s.fe n).strm.q.reverse).2.2.2 = false →
      exec (.streamBlockEnd n 16) s = .next (s.setFe n (s.fe n)))
    ∧ (∀ (blk rest : List StrS) (b : StrS) (es : List (Nat × Nat × Nat)), blockSplit 1920 0 [] [] (s.fe n).strm.q.reverse = (b :: blk, es, rest, true) →
        s.rf R.CUR_THERM_STAT 34 33 = 3 →
        ∃ t, exec (.streamBlockEnd n 16) s = .next t ∧ (t.fe n).strm.q = rest.reverse ∧ (t.fe n).strm.drop = true
          ∧ t.reg (R.CHZ_STREAM_SEQ n) = s.reg (R.CHZ_STREAM_SEQ n) + 1 ∧ t.reg (R.CHZ_STREAM_DROP_CNT n) = bump (s.reg (R.CHZ_STREAM_DROP_CNT n)) 1
          ∧ bit (t.reg (R.CHZ_STATUS n)) 4 = true)
    ∧ (∀ src, s.srcLive src = true → s.booted = true →
      (s.feState n = feReplay → bit (s.reg (R.CHZ_REPLAY_STAT n)) 0 = false →
        ∃ t, exec (.chzCtrlReplayStart src n) s = .next t ∧ t.reg (R.CHZ_REPLAY_STAT n) = 3 ∧ (t.fe n).rep.buf = []
          ∧ (t.fe n).rep.expect = [] ∧ (t.fe n).rep.lastSeq = (s.fe n).rep.lastSeq)
      ∧ (bit (s.reg (R.CHZ_REPLAY_STAT n)) 0 = true →
        exec (.chzCtrlReplayStop src n) s = .next (keepSync (raise 0x306 2 (uChz n) [wd 1, (s.fe n).rep.lastSeq]
          (((s.onBus src).setReg (R.CHZ_REPLAY_STAT n) 16).setFe n { s.fe n with rep := { ReplaySt.idle with lastSeq := (s.fe n).rep.lastSeq } })))))
    ∧ ∀ (ring : Nat) (h : List Word) (bytes : List (BitVec 8)) (u : State), ring = s.rf (R.CHZ_REPLAY_CFG n) 4 0 →
        bit (s.reg (R.CHZ_REPLAY_STAT n)) 0 = true → (s.fe n).rep.bad = none → s.ringClass ring = 0xD → s.ringReady ring = true → u = ringConsume ring s →
        (∀ cause key, replayCause n h (bytes.map (fun b => b.toNat)) u = cause → cause ≠ 0 →
          key = (if bit (u.reg (R.CHZ_REPLAY_CFG n)) 8 then fld (h.getD 3 0) 31 28 else 16) →
          ∃ w, w = ((u.cnt (R.CHZ_REPLAY_REJ_CNT n)).sticky (R.CHZ_STATUS n) 6).setFe n
              { u.fe n with rep := { (u.fe n).rep with lastSeq := h.headD 0, bad := some (cause, key) } }
            ∧ exec (.replayBlock n h bytes) s = .next (if replayHas n key w then w else replayStop n cause w))
        ∧ (∀ n0, replayCause n h (bytes.map (fun b => b.toNat)) u = 0 → bit (u.reg (R.CHZ_REPLAY_CFG n)) 8 = false → (u.fe n).rep.expect = [] →
          n0 = cycleAtOrAfter (dtOf (h.getD 1 0) (h.getD 2 0)).toNat →
          exec (.replayBlock n h bytes) s = .next ((u.setFe n { u.fe n with
            rep := { (u.fe n).rep with
              buf := (u.fe n).rep.buf ++ replaySamples n0 1 16 true ((h.drop 8).take (fld (h.getD 3 0) 11 7)) (fld (h.getD 3 0) 23 12) 0 (bytes.map (fun b => b.toNat))
              expect := tset (fun _ => 0) [] 16 (n0 + fld (h.getD 3 0) 23 12), paused := false, lastSeq := h.headD 0, now := n0 } }).setF
                (R.CHZ_REPLAY_STAT n) 1 1 0)))

/-- Device time (R41): a sample cycle adds 537,331 to the sub-tick accumulator A, which is zero at reset, and DT advances by 420 ticks where A reaches 639,375, which is taken from it, and by 419 where not; so in a state
with the invariant DT is floor(N × 2^28 / 639,375) at sample cycle N, whatever the front ends do, and the commands waiting and held stay. With no front end producing, no ramp active, no second or 100 ms boundary and no delegate starved, nothing happens but that and the
comparisons; a comparison of a locked sample synthesiser is recorded, joins the run within WIN or beyond it, and is counted in its bin; with no fs the step changes nothing. -/
def Obligations.SampleCycleAdvancesDeviceTime : Prop :=
  State.reset.acc = 0
  ∧ ∀ (a b c d : BitVec 9 × BitVec 9) (cmps : List (Fin 9 × Int)) (starved : List (Fin 16)) (s : State),
    (s.fsOn = true → ∃ t, exec (.sampleCycle a b c d cmps starved) s = .next t ∧ t.cycle = s.cycle + 1
      ∧ t.acc = (if 639375 ≤ s.acc + 537331 then s.acc + 537331 - 639375 else s.acc + 537331)
      ∧ t.dt = s.dt + (if 639375 ≤ s.acc + 537331 then 420 else 419)
      ∧ (s.Inv → t.dt = BitVec.ofNat 72 (t.cycle * 2 ^ 28 / 639375))
      ∧ t.pending = s.pending ∧ t.cmdPend = s.cmdPend ∧ t.cmdPark = s.cmdPark)
    ∧ (s.fsOn = true → (∀ n : Fin 4, feProduces (s.feState n) = false) → (∀ u : Fin 8, (s.rampOf u).active = false) →
      s.cycle % 163680000 ≠ 0 → (s.cycle + 1) % 16368000 ≠ 0 →
      exec (.sampleCycle a b c d cmps []) s = .next (tickDt (phCompares cmps s)))
    ∧ (∀ e : Int, s.smpState = 2 → phCompares [(8, e)] s
        = ((s.setPll 8 ((s.pllOf 8).take e (decide (e.natAbs * 2000000000 ≤ 2 ^ s.rf R.SYN_SMP_CFG 3 2 * 17592186044416)) false)).setReg R.SYN_SMP_PHERR
            (wdI (divRound e 256))).cnt (R.SYN_PHHIST (max 0 (min 31 (e * 8000000000 / 17592186044416 + 16))).toNat))
    ∧ (s.fsOn = false → exec (.sampleCycle a b c d cmps starved) s = .next s)

/-! ## Acquisition (R148 to R185) -/

/-- The engine (R154 to R168): a capture that reaches its end is complete and one that lags fails; a half that is free takes the first job whose snapshot is complete and is in SEARCH, and while both are RETIRED that job ends ENGINE_RETIRED; at the end the job holds its result, which detects exactly when
the peak reaches the threshold, and the half is free or off as ACQ_CFG enables it; a residue fault reruns the job or retires the half; results go out oldest first at their nominal end, when their slots fall free. The model's choices in it: notes/assumptions 41.md, 43.md, 84.md. -/
def Obligations.AcquisitionEngineRunsJobs : Prop :=
  ∀ s : State,
    (∀ i : Fin 32, s.snapState i = 1 →
      (reached (s.snapFe i) (s.snap i).endN s = true → exec (.captureComplete i false) s = .next (s.setF (R.ACQ_SNAP_DESC i) 35 34 2))
      ∧ exec (.captureComplete i true) s = .next ((snapJobs i s).foldl (fun a j => jobOverrun j a) (s.setF (R.ACQ_SNAP_DESC i) 35 34 3)))
    ∧ (∀ (h : Fin 2) (us : Word) (j : Job), s.halfState h = 1 → s.acq.jobs.find? (fun j => j.stage == 0 && jobReady j s) = some j →
      exec (.jobStart h us) s = .next (setHalf h 2 (((s.setJob { j with stage := 1, half := if j.half = 3 then h else j.half }).setReg (R.ACQ_H_CUR_JOB h) j.seq).cnt
        (R.ACQ_H_IDLE_US h) us.toNat)))
    ∧ (∀ (h : Fin 2) (us : Word) (j : Job), s.acqGone = true → s.acq.jobs.find? (fun j => j.stage == 0 && jobReady j s) = some j →
      exec (.jobStart h us) s = .next (jobEnd j 5 j.half 0 s))
    ∧ (∀ (h : Fin 2) (us : Word) (j : Job), s.halfState h = 2 →
        s.acq.jobs.find? (fun j => j.seq == s.reg (R.ACQ_H_CUR_JOB h) && j.stage == 1) = some j →
      ∃ u, exec (.jobComplete h us) s = .next (fbSync (setHalf h (if bit (s.reg R.ACQ_CFG) h then 1 else 0) u))
        ∧ u.reg (R.ACQ_H_LAST_JOB h) = s.reg (R.ACQ_H_CUR_JOB h) ∧ u.reg (R.ACQ_H_JOBS_CNT h) = bump (s.reg (R.ACQ_H_JOBS_CNT h)) 1
        ∧ u.reg (R.ACQ_H_RATE h) = wd (min (two36 - 1) (j.cells / max 1 us.toNat)) ∧ u.acq.jobs = (jobSearch h j s.takeFree.2).acq.jobs)
    ∧ (∀ (h : Nat) (j : Job) (ws : List Word) (v : State) (o : SearchOut), snapRead j.pages (snapWords j.rate (j.tcoh * j.nnc)) 0 s = (some ws, v) →
        acqSearch v j (ws.map wordSamples).flatten = (false, o) →
      ∀ tested thresh, tested = acqW (sigRow j.sig) j.svk j.tcoh j.code j.cwin * (2 * acqJ j.span j.bin + 1) → thresh = acqThresh j.nnc j.pfa tested →
        jobSearch h j s = v.setJob { j with
          stage := 2, half := h,
          res := jobWords j 0 h (decide (thresh ≤ o.peak)) (acqCn0 o.peak j.nnc j.tcoh).2 (bitsS 16 (acqCn0 o.peak j.nnc j.tcoh).1) thresh tested o })
    ∧ (∀ (h : Fin 2) (retryOk : Bool) (u : State), s.halfState h ≠ 4 → faultJudge (uHalf h) 3 retryOk s.dt s = (none, u) →
      ∃ v, v = (((u.cnt (R.ACQ_H_RESIDUE_CNT h)).sticky (R.ACQ_H_STATUS h) 0).setDt (R.ACQ_H_FAULT_SEC h) (R.ACQ_H_FAULT_FRAC h) u.dt).setReg
          (R.ACQ_H_FAULT_INFO h) (s.reg (R.ACQ_H_CUR_JOB h))
        ∧ exec (.acqHalfFault h retryOk) s = .next (if s.halfState h = 2 then raise 0x409 0 (uHalf h) [s.reg (R.ACQ_H_CUR_JOB h)] v else v))
    ∧ (∀ (j : Job) (v : State), s.acq.jobs.find? (fun j => decide (j.stage < 3)) = some j → j.stage = 2 → s.fsOn = true → j.nomEnd ≤ s.smpNow → j.host = true →
        v = record j.ring 7 (j.seq :: j.res) (resultCount j (s.setJob { j with stage := 3 })) → (v.smpNow - j.nomEnd) * 25 / 4092 ≤ 34359738367 →
      exec .resultRecordWrite s = .next (v.maxF R.ACQ_LAG_MAX 34 0 ((v.smpNow - j.nomEnd) * 25 / 4092)))
    ∧ (s.fsOn = true → ∃ t, exec .jobNominalEnd s = .next t ∧ t.acq.jobs = s.acq.jobs.filter (fun j => decide (j.stage < 3 ∨ s.smpNow < j.nomEnd))
        ∧ t.mem = s.mem ∧ ∀ i : Fin 32, s.snapState i ≠ 0 → bit (s.reg (R.ACQ_SNAP_DESC i)) 33 = true →
          s.acq.jobs.any (fun j => j.snap == i.val && j.startN == (s.snap i).startN) = true →
          (∀ j ∈ s.acq.jobs, j.snap = i → j.startN = (s.snap i).startN → j.nomEnd ≤ s.smpNow) → t.snapState i = 0)

/-- The plan, the scheduler and fall-back (R168 to R180): a write of ACQ_CFG enables and disables the halves; PLAN_NOW asks for a rebuild; a rebuild begins at each multiple of PERIOD and is activated at its reference cycle when complete, or is late with
event 0x402 and then jobs carry TD; each tick is run once, in order, when the epochs up to it are closed and every channel has passed it, taking the lists due by it; at the end of a dwell of a fall-back search a value at the threshold ends the search with a detection on its channel, and none goes on to the next dwell or ends the search. The model's choices in it: notes/assumptions 42.md, 95.md. -/
def Obligations.PlanSchedulerAndFallback : Prop :=
  ∀ s : State,
    (∀ (src : Src) (v m : Word) (l : RegLoc), s.srcLive src = true → s.booted = true → regAt R.ACQ_CFG = some l → m = wMerge l.row (s.reg R.ACQ_CFG) v →
      exec (.acqCfgWrite src v) s = .next (acqCfgSet m (s.onBus src)) ∧ (acqCfgSet m s).reg R.ACQ_CFG = m
        ∧ ∀ h : Fin 2, (bit m h = true → s.halfState h = 0 → (acqCfgSet m s).halfState h = 1) ∧ (bit m h = false → s.halfState h = 1 → (acqCfgSet m s).halfState h = 0))
    ∧ (∀ src, s.srcLive src = true → s.booted = true →
      exec (.acqCtrlPlanNow src) s = .next { s.onBus src with acq := { s.acq with planNow := true } })
    ∧ (∀ (e : Nat) (rest : List Nat), s.acq.eks = e :: rest → catAlive s = true → epochsBy e s = true →
      exec .planRebuildStart s = .next (planStart e { s with acq := { s.acq with eks := rest } }))
    ∧ (∀ e, ∃ a, a = e + s.rf R.ACQ_PLAN_CFG 11 0 * 163680
        ∧ (planStart e s).acq.rebuilds = s.acq.rebuilds.filter (fun r => r.complete) ++ [⟨e, a, false, planEnts e a s, false, false⟩])
    ∧ (∀ (pre post : List Rebuild) (r : Rebuild), s.acq.rebuilds = pre ++ r :: post → (∀ x ∈ pre, x.complete = true ∨ x.dead = true) →
        r.complete = false → r.dead = false →
      exec .planRebuildComplete s = .next { s with acq := { s.acq with rebuilds := pre ++ { r with complete := true } :: post } })
    ∧ (∀ r, planDue s.smpNow s = some r → s.fsOn = true →
      (r.complete = true → ∃ u, exec .planActivate s = .next (raise 0x401 0 uAcq [nextSeq s.acq.lastGen, wd r.ents.length] u)
        ∧ u.acq.plan = some ⟨nextSeq s.acq.lastGen, r.aN, r.aN, r.ents⟩ ∧ u.acq.planOld = s.acq.plan ∧ u.acq.rebuilds = s.acq.rebuilds.erase r
        ∧ (∀ a, s.acq.td = some (a, none) → u.acq.td = some (a, some r.aN))
        ∧ u.reg R.ACQ_PLAN_GEN = nextSeq s.acq.lastGen ∧ u.reg R.ACQ_PLAN_SEC = dtSec (dtOfCycle r.aN) ∧ u.reg R.ACQ_PLAN_FRAC = dtFrac (dtOfCycle r.aN))
      ∧ (r.complete = false → ∃ u, exec .planActivate s = .next (raise 0x402 2 uAcq [(s.acq.plan.map (fun p => p.gen)).getD 0] u)
        ∧ (r.dead = false → { r with late := true } ∈ u.acq.rebuilds) ∧ u.acq.plan = s.acq.plan
        ∧ (∃ a, u.acq.td = some (a, none) ∧ (s.acq.td = some (a, none) ∨ a = r.aN))
        ∧ u.reg R.ACQ_PLAN_LATE_CNT = bump (s.reg R.ACQ_PLAN_LATE_CNT) 1))
    ∧ (∀ (n : Nat) (rest : List Nat), s.acq.ticks = n :: rest → catAlive s = true → epochsBy n s = true → planDue n s = none → allPassed n s = true →
      ∃ t, exec .schedulerTick s = .next t ∧ t.acq.ticks = rest ∧ t.acq.listDue = s.acq.listDue.filter (fun p => decide (n < p.2.1))
        ∧ (s.rf R.ACQ_SCHED_CFG 21 20 ≠ 0 → t.reg R.ACQ_SCHED_TICKS = bump (s.reg R.ACQ_SCHED_TICKS) 1)
        ∧ (s.rf R.ACQ_SCHED_CFG 21 20 = 0 → s.acq.rebuilds = [] → s.acq.planNow = false → t.regs = s.regs ∧ t.mem = s.mem))
    ∧ ∀ (c : Fin 2048) (f : FbSearch) (o : SearchOut) (e : Nat) (u : State), s.fbOf c = some f → f.job.nnc ≤ f.blk →
        o = fbReport f f.dwellN f.values (f.cells ++ f.values) → e = f.dwellN + f.job.tcoh * 163680 * f.job.nnc → u = fbClose f true o s →
        ((∃ v ∈ f.values, searchThresh f.job ≤ v.2.2) →
          exec (.fallbackDwellEnd c) s = .next (doAssign (detAssign f.job (some c.val) e o.code o.dopp (dtOfCycle f.dwellN) (s.reg R.ACQ_JOB_SEQ) u) u))
        ∧ ((∀ v ∈ f.values, v.2.2 < searchThresh f.job) → 0 < searchThresh f.job → f.dwell + 1 < f.dwells →
          ∃ g, exec (.fallbackDwellEnd c) s = .next (s.setFb g) ∧ g.chan = f.chan ∧ g.dwell = f.dwell + 1 ∧ g.dwellN = e ∧ g.blk = 0 ∧ g.cells = f.cells ++ f.values)
        ∧ ((∀ v ∈ f.values, v.2.2 < searchThresh f.job) → 0 < searchThresh f.job → f.dwells ≤ f.dwell + 1 →
          ∃ w, exec (.fallbackDwellEnd c) s = .next (w.setChan c ((w.chan c).gone e)) ∧ w = fbClose f false (fbReport f f.dwellN (f.cells ++ f.values) (f.cells ++ f.values)) s)

/-- A command of group 0x4 that passes its checks has its effect at its grid point and is answered OK: ACQ_JOB with the job's number, nominal end and cells, ACQ_SNAP with the first sample and the pages, ACQ_CANCEL with
the jobs ended, the others with nothing; a job, a capture and a bank return find the pages that the nominal schedule has released by their grid point. A command of group 0x5 that passes its checks takes effect and is answered OK: CH_ASSIGN with the channel, its units and the entry; CH_RELEASE and CH_CONFIG with the boundary; CH_MOVE waits with its channel and is answered when the move is made; LOOP_PARAM_SET and
LOOP_SELECT with the DT from which they hold; LOOP_PARAM_GET with the seven words of the set; LOOP_STATUS with the sixteen words of the channel. The model's choices in it: notes/assumptions 30.md, 43.md, 45.md. -/
def Obligations.AcquisitionAndChannelCommands : Prop :=
  (∀ (h : HeldCmd) (u : State) (g : Nat), g = h.n u →
    (∃ (j0 j : Job) (v : State), jobAdmit j0 (snapsRelease g u) = (j, v) ∧ j0.sig = h.pk.pf 0 27 20 ∧ j0.svk = h.pk.pf 0 19 9 ∧ j0.tcoh = h.pk.pf 1 28 22
        ∧ j0.nnc = h.pk.pf 1 21 15 ∧ j0.host = true ∧ j0.tag = h.pk.tag.toNat ∧ j0.snap = h.pk.pf 0 4 0 ∧ j0.entryN = g
        ∧ Takes .acqJob acqJobSpec h u (reply h 0 (dtOfCycle g) ([j.seq] ++ dtWords (dtOfCycle j.nomEnd) ++ [wd j.cells]) v)
        ∧ j.seq = u.reg R.ACQ_JOB_SEQ ∧ j.cells = acqCells (sigRow j0.sig) j0.svk j0.tcoh j0.nnc j0.code j0.cwin j0.span j0.bin
        ∧ v.reg R.ACQ_JOB_SEQ = nextSeq (u.reg R.ACQ_JOB_SEQ) ∧ j.startN = ((snapsRelease g u).snap (h.pk.pf 0 4 0)).startN)
    ∧ (∀ n t, n = h.pk.pf 0 10 9 → t = h.pk.pf 0 8 5 → Takes .acqSnap acqSnapSpec h u (reply h 0 (dtOfCycle g)
        (dtWords (dtOfCycle g) ++ [wd (snapPages (u.tapRate n t) (h.pk.pf 0 24 12))])
        (capEnter (h.pk.pf 0 4 0) n t (h.pk.pf 0 24 12) g (bit (h.pk.par 0) 11) (snapsRelease g u))))
    ∧ Takes .acqSnapRelease acqReleaseSpec h u (reply h 0 (dtOfCycle g) [] (snapFree (h.pk.pf 0 4 0) u))
    ∧ (∀ js, js = u.acq.jobs.filter (cancels (h.pk.par 0) g) → Takes .acqCancel acqCancelSpec h u
        (reply h 0 (dtOfCycle g) [wd js.length] (js.foldl (fun a j => (jobEnd j 1 3 0 a).cnt R.ACQ_CANCEL_CNT) u)))
    ∧ Takes .acqSchedList acqListSpec h u (reply h 0 (dtOfCycle (ceilDiv g 16368000 * 16368000)) []
        { u with acq := { u.acq with listDue := u.acq.listDue ++ [(h.pk.pf 0 1 0, ceilDiv g 16368000 * 16368000, listSigs h.pk)] } })
    ∧ Takes .acqBankReturn acqReturnSpec h u (reply h 0 (dtOfCycle g) [] (bankOwnerWrite 5 uAcq (h.pk.pf 0 3 0) 0 (snapsRelease g u))))
  ∧ (∀ (h : HeldCmd) (u : State),
    (∀ n c, n = h.n u → assignPlace h.pk u = some c → ∃ t, t = doAssign (assignOf h c n) u
        ∧ Takes .chAssign chAssignSpec h u (reply h 0 (dtOfCycle n) ([wd c, wd (t.chan c).units] ++ dtWords (dtOfCycle n)) t)
        ∧ (t.chan c).cond = 1 ∧ (t.chan c).units = tapUnits (u.tapRate (h.pk.pf 1 25 24) (h.pk.pf 1 23 20)) ∧ (t.chan c).sig = h.pk.pf 0 27 20
        ∧ t.assignQ = u.assignQ ++ [assignOf h c n] ∧ t.mem = u.mem)
    ∧ (∀ c v k w, c = h.pk.pf 0 10 0 → v = ensureEntered c u → (v.chan c).relAt = none → k = unposted c v → w = v.setChan c { v.chan c with relAt := some (k, 1) } →
        Takes .chRelease chReleaseSpec h u (reply h 0 (chanAt c u) (dtWords (chanAt c u)) (if (v.chan c).proc + 2 < k then stopPost c k w else w)))
    ∧ (∀ c v, c = h.pk.pf 0 10 0 → v = ensureEntered c u → Takes .chConfig chConfigSpec h u (reply h 0 (chanAt c u) (dtWords (chanAt c u))
            (v.setChan c { v.chan c with cfgAt := (v.chan c).cfgAt ++ [(unposted c v, bit (h.pk.par 0) 11, bit (h.pk.par 0) 12, bit (h.pk.par 0) 13)] })))
    ∧ (∀ c v, c = h.pk.pf 0 10 0 → v = ensureEntered c u → Takes .chMove chMoveSpec h u
        (v.setChan c { v.chan c with mv := some ⟨unposted c v, h.op, h.pk, h.cidx, h.late, v.dt⟩ }))
    ∧ (h.pk.pf 0 5 4 = 1 → Takes .wgCtrl wgCtrlSpec h u (reply h 0 u.dt [] (wgEnable (h.pk.pf 0 3 0) u)))
    ∧ (h.pk.pf 0 5 4 = 2 → Takes .wgCtrl wgCtrlSpec h u (reply h 0 u.dt [] (wgDisable (h.pk.pf 0 3 0) u)))
    ∧ (∀ k d, k = h.pk.pf 0 27 25 → d = loopAt k none h u → Takes .loopParamSet loopParamSetSpec h u
        (reply h 0 d (dtWords d) (loopChange ⟨k, none, (List.range 7).map (fun i => h.pk.par i), none, d⟩ u)))
    ∧ (∀ c d, c = h.pk.pf 0 10 0 → d = loopAt 0 (some c) h u → Takes .loopSelect loopSelectSpec h u
        (reply h 0 d (dtWords d) (loopChange ⟨h.pk.pf 0 13 11, some c, [], none, d⟩ (ensureEntered c u))))
    ∧ Takes .loopParamGet loopParamGetSpec h u (reply h 0 u.dt (u.loopSetAt (h.pk.pf 0 2 0) u.dt) u)
    ∧ Takes .loopDefault loopDefaultSpec h u
        (reply h 0 u.dt [] { u with loop := { u.loop with dflt := tset (fun _ => 0) u.loop.dflt (h.pk.pf 0 5 4) (h.pk.pf 0 2 0) } })
    ∧ Takes .loopStatus loopStatusSpec h u (reply h 0 u.dt (u.peekList (kLoop (h.pk.pf 0 10 0)) 16) u)
    ∧ (∀ k d, k = h.pk.pf 0 2 0 → d = loopAt k none h u → Takes .loopHook loopHookSpec h u
        (reply h 0 d [] (loopChange ⟨k, none, [], some (h.pk.pf 0 26 3), d⟩ u))))

/-! ## Wings and correlator channels (R17 to R34, R186 to R244) -/

/-- Faults (R29, R30): a fault is permanent with cause 0 when its retry fails, with cause 1 when it is the K-th of the unit within WINDOW seconds, and transient otherwise. Wings and moves (R188, R211 to R213, R240): enabling an OFF wing is STARTING, its core's readiness is ON, disabling an ON wing with no channel is OFF;
a core fault is recorded and the core reloaded, or the wing retired; the first assignment whose grid point has come enters on its channel, one of the scheduler's on the channel the placement gives it then; a move is made at its boundary to a target chosen there and answered; an overrun releases the channel. The model's choices in it: notes/assumptions 45.md. -/
def Obligations.WingsAndChannelAssignment : Prop :=
  ∀ s : State,
    (∀ (src : Src) (w : Fin 16), s.srcLive src = true → s.booted = true →
      (s.wgState w = 0 → ∃ t, exec (.wgCtrlEnable src w) s = .next t ∧ t.wgState w = 1 ∧ t.reg (R.WG_STATE_SEC w) = dtSec s.dt ∧ t.chans = s.chans
        ∧ ∀ v : Fin 16, v ≠ w → t.wgState v = s.wgState v ∧ t.core v = s.core v)
      ∧ (s.wgState w = 2 → wgCount w s = 0 → ∃ t, exec (.wgCtrlDisable src w) s = .next t ∧ t.wgState w = 0 ∧ t.core w = ApCore.off ∧ t.chans = s.chans))
    ∧ (∀ w : Fin 16, s.wgState w = 1 → ∃ t, exec (.wingCoreReady w) s = .next t ∧ t.wgState w = 2 ∧ t.reg (R.WG_STATE_SEC w) = dtSec s.dt
        ∧ t.reg (R.WG_STATE_FRAC w) = dtFrac s.dt ∧ t.chans = s.chans ∧ t.cores = s.cores)
    ∧ (∀ (u kind : Nat) (retryOk : Bool) (d : Dt), (faultJudge u kind retryOk d s).1
        = if retryOk = false then some 0
          else if (s.policyOf kind).k - 1 ≤ (s.faultsOf u).length
            ∧ ((s.faultsOf u).take ((s.policyOf kind).k - 1)).all (fun f => dtGe f (d - BitVec.ofNat 72 ((s.policyOf kind).win * 68719476736))) = true then some 1
          else none)
    ∧ (∀ (w : Fin 16) (cause : BitVec 5) (pc : BitVec 24) (retryOk : Bool) (u : State), s.wgState w = 2 →
      (faultJudge (uWgCore w) 1 retryOk s.dt s = (none, u) →
        ∃ v, exec (.wingCoreFault w cause pc retryOk false) s = .next (raise 0x509 1 (uWgCore w) [wd cause.toNat, wd pc.toNat] v)
          ∧ v.reg (R.WG_CORE_STAT w) = wd (pc.toNat * 32 + cause.toNat) ∧ v.reg (R.WG_CORE_FAULT_INFO w) = wd cause.toNat
          ∧ v.reg (R.WG_CORE_RELOAD_CNT w) = bump (s.reg (R.WG_CORE_RELOAD_CNT w)) 1 ∧ v.chans = s.chans)
      ∧ ∀ k, faultJudge (uWgCore w) 1 retryOk s.dt s = (some k, u) →
        ∃ v, exec (.wingCoreFault w cause pc retryOk false) s = .next (wgRetire w k v) ∧ v.reg (R.WG_CORE_STAT w) = wd (pc.toNat * 32 + cause.toNat)
          ∧ v.reg (R.WG_CORE_FAULT_INFO w) = wd (32 + cause.toNat) ∧ v.chans = s.chans)
    ∧ (∀ (a : Assign) (c p : Nat), firstAssign (s.assignQ.filter (fun a => reached a.fe a.n s)) = some a →
        p = entryPos (sigRow a.sig) a.svk a.fcn a.code a.dopp a.ref (dtOfCycle a.n) →
        (a.chan = some c ∧ (s.chan c).cond ≠ 0 ∧ (s.chan c).entered = false
          ∨ a.chan = none ∧ hostAhead a.n s [] s.cmdPend = false ∧ gridTooOld a.fe a.tap a.n s = false ∧ placeAuto (tapUnits (s.tapRate a.fe a.tap)) false s = some c) →
      ∃ t, exec .channelAssignmentEntry s = .next t ∧ t.assignQ = s.assignQ.erase a ∧ (t.chan c).entered = true ∧ (t.chan c).state = 1
        ∧ (t.chan c).nextN = a.n ∧ (t.chan c).dopp0 = a.dopp
        ∧ (t.chan c).pos = (if a.prim then p % (primLen (sigRow a.sig) * 4096) else p) * 16777216
        ∧ (∀ d, d ≠ c → t.chan d = s.chan d) ∧ t.reg (R.WG_ASSIGN_CNT (c / 128)) = bump (s.reg (R.WG_ASSIGN_CNT (c / 128))) 1)
    ∧ ∀ c : Fin 2048,
      (∀ m k, (s.chan c).mv = some m → (s.chan c).running = false → (s.chan c).j = m.j → moveTarget m.pk s = some k →
        exec (.channelMove c) s = .next (reply ⟨m.op, m.pk, m.cidx, m.late, false, m.at_, [], none⟩ 0 (dtOfCycle (s.chan c).nextN)
          (wd k :: dtWords (dtOfCycle (s.chan c).nextN)) (moveNow c k false s)))
      ∧ ((s.chan c).cond ≠ 0 → (s.chan c).entered = true → 327360 < chLag (s.chan c) s →
        ∃ t, exec (.channelOverrun c) s = .next t ∧ t.chan c = (s.chan c).gone (chNeed (s.chan c))
          ∧ t.reg (R.WG_OVERRUN_CNT (c.val / 128)) = bump (s.reg (R.WG_OVERRUN_CNT (c.val / 128))) 1
          ∧ t.reg (R.WG_RELEASE_CNT (c.val / 128)) = bump (s.reg (R.WG_RELEASE_CNT (c.val / 128))) 1)

/-- Integrations (R200 to R208, R221): when its first sample is there a channel reads its slot: with the token of the integration it latches the slot and runs for the samples R201 counts, without it it waits, and a waiting channel reads again; on a channel of a fall-back search a block of its dwell begins; the last
samples there, the result is written and the next integration is at its end; a segment whose residues agree is correlated, one that does not is retried with event 0x505; the loop program processes each result once, in order. The model's choices in it: notes/assumptions 46.md, 47.md, 85.md. -/
def Obligations.ChannelIntegrationsRun : Prop :=
  ∀ (c : Fin 2048) (s : State),
    (startable c s = true → (s.chan c).cond ≠ 3 → (s.chan c).stopAct = none → chHas (s.chan c) (s.chan c).nextN s = true →
      (s.fbOf c = none → exec (.integrationStart c) s = .next (tokenRead c false s))
      ∧ ∀ f, s.fbOf c = some f → exec (.integrationStart c) s = .next (fbBegin c f s))
    ∧ (startable c s = true → (s.chan c).cond ≠ 3 → ∀ a, (s.chan c).stopAct = some a → (s.chan c).j ≤ (s.chan c).proc →
      exec (.integrationStart c) s = .next (chanRelease c a (s.chan c).nextN s))
    ∧ (startable c s = true → (s.chan c).cond = 3 → exec (.tokenLatch c) s = .next (tokenRead c true s))
    ∧ (∀ (again : Bool) (v : State) (ws : List Word), (s.chan c).cfgAt = [] → slotRead c (s.chan c).j [0] [] s = (v, .inl ws) →
      (fld (ws.getD 0 0) 35 20 = (s.chan c).j % 65536 → ∀ (v' : State) (sl : List Word), slotRead c (s.chan c).j [1, 2, 3, 4, 5, 6] ws v = (v', .inl sl) →
        slotBad (s.chan c).sig sl = false → bit (ws.getD 0 0) 19 = false → tokenRead c again s = integBegin c sl false v')
      ∧ (fld (ws.getD 0 0) 35 20 ≠ (s.chan c).j % 65536 → (s.chan c).freerun = false →
        tokenRead c again s = if again then v else (v.setChan c { s.chan c with cond := 3, waited := true }).cnt (R.WG_TOKEN_WAIT_CNT (c.val / 128))))
    ∧ (∀ (ws : List Word) (x : Chan), x = (integBegin c ws false s).chan c → ∀ p, p = (jumpPos (sigRow (s.chan c).sig) (s.chan c).svk (s.chan c).pos (ws.getD 4 0).toInt).1 →
      x.running = true ∧ x.cond = 2 ∧ x.slot = ws ∧ x.j = (s.chan c).j ∧ x.phi = ((s.chan c).phi + (ws.getD 3 0).toNat) % two36 ∧ x.pos = p ∧ x.runTd = false
        ∧ x.endN = (s.chan c).nextN + integSamples (sigRow (s.chan c).sig) p (fld (ws.getD 0 0) 6 0) (ws.getD 2 0).toNat * tapDec (s.tapRate (s.chan c).fe (s.chan c).tap))
    ∧ (∀ e, e = endEff (s.chan c) s → (s.chan c).running = true → chLag (s.chan c) s ≤ 327360 →
        chHas (s.chan c) (lastBefore e (s.chan c) s) s = true →
      ∃ (x : Chan) (u : State), corrTo e (s.chan c) (lagNote c s) = (x, u) ∧ exec (.integrationEnd c) s = .next (integFinish c e 0 (u.setChan c x)))
    ∧ (∀ e, ((integFinish c e 0 s).chan c).j = (s.chan c).j + 1 ∧ ((integFinish c e 0 s).chan c).running = false ∧ ((integFinish c e 0 s).chan c).nextN = e
        ∧ ∀ d : Fin 2048, d ≠ c → (integFinish c e 0 s).chan d = s.chan d)
    ∧ (∀ e, e = min (((s.chan c).segN / 81840 + 1) * 81840) (endEff (s.chan c) s) → (s.chan c).running = true → (s.chan c).segN < e →
        chLag (s.chan c) s ≤ 327360 → chHas (s.chan c) (lastBefore e (s.chan c) s) s = true →
      (∀ (x : Chan) (u : State) (r : Bool), corrTo e (s.chan c) (lagNote c s) = (x, u) → exec (.residueCheckpoint c false r) s = .next (u.setChan c x))
      ∧ ∀ (x : Chan) (u v : State), faultJudge (uCh c) 0 true s.dt ((lagNote c s).sticky (R.WG_STATUS (c.val / 128)) 0) = (none, v) → corrTo e (s.chan c) v = (x, u) →
        exec (.residueCheckpoint c true true) s = .next (raise 0x505 0 (uCh c) [wd x.j] ((u.setChan c x).cnt (R.WG_RETRY_CNT (c.val / 128)))))
    ∧ (∀ (b : Bool) (k : Contrib), loopReady c s = some k →
      ∃ t, exec (.loopProcessIntegration c b) s = .next t ∧ (t.chan c).proc = (s.chan c).proc + 1 ∧ (t.chan c).j = (s.chan c).j ∧ (t.chan c).lli = false
        ∧ (∀ y ∈ (t.chan c).contribs, y.j = k.j → y.done = true) ∧ t.dt = s.dt)

/-! ## Epochs, solutions, steering and timing (R245 to R317) -/

/-- Epochs, solutions and steering (R247, R270, R271, R284, R289, R29 to R31): an epoch that is ready and held by no command is closed with the commands that take effect at it, in the order records, solution; the oldest waiting solution epoch is solved, rate-limited or the first
after a take-over; with no usable signal a unit that was valid goes into holdover; a grid point sends the code in force; a core fault reloads the core or retires it. The model's choices in it: notes/assumptions 48.md, 49.md, 50.md, 84.md, 87.md, 88.md, 89.md, 90.md, 91.md, 92.md, 93.md. -/
def Obligations.EpochsSolutionsAndSteering : Prop :=
  ∀ s : State,
    (∀ e, e = s.nextEpoch → epochReady e s = true → epochHeld e s = false → s.sol.epochs = [] →
      exec .epochRecords s = .next (epochCommands true e.dt (closeEpoch e (epochCommands false e.dt s))))
    ∧ (∀ e, (closeEpoch e s).reg R.OBS_EPOCH_SEC = dtSec e.dt ∧ (closeEpoch e s).reg R.OBS_EPOCH_FRAC = dtFrac e.dt ∧ (closeEpoch e s).obs.closed = some e.dt
        ∧ (closeEpoch e s).reg R.OBS_CFG = e.cfg)
    ∧ (∀ (ep : SolEp) (rest : List SolEp) (u : State), s.sol.epochs = ep :: rest → u = { s with sol := { s.sol with epochs := rest } } →
        s.rf R.SOL_CORES 5 4 ≠ 3 → s.sol.takeover = false →
      (s.catCore ≠ s.solCore → exec .solutionEpoch s = .next (solCompute s.solCore ep u))
      ∧ (s.catCore = s.solCore → ep.num % (max 1 (s.rf R.SOL_CFG 35 28) * max 1 (ceilDiv 8184000 (max 1 (s.rf R.SOL_CFG 35 28) * max 1 ep.iv))) ≠ 0 →
        ∀ v k, v = u.cnt R.SOL_RATELIM_CNT → k = stepsAfter ep v →
        exec .solutionEpoch s = .next (stepShift (-k) (solRecord ep.dt s.solCore ep.disc { SolRec.empty with
          rate := true, hold := (if s.sol.holdover then (ep.dt - s.sol.t0).toNat / 68719476736 else 0) } (stepShift k v)))))
    ∧ (∀ (core : Nat) (ep : SolEp) (v : State), v = [4, 8, 9, 10, 11, 12, 13].foldl (leapSettle ep.dt) (stepShift (stepsAfter ep s) s) →
        usableSats ep.dt ep.recs v = [] → s.sol.everValid = true → s.sol.holdover = false →
      (solCompute core ep s).sol.holdover = true ∧ (solCompute core ep s).reg R.SOL_HOLD_CNT = bump (s.reg R.SOL_HOLD_CNT) 1
        ∧ (solCompute core ep s).reg R.SOL_LAST_SEC = dtSec ep.dt ∧ (solCompute core ep s).reg R.SOL_HOLD_SEC = dtSec s.sol.t0)
    ∧ (s.fsOn = true → bit (s.reg R.OSS_CFG) 0 = true → s.rf R.OSS_CFG 11 5 ≠ 0 → s.cycle % (163680000 / s.rf R.OSS_CFG 11 5) = 0 → s.rf R.OSS_CFG 2 1 = 1 →
      ∃ t, exec .ossGridPoint s = .next t ∧ t.out = Out.oss (ossFrame (s.rf R.OSS_MANUAL 23 0) s).1 (ossFrame (s.rf R.OSS_MANUAL 23 0) s).2 :: s.out
        ∧ t.reg R.OSS_CODE = wd (s.rf R.OSS_MANUAL 23 0) ∧ t.reg R.OSS_CODE_SEC = dtSec s.dt ∧ t.reg R.OSS_WRITE_CNT = bump (s.reg R.OSS_WRITE_CNT) 1
        ∧ (∀ o, o ∉ [R.OSS_CODE, R.OSS_CODE_SEC, R.OSS_WRITE_CNT] → t.reg o = s.reg o) ∧ t.mem = s.mem)
    ∧ ∀ (k : Fin 2) (retryOk : Bool) (u : State), bit (s.reg R.SOL_CORES) (4 + k) = false → (s.core (16 + k)).started = true →
        (faultJudge (uSolk k) 4 retryOk s.dt s = (none, u) → exec (.solutionCoreFault k retryOk) s = .next (solStart k u))
        ∧ ∀ c, faultJudge (uSolk k) 4 retryOk s.dt s = (some c, u) → exec (.solutionCoreFault k retryOk) s = .next (solRetire k u)

/-- Pulse outputs and captures (R299 to R312): a model update takes effect 327,360 sample cycles after its epoch; an output in WAIT whose scale is available enters RUN with no label emitted and no Δ; an edge is committed 64 sample cycles ahead; a leading edge shows its DT and counts the pulse, and its
trailing edge ends it; a slew that has reached zero ends with event 0x703; a write of JUMP waits for its boundary, and a jump removes Δ with event 0x704. A selected edge at a capture input is stamped with its DT, ignored within the dead time, or lost when 64 wait, and its record is written from the front of the queue; a new CAP_CFG is met by the edges from its write on. The model's choices in it: notes/assumptions 51.md, 68.md. -/
def Obligations.PulseOutputsAndCaptures : Prop :=
  ∀ (n : Fin 4) (s : State), s.fsOn = true →
    (∀ (c : Nat) (te : Dt) (ms : List (Nat × TModel)) (rest : List (Nat × Dt × List (Nat × TModel))), s.tpc.upd = (c, te, ms) :: rest → c ≤ s.cycle →
      exec .tpModelUpdate s = .next (tpUpdateOne s.tpc.models 3 (tpUpdateOne s.tpc.models 2 (tpUpdateOne s.tpc.models 1 (tpUpdateOne s.tpc.models 0
        { s with tpc := { s.tpc with models := overModels s.tpc.models ms, upd := rest } })))))
    ∧ (s.tpState n = 1 → (s.model (s.tpScale n)).avail = true → ∃ u ps, exec (.tpFirstAlignment n) s = .next (raise 0x701 1 (uTp n) ps u)
        ∧ u.tpState n = 2 ∧ (u.tp n).delta = 0 ∧ (u.tp n).lastLabel = none ∧ (u.tp n).first = true ∧ (u.tp n).pulses = 0 ∧ bit (u.reg (R.TP_STATUS n)) 0 = true)
    ∧ (∀ l t : Int, s.tpState n = 2 → (s.tp n).edge = none → (s.tp n).stopping = false → (s.model (s.tpScale n)).avail = true → tpNext n s = (l, t, 0) →
        t ≤ 16 * (dtOfCycle (s.cycle + 64)).toNat →
        exec (.tpEdgeCommit n) s = .next (s.setTp n { s.tp n with edge := some (tpCommit n l t t false s), skip := (s.tp n).skip + 0, returned := false }))
    ∧ (∀ e tick, (s.tp n).edge = some e → e.late = false → s.tpState n ≠ 3 → tick = (e.at16 + 8) / 16 → tick ≤ (s.dt.toNat : Int) →
        ∃ t, exec (.tpLeadingEdge n) s = .next t ∧ t.reg (R.TP_LAST_SEC n) = dtSec (BitVec.ofInt 72 tick) ∧ t.reg (R.TP_LAST_FRAC n) = dtFrac (BitVec.ofInt 72 tick)
          ∧ t.reg (R.TP_PULSE_CNT n) = bump (s.reg (R.TP_PULSE_CNT n)) 1 ∧ (t.tp n).edge = none ∧ (t.tp n).level = true ∧ (t.tp n).pulses = (s.tp n).pulses + 1
          ∧ (t.tp n).trail = some (e.at16 + divRound ((s.reg (R.TP_WIDTH n)).toNat * sec16) 1000000000)
          ∧ (t.tp n).lastLabel = if e.scale = s.tpScale n then some e.code else (s.tp n).lastLabel)
    ∧ (∀ t, (s.tp n).trail = some t → s.tpState n ≠ 3 → (t + 8) / 16 ≤ (s.dt.toNat : Int) → (s.tp n).stopping = false →
        exec (.tpTrailingEdge n) s = .next (s.setTp n { s.tp n with trail := none, lastTrail := some t, level := false, stopping := false }))
    ∧ (s.tpState n = 2 → (s.tp n).delta ≠ 0 → tpDelta n s.now16 s = 0 →
        exec (.slewComplete n) s = .next (raise 0x703 0 (uTp n) [wd ((s.dt - (s.tp n).slewAt).toNat * 1000 / 68719476736)]
          (((s.setTp n { s.tp n with delta := 0 }).setF (R.TP_STATE n) 3 3 0).setReg (R.TP_SLEW_END_SEC n) 0)))
    ∧ (∀ (src : Src) (h : HeldCmd), s.srcLive src = true → s.booted = true →
        h = ⟨0x701, ⟨0, 1, false, false, false, true, 0, [wd (2 ^ n.val)], .ok []⟩, 262144, false, false, s.dt, [uTp n], some (s.cycle + 16368)⟩ →
        exec (.tpCtrlJump src n) s = .next { s.onBus src with cmdPend := s.cmdPend ++ [h] })
    ∧ (∀ cause, ∃ u, tpJump n cause s = (tpDelta n s.now16 s, raise 0x704 2 (uTp n) [wdI (tpDelta n s.now16 s), wd cause] u) ∧ (u.tp n).delta = 0
        ∧ (u.tp n).jump = true ∧ u.reg R.TPC_JUMP_CNT = bump (s.reg R.TPC_JUMP_CNT) 1 ∧ u.reg (R.TP_SLEW_END_SEC n) = 0)
    ∧ (∀ (rising : Bool) (d : Dt), (if rising then fld (capCfgAt n d s) 4 3 % 2 = 1 else 2 ≤ fld (capCfgAt n d s) 4 3) →
      ((∀ l, (s.cap n).last = some l → Config.deadTicks % 6872 ≤ (d - l).toNat) → (s.cap n).fifo.length < 64 →
        ∃ t, exec (.captureEdge n rising d) s = .next t ∧ (t.cap n).fifo.length = (s.cap n).fifo.length + 1 ∧ (t.cap n).last = some d
          ∧ t.reg (R.CAP_LAST_SEC n) = dtSec d ∧ t.reg (R.CAP_LAST_FRAC n) = dtFrac d ∧ t.reg (R.CAP_FIFO n) = wd ((s.cap n).fifo.length + 1)
          ∧ t.reg (R.CAP_LEVEL n) = wd (b2n rising) ∧ bit (t.reg (R.CAP_STATUS n)) 0 = true ∧ t.mem = s.mem ∧ t.out = s.out)
      ∧ ((∀ l, (s.cap n).last = some l → Config.deadTicks % 6872 ≤ (d - l).toNat) → 64 ≤ (s.cap n).fifo.length →
        ∃ v, exec (.captureEdge n rising d) s = .next (capLose n v) ∧ (v.cap n).fifo = (s.cap n).fifo ∧ (v.cap n).last = some d ∧ (v.cap n).lost = (s.cap n).lost
          ∧ v.reg (R.CAP_LAST_SEC n) = dtSec d ∧ v.reg (R.CAP_LEVEL n) = wd (b2n rising) ∧ v.mem = s.mem ∧ v.out = s.out)
      ∧ (∀ l, (s.cap n).last = some l → (d - l).toNat < Config.deadTicks % 6872 →
        exec (.captureEdge n rising d) s = .next (capDead n (s.setReg (R.CAP_LEVEL n) (wd (b2n rising))))))
    ∧ (∀ (e : CapEnt) (rest : List CapEnt), (s.cap n).fifo = e :: rest → s.rf R.TPC_RINGS 12 8 ≠ 0 →
        exec (.captureRecordWrite n) s = .next (recordSeq (s.rf R.TPC_RINGS 12 8) 8 R.TPC_CAP_SEQ (fun q => q :: e.words)
          (((s.setCap n { s.cap n with fifo := rest }).setReg (R.CAP_FIFO n) (wd rest.length)).setReg (R.CAP_SEQ_LAST n) (s.reg R.TPC_CAP_SEQ))))
    ∧ ∀ (src : Src) (slot : BitVec 14) (v : BitVec 64) (l : RegLoc) (m : Word), s.srcLive src = true → slotOff slot = R.CAP_CFG n → regAt (R.CAP_CFG n) = some l →
        writeBad (R.CAP_CFG n) l (wd v.toNat) s = false → m = wMerge l.row (s.reg (R.CAP_CFG n)) (wd v.toNat) →
        exec (.registerWrite src slot .qword v) s = .next (capCfgSet n m (s.onBus src)) ∧ (capCfgSet n m s).reg (R.CAP_CFG n) = m
          ∧ ∀ d, capCfgAt n d (capCfgSet n m s) = if dtGe d s.dt then m else s.reg (R.CAP_CFG n)

/-- Commands of groups 0x6 and 0x7 (R266, R295, R315): OBS_CONFIG is answered with the epoch from which it holds; a solution or Catalogue command that passes its checks waits for its epoch and is answered there with the effect of its opcode; TP_CONFIG, TP_JUMP and CAP_CONFIG act at their boundary. Commands of group 0x8 (R324, R335, R338, R346): a CAL_INJECT that passes its checks answers a unit that injects with its start, starts a ready one, makes any other wait, and STOP stops it; CAL_SWEEP starts
a sweep and answers its two ends, or aborts one (its reply words are then free); CAL_CONFIG writes the six registers and moves a free injection synthesiser to its new aim. The model's choices in it: notes/assumptions 30.md, 32.md. -/
def Obligations.SolutionTimingAndCalibrationCommands : Prop :=
  (∀ (h : HeldCmd) (u : State),
    (∀ e, e = nextIn (wd (h.pk.pf 0 11 0)) u.obs.closed (epochFrom h) u → Takes .obsConfig obsConfigSpec h u
        (reply h 0 e.dt (dtWords e.dt) { u with obs := { u.obs with chg := u.obs.chg ++ [(wd (h.pk.pf 0 11 0), e.dt)] } }))
    ∧ (∀ q ∈ [(Instr.solConfig, solConfigSpec), (.solModeSet, solModeSpec), (.solPosition, solPositionSpec), (.solOscModel, solOscSpec), (.solSteer, solSteerSpec),
        (.catLoad, catLoadSpec), (.catTime, catTimeSpec), (.catRead, catReadSpec), (.catClear, catClearSpec)],
        Takes q.1 q.2 h u { u with waitReply := u.waitReply ++ [(64, h)] })
    ∧ (∀ (te : Dt) (hs : List HeldCmd), epochAnswer te (h :: hs) u
        = epochAnswer te hs (reply h (epochApply h te u).1 te (epochApply h te u).2.1 (epochApply h te u).2.2))
    ∧ (∀ te : Dt,
      (h.op = 0x610 → epochApply h te u = (0, dtWords te, ((u.setReg R.SOL_CFG (h.pk.par 0)).setReg R.SOL_CFG1 (h.pk.par 1)).setReg R.SOL_CFG2 (h.pk.par 2)))
      ∧ (h.op = 0x611 → h.pk.pf 0 35 33 = 3 → bit (u.reg R.SOL_MODE) 3 = false → epochApply h te u = (5, [], u))
      ∧ (h.op = 0x611 → h.pk.pf 0 35 33 < 2 → epochApply h te u = (0, dtWords te, solSetMode u.solCore (h.pk.pf 0 35 33) (meanClear { u with sol := { u.sol with fdeRun := 0 } })))
      ∧ (h.op = 0x612 → bit (h.pk.par 3) 0 = false → epochApply h te u
          = (0, dtWords te, { u with sol := { u.sol with posAid := [h.pk.par 0, h.pk.par 1, h.pk.par 2, wd (h.pk.pf 3 35 18)] } }))
      ∧ (h.op = 0x613 → epochApply h te u = (0, [h.pk.par 0, h.pk.par 1, h.pk.par 2, h.pk.par 3], { u with sol := { u.sol with osc := [h.pk.par 0, h.pk.par 1, h.pk.par 2, h.pk.par 3] } }))
      ∧ (h.op = 0x614 → bit (h.pk.par 0) 0 = true → u.reg R.OSS_GAIN = 0 → epochApply h te u = (5, [], u))
      ∧ (h.op = 0x615 → epochApply h te u = (0, [wd (catLoad (Packet.words h.pk).length (Packet.words h.pk) 0 0 u).1, wd (catLoad (Packet.words h.pk).length (Packet.words h.pk) 0 0 u).2.1],
          (catLoad (Packet.words h.pk).length (Packet.words h.pk) 0 0 u).2.2))
      ∧ (h.op = 0x616 → epochApply h te u = (0, dtWords te, { u with sol := { u.sol with timeAid := [wd (h.pk.pf 0 35 16 * 16 + h.pk.pf 0 3 0), h.pk.par 1, h.pk.par 2, h.pk.par 3, h.pk.par 4] } }))
      ∧ (h.op = 0x617 → epochApply h te u = (0, [wd (catImages (bufLen 0 h.pk) u.sol.cat).length], bufPut 0 h.pk (catImages (bufLen 0 h.pk) u.sol.cat).flatten u))
      ∧ (h.op = 0x618 → epochApply h te u = (0, [], catSync 0 { u with sol := { u.sol with cat := u.sol.cat.filter (fun e => !tbit (h.pk.pf 0 6 0) (sigSys e.sig)) } })))
    ∧ (∀ n, n = h.pk.pf 0 1 0 → ∃ t, Takes .tpConfig tpConfigSpec h u (reply h 0 (atSample h u) (dtWords (atSample h u)) t)
        ∧ t.reg (R.TP_CFG n) = h.pk.par 1 ∧ t.reg (R.TP_PERIOD n) = h.pk.par 2 ∧ t.reg (R.TP_WIDTH n) = h.pk.par 3 ∧ t.reg (R.TP_OFS n) = h.pk.par 4
        ∧ t.reg (R.TP_SLEW n) = h.pk.par 5 ∧ t.reg (R.TP_JUMP_TH n) = h.pk.par 6
        ∧ (u.tpState n = 0 → bit (h.pk.par 1) 28 = true → t.tpState n = 1) ∧ (u.tpState n = 1 → bit (h.pk.par 1) 28 = false → t.tpState n = 0))
    ∧ Takes .tpJump tpJumpSpec h u (reply h 0 (atSample h u) (tpJumpMask (h.pk.pf 0 3 0) [0, 1, 2, 3] u).1 (tpJumpMask (h.pk.pf 0 3 0) [0, 1, 2, 3] u).2)
    ∧ Takes .capConfig capConfigSpec h u (reply h 0 (atSample h u) (dtWords (atSample h u)) (capCfgSet (h.pk.pf 0 1 0) (h.pk.par 1) u)))
  ∧ (∀ (h : HeldCmd) (u : State) (n g : Nat), n = h.pk.pf 0 1 0 → g = gridMs (h.n u) →
    (bit (h.pk.par 0) 35 = true → Takes .calInject calInjectSpec h u (reply h 0 (atSample h u) (dtWords (atSample h u) ++ [0]) (calStop n u)))
    ∧ (bit (h.pk.par 0) 35 = false → u.calState n ≠ 0 → Takes .calInject calInjectSpec h u
        (reply h 0 (atSample h u) [u.reg (R.CALN_START_SEC n), u.reg (R.CALN_START_FRAC n), 0] u))
    ∧ (bit (h.pk.par 0) 35 = false → u.calState n = 0 → injReady n u = true → Takes .calInject calInjectSpec h u
        (reply h 0 (atSample h u) (dtWords (dtOfCycle g) ++ [0]) (injBegin n g 0 u)))
    ∧ (bit (h.pk.par 0) 35 = false → u.calState n = 0 → injReady n u = false → Takes .calInject calInjectSpec h u
        (calSetState n 1 (u.setCal n { u.calU n with
            wait := some ⟨h.op, h.pk, h.cidx, h.late, atSample h u, if h.pk.pf 0 33 20 = 0 then u.rf R.CAL_TIMEOUT 13 0 else h.pk.pf 0 33 20⟩ })))
    ∧ (bit (h.pk.par 0) 2 = false → Takes .calSweep calSweepSpec h u
        (reply h 0 (atSample h u) (dtWords (dtOfCycle g) ++ dtWords (dtOfCycle (g + u.swEpochs n * 1636800))) (sweepBegin n g u)))
    ∧ (bit (h.pk.par 0) 2 = true → ∃ (ws : List Word) (v : State), v = { sweepAbort n 4 u with freeCtr := v.freeCtr } ∧ ws.length = 4
        ∧ Takes .calSweep calSweepSpec h u (reply h 0 (atSample h u) ws v))
    ∧ ∃ v, Takes .calConfig calConfigSpec h u (reply h 0 (atSample h u) (dtWords (atSample h u))
          (if u.loState (4 + n) = 0 ∨ u.feState n = feCal ∨ u.feState n = feRecal ∨ (u.fe n).check.isSome = true then v else loPlan (4 + n) (injAim n v) v))
        ∧ v.reg (R.CALN_CFG n) = h.pk.par 1 ∧ v.reg (R.CALN_INJ_OFS n) = h.pk.par 2 ∧ v.reg (R.CALN_EXT_LEVEL n) = h.pk.par 3
        ∧ v.reg (R.CALN_EXT_PATH n) = h.pk.par 4 ∧ v.reg (R.CALN_SWEEP_CFG n) = h.pk.par 5 ∧ v.reg (R.CALN_CC_CFG n) = h.pk.par 6 ∧ v.mem = u.mem)

/-! ## Calibration: injection, estimates and sweeps (R318 to R348) -/

/-- Injection and sweeps (R319, R324, R335 to R338): a waiting unit that is ready starts at the next point of the 1 ms grid and its command is answered; a wait of TIMEOUT ms is refused; INJ_STOP ends
an injection and SWEEP_ABORT a sweep with event 0x807 cause 4, and a write of either waits for its boundary as an immediate command without a reply. A periodic sweep starts at its DT second where it may and is skipped with cause 3 where not; a sweep that has run its length returns to
INJECT, and its table of 64 values takes effect 2 s after its last sample with event 0x806 and two records. The model's choices in it: notes/assumptions 52.md, 71.md, 86.md. -/
def Obligations.CalibrationInjectsAndSweeps : Prop :=
  ∀ (n : Fin 4) (s : State),
    (∀ w, (s.calU n).wait = some w → injReady n s = true → s.fsOn = true →
      exec (.injectionStart n) s = .next (reply ⟨w.op, w.pk, w.cidx, w.late, false, w.at_, [], none⟩ 0 w.at_
        (dtWords (dtOfCycle (gridMs (calClock n s))) ++ [wd (msSince w.at_ s)]) (injBegin n (gridMs (calClock n s)) (msSince w.at_ s) s)))
    ∧ (∀ n0 ms, s.calState n = 1 → ∃ u, injBegin n n0 ms s = raise 0x801 1 (uCal n) [dtSec (dtOfCycle n0), wd ms] (raise 0x800 0 (uCal n) [1, 2] u)
        ∧ u.calState n = 2 ∧ u.reg (R.CALN_START_SEC n) = dtSec (dtOfCycle n0) ∧ u.reg (R.CALN_START_FRAC n) = dtFrac (dtOfCycle n0)
        ∧ (u.calU n).n0 = n0 ∧ (u.calU n).wait = none)
    ∧ (∀ w, (s.calU n).wait = some w → w.limit ≤ msSince w.at_ s →
      exec (.injectWaitTimeout n) s = .next (calSetState n 0 (injRefuse n 0 w (s.setCal n { s.calU n with wait := none }))))
    ∧ (∀ (src : Src) (op : Nat) (w : Word) (c : Instr), s.srcLive src = true → s.booted = true → s.fsOn = true →
      (op = 0x800 ∧ w = wd (34359738368 + n.val) ∧ c = .calCtrlInjStop src n ∨ op = 0x801 ∧ w = wd (4 + n.val) ∧ c = .calCtrlSweepAbort src n) →
      exec c s = .next { s.onBus src with cmdPend := s.cmdPend
        ++ [⟨op, ⟨0, 1, false, false, false, true, 0, [w], .ok []⟩, 262144, false, false, s.dt, [uCal n], some (calClock n s + 16368)⟩] })
    ∧ (s.calState n = 2 → (s.calU n).sweep = none → (s.calU n).wait = none → ∃ u, calStop n s = raise 0x800 0 (uCal n) [2, 0] u ∧ u.calState n = 0)
    ∧ (∀ w, (s.calU n).sweep = some w → s.calState n = 3 → ∃ u, sweepAbort n 4 s = calSetState n 2 (raise 0x807 2 (uCal n) [4] u)
          ∧ (u.calU n).sweep = none ∧ bit (u.reg (R.CALN_STATUS n)) 2 = true ∧ bit (u.reg R.CAL_STATUS) 1 = true)
    ∧ (∀ sec per, s.booted = true → per = s.rf (R.CALN_SWEEP_CFG n) 35 28 * 3600 → sec = calClock n s / 163680000 → 0 < per → 900 * n.val ≤ sec →
        (sec - 900 * n.val) % per = 0 → (s.calU n).sweepSec ≠ some sec → ∀ u, u = s.setCal n { s.calU n with sweepSec := some sec } →
        (firstStatus (sweepStatus n u) = 0 → exec (.sweepDue n) s = .next (sweepBegin n (sec * 163680000) u))
        ∧ (firstStatus (sweepStatus n u) ≠ 0 → exec (.sweepDue n) s = .next (raise 0x807 2 (uCal n) [3] u)))
    ∧ (∀ w, (s.calU n).sweep = some w → s.fsOn = true → w.endN ≤ calClock n s →
        ∃ u : State, exec (.sweepEnd n) s = .next (calSetState n 2 (rampDrop (4 + n) u))
          ∧ (u.calU n).sweep = none ∧ (u.calU n).tblDue = (s.calU n).tblDue ++ [w] ∧ u.regs = s.regs)
    ∧ ∀ (w : SweepSt) (rest : List SweepSt) (vals : List Int) (ring : Nat), (s.calU n).tblDue = w :: rest → s.fsOn = true → w.tableN ≤ calClock n s →
        vals = sweepTable n w → ring = s.rf R.CAL_RING 4 0 →
        ∃ u v, exec (.sweepTableApply n) s = .next (raise 0x806 1 (uCal n) [dtSec (dtOfCycle w.tableN)] v)
          ∧ v = recordSeq ring 0xA R.CAL_SEQ (sweepRecord n 2 w vals) (recordSeq ring 0xA R.CAL_SEQ (sweepRecord n 1 w vals) u)
          ∧ w.tableN = w.endN - 1 + 327360000 ∧ vals.length = 64
          ∧ (u.calU n).tbl = vals ∧ (u.calU n).tblOfs = w.ofs ∧ (u.calU n).tblSrc = (if w.loud then 2 else 1) ∧ (u.calU n).tblDue = rest
          ∧ u.reg (R.CALN_SWEEP_SEC n) = dtSec (dtOfCycle w.tableN) ∧ u.reg (R.CALN_SWEEP_CNT n) = bump (s.reg (R.CALN_SWEEP_CNT n)) 1
          ∧ u.mem = s.mem ∧ u.out = s.out

/-- The estimates of a second (R328 to R331): the units form them in ascending order; a second of an injecting unit counts as valid, with its raw estimate and its second recorded, or as
invalid, and with no listening correlator one estimate waits, naming the second; at sample time k + 2 s a valid estimate R less G replaces LIVE, the first one with event 0x803, a later one through the
exponential filter of SHIFT, and its record follows. The model's choices in it: notes/assumptions 2.md, 52.md. -/
def Obligations.CalibrationEstimatesFilterLive : Prop :=
  ∀ s : State,
    exec .calSecondEnd s = .next (calSecondEnd 3 (calSecondEnd 2 (calSecondEnd 1 (calSecondEnd 0 s))))
    ∧ exec .liveDelayApply s = .next (liveApply 3 (liveApply 2 (liveApply 1 (liveApply 0 s))))
    ∧ (∀ n : Fin 4, ((s.calU n).due = none → calSecondEnd n s = s) ∧ ((s.calU n).est = [] → liveApply n s = s)
      ∧ (∀ k, (s.calU n).due = some k → s.calState n = 2 → s.reg (R.CALN_CC_CFG n) = 0 →
          ∃ (e : CalEst) (x : CcEst) (xs : List CcEst), e.cc = x :: xs ∧ e.sec = k ∧ ((calSecondEnd n s).calU n).est = (s.calU n).est ++ [e]
            ∧ ((calSecondEnd n s).calU n).due = none
            ∧ (x.valid = true → (calSecondEnd n s).reg (R.CALN_VALID_CNT n) = bump (s.reg (R.CALN_VALID_CNT n)) 1
                ∧ (calSecondEnd n s).reg (R.CALN_RAW n) = wdI x.r ∧ (calSecondEnd n s).reg (R.CALN_EST_SEC n) = wd k)
            ∧ (x.valid = false → (calSecondEnd n s).reg (R.CALN_INVALID_CNT n) = bump (s.reg (R.CALN_INVALID_CNT n)) 1
                ∧ bit ((calSecondEnd n s).reg (R.CALN_STATUS n)) 1 = true)
            ∧ ((s.calU n).touchedL = true ∨ 2 * (s.calU n).usedL < 163680000 → x.valid = false))
      ∧ ∀ (e : CalEst) (rest : List CalEst) (x : CcEst) (xs : List CcEst) (ring : Nat), (s.calU n).est = e :: rest → e.cc = x :: xs → ring = s.rf R.CAL_RING 4 0 →
          (s.fsOn = true → (e.sec + 2) * 163680000 ≤ calClock n s) →
          ∃ v, liveApply n s = recordSeq ring 0xA R.CAL_SEQ (fun q => calRecord n e q v) (if ring = 0 then v else v.cnt R.CAL_REC_CNT)
            ∧ (x.valid = false → v = s.setCal n { s.calU n with est := rest })
            ∧ (x.valid = true → (s.calU n).seen = false → ∃ u, v = calDrift n (raise 0x803 1 (uCal n) [wdI (x.r - e.g)] u)
                ∧ u.reg (R.CALN_LIVE n) = wdI (x.r - e.g) ∧ (u.calU n).seen = true ∧ (u.calU n).everValid = true ∧ (u.calU n).est = rest)
            ∧ (x.valid = true → (s.calU n).seen = true → ∃ u, v = calDrift n u
                ∧ u.reg (R.CALN_LIVE n) = wdI ((s.reg (R.CALN_LIVE n)).toInt
                    + divRound (x.r - e.g - (s.reg (R.CALN_LIVE n)).toInt) (2 ^ s.rf (R.CALN_CFG n) 14 12))))

/-! ## The shared store: owners, power, errors and repair (R378 to R407) -/

/-- A host's OWNER and POWER writes and the handovers that follow (R379 to R384, R402): a write by a requester that may not is discarded with DENIED and event 0x901; an accepted
owner starts the drain, a bank to be wiped passes its wipe step, and at activation the new owner stands, DELEGATE is none, a wiped bank reads zero, and event 0x900 names both owners;
a bank reaches RETAIN, ON or OFF as asked, losing its contents in OFF, and a Vault wipe zeroes it with event 0x90C. The model's choices in it: notes/assumptions 26.md, 55.md. -/
def Obligations.BanksChangeOwnerAndPower : Prop :=
  ∀ (b : Fin 16) (s : State),
    (∀ src v, s.srcLive src = true → s.booted = true → ∀ l, regAt (R.BANK_OWNER b) = some l → writeBad (R.BANK_OWNER b) l v s = false → ownerOk (fld v 5 0) = true →
      (bankMay (ownerCode src) b s = false → exec (.bankOwnerWrite src b v) s
        = .next (raise 0x901 1 (uBank b) [wd b, wd (uSrc src), wd (R.BANK_OWNER b)] ((s.onBus src).sticky (R.BANK_STATUS b) 8)))
      ∧ (bankMay (ownerCode src) b s = true → s.bankStage b = 0 → exec (.bankOwnerWrite src b v) s = .next (handoverStart b (fld v 5 0) (s.onBus src)))
      ∧ (bankMay (ownerCode src) b s = true → s.bankStage b ≠ 0 → ownerCode src ≠ 2 → exec (.bankOwnerWrite src b v) s
        = .next ((s.onBus src).sticky (R.BANK_STATUS b) 8)))
    ∧ (∀ src v, s.srcLive src = true → s.booted = true → ∀ l, regAt (R.BANK_POWER b) = some l → writeBad (R.BANK_POWER b) l v s = false →
      (bankMay (ownerCode src) b s = false → exec (.bankPowerWrite src b v) s
        = .next (raise 0x901 1 (uBank b) [wd b, wd (uSrc src), wd (R.BANK_POWER b)] ((s.onBus src).sticky (R.BANK_STATUS b) 8)))
      ∧ (bankMay (ownerCode src) b s = true → exec (.bankPowerWrite src b v) s
        = .next (bankPowerSet b (wMerge l.row (s.reg (R.BANK_POWER b)) v) (s.onBus src))))
    ∧ (∀ v, s.bankStage b = 0 → s.bankPower b = 0 →
      ∀ w : State, w = (s.setReg (R.BANK_POWER b) v).setBh b { s.bh b with woken := false, scrubbing := false } →
        (v = 2 → ∃ t, t = setBankPower b 3 (w.zeroMem (kBank b 0) 262144) ∧ bankPowerSet b v s = replyNow (16 + b) (t.setBh b { t.bh b with wiping := none }))
        ∧ (fld v 1 0 = 1 → bankPowerSet b v s = replyNow (16 + b) (setBankPower b 1 w)))
    ∧ (s.bankStage b = 1 → s.cons.borrowed = none →
      (needsWipe b s = true → exec (.handoverDrainComplete b) s = .next ((s.setF (R.BANK_STATE b) 3 0 2).setBh b { s.bh b with wiping := none }))
      ∧ (needsWipe b s = false → exec (.handoverDrainComplete b) s = .next s))
    ∧ (∀ st old new, s.bankStage b = st → s.rf (R.BANK_OWNER b) 5 0 = old → s.rf (R.BANK_STATE b) 21 16 = new → (st = 2 ∨ st = 1 ∧ needsWipe b s = false) →
        s.cons.borrowed = none → old ≠ 6 → (s.bh b).powReq = none → (s.bh b).held = none → (∀ q ∈ s.waitReply, q.1 ≠ b.val) → bit (s.reg (R.BANK_CFG b)) 1 = false →
        ∃ u, exec (.handoverActivate b) s = .next (raise 0x900 0 (uBank b) [wd b, wd old, wd new, wd (b2n (st == 2))] u)
          ∧ u.rf (R.BANK_OWNER b) 5 0 = new ∧ u.bankStage b = 0 ∧ u.reg (R.BANK_DELEGATE b) = 0
          ∧ u.reg (R.BANK_HO_SEC b) = dtSec s.dt ∧ u.reg (R.BANK_HO_CNT b) = bump (s.reg (R.BANK_HO_CNT b)) 1
          ∧ ∀ k, u.stored k = if st = 2 ∧ kBank b 0 ≤ k ∧ k < kBank b 0 + 262144 then 0 else s.stored k)
    ∧ (s.bankPower b = 2 ∨ s.bankPower b = 0 → exec (.bankWakeComplete b) s = .next (replyNow (16 + b) (setBankPower b 0 s)))
    ∧ (s.bankPower b = 4 → exec (.bankRefillComplete b) s
        = .next (replyNow (16 + b) (setBankPower b (if s.rf (R.BANK_POWER b) 1 0 = 1 then 1 else 0) (s.zeroMem (kBank b 0) 262144))))
    ∧ (s.bankPower b = 0 → (s.bh b).woken = true → s.rf (R.BANK_POWER b) 1 0 = 1 → s.rf (R.BANK_POWER b) 13 2 ≠ 0 → s.bankStage b = 0 →
        exec (.bankIdleTimeout b) s = .next (setBankPower b 1 (s.setBh b { s.bh b with woken := false })))
    ∧ ∀ c, (s.bh b).wiping = some c → exec (.vaultWipeComplete b) s
        = .next (raise 0x90C 1 (uBank b) [wd b, wd c] (((((s.zeroMem (kBank b 0) 262144).setBh b { s.bh b with wiping := none }).cnt R.MEM_VAULT_WIPE_CNT)).sticky R.MEM_STATUS 6))

/-- The code of a stored word and its poison (R388, R389): each check bit is the XOR of the data bits whose column has it, with data bit i ≤ 34 in the (i+1)-th smallest 7-bit value of exactly three ones and bit 35 in 0x1F;
the syndrome decodes to no error, the one bit in error, the poisoned word or uncorrectable, with the read's data or bus error; so any one inverted bit of the 43 is corrected and any two are uncorrectable. A poisoned word holds
zero data with check bits 0x7F, and a full-word write clears it. -/
def Obligations.CheckBitsCorrectOneDetectTwo : Prop :=
  ∀ col : Nat → Nat, (∀ i < 35, col i = ((List.range 128).filter (fun v => (List.range 7).countP (fun j => v.testBit j) == 3)).getD i 0) → col 35 = 31 → (∀ j < 7, col (36 + j) = 2 ^ j) →
    (∀ d : Word, (∀ i < 36, (eccEnc d).getLsbD i = d.getLsbD i)
      ∧ (∀ j < 7, (eccEnc d).getLsbD (36 + j) = ((List.range 36).countP (fun i => d.getLsbD i && (col i).testBit j) % 2 == 1))
      ∧ (∀ i : Fin 43, eccDec (eccEnc d ^^^ (1#43 <<< i.val)) = .corrected d i)
      ∧ (∀ i j : Fin 43, i ≠ j → eccDec (eccEnc d ^^^ (1#43 <<< i.val) ^^^ (1#43 <<< j.val)) = .uncorrectable))
    ∧ (∀ (x : Stored) (d : Word) (y : Nat), d = x.extractLsb' 0 36 → y = (eccEnc d ^^^ x).toNat / 2 ^ 36 →
        (y = 0 → eccDec x = .clean d) ∧ (∀ i < 36, y = col i → eccDec x = .corrected (d ^^^ (1#36 <<< i)) i) ∧ (∀ j < 7, y = col (36 + j) → eccDec x = .corrected d (36 + j))
        ∧ (y = 127 → eccDec x = .poisoned) ∧ (y ≠ 0 → y ≠ 127 → (∀ i < 43, y ≠ col i) → eccDec x = .uncorrectable))
    ∧ (∀ (k r : Nat) (s : State), s.isRetired (uRegion k) = false →
        (∀ d, eccDec (s.stored k) = .clean d → memRead k r s = (s, .ok d))
        ∧ (∀ d i, eccDec (s.stored k) = .corrected d i → memRead k r s = (ceFound k (syndrome (s.stored k)) s, .ok d))
        ∧ (eccDec (s.stored k) = .poisoned → (memRead k r s).2 = .err 4) ∧ (eccDec (s.stored k) = .uncorrectable → (memRead k r s).2 = .err 3))
    ∧ eccDec poisonWord = .poisoned ∧ poisonWord.extractLsb' 0 36 = 0#36 ∧ poisonWord.extractLsb' 36 7 = 0x7F#7
    ∧ ∀ (k : Nat) (d : Word) (s : State), s.stored k = poisonWord → (s.store k d).stored k = eccEnc d ∧ eccDec ((s.store k d).stored k) = .clean d

/-- Scrubbing and leaking (R390 to R394): the scrubber leaves a clean or poisoned word, rewrites a corrected one and counts it, and poisons an uncorrectable one with event 0x906, moving on to the next word and
round at the end; it waits for a priority scrub of the word's sub-bank and for a bank it wakes from RETAIN, which returns there after its last word; a priority scrub whose error persists is HARD with event 0x904 and a fault of its region; a bucket of a memory leaks one at each multiple of LEAK seconds; MEM_CTRL restarts the scrub or the test, and CLEAR of the acquisition histogram zeroes its 32 bins. The model's choices in it: notes/assumptions 54.md. -/
def Obligations.ScrubbingCorrectsAndPoisons : Prop :=
  ∀ s : State,
    (∀ k, bit (s.reg R.MEM_SCRUB_CFG) 12 = true → k = scrubNext 16 s.cons.scrubPos s → k + 1 < sramWords → scrubbable k s = true → scrubWaits k s = false → ∃ u v : State,
      exec .scrubWord s = .next (({ v with cons := { v.cons with scrubPos := k + 1 } }).setReg R.MEM_SCRUB_STAT (wd (v.rf R.MEM_SCRUB_STAT 22 0 + 1)))
      ∧ (k % 262144 ≠ 262143 ∨ (u.bh (k / 262144)).scrubbing = false → v = u)
      ∧ (∀ b, k = kBank b 262143 → b < 16 → (u.bh b).scrubbing = true → u.bankPower b = 0 → u.rf (R.BANK_POWER b) 1 0 = 1 → (u.bh b).woken = false →
          v = setBankPower b 1 (u.setBh b { u.bh b with scrubbing := false }))
      ∧ (∀ d, eccDec (s.stored k) = .clean d → u = s) ∧ (eccDec (s.stored k) = .poisoned → u = s)
      ∧ (∀ d i, eccDec (s.stored k) = .corrected d i → u = ceCount k (syndrome (s.stored k)) (s.store k d) ∧ (s.store k d).stored k = eccEnc d)
      ∧ (eccDec (s.stored k) = .uncorrectable → ∃ v, u = raise 0x906 2 (uMemory (memOf k).1)
            [wd (uMemory (memOf k).1), wd (memOf k).2, wd (if (memOf k).1 < 16 then s.rf (R.BANK_OWNER (memOf k).1) 5 0 else 0)] v
          ∧ v.stored k = poisonWord ∧ (∀ a, a ≠ k → v.stored a = s.stored a) ∧ v.reg R.MEM_POISON_CNT = bump (s.reg R.MEM_POISON_CNT) 1
          ∧ bit (v.reg R.MEM_STATUS) 3 = true))
    ∧ (∀ k, bit (s.reg R.MEM_SCRUB_CFG) 12 = true → k = scrubNext 16 s.cons.scrubPos s → scrubWaits k s = true → exec .scrubWord s = .next (scrubWake k s)
        ∧ ∀ b, b < 16 → k / 262144 = b → s.bankPower b = 1 → scrubWake k s = (setBankPower b 2 s).setBh b { s.bh b with scrubbing := true, woken := false })
    ∧ (∀ k, k = scrubNext 16 s.cons.scrubPos s → bit (s.reg R.MEM_SCRUB_CFG) 12 = true → k + 1 = sramWords → scrubbable k s = true → scrubWaits k s = false → ∀ d, eccDec (s.stored k) = .clean d →
        exec .scrubWord s = .next (({ s with cons := { s.cons with scrubPos := 0 } }.setReg R.MEM_SCRUB_STAT 0).cnt R.MEM_SCRUB_PASS_CNT))
    ∧ (∀ (k : Nat) (rest : List Nat) (persists retryOk : Bool) (u : State), s.cons.prio = k :: rest → u = { s with cons := { s.cons with prio := rest } } → scrubbable k s = true →
        (∀ d, eccDec (s.stored k) = .clean d → exec (.priorityScrub persists retryOk) s = .next (filtDrop k u))
        ∧ (eccDec (s.stored k) = .uncorrectable → exec (.priorityScrub persists retryOk) s = .next (scrubPoison k (filtDrop k u)))
        ∧ (∀ d i, eccDec (s.stored k) = .corrected d i → exec (.priorityScrub false retryOk) s = .next (filtDrop k (u.store k d)))
        ∧ (∀ d i, eccDec (s.stored k) = .corrected d i → ∃ v w, exec (.priorityScrub true retryOk) s = .next w
            ∧ v.reg R.MEM_HARD_CNT = bump (s.reg R.MEM_HARD_CNT) 1 ∧ bit (v.reg R.MEM_STATUS) 2 = true
            ∧ w = (if (regionFault k [i] retryOk (raise 0x904 2 (uMemory (memOf k).1) [wd (uMemory (memOf k).1), wd (memOf k).2, wd i] v)).1
                then (regionFault k [i] retryOk (raise 0x904 2 (uMemory (memOf k).1) [wd (uMemory (memOf k).1), wd (memOf k).2, wd i] v)).2
                else filtDrop k (regionFault k [i] retryOk (raise 0x904 2 (uMemory (memOf k).1) [wd (uMemory (memOf k).1), wd (memOf k).2, wd i] v)).2)))
    ∧ (∀ leak : Nat, leak = s.rf R.MEM_BUCKET_CFG 19 8 → leak ≠ 0 → (dtSec s.dt).toNat % leak = 0 → s.cons.leakSec ≠ some (dtSec s.dt) →
        exec .bucketLeak s = .next (s.memErr.foldl bucketLeak { s with cons := { s.cons with leakSec := some (dtSec s.dt) } })
        ∧ ∀ (m : Nat) (e : MemErr), (bucketLeak s (m, e)).merr m = { e with
            level := e.level - 1
            ovf := e.ovf && !decide (2 * (e.level - 1) < s.rf R.MEM_BUCKET_CFG 7 0) })
    ∧ (∀ src, s.srcLive src = true → s.booted = true → ∃ u v,
        exec (.memCtrlScrubNow src) s = .next u ∧ u.cons.scrubPos = 0 ∧ u.reg R.MEM_SCRUB_STAT = 0 ∧ (∀ o, o ≠ R.MEM_SCRUB_STAT → u.reg o = s.reg o) ∧ u.mem = s.mem
        ∧ exec (.memCtrlTestRestart src) s = .next v ∧ v.cons.testNext = 0 ∧ v.cons.scrubPos = s.cons.scrubPos ∧ v.regs = s.regs ∧ v.mem = s.mem)
    ∧ ∀ src, s.srcLive src = true → s.booted = true → bit (s.reg R.ACQ_HIST_CTRL) 0 = false →
        ∃ u, exec (.acqHistCtrlClear src) s = .next u ∧ (∀ o, (∀ i < 32, o ≠ R.ACQ_HIST i) → u.reg o = s.reg o) ∧ (∀ i < 32, u.reg (R.ACQ_HIST i) = 0) ∧ u.mem = s.mem ∧ u.out = s.out

/-- Region tests and histograms (R98, R397 to R399): the next region that may be tested is copied to the shadow, which a clean region leaves as it stands, and its test begins; a test without a failing bit returns the region and one with a failing bit
is counted, raises event 0x907 with the bits and judges a fault of the region; CLEAR of a front end's amplitude histogram zeroes its 64 bins and nothing else. The model's choices in it: notes/assumptions 54.md. -/
def Obligations.RegionsAreBorrowedAndTested : Prop :=
  ∀ s : State,
    (∀ r, bit (s.reg R.MEM_TEST_CFG) 12 = true → s.cons.borrowed = none → nextRegion 65536 s.cons.testNext s = some r →
      ∃ t, exec .regionBorrow s = .next t ∧ t.cons.borrowed = some r ∧ t.cons.testNext = r + 1 ∧ t.reg R.MEM_TEST_STAT = wd (65536 + r)
        ∧ ((∀ i < 64, ∃ d, eccDec (s.stored (kBank (r / 4096) (64 * (r % 4096) + i))) = .clean d) → t.mem = s.mem
            ∧ (∀ o, o ≠ R.MEM_TEST_STAT → o ≠ R.MEM_TEST_PASS_CNT → t.reg o = s.reg o)
            ∧ t.reg R.MEM_TEST_PASS_CNT = if r < s.cons.testNext then bump (s.reg R.MEM_TEST_PASS_CNT) 1 else s.reg R.MEM_TEST_PASS_CNT))
    ∧ (∀ n r q, nextRegion n r s = some q → testable q s = true ∧ q < 65536)
    ∧ (∀ (a : Fin 64) (mask : Stored) (retryOk : Bool) (r : Nat), s.cons.borrowed = some r →
      (mask = 0 → exec (.marchTestComplete a mask retryOk) s = .next (shadowBack r s))
      ∧ (mask ≠ 0 → ∃ u, exec (.marchTestComplete a mask retryOk) s = .next (regionFault (kBank (r / 4096) (64 * (r % 4096) + a))
            ((List.range 43).filter (fun i => mask.getLsbD i)) retryOk (raise 0x907 2 (uRgn r) [wd (uRgn r), wd mask.toNat, wd (mask.toNat / 68719476736)] u)).2
          ∧ u.cons.borrowed = none ∧ u.reg R.MEM_TEST_FAIL_CNT = bump (s.reg R.MEM_TEST_FAIL_CNT) 1 ∧ bit (u.reg R.MEM_STATUS) 4 = true))
    ∧ ∀ src (n : Fin 4), s.srcLive src = true → s.booted = true → bit (s.reg (R.FE_HIST_CTRL n)) 0 = false →
        ∃ u, exec (.feHistCtrlClear src n) s = .next u ∧ (∀ o, (∀ i < 64, o ≠ R.FE_HIST n i) → u.reg o = s.reg o) ∧ (∀ i < 64, u.reg (R.FE_HIST n i) = 0) ∧ u.mem = s.mem ∧ u.out = s.out

/-- Commands of group 0x9 and of the code RAM and the log (R63, R64, R407, R456, R473): a command that passes its checks has its effect: a handover and a power request take the writer's path and answer when
the bank is active or the state reached, BANK_CONFIG sets the configuration and the delegate, MEM_REPAIR_READ and CODE_RAM_READ fill the buffer, CODE_RAM_LOAD replaces the whole image, LOG_DRAIN copies entries to its ring. The model's choices in it: notes/assumptions 21.md, 30.md, 69.md, 70.md. -/
def Obligations.MemoryCommands : Prop :=
  ∀ (h : HeldCmd) (u : State),
    (∀ b, b = h.pk.pf 0 9 6 → Takes .bankHandover bankHandoverSpec h u
        { bankOwnerWrite 1 uHif b (h.pk.pf 0 5 0) u with waitReply := (bankOwnerWrite 1 uHif b (h.pk.pf 0 5 0) u).waitReply ++ [(b, h)] })
    ∧ (∀ b, b = h.pk.pf 0 15 12 → Takes .bankConfig bankConfigSpec h u (reply h 0 (atProc h u) []
        ((bankCfgSet b (h.pk.pf 0 2 0) u).setReg (R.BANK_DELEGATE b) (wd (h.pk.pf 0 10 8)))))
    ∧ (∀ b v, v < 8 → bit (u.reg (R.BANK_CFG b)) 2 = false → (bankCfgSet b v u).reg (R.BANK_CFG b) = wd v)
    ∧ (∀ b v, v < 8 → bit (u.reg (R.BANK_CFG b)) 2 = true →
        (bankCfgSet b v u).reg (R.BANK_CFG b) = wd (4 + u.rf (R.BANK_CFG b) 1 1 * 2 + v % 2))
    ∧ (∀ b, b = h.pk.pf 0 19 16 → Takes .bankPower bankPowerSpec h u
        (bankPowerSet b (wd (h.pk.pf 0 13 0)) { u with waitReply := u.waitReply ++ [(16 + b, h)] }))
    ∧ (∀ n, n = min (u.repairMap.length / 2) (bufLen 0 h.pk / 2) →
        Takes .memRepairRead memRepairReadSpec h u (reply h 0 (atProc h u) [wd n] (bufPut 0 h.pk (u.repairMap.take (2 * n)) u)))
    ∧ Takes .codeRamLoad codeRamLoadSpec h u (reply h 0 (atSample h u)
        (wd (codeEntries (fun i => (Packet.words h.pk).getD i 0) 21846 0).length :: dtWords (atSample h u)) (codeLoad (Packet.words h.pk) u))
    ∧ (∀ ws, Memory.wf u.mem = true → ws.length ≤ 65536 → ∀ i, i < 65536 → (codeLoad ws u).peek (kCode i) = ws.getD i 0)
    ∧ Takes .codeRamRead codeRamReadSpec h u (reply h 0 (atSample h u) [wd (fitEntries (bufLen 0 h.pk) (codeImage u)).2.length]
        (bufPut 0 h.pk (fitEntries (bufLen 0 h.pk) (codeImage u)).2 u))
    ∧ (∀ r, r = logDrain (h.pk.pf 0 4 0) (logNumbers (h.pk.par 1) (h.pk.pf 2 15 0) u) 0 0 u →
        Takes .logDrain logDrainSpec h u (reply h 0 (atProc h u) [wd r.1, r.2.1] r.2.2))

/-! ## The Apone cores (R349 to R372) -/

/-- Arithmetic, logic, shifts, compares and bit fields (R350, R352): an instruction that a core issues writes rd with the value of its row, from the registers as the products that are due have landed, and pc moves
to the next instruction; nothing else of the state changes but what completing an instruction does. The model's choices in it: notes/assumptions 56.md. -/
def Obligations.AponeComputesRegisters : Prop :=
  ∀ (c : Fin 19) (s u : State) (x : ApCore), x = landDue (s.core c) →
    (∀ (f : FmtR) (a b : Word), a = x.get f.ra → b = x.get f.rb → f.lo = 0 →
      ∀ q ∈ [(Instr.add c f, encR 0 f, BitVec.ofNat 36 (a.toNat + b.toNat)), (.sub c f, encR 1 f, BitVec.ofInt 36 (a.toInt - b.toInt)),
        (.and c f, encR 2 f, a &&& b), (.or c f, encR 3 f, a ||| b), (.xor c f, encR 4 f, a ^^^ b), (.andn c f, encR 5 f, a &&& ~~~b),
        (.sll c f, encR 6 f, BitVec.ofNat 36 (a.toNat * 2 ^ (b.toNat % 64))), (.srl c f, encR 7 f, BitVec.ofNat 36 (a.toNat / 2 ^ (b.toNat % 64))),
        (.sra c f, encR 8 f, BitVec.ofInt 36 (a.toInt / 2 ^ (b.toNat % 64))), (.seq c f, encR 9 f, if a = b then 1 else 0), (.sne c f, encR 10 f, if a = b then 0 else 1),
        (.slt c f, encR 11 f, if a.toInt < b.toInt then 1 else 0), (.sltu c f, encR 12 f, if a.toNat < b.toNat then 1 else 0),
        (.sge c f, encR 13 f, if a.toInt < b.toInt then 0 else 1), (.sgeu c f, encR 14 f, if a.toNat < b.toNat then 0 else 1)],
      Issues c q.2.1 s u → exec q.1 s = completes c x { x.put f.rd q.2.2 with pc := x.pc + 1 } u u)
    ∧ (∀ (f : FmtI) (a : Word) (i : Int), a = x.get f.ra → i = f.imm.toInt →
      ∀ q ∈ [(Instr.addi c f, encI 1 f, BitVec.ofInt 36 (a.toInt + i)), (.andi c f, encI 2 f, BitVec.ofNat 36 (a.toNat &&& f.imm.toNat)),
        (.ori c f, encI 3 f, BitVec.ofNat 36 (a.toNat ||| f.imm.toNat)), (.xori c f, encI 4 f, BitVec.ofNat 36 (a.toNat ^^^ f.imm.toNat)),
        (.seqi c f, encI 7 f, if a.toInt = i then 1 else 0), (.snei c f, encI 8 f, if a.toInt = i then 0 else 1),
        (.slti c f, encI 9 f, if a.toInt < i then 1 else 0), (.sltui c f, encI 10 f, if a.toNat < (BitVec.ofInt 36 i).toNat then 1 else 0),
        (.sgei c f, encI 11 f, if a.toInt < i then 0 else 1), (.sgeui c f, encI 12 f, if a.toNat < (BitVec.ofInt 36 i).toNat then 0 else 1)],
      Issues c q.2.1 s u → exec q.1 s = completes c x { x.put f.rd q.2.2 with pc := x.pc + 1 } u u)
    ∧ (∀ f : FmtI, f.ra = 0 → Issues c (encI 5 f) s u →
        exec (.lui c f) s = completes c x { x.put f.rd (BitVec.ofNat 36 (f.imm.toNat * 65536)) with pc := x.pc + 1 } u u)
    ∧ (∀ (f : FmtS) (a : Word), a = x.get f.ra → f.lo = 0 → f.amt.toNat ≤ 35 →
      ∀ q ∈ [(Instr.slli c f, encS 0 f, BitVec.ofNat 36 (a.toNat * 2 ^ f.amt.toNat)), (.srli c f, encS 1 f, BitVec.ofNat 36 (a.toNat / 2 ^ f.amt.toNat)),
        (.srai c f, encS 2 f, BitVec.ofInt 36 (a.toInt / 2 ^ f.amt.toNat))],
      Issues c q.2.1 s u → exec q.1 s = completes c x { x.put f.rd q.2.2 with pc := x.pc + 1 } u u)
    ∧ ∀ (f : FmtF) (a d : Word) (p w v m : Nat), a = x.get f.ra → d = x.get f.rd → p = f.pos.toNat → w = f.wid.toNat → v = a.toNat / 2 ^ p % 2 ^ w → m = a.toNat % 2 ^ w →
        f.lo = 0 → 1 ≤ w → p + w ≤ 36 →
      ∀ q ∈ [(Instr.ext c f, encF 13 f, BitVec.ofNat 36 v), (.exts c f, encF 14 f, if v < 2 ^ (w - 1) then BitVec.ofNat 36 v else BitVec.ofInt 36 ((v : Int) - 2 ^ w)),
        (.ins c f, encF 15 f, BitVec.ofNat 36 (d.toNat - d.toNat / 2 ^ p % 2 ^ w * 2 ^ p + m * 2 ^ p))],
      Issues c q.2.1 s u → exec q.1 s = completes c x { x.put f.rd q.2.2 with pc := x.pc + 1 } u u

/-- Loads, stores and products (R353, R355, R356): the effective address is taken modulo 2^24; a load of a local word writes it and a store stores rd there; the double forms take two words at an even address and trap at an
odd one; a multiply's exact product is in flight and lands after two more instructions, MAC adding modulo 2^72; MFP and MTP move one product register. The model's choices in it: notes/assumptions 56.md. -/
def Obligations.AponeLoadsStoresAndProducts : Prop :=
  ∀ (c : Fin 19) (s u : State) (x : ApCore), x = landDue (s.core c) →
    (∀ (f : FmtI) (a k : Nat), ((x.get f.ra).toInt + f.imm.toInt - a) % 16777216 = 0 → a < 0x400000 → apLocal c a = some k → apRom c a = false →
      (∀ d : Word, Issues c (encI 16 f) s u → apForbid c a false x = false → eccDec (u.stored k) = .clean d →
        exec (.ld c f) s = completes c x { x.put f.rd d with pc := x.pc + 1 } u u)
      ∧ (∀ d k' e, Issues c (encI 18 f) s u → f.rd.getLsbD 0 = false → a % 2 = 0 → apForbid c a false x = false → apForbid c (a + 1) false x = false →
          apLocal c (a + 1) = some k' → apRom c (a + 1) = false → eccDec (u.stored k) = .clean d → eccDec (u.stored k') = .clean e →
          exec (.ldd c f) s = completes c x { (x.put f.rd d).put (f.rd + 1) e with pc := x.pc + 1 } u u)
      ∧ (Issues c (encI 17 f) s u → apForbid c a true x = false → (a < 0x200000 ∨ a % 128 < 32) →
          exec (.st c f) s = completes c x { x with pc := x.pc + 1 } u (u.store k (x.get f.rd)))
      ∧ (∀ k', Issues c (encI 19 f) s u → f.rd.getLsbD 0 = false → a % 2 = 0 → apForbid c a true x = false → apForbid c (a + 1) true x = false →
          apLocal c (a + 1) = some k' → apRom c (a + 1) = false → (a < 0x200000 ∨ a % 128 < 32) →
          exec (.std c f) s = completes c x { x with pc := x.pc + 1 } u ((u.store k (x.get f.rd)).store k' (x.get (f.rd + 1))))
      ∧ (a % 2 = 1 → f.rd.getLsbD 0 = false → apForbid c a false x = false → apForbid c (a + 1) false x = false → Issues c (encI 18 f) s u →
          exec (.ldd c f) s = .next (apTrap c (apCount x x) true 8 0 a x.pc u))
      ∧ (a % 2 = 1 → f.rd.getLsbD 0 = false → apForbid c a true x = false → apForbid c (a + 1) true x = false → Issues c (encI 19 f) s u →
          exec (.std c f) s = .next (apTrap c (apCount x x) true 8 0 a x.pc u)))
    ∧ (∀ f : FmtM, f.rd = 0 → f.lo = 0 →
      ∀ q ∈ [(Instr.mul c f, encM 20 f, false, (x.get f.ra).toInt * (x.get f.rb).toInt), (.mulu c f, encM 21 f, false, ((x.get f.ra).toNat * (x.get f.rb).toNat : Int)),
        (.mac c f, encM 22 f, true, (x.get f.ra).toInt * (x.get f.rb).toInt)],
      Issues c q.2.1 s u → exec q.1 s = completes c x { x with
        flight := x.flight ++ [⟨0, q.2.2.1, BitVec.ofInt 72 q.2.2.2⟩]
        pc := x.pc + 1 } u u)
    ∧ (∀ f : FmtP, f.lo = 0 →
        (f.ra = 0 → Issues c (encP 24 f) s u → exec (.mfp c f) s = completes c x { x.put f.rd (x.prod f.i) with pc := x.pc + 1 } u u)
        ∧ (f.rd = 0 → Issues c (encP 25 f) s u → exec (.mtp c f) s = completes c x { x.setProd f.i (x.get f.ra) with pc := x.pc + 1 } u u
            ∧ (x.setProd f.i (x.get f.ra)).prod f.i = x.get f.ra))
    ∧ ((s.core c).started = true → (s.core c).stopped = false →
        exec (.productLanding c) s = .next (s.setCore c x)
        ∧ (∀ v : BitVec 72, (s.core c).flight = [⟨2, false, v⟩] → x.p0 ++ x.p1 = v ∧ x.flight = [] ∧ x.p2 = (s.core c).p2 ∧ x.p3 = (s.core c).p3)
        ∧ (∀ v : BitVec 72, (s.core c).flight = [⟨2, true, v⟩] → x.p2 ++ x.p3 = ((s.core c).p2 ++ (s.core c).p3) + v ∧ x.flight = [] ∧ x.p0 = (s.core c).p0 ∧ x.p1 = (s.core c).p1))

/-- DSTEP (R356): issued, it makes one division step of p0:p1 by rb as an unsigned value and is never in flight itself: t is 2 × p0 + p1[35], p1 doubles modulo 2^36 and takes 1 where t ≥ d, and p0 is t, less d in that case, modulo 2^36. With p0 zero
and a nonzero divisor 36 steps leave the quotient in p1 and the remainder in p0, with divisor zero all ones in p1 and the dividend in p0. A MUL or MULU in flight lands afterwards and writes over p0:p1. -/
def Obligations.DivisionStepDivides : Prop :=
  (∀ (c : Fin 19) (f : FmtM) (s u : State) (x : ApCore), x = landDue (s.core c) → f.rd = 0 → f.ra = 0 → f.lo = 0 → Issues c (encM 23 f) s u →
      exec (.dstep c f) s = completes c x { dstep (x.get f.rb) x with pc := x.pc + 1 } u u)
  ∧ ∀ (d : Word) (x : ApCore),
    (∀ t : Nat, t = 2 * x.p0.toNat + x.p1.toNat / 2 ^ 35 →
      dstep d x = { x with
        p0 := BitVec.ofNat 36 (if d.toNat ≤ t then t - d.toNat else t)
        p1 := BitVec.ofNat 36 (2 * x.p1.toNat % 2 ^ 36 + if d.toNat ≤ t then 1 else 0) })
    ∧ (x.p0 = 0 → d ≠ 0 → (Nat.repeat (dstep d) 36 x).p1.toNat = x.p1.toNat / d.toNat ∧ (Nat.repeat (dstep d) 36 x).p0.toNat = x.p1.toNat % d.toNat)
    ∧ (x.p0 = 0 → d = 0 → (Nat.repeat (dstep d) 36 x).p1 = 0xFFFFFFFFF#36 ∧ (Nat.repeat (dstep d) 36 x).p0 = x.p1)
    ∧ (∀ (a : Nat) (v : BitVec 72), x.flight = [⟨a, false, v⟩] → (dstep d x).flight = x.flight ∧ (landAll (dstep d x)).p0 ++ (landAll (dstep d x)).p1 = v)

/-- Control transfer, repetition and control registers (R354, R357, R358, R365, R366, R368): each instruction moves pc, the return stack, the repetition or a control register as its row says; completing an instruction counts it,
takes one from an armed budget, ages the products before it, and holds pc while a repetition has iterations left. The model's choices in it: notes/assumptions 56.md, 57.md. -/
def Obligations.AponeControlsFlow : Prop :=
  ∀ (c : Fin 19) (s u : State) (x : ApCore), x = landDue (s.core c) →
    (∀ f : FmtB, f.z = 0 →
      (Issues c (encB 32 f) s u → exec (.bz c f) s = completes c x { x with pc := if x.get f.ra = 0 then x.pc + f.off else x.pc + 1 } u u)
      ∧ (Issues c (encB 33 f) s u → exec (.bnz c f) s = completes c x { x with pc := if x.get f.ra = 0 then x.pc + 1 else x.pc + f.off } u u))
    ∧ (∀ f : FmtJ, f.z = 0 →
      (Issues c (encJ 34 f) s u → exec (.jmp c f) s = completes c x { x with pc := f.target } u u)
      ∧ (Issues c (encJ 36 f) s u → x.rsp.toNat < 8 → exec (.call c f) s = completes c x { x with
          rs := tset (fun _ => 0) x.rs x.rsp.toNat (x.pc + 1)
          rsp := x.rsp + 1
          pc := f.target } u u)
      ∧ (Issues c (encJ 36 f) s u → 8 ≤ x.rsp.toNat → bit x.status 2 = false → exec (.call c f) s = .next (apTrap c (apCount x x) true 5 0 0 x.pc u)))
    ∧ (∀ f : FmtM, f.rd = 0 → f.rb = 0 → f.fn = 0 → f.lo = 0 →
      (Issues c (encM 35 f) s u → exec (.jr c f) s = completes c x { x with pc := BitVec.ofNat 24 (x.get f.ra).toNat } u u)
      ∧ (Issues c (encM 37 f) s u → x.rsp.toNat < 8 → exec (.callr c f) s = completes c x { x with
          rs := tset (fun _ => 0) x.rs x.rsp.toNat (x.pc + 1)
          rsp := x.rsp + 1
          pc := BitVec.ofNat 24 (x.get f.ra).toNat } u u))
    ∧ (Issues c (encZ 38 0) s u →
      (x.rsp ≠ 0 → exec (.ret c 0) s = completes c x { x with
          pc := tget (fun _ => 0) x.rs (x.rsp.toNat - 1)
          rsp := x.rsp - 1 } u u)
      ∧ (x.rsp = 0 → exec (.ret c 0) s = .next (apTrap c (apCount x x) true 6 0 0 x.pc u)))
    ∧ (Issues c (encZ 26 0) s u → ∀ w t, apFetch c x (x.pc + 1) u = (t, .word w) → apListed w = true →
      (apControl w = false → apOp w ≠ 26 → exec (.rep c 0) s = completes c x (if x.get 31 = 0 then { x with pc := x.pc + 2 }
          else { x with pc := x.pc + 1, rep := some (x.get 31).toNat, repMul := false }) u t)
      ∧ (apControl w = true ∨ apOp w = 26 → exec (.rep c 0) s = .next (apTrap c (apCount x x) true 7 0 0 x.pc t)))
    ∧ (Issues c (encZ 39 0) s u → x.user = false → bit x.tstat 5 = false →
        exec (.rett c 0) s = completes c x { landAll x with pc := x.tpc, status := x.tstat &&& 0x1F#36 } u u)
    ∧ (Issues c (encZ 42 0) s u → x.user = false →
        exec (.wait c 0) s = completes c x { x with pc := x.pc + 1, waiting := decide (x.ipend &&& x.imask = 0) } u u)
    ∧ (∀ f : FmtC, f.lo = 0 → apCtlOk f.n.toNat = true →
      (f.ra = 0 → x.user = false ∨ f.n = 7 → Issues c (encC 48 f) s u →
          exec (.mfc c f) s = completes c x { x.put f.rd (apCtlRead c f.n.toNat x) with pc := x.pc + 1 } u u)
      ∧ (f.rd = 0 → x.user = false → Issues c (encC 49 f) s u →
          exec (.mtc c f) s = completes c x { apCtlWrite f.n.toNat (x.get f.ra) x with pc := x.pc + 1 } u u))
    ∧ (∀ y : ApCore, y.flight = x.flight → y.budget = x.budget →
        (apDone x y).icount = y.icount + 1 ∧ (apDone x y).budget = (if x.budgeted then x.budget - 1 else x.budget)
        ∧ (apDone x y).flight = x.flight.map (fun p => { p with age := p.age + 1 }) ∧ (apDone x y).w = y.w
        ∧ (x.rep = none → (apDone x y).pc = y.pc ∧ (apDone x y).rep = y.rep) ∧ (∀ k, x.rep = some k → k ≤ 1 → (apDone x y).pc = y.pc ∧ (apDone x y).rep = none)
        ∧ (∀ k, x.rep = some (k + 2) → (apDone x y).pc = x.pc ∧ (apDone x y).rep = some (k + 1)))
    ∧ ∀ (y : ApCore) (t : State), t.core c = u.core c → (u.core c).started = true → apPut c u y t = t.setCore c y

/-- Traps and interrupts (R351, R360 to R367): the causes in their order, exhausted budget before all others, then fetch, illegal words, reserved fields and privilege, with SYS at the next instruction and BRK at its own;
an interrupt of the lowest line enabled and pending enters with TPC at the next instruction; entry saves STATUS, the repetition and the place, and goes to TVEC at firmware level; a synchronous trap in a handler stops the core. The model's choices in it: notes/assumptions 56.md, 57.md. -/
def Obligations.AponeTraps : Prop :=
  ∀ (c : Fin 19) (s u : State) (x : ApCore), x = landDue (s.core c) →
    (∀ i w t, apWord i = some (c, w) → (s.core c).live = true → apFetch c (s.core c) (s.core c).pc s = (t, .word w) → x.budgeted = true → x.budget = 0 →
        exec i s = .next (apTrap c x true 9 0 0 x.pc s))
    ∧ (∀ f : FmtX, f.z = 0 →
      (Issues c (encX 40 f) s u → exec (.sys c f) s = .next (apTrap c (apCount x x) true 11 0 f.code.toNat (x.pc + 1) u))
      ∧ (Issues c (encX 41 f) s u → exec (.brk c f) s = .next (apTrap c (apCount x x) true 10 0 f.code.toNat x.pc u)))
    ∧ (∀ f : FmtR, f.lo ≠ 0 → ∀ q ∈ [(Instr.add c f, encR 0 f), (.sub c f, encR 1 f), (.and c f, encR 2 f), (.or c f, encR 3 f), (.xor c f, encR 4 f), (.andn c f, encR 5 f),
        (.sll c f, encR 6 f), (.srl c f, encR 7 f), (.sra c f, encR 8 f), (.seq c f, encR 9 f), (.sne c f, encR 10 f), (.slt c f, encR 11 f), (.sltu c f, encR 12 f),
        (.sge c f, encR 13 f), (.sgeu c f, encR 14 f)],
        Issues c q.2 s u → exec q.1 s = .next (apTrap c (apCount x x) true 2 0 0 x.pc u))
    ∧ (∀ f : FmtC, (f.rd ≠ 0 ∨ f.lo ≠ 0 ∨ apCtlOk f.n.toNat = false) → Issues c (encC 49 f) s u →
        exec (.mtc c f) s = .next (apTrap c (apCount x x) true 2 0 0 x.pc u))
    ∧ (x.user = true → (Issues c (encZ 39 0) s u → exec (.rett c 0) s = .next (apTrap c (apCount x x) true 3 0 0 x.pc u))
        ∧ (Issues c (encZ 42 0) s u → exec (.wait c 0) s = .next (apTrap c (apCount x x) true 3 0 0 x.pc u))
        ∧ ∀ f : FmtC, f.lo = 0 → apCtlOk f.n.toNat = true → (f.ra = 0 → f.n ≠ 7 → Issues c (encC 48 f) s u → exec (.mfc c f) s = .next (apTrap c (apCount x x) true 3 0 0 x.pc u))
          ∧ (f.rd = 0 → Issues c (encC 49 f) s u → exec (.mtc c f) s = .next (apTrap c (apCount x x) true 3 0 0 x.pc u)))
    ∧ (∀ w, Issues c w s u → apListed w = false → exec (.illegalInstruction c) s = .next (apTrap c (apCount x x) true 1 0 0 x.pc u))
    ∧ ((s.core c).live = true → (x.budgeted && x.budget == 0) = false → ∀ t e,
        (apFetch c (s.core c) (s.core c).pc s = (t, .priv) → exec (.instructionFetchFault c) s = .next (apTrap c x true 3 0 0 x.pc t))
        ∧ (apFetch c (s.core c) (s.core c).pc s = (t, .err e) → exec (.instructionFetchFault c) s = .next (apTrap c x true 4 e x.pc.toNat x.pc t)))
    ∧ (∀ l, (s.core c).started = true → (s.core c).stopped = false → bit (s.core c).status 1 = true → (s.core c).trapped = false → x.flight = [] →
        l < 8 → ((s.core c).ipend &&& (s.core c).imask).getLsbD l = true → (∀ m < l, ((s.core c).ipend &&& (s.core c).imask).getLsbD m = false) →
        exec (.interrupt c) s = .next (apTrap c x false 31 0 l x.pc s))
    ∧ ((s.core c).waiting = true → (s.core c).ipend &&& (s.core c).imask ≠ 0 → exec (.waitResume c) s = .next (s.setCore c { s.core c with waiting := false }))
    ∧ (∀ (y : ApCore) (sync : Bool) (cause sub addr : Nat) (tpc : Addr24),
      (apStops y sync cause sub addr = false → (y.user = false ∨ sync = false ∨ 16 ≤ c.val) → (apTrap c y sync cause sub addr tpc u).core c = apEnter y cause sub addr tpc
        ∧ (apTrap c y sync cause sub addr tpc u).mem = u.mem ∧ (apTrap c y sync cause sub addr tpc u).out = u.out)
      ∧ (sync = true → y.trapped = true → ((apTrap c y sync cause sub addr tpc u).core c).stopped = true ∧ ((apTrap c y sync cause sub addr tpc u).core c).w = y.w)
      ∧ (apEnter y cause sub addr tpc).pc = y.tvec ∧ (apEnter y cause sub addr tpc).tpc = tpc ∧ (apEnter y cause sub addr tpc).user = false
      ∧ (apEnter y cause sub addr tpc).trapped = true ∧ bit (apEnter y cause sub addr tpc).status 1 = false ∧ (apEnter y cause sub addr tpc).tcause = wd (sub * 32 + cause)
      ∧ (apEnter y cause sub addr tpc).taddr = BitVec.ofNat 24 addr ∧ (apEnter y cause sub addr tpc).w = y.w ∧ (apEnter y cause sub addr tpc).flight = []
      ∧ (apEnter y cause sub addr tpc).tstat = setBit y.status 5 y.rep.isSome ∧ (∀ n, y.rep = some n → (apEnter y cause sub addr tpc).trep = wd n)
      ∧ (y.flight = [] → (apEnter y cause sub addr tpc).p0 = y.p0 ∧ (apEnter y cause sub addr tpc).p3 = y.p3))

/-- Encoding (R351, R352): the word of every Apone instruction row, with every operand at every value, decodes to that row on its core; a word that decodes is the word of the instruction it decodes to; and the words
that decode to none are those with an opcode or function code not listed and the shifts of kind 0b11. -/
def Obligations.AponeWordsDecodeToTheirRows : Prop :=
  (∀ (i : Instr) (c : Fin 19) (w : Word), apWord i = some (c, w) → apDecode c w = some i)
  ∧ (∀ (i : Instr) (c : Fin 19) (w : Word), apDecode c w = some i → apWord i = some (c, w))
  ∧ ∀ (c : Fin 19) (w : Word), (apDecode c w).isSome = (apListed w && !apBadKind w)

/-! ## The test port (R531) -/

/-- The test port: a rising edge of TCK moves the controller of IEEE 1149.1 by TMS, and five with TMS high reach Test-Logic-Reset from any state, where IDCODE is selected; the data register that IDCODE selects captures
0x1462049D least significant bit first; a shift takes TDI in at the far end and a falling edge sends the near bit on TDO; a falling edge in Update-IR selects the instruction shifted in, a diagnostic code BYPASS
except in RETURNED; TRST_N low holds the port in reset. No edge touches anything outside the port. The instruction codes are not in the spec and are uninterpreted. The model's choices in it: notes/assumptions 33.md, 34.md. -/
def Obligations.TestPortFollowsItsController : Prop :=
  ∀ (s : State) (pins : List Bool) (tms tdi : Bool),
    (∃ t, exec (.tckEdge true tms tdi true pins) s = .next t ∧ t = { s with jtag := t.jtag } ∧ t.jtag.tap = s.jtag.tap.next tms
      ∧ (t.jtag.tap = .testLogicReset → t.jtag.ir = .idcode)
      ∧ (s.jtag.tap = .captureDr → s.jtag.ir = .idcode → t.jtag.shift = (List.range 32).map (fun i => Nat.testBit 0x1462049D i))
      ∧ (s.jtag.tap = .captureDr → s.jtag.ir = .bypass → t.jtag.shift = [false])
      ∧ (s.jtag.tap = .captureDr → s.jtag.ir = .sample ∨ s.jtag.ir = .extest → t.jtag.shift = pins)
      ∧ (s.jtag.tap = .shiftDr ∨ s.jtag.tap = .shiftIr → t.jtag.shift = s.jtag.shift.tail ++ [tdi]))
    ∧ (∀ q : Tap, ((((q.next true).next true).next true).next true).next true = .testLogicReset)
    ∧ (s.jtag.tap = .shiftDr ∨ s.jtag.tap = .shiftIr → exec (.tckEdge false tms tdi true pins) s = .next (s.emit (.tdo (s.jtag.shift.headD false))))
    ∧ (s.jtag.tap = .updateDr → s.jtag.ir = .sample ∨ s.jtag.ir = .extest →
        exec (.tckEdge false tms tdi true pins) s = .next { s with jtag := { s.jtag with cells := s.jtag.shift } })
    ∧ (s.jtag.tap = .updateIr → (irOf s.jtag.shift ≠ .diagnostic → exec (.tckEdge false tms tdi true pins) s = .next { s with jtag := { s.jtag with ir := irOf s.jtag.shift } })
        ∧ (irOf s.jtag.shift = .diagnostic → s.fuses.life ≠ 2 → exec (.tckEdge false tms tdi true pins) s = .next { s with jtag := { s.jtag with ir := .bypass } })
        ∧ (irOf s.jtag.shift = .diagnostic → s.fuses.life = 2 → exec (.tckEdge false tms tdi true pins) s = .refused .jtagDiagnostic))
    ∧ ∃ t, exec .trstNAssert s = .next t ∧ (∀ r, exec (.tckEdge r tms tdi false pins) s = .next t) ∧ t = { s with jtag := t.jtag }
        ∧ t.jtag.tap = .testLogicReset ∧ t.jtag.ir = .idcode

/-! ## Commands of the device, the Curator, the firmware and the user programs (R452 to R458) -/

/-- Commands of groups 0x0 and 0xA (R453, R457, R471, R473, R481 to R483, R490): each that passes its checks has its effect at its boundary: DEV_NOP answers DT, DEV_CANCEL removes the stamped commands that wait and the parked ones of a tag and counts them,
DEV_FAULT_POLICY sets a kind's K and WINDOW in force and in the settings, DEV_RESET enters a warm reset with no reply, DEV_CMD_CFG sets WAIT_MAX; the reads fill the buffer with whole entries; a settings write and a removal are answered when stored; LIFECYCLE
burns the fuses with event 0xA16. The model's choices in it: notes/assumptions 19.md, 20.md, 30.md. -/
def Obligations.DeviceAndCuratorCommands : Prop :=
  ∀ (h : HeldCmd) (u : State),
    (Takes .devNop devNopSpec h u (reply h 0 (atProc h u) (dtWords u.dt) u))
    ∧ (∀ hit : HeldCmd → Bool, hit = (fun g => (g.stamped || g.waited) && (h.pk.pf 0 12 12 == 1 || g.pk.tag.toNat == h.pk.pf 0 11 0)) →
        Takes .devCancel devCancelSpec h u (reply h 0 (atProc h u) [wd (u.cmdPend.countP hit + u.cmdPark.countP hit)]
          { u with cmdPend := u.cmdPend.filter (fun g => !hit g), cmdPark := u.cmdPark.filter (fun g => !hit g) }))
    ∧ (∀ k, k = h.pk.pf 0 2 0 → ∃ v w, Takes .devFaultPolicy devFaultPolicySpec h u (reply h 0 (atProc h u) [wd ((u.policyOf k).win * 65536 + (u.policyOf k).k * 256)] w) ∧ w = settingsPut 2 ((List.range 6).map (fun i => policyWord (v.policyOf i) i)) v
        ∧ v.policyOf k = ⟨h.pk.pf 0 11 8, h.pk.pf 0 27 16⟩ ∧ (∀ i, i ≠ k → v.policyOf i = u.policyOf i) ∧ v = { u with policy := v.policy })
    ∧ (∀ v, v = { u with cur := { u.cur with resetReq := some 3 } } → u.pwr.warmHeld = false →
        (∀ p s, Passes devResetSpec p s h u → exec (.devReset p) s = .next (enterWarm 3 v)) ∧ (u.cur.resetReq = none → Waits .devReset devResetSpec h u v))
    ∧ (∀ v, v = (if h.pk.pf 0 15 0 = 0 then u.waitMax else h.pk.pf 0 15 0) →
        Takes .devCmdCfg devCmdCfgSpec h u (reply h 0 (atProc h u) [wd v] { u with waitMax := v }))
    ∧ (∀ q ∈ [(Instr.provRead, provReadSpec, (provBack 1024 (u.reg R.CUR_PROV_SEQ) u).map provWords), (.retiredRead, retiredReadSpec, mapEntries (u.nvsBody 4))],
        Takes q.1 q.2.1 h u (reply h 0 (atProc h u) [wd (fitEntries (bufLen 0 h.pk) q.2.2).1] (bufPut 0 h.pk (fitEntries (bufLen 0 h.pk) q.2.2).2 u)))
    ∧ (∀ es, es = fitEntries (bufLen 0 h.pk) (settingsEntries (u.nvsRec 1).body) →
        Takes .settingsRead settingsReadSpec h u (reply h 0 (atProc h u) [wd es.2.length] (bufPut 0 h.pk es.2 u)))
    ∧ (∀ (n : Nat) (es : List (List Word)), (fitEntries n es).2 = (es.take (fitEntries n es).1).flatten ∧ (fitEntries n es).2.length ≤ n
        ∧ ∀ e, es[(fitEntries n es).1]? = some e → n < (fitEntries n es).2.length + e.length)
    ∧ (∀ v, v = nvsQueue 1 (settingsBody (settingsOf (Packet.words h.pk))) u →
        Takes .settingsWrite settingsWriteSpec h u { v with waitReply := v.waitReply ++ [(129, h)] })
    ∧ (∀ v, v = nvsQueue 4 (mapWithout (h.pk.par 0).toNat (u.nvsBody 4)) u →
        Takes .retiredRemove retiredRemoveSpec h u { v with waitReply := v.waitReply ++ [(132, h)] })
    ∧ (∀ i, i = h.pk.pf 0 5 0 →
        Takes .sensorRead sensorReadSpec h u (reply h 0 (atProc h u) (u.reg (R.CUR_S_VAL i) :: dtWords (tget (fun _ => 0) u.cur.senAt i)) u))
    ∧ (∀ t, t = h.pk.pf 0 1 0 → Takes .lifecycle lifecycleSpec h u (reply h 0 (atProc h u) []
        (raise 0xA16 4 uCur [wd u.fuses.life, wd t] (vaultWipeAll 2 (({ u with fuses := { u.fuses with life := t } }).setF R.CUR_LIFECYCLE 1 0 t)))))

/-- Commands of groups 0xB and 0xC (R373, R374, R458, R486, R488): FW_WRITE fills a slot and answers its checksum with event 0xA04, FW_VERIFY clears FAILED and answers version and step, FW_ACTIVATE selects a slot with no attempts and TRIAL, with event 0xA05, and resets at once
where NOW is set, FW_INFO answers both versions, FW_COSIGN_KEY burns the key; USER_LOAD puts an image into the wings of its mask, the rest of their partitions zero, USER_CLEAR zeroes them and USER_INFO answers what is loaded. The model's choices in it: notes/assumptions 20.md, 21.md, 22.md. -/
def Obligations.FirmwareAndUserCommands : Prop :=
  ∀ (h : HeldCmd) (u : State),
    (∀ x, x = h.pk.pf 0 0 0 → ∃ v, Takes .fwWrite fwWriteSpec h u (reply h 0 (atProc h u) [wd (crc32 (packBytes (Packet.words h.pk)))] (raise 0xA04 0 uCur [wd x, wd (crc32 (packBytes (Packet.words h.pk)))] (fwStat v)))
        ∧ v.slot x = slotOf (Packet.words h.pk) ∧ v.slot (1 - x) = u.slot (1 - x)
        ∧ ((u.runningSlot = none ∨ u.sel ≠ x) → v.regs = u.regs))
    ∧ (∀ x, x = h.pk.pf 0 0 0 → Takes .fwVerify fwVerifySpec h u (reply h 0 (atProc h u) [(u.slot x).version, wd (u.slot x).arb] (fwStat (u.setSlot x { u.slot x with failed := false }))))
    ∧ (∀ x v, x = h.pk.pf 0 0 0 →
        v = raise 0xA05 1 uCur [wd x, (u.slot x).version] (fwStat ((setAttempts x 0 (setSel x (u.setSlot x { u.slot x with failed := false }))).setF R.CUR_BOOT 13 13 1)) →
        (h.pk.pf 0 1 1 = 0 → u.cur.resetReq = none → Takes .fwActivate fwActivateSpec h u { bootQueue v with waitReply := (bootQueue v).waitReply ++ [(133, h)] })
        ∧ (h.pk.pf 0 1 1 = 1 → u.pwr.warmHeld = false → ∀ w, w = { nvsCommit 5 (bootBody v) v with cur := { (nvsCommit 5 (bootBody v) v).cur with resetReq := some 5 } } →
            (∀ p s, Passes fwActivateSpec p s h u → exec (.fwActivate p) s = .next (enterWarm 5 w)) ∧ (u.cur.resetReq = none → Waits .fwActivate fwActivateSpec h u w)))
    ∧ (∃ (a b c d : Word) (v : State), v = { u with freeCtr := v.freeCtr }
        ∧ Takes .fwInfo fwInfoSpec h u (reply h 0 (atProc h u) [(u.slot 0).version, a, (u.slot 1).version, b, c, d] v))
    ∧ (Takes .fwCosignKey fwCosignKeySpec h u (reply h 0 (atProc h u) []
        (fwStat (({ u with fuses := { u.fuses with cosign := some (Packet.words h.pk) } }).setF R.CUR_LIFECYCLE 8 8 1))))
    ∧ (Takes .userLoad userLoadSpec h u (reply h 0 (atProc h u) [wd (fld ((Packet.words h.pk).getD 1 0#36) 31 0), wd (h.pk.pf 0 15 0)]
        ((maskWings (h.pk.pf 0 15 0)).foldl (fun s w => userPut (Packet.words h.pk) w s) u)))
    ∧ (∀ (ws : List Word) (w i d : Nat), w < 16 → i = fld (ws.getD 0 0) 25 13 → d = fld (ws.getD 0 0) 12 0 → i ≤ 4096 → d ≤ 4096 → 2 + i + d ≤ ws.length → Memory.wf u.mem = true →
        (∀ k < 4096, (userPut ws w u).peek (kWim w (0x3000 + k)) = if k < i then ws.getD (2 + k) 0 else 0)
        ∧ (∀ k < 4096, (userPut ws w u).peek (kWdm w (0x7000 + k)) = if k < d then ws.getD (2 + i + k) 0 else 0)
        ∧ (userPut ws w u).regs = u.regs)
    ∧ (Takes .userClear userClearSpec h u (reply h 0 (atProc h u) []
        ((maskWings (h.pk.pf 0 15 0)).foldl (fun s w => { userZero w s with loop := { s.loop with user := tset (fun _ => ([] : List Word)) s.loop.user w [] } }) u)))
    ∧ (∀ w, w = h.pk.pf 0 3 0 → Takes .userInfo userInfoSpec h u (reply h 0 (atProc h u)
        [(tget (fun _ => ([] : List Word)) u.loop.user w).getD 0 0#36, (tget (fun _ => ([] : List Word)) u.loop.user w).getD 1 0#36, wd (hooksOn w u)] u))
end

