-- ==== Sys2Proof/Laws/Table.lean ====
section
/-! SUPPORT. Laws/Table.lean: reading after writing, and the canonical form, of the sparse tables. -/

namespace Sys2Proof.Machine

variable {α : Type}

@[simp] theorem tget_nil (d : Nat → α) (k : Nat) : tget d [] k = d k := rfl

theorem tget_terase_same (d : Nat → α) (t : List (Nat × α)) (k : Nat) : tget d (terase t k) k = d k := by
  induction t with
  | nil => rfl
  | cons p t ih =>
    obtain ⟨a, v⟩ := p
    by_cases h : a = k <;> simp [terase, tget, h, ih]

theorem tget_terase_ne (d : Nat → α) (t : List (Nat × α)) {k j : Nat} (h : j ≠ k) :
    tget d (terase t k) j = tget d t j := by
  induction t with
  | nil => rfl
  | cons p t ih =>
    obtain ⟨a, v⟩ := p
    by_cases ha : a = k
    · subst ha
      simp [terase, tget, ih, Ne.symm h]
    · by_cases hj : a = j
      · subst hj; simp [terase, tget, ha]
      · simp [terase, tget, ha, hj, ih]

theorem tget_tput_ne (d : Nat → α) (t : List (Nat × α)) {k j : Nat} (v : α) (h : j ≠ k) :
    tget d (tput t k v) j = tget d t j := by
  induction t with
  | nil => simp [tput, tget, Ne.symm h]
  | cons p t ih =>
    obtain ⟨a, w⟩ := p
    by_cases hk : k < a
    · simp [tput, tget, hk, Ne.symm h]
    · by_cases hj : a = j
      · subst hj; simp [tput, tget, hk]
      · simp [tput, tget, hk, hj, ih]

/-- A key absent from a table reads the value put there. -/
theorem tget_tput_terase (d : Nat → α) (t : List (Nat × α)) (k : Nat) (v : α) :
    tget d (tput (terase t k) k v) k = v := by
  induction t with
  | nil => simp [terase, tput, tget]
  | cons p t ih =>
    obtain ⟨a, w⟩ := p
    by_cases ha : a = k
    · simpa [terase, ha] using ih
    · by_cases hk : k < a <;> simp [terase, tput, tget, ha, hk, ih]

/-- A read of the key written gives the value written. -/
@[simp] theorem tget_tset_same [DecidableEq α] (d : Nat → α) (t : List (Nat × α)) (k : Nat) (v : α) :
    tget d (tset d t k v) k = v := by
  unfold tset
  split
  · next h => rw [tget_terase_same, h]
  · exact tget_tput_terase d t k v

/-- A write leaves every other key alone. -/
theorem tget_tset_ne [DecidableEq α] (d : Nat → α) (t : List (Nat × α)) {k j : Nat} (v : α) (h : j ≠ k) :
    tget d (tset d t k v) j = tget d t j := by
  unfold tset
  split
  · exact tget_terase_ne d t h
  · rw [tget_tput_ne d _ v h, tget_terase_ne d t h]

/-- A read after a write, in one equation. -/
theorem tget_tset [DecidableEq α] (d : Nat → α) (t : List (Nat × α)) (k j : Nat) (v : α) :
    tget d (tset d t k v) j = if j = k then v else tget d t j := by
  by_cases h : j = k
  · subst h; simp
  · simp [h, tget_tset_ne d t v h]

theorem tsorted_weaken {t : List (Nat × α)} {a b : Nat} (h : tsorted (some b) t = true) (hab : a ≤ b) :
    tsorted (some a) t = true := by
  cases t with
  | nil => rfl
  | cons p t =>
    simp only [tsorted, Bool.and_eq_true, decide_eq_true_eq] at h ⊢
    exact ⟨by omega, h.2⟩

theorem tsorted_none_of_some {t : List (Nat × α)} {a : Nat} (h : tsorted (some a) t = true) : tsorted none t = true := by
  cases t with
  | nil => rfl
  | cons p t =>
    simp only [tsorted, Bool.and_eq_true] at h ⊢
    exact h.2

theorem tsorted_terase {t : List (Nat × α)} {lo : Option Nat} (k : Nat) (h : tsorted lo t = true) :
    tsorted lo (terase t k) = true := by
  induction t generalizing lo with
  | nil => simpa [terase] using h
  | cons p t ih =>
    obtain ⟨a, v⟩ := p
    have hs : tsorted (some a) t = true := by
      cases lo with
      | none => simpa [tsorted] using h
      | some l => simp only [tsorted, Bool.and_eq_true] at h; exact h.2
    by_cases ha : a = k
    · simp only [terase, ha, if_true]
      cases lo with
      | none => exact ih (tsorted_none_of_some hs)
      | some l =>
        simp only [tsorted, Bool.and_eq_true, decide_eq_true_eq] at h
        exact ih (tsorted_weaken hs (by omega))
    · simp only [terase, ha, if_false]
      cases lo with
      | none => simpa [tsorted] using ih hs
      | some l =>
        simp only [tsorted, Bool.and_eq_true, decide_eq_true_eq] at h ⊢
        exact ⟨h.1, ih hs⟩

/-- No entry of an erased table has the key. -/
theorem terase_key_ne {t : List (Nat × α)} {k : Nat} {p : Nat × α} (h : p ∈ terase t k) : p.1 ≠ k := by
  induction t with
  | nil => cases h
  | cons q t ih =>
    obtain ⟨a, v⟩ := q
    by_cases ha : a = k
    · simp only [terase, ha, if_true] at h
      exact ih h
    · simp only [terase, ha, if_false, List.mem_cons] at h
      rcases h with rfl | h
      · exact ha
      · exact ih h

theorem tsorted_tput {t : List (Nat × α)} {lo : Option Nat} (k : Nat) (v : α)
    (h : tsorted lo t = true) (hk : ∀ l, lo = some l → l < k) (hn : ∀ p ∈ t, p.1 ≠ k) :
    tsorted lo (tput t k v) = true := by
  induction t generalizing lo with
  | nil =>
    cases lo with
    | none => rfl
    | some l => simp [tput, tsorted, hk l rfl]
  | cons p t ih =>
    obtain ⟨a, w⟩ := p
    have hak : a ≠ k := hn (a, w) (by simp)
    have hs : tsorted (some a) t = true := by
      cases lo with
      | none => simpa [tsorted] using h
      | some l => simp only [tsorted, Bool.and_eq_true] at h; exact h.2
    by_cases hlt : k < a
    · cases lo with
      | none => simp [tput, hlt, tsorted, hs]
      | some l => simp [tput, hlt, tsorted, hs, hk l rfl]
    · have hin := ih (lo := some a) hs (by intro l hl; cases hl; omega) (fun p hp => hn p (by simp [hp]))
      cases lo with
      | none => simpa [tput, hlt, tsorted] using hin
      | some l =>
        simp only [tsorted, Bool.and_eq_true, decide_eq_true_eq] at h
        simp [tput, hlt, tsorted, hin, h.1]

theorem mem_of_mem_terase {t : List (Nat × α)} {k : Nat} {p : Nat × α} (h : p ∈ terase t k) : p ∈ t := by
  induction t with
  | nil => cases h
  | cons q t ih =>
    obtain ⟨a, v⟩ := q
    by_cases ha : a = k
    · simp only [terase, ha, if_true] at h
      exact List.mem_cons_of_mem _ (ih h)
    · simp only [terase, ha, if_false, List.mem_cons] at h
      rcases h with rfl | h
      · simp
      · exact List.mem_cons_of_mem _ (ih h)

theorem mem_tput {t : List (Nat × α)} {k : Nat} {v : α} {p : Nat × α} (h : p ∈ tput t k v) : p = (k, v) ∨ p ∈ t := by
  induction t with
  | nil => left; simpa [tput] using h
  | cons q t ih =>
    obtain ⟨a, w⟩ := q
    by_cases hk : k < a
    · simp only [tput, hk, if_true, List.mem_cons] at h
      rcases h with rfl | rfl | h <;> simp_all
    · simp only [tput, hk, if_false, List.mem_cons] at h
      rcases h with rfl | h
      · right; simp
      · rcases ih h with rfl | h
        · left; rfl
        · right; simp [h]

theorem twf_iff [DecidableEq α] (d : Nat → α) (t : List (Nat × α)) :
    twf d t = true ↔ tsorted none t = true ∧ ∀ p ∈ t, p.2 ≠ d p.1 := by
  simp [twf, List.all_eq_true]

/-- The empty table is canonical. -/
@[simp] theorem twf_nil [DecidableEq α] (d : Nat → α) : twf d [] = true := rfl

/-- A write keeps the canonical form. -/
theorem twf_tset [DecidableEq α] (d : Nat → α) (t : List (Nat × α)) (k : Nat) (v : α) (h : twf d t = true) :
    twf d (tset d t k v) = true := by
  rw [twf_iff] at h ⊢
  unfold tset
  split
  · exact ⟨tsorted_terase k h.1, fun p hp => h.2 p (mem_of_mem_terase hp)⟩
  · next hv =>
    refine ⟨tsorted_tput k v (tsorted_terase k h.1) (by intro l hl; cases hl) (fun p hp => terase_key_ne hp), ?_⟩
    intro p hp
    rcases mem_tput hp with rfl | hp
    · exact hv
    · exact h.2 p (mem_of_mem_terase hp)

theorem tsorted_filter {t : List (Nat × α)} {lo : Option Nat} (f : Nat × α → Bool) (h : tsorted lo t = true) :
    tsorted lo (t.filter f) = true := by
  induction t generalizing lo with
  | nil => simpa using h
  | cons p t ih =>
    obtain ⟨a, v⟩ := p
    have hs : tsorted (some a) t = true := by
      cases lo with
      | none => simpa [tsorted] using h
      | some l => simp only [tsorted, Bool.and_eq_true] at h; exact h.2
    by_cases hf : f (a, v) = true
    · rw [List.filter_cons_of_pos hf]
      cases lo with
      | none => simpa [tsorted] using ih hs
      | some l =>
        simp only [tsorted, Bool.and_eq_true, decide_eq_true_eq] at h ⊢
        exact ⟨h.1, ih hs⟩
    · rw [List.filter_cons_of_neg hf]
      cases lo with
      | none => exact ih (tsorted_none_of_some hs)
      | some l =>
        simp only [tsorted, Bool.and_eq_true, decide_eq_true_eq] at h
        exact ih (tsorted_weaken hs (by omega))

/-- Dropping entries keeps the canonical form. -/
theorem twf_filter [DecidableEq α] (d : Nat → α) (t : List (Nat × α)) (f : Nat × α → Bool) (h : twf d t = true) :
    twf d (t.filter f) = true := by
  rw [twf_iff] at h ⊢
  exact ⟨tsorted_filter f h.1, fun p hp => h.2 p (List.mem_filter.mp hp).1⟩

end Sys2Proof.Machine
end

