-- ==== Sys2Proof/Laws/Events.lean ====
section
/-! SUPPORT. Laws/Events.lean: what raising an event and delivering a record may change, operation by operation. -/

namespace Sys2Proof.Machine

/-! ## Registers and stored words: read after write -/

theorem reg_setReg (s : State) (o o' : Nat) (v : Word) : (s.setReg o v).reg o' = if o' = o then v else s.reg o' :=
  tget_tset regReset s.regs o o' v

@[simp] theorem reg_setReg_same (s : State) (o : Nat) (v : Word) : (s.setReg o v).reg o = v := by simp [reg_setReg]

theorem reg_setReg_ne (s : State) {o o' : Nat} (v : Word) (h : o' ≠ o) : (s.setReg o v).reg o' = s.reg o' := by
  simp [reg_setReg, h]

@[simp] theorem stored_setReg (s : State) (o k : Nat) (v : Word) : (s.setReg o v).stored k = s.stored k := rfl

@[simp] theorem still_setReg (s : State) (o : Nat) (v : Word) : (s.setReg o v).still = s.still := rfl

theorem stored_putStored (s : State) (k j : Nat) (x : Stored) : (s.putStored k x).stored j = if j = k then x else s.stored j :=
  tget_tset (fun _ => 0#43) s.mem k j x

@[simp] theorem reg_putStored (s : State) (k o : Nat) (x : Stored) : (s.putStored k x).reg o = s.reg o := rfl

@[simp] theorem still_putStored (s : State) (k : Nat) (x : Stored) : (s.putStored k x).still = s.still := rfl

theorem evReg_false {q o : Nat} (h : evReg q o = false) :
    o ∉ evRegs ∧ o ∉ ringRegs 2 ∧ o ∉ ringRegs q ∧ ∀ b < 16, o ≠ R.BANK_STATE b ∧ o ≠ R.BANK_STATUS b := by
  simp only [evReg, Bool.or_eq_false_iff, List.any_eq_false, List.mem_range, List.contains_eq_mem, decide_eq_false_iff_not,
    Bool.or_eq_true, beq_iff_eq, not_or] at h
  exact ⟨h.1.1.1, h.1.1.2, h.1.2, h.2⟩

/-- HIF_MODE and the configuration of a ring are not among what events change. -/
theorem evReg_mode {q : Nat} : evReg q R.HIF_MODE = false := by
  have h1 : R.HIF_MODE ∉ evRegs := by decide
  have h2 : R.HIF_MODE ∉ ringRegs 2 := by decide
  have h3 : R.HIF_MODE ∉ ringRegs q := by
    simp only [R.HIF_MODE, ringRegs, R.RING_STATE, R.RING_PROD, R.RING_DROP_CNT, R.RING_STATUS, R.RING_OCC_MAX, R.HIF_VEC_CNT, R.HIF_VEC_LAT,
      List.mem_cons, List.not_mem_nil, or_false, not_or]
    refine ⟨?_, ?_, ?_, ?_, ?_, ?_, ?_⟩ <;> omega
  have h4 : ∀ b < 16, ¬(R.HIF_MODE = R.BANK_STATE b ∨ R.HIF_MODE = R.BANK_STATUS b) := by
    intro b _ h; simp only [R.HIF_MODE, R.BANK_STATE, R.BANK_STATUS] at h; omega
  simp only [evReg, List.contains_eq_mem, h1, h2, h3, decide_false, Bool.or_false, Bool.false_or, List.any_eq_false, List.mem_range,
    Bool.or_eq_true, beq_iff_eq]
  exact h4

/-- A register of ring `p` outside the seven of `ringRegs` is not among what events change. -/
theorem evReg_ring {q p j : Nat} (hq : q < 32) (hp : p < 32) (hj : j = 0 ∨ j = 8 ∨ j = 0x10 ∨ j = 0x30 ∨ j = 0x58) :
    evReg q (0x7000 + j + 0x80 * p) = false := by
  have h1 : 0x7000 + j + 0x80 * p ∉ evRegs := by
    simp only [evRegs, R.HIF_STATUS, R.HIF_ALERT_STAT, R.HIF_ACC_NEXT, R.HIF_DMA_ERR_LO, R.HIF_DMA_ERR_HI, R.HIF_DMA_ERR_INFO,
      R.HIF_MISROUTE_CNT, R.HIF_TX_CNT, R.HIF_EVT_CNT, R.HIF_RING_ON, R.HIF_RING_HALT, R.HIF_RING_IRQ, R.HIF_RING_FULL, R.HIF_VEC_CNT,
      R.CUR_STATUS, R.CUR_PROV_LOST_CNT, R.MEM_STATUS, R.MEM_VAULT_WIPE_CNT, R.MEM_FLIP_ARM, List.mem_cons, List.not_mem_nil, or_false,
      not_or]
    refine ⟨?_, ?_, ?_, ?_, ?_, ?_, ?_, ?_, ?_, ?_, ?_, ?_, ?_, ?_, ?_, ?_, ?_, ?_, ?_, ?_⟩ <;> omega
  have h2 : ∀ r < 32, 0x7000 + j + 0x80 * p ∉ ringRegs r := by
    intro r hr
    simp only [ringRegs, R.RING_STATE, R.RING_PROD, R.RING_DROP_CNT, R.RING_STATUS, R.RING_OCC_MAX, R.HIF_VEC_CNT, R.HIF_VEC_LAT,
      List.mem_cons, List.not_mem_nil, or_false, not_or]
    refine ⟨?_, ?_, ?_, ?_, ?_, ?_, ?_⟩ <;> omega
  have h4 : ∀ b < 16, ¬(0x7000 + j + 0x80 * p = R.BANK_STATE b ∨ 0x7000 + j + 0x80 * p = R.BANK_STATUS b) := by
    intro b _ h; simp only [R.BANK_STATE, R.BANK_STATUS] at h; omega
  simp only [evReg, List.contains_eq_mem, h1, h2 2 (by omega), h2 q hq, decide_false, Bool.or_false, Bool.false_or, List.any_eq_false,
    List.mem_range, Bool.or_eq_true, beq_iff_eq]
  exact h4

namespace Quiet

variable {q : Nat} {s t u : State}

theorem refl (q : Nat) (s : State) : Quiet q s s := ⟨rfl, fun _ _ => rfl, fun _ _ _ _ => rfl⟩

theorem spiMode (h : Quiet q s t) : t.spiMode = s.spiMode := by
  unfold State.spiMode; rw [h.2.1 _ evReg_mode]

theorem evWord (h : Quiet q s t) (k : Nat) : Machine.evWord t k = Machine.evWord s k := by
  unfold Machine.evWord; rw [h.spiMode]

theorem ringInside_iff (hq : q < 32) (h : Quiet q s t) {p : Nat} (hp : p < 32) : t.ringInside p ↔ s.ringInside p := by
  have hb := h.2.1 _ (evReg_ring hq hp (j := 0) (by omega))
  have hh := h.2.1 _ (evReg_ring hq hp (j := 8) (by omega))
  have hc := h.2.1 _ (evReg_ring hq hp (j := 0x10) (by omega))
  simp only [State.ringInside, State.ringBase, State.ringSize, State.ringEntry, State.rf, h.spiMode]
  simp only [Nat.add_zero] at hb
  have e1 : R.RING_BASE_LO p = 28672 + 128 * p := rfl
  have e2 : R.RING_BASE_HI p = 0x7000 + 8 + 128 * p := rfl
  have e3 : R.RING_CFG p = 0x7000 + 0x10 + 128 * p := rfl
  rw [e1, e2, e3, hb, hh, hc]

theorem trans (hq : q < 32) (h1 : Quiet q s t) (h2 : Quiet q t u) : Quiet q s u := by
  refine ⟨h2.1.trans h1.1, fun o ho => (h2.2.1 o ho).trans (h1.2.1 o ho), fun i2 iq k hk => ?_⟩
  rw [h2.2.2 ((h1.ringInside_iff hq (by omega)).mpr i2) ((h1.ringInside_iff hq hq).mpr iq) k (by rw [h1.evWord]; exact hk), h1.2.2 i2 iq k hk]

theorem ite {c : Prop} [Decidable c] (h1 : Quiet q s t) (h2 : Quiet q s u) : Quiet q s (if c then t else u) := by
  split
  · exact h1
  · exact h2

/-- A change of what `still` leaves out and of no register or stored word. -/
theorem of_eq (h1 : t.still = s.still) (h2 : t.regs = s.regs) (h3 : t.mem = s.mem) : Quiet q s t :=
  ⟨h1, fun o _ => by simp [State.reg, h2], fun _ _ k _ => by simp [State.stored, h3]⟩

theorem setReg (o : Nat) (v : Word) (h : Machine.evReg q o = true) : Quiet q s (s.setReg o v) :=
  ⟨rfl, fun o' ho => reg_setReg_ne s v (by rintro rfl; simp [h] at ho), fun _ _ _ _ => rfl⟩

theorem setF (o hi lo v : Nat) (h : Machine.evReg q o = true) : Quiet q s (s.setF o hi lo v) := setReg o _ h
theorem cnt (o n : Nat) (h : Machine.evReg q o = true) : Quiet q s (s.cnt o n) := setReg o _ h
theorem sticky (o i : Nat) (h : Machine.evReg q o = true) : Quiet q s (s.sticky o i) := setReg o _ h
theorem maxF (o hi lo v : Nat) (h : Machine.evReg q o = true) : Quiet q s (s.maxF o hi lo v) := by
  unfold State.maxF; split
  · exact setF o hi lo v h
  · exact refl q s

theorem emit (o : Out) : Quiet q s (s.emit o) := of_eq rfl rfl rfl
theorem setRh (p : Nat) (r : RingH) : Quiet q s (s.setRh p r) := of_eq rfl rfl rfl

theorem putStored (k : Nat) (x : Stored) (h : s.ringInside 2 → s.ringInside q → Machine.evWord s k = true) :
    Quiet q s (s.putStored k x) :=
  ⟨rfl, fun _ _ => rfl, fun i2 iq j hj => by rw [stored_putStored, if_neg (by rintro rfl; simp [h i2 iq] at hj)]⟩

end Quiet

/-! ## Membership of the registers the operations write -/

theorem evReg_of_list {q o : Nat} (h : o ∈ evRegs) : evReg q o = true := by
  simp [evReg, h]

theorem evReg_two {q o : Nat} (h : o ∈ ringRegs 2) : evReg q o = true := by
  simp [evReg, h]

theorem evReg_own {q o : Nat} (h : o ∈ ringRegs q) : evReg q o = true := by
  simp [evReg, h]

theorem evReg_bankState {q b : Nat} (h : b < 16) : evReg q (R.BANK_STATE b) = true := by
  simp only [evReg, Bool.or_eq_true, List.any_eq_true]
  right
  exact ⟨b, by simpa using h, by simp⟩

theorem evReg_bankStatus {q b : Nat} (h : b < 16) : evReg q (R.BANK_STATUS b) = true := by
  simp only [evReg, Bool.or_eq_true, List.any_eq_true]
  right
  exact ⟨b, by simpa using h, by simp⟩

theorem evReg_alert {q : Nat} : evReg q R.HIF_ALERT_STAT = true := evReg_of_list (by decide)
theorem evReg_status {q : Nat} : evReg q R.HIF_STATUS = true := evReg_of_list (by decide)
theorem evReg_flip {q : Nat} : evReg q R.MEM_FLIP_ARM = true := evReg_of_list (by decide)

/-- The seven registers of ring `p`, for `p` the ring or ring 2. -/
theorem evReg_mem {q p o : Nat} (hp : p = q ∨ p = 2) (h : o ∈ ringRegs p) : evReg q o = true := by
  rcases hp with rfl | rfl
  · exact evReg_own h
  · exact evReg_two h

/-- The vector counter of a ring's message, of the alert and of the error. -/
theorem evReg_vec {q v : Nat} (h : v = q ∨ v = 2 ∨ v = 32 ∨ v = 33) : evReg q (R.HIF_VEC_CNT v) = true := by
  rcases h with rfl | rfl | rfl | rfl
  · exact evReg_own (by simp [ringRegs])
  · exact evReg_two (by simp [ringRegs])
  · exact evReg_of_list (by decide)
  · exact evReg_of_list (by decide)

/-! ## Stores -/

theorem evWord_bank {s : State} {k : Nat} (h : evWord s k = true) : k < 4194304 := by
  simp only [evWord, Bool.or_eq_true, decide_eq_true_eq, Bool.and_eq_true] at h
  have e : kBank 16 0 = 4194304 := rfl
  rcases h with h | h
  · have := h.2; omega
  · exact h.2

namespace Quiet

variable {q : Nat} {s t u : State}

theorem storeBits (hq : q < 32) (k : Nat) (x : Stored) (h : s.ringInside 2 → s.ringInside q → Machine.evWord s k = true) :
    Quiet q s (s.storeBits k x) := by
  unfold State.storeBits
  split
  · rename_i hk
    have hb : k / 262144 < 16 := by have := hk.1; omega
    have h1 : ∀ y, Quiet q s (s.putStored k y) := fun y => putStored k y h
    have h2 : ∀ (t : State) v, Quiet q t (t.setReg R.MEM_FLIP_ARM v) := fun t v => setReg _ v evReg_flip
    have h3 : ∀ t : State, Quiet q t (t.sticky (R.BANK_STATUS (k / 262144)) 6) := fun t => sticky _ _ (evReg_bankStatus hb)
    exact ((h1 _).trans hq (h2 _ _)).trans hq (h3 _)
  · exact putStored k x h

theorem store (hq : q < 32) (k : Nat) (d : Word) (h : s.ringInside 2 → s.ringInside q → Machine.evWord s k = true) :
    Quiet q s (s.store k d) :=
  storeBits hq k _ h

theorem storeList (hq : q < 32) (ws : List Word) (k : Nat) (s : State)
    (h : s.ringInside 2 → s.ringInside q → ∀ j, k ≤ j → j < k + ws.length → Machine.evWord s j = true) :
    Quiet q s (storeList k ws s) := by
  induction ws generalizing k s with
  | nil => exact refl q s
  | cons w ws ih =>
    have h0 : Quiet q s (s.store k w) := store hq k w fun i2 iq => h i2 iq k (le_refl k) (by simp)
    refine h0.trans hq (ih (k + 1) (s.store k w) fun i2 iq j h1 h2 => ?_)
    rw [h0.evWord]
    exact h ((h0.ringInside_iff hq (by omega)).mp i2) ((h0.ringInside_iff hq hq).mp iq) j (by omega)
      (by simp only [List.length_cons]; omega)

end Quiet

/-! ## Messages, rings (R424 to R429) -/

namespace Quiet

variable {q : Nat} {s t u : State}

theorem msiDue (hq : q < 32) {v : Nat} (h : v = q ∨ v = 2 ∨ v = 32 ∨ v = 33) (s : State) : Quiet q s (msiDue v s) := by
  unfold Machine.msiDue
  have h0 : Quiet q s (s.cnt (R.HIF_VEC_CNT v)) := cnt _ _ (evReg_vec h)
  dsimp only
  split
  · exact h0
  · split
    · exact h0.trans hq (of_eq rfl rfl rfl)
    · exact h0.trans hq (emit _)

theorem alertSet (hq : q < 32) (i : Nat) (s : State) : Quiet q s (alertSet i s) := by
  unfold Machine.alertSet
  have h0 : Quiet q s (s.sticky R.HIF_ALERT_STAT i) := sticky _ _ evReg_alert
  split
  · exact refl q s
  · dsimp only
    split
    · exact h0.trans hq (msiDue hq (by omega) _)
    · exact h0

theorem vecLat (hq : q < 32) {v : Nat} (h : v = q ∨ v = 2) (us : Nat) (s : State) : Quiet q s (vecLat v us s) := by
  have e : Machine.evReg q (R.HIF_VEC_LAT v) = true := evReg_mem h (by simp [ringRegs])
  unfold Machine.vecLat
  dsimp only
  split
  · exact (sticky _ _ e).trans hq (maxF _ _ _ _ e)
  · exact maxF _ _ _ _ e

theorem syncFull (p : Nat) (s : State) : Quiet q s (syncFull p s) := setReg _ _ (evReg_of_list (by decide))

theorem syncRingBit (hq : q < 32) (s : State) : Quiet q s (syncRingBit s) := by
  unfold Machine.syncRingBit
  split
  · exact setReg _ _ evReg_alert
  · exact alertSet hq 0 s

theorem ringMessage (hq : q < 32) {p : Nat} (h : p = q ∨ p = 2) (s : State) : Quiet q s (ringMessage p s) := by
  unfold Machine.ringMessage
  dsimp only
  exact ((((vecLat hq h _ s).trans hq (setRh _ _)).trans hq (sticky _ _ (evReg_of_list (by decide)))).trans hq (syncRingBit hq _)).trans hq
    (msiDue hq (by omega) _)

theorem ringModerate (hq : q < 32) {p : Nat} (h : p = q ∨ p = 2) (w : Bool) (s : State) : Quiet q s (ringModerate p w s) := by
  have e : Machine.evReg q (R.RING_STATUS p) = true := evReg_mem h (by simp [ringRegs])
  unfold Machine.ringModerate
  split
  · exact refl q s
  · dsimp only
    have h1 : ∀ r, Quiet q s (s.setRh p r) := fun r => setRh p r
    have h2 := fun r => (h1 r).trans hq (sticky (R.RING_STATUS p) 3 e)
    exact ite ((ite (h2 _) (h1 _)).trans hq (ringMessage hq h _)) (ite (h2 _) (h1 _))

theorem countBytes (hq : q < 32) (n : Nat) (s : State) : Quiet q s (countBytes true n s) := by
  unfold Machine.countBytes
  simp only [if_true]
  split
  · exact of_eq rfl rfl rfl
  · exact (cnt R.HIF_TX_CNT _ (evReg_of_list (by decide))).trans hq (of_eq rfl rfl rfl)

theorem zeroMem (k n : Nat) (s : State) (h : ∀ j, k ≤ j → j < k + n → Machine.evWord s j = true) : Quiet q s (s.zeroMem k n) := by
  refine ⟨rfl, fun _ _ => rfl, fun _ _ j hj => ?_⟩
  have hout : j < k ∨ k + n ≤ j := by
    by_contra hc
    rw [h j (by omega) (by omega)] at hj
    exact absurd hj (by decide)
  have key : ∀ t : List (Nat × Stored), tget (fun _ => 0#43) (t.filter (fun p => decide (p.1 < k ∨ k + n ≤ p.1))) j
      = tget (fun _ => 0#43) t j := by
    intro t
    induction t with
    | nil => rfl
    | cons p t ih =>
      obtain ⟨a, v⟩ := p
      by_cases ha : a < k ∨ k + n ≤ a
      · rw [List.filter_cons_of_pos (by simpa using ha)]
        simp only [tget, ih]
      · rw [List.filter_cons_of_neg (by simpa using ha)]
        have : a ≠ j := by rintro rfl; exact ha hout
        simp only [tget, this, if_false, ih]
  exact key s.mem

theorem bankServe (hq : q < 32) {b : Nat} (hb : b < 16) (s : State) (hs : s.spiMode = true) : Quiet q s (bankServe b s).1 := by
  have es : Machine.evReg q (R.BANK_STATE b) = true := evReg_bankState hb
  unfold Machine.bankServe
  dsimp only
  split
  · exact refl q s
  · have h0 : Quiet q s (if (s.rf (R.BANK_STATE b) 10 8 = 4 ∨ (tget (fun _ => BankH.idle) s.bankH b).wiping.isSome = true)
        then s.zeroMem (kBank b 0) 262144 else s) := by
      split
      · refine zeroMem _ _ s fun j h1 h2 => ?_
        simp only [Machine.evWord, hs, Bool.true_and, Bool.or_eq_true, decide_eq_true_eq]
        right
        simp only [kBank] at h1 h2
        omega
      · exact refl q s
    have h1 := (h0.trans hq (setF (R.BANK_STATE b) 10 8 0 es))
    split
    · exact h1.trans hq (of_eq rfl rfl rfl)
    · exact ((h1.trans hq (of_eq rfl rfl rfl)).trans hq (cnt R.MEM_VAULT_WIPE_CNT 1 (evReg_of_list (by decide)))).trans hq
        (sticky R.MEM_STATUS 6 (evReg_of_list (by decide)))

theorem ringWriteBack (hq : q < 32) (p idx : Nat) (s : State) : Quiet q s (ringWriteBack p idx s) := by
  unfold Machine.ringWriteBack
  split
  · split
    · rename_i hs
      split
      · refine store hq _ _ fun _ _ => ?_
        have : s.rf (R.RING_WB_LO p) 21 0 < 4194304 := Nat.mod_lt _ (by decide)
        simp [Machine.evWord, hs, this]
      · exact refl q s
    · exact emit _
  · exact refl q s

theorem rateOkAt (sec : Word) (k : Nat) (s : State) : Quiet q s (rateOkAt sec k s).2 := by
  unfold Machine.rateOkAt
  dsimp only
  split <;> exact of_eq rfl rfl rfl

theorem rateOk (k : Nat) (s : State) : Quiet q s (rateOk k s).2 := rateOkAt _ k s

theorem ringDrop (hq : q < 32) {p : Nat} (h : p = q ∨ p = 2) (s : State) : Quiet q s (ringDrop p s).1 := by
  have e1 : Machine.evReg q (R.RING_STATUS p) = true := evReg_mem h (by simp [ringRegs])
  have e2 : Machine.evReg q (R.RING_DROP_CNT p) = true := evReg_mem h (by simp [ringRegs])
  have h0 : Quiet q s ((s.cnt (R.RING_DROP_CNT p)).sticky (R.RING_STATUS p) 2) := (cnt _ _ e2).trans hq (sticky _ _ e1)
  have h1 := fun r => h0.trans hq (setRh p r)
  have h2 := fun r => (h1 r).trans hq (rateOk (rateKey 0x042 (uRing p)) _)
  unfold Machine.ringDrop
  dsimp only
  split
  · exact h1 _
  · split
    · exact (h2 _).trans hq (setRh _ _)
    · exact h2 _

theorem dmaCapture (hq : q < 32) (p c : Nat) (a : Option Nat) (s : State) : Quiet q s (dmaCapture p c a s) := by
  have h0 := fun v => (setReg (q := q) (s := s) R.HIF_DMA_ERR_INFO v (evReg_of_list (by decide))).trans hq (sticky R.HIF_STATUS 1 evReg_status)
  unfold Machine.dmaCapture
  dsimp only
  split
  · exact ((h0 _).trans hq (setReg R.HIF_DMA_ERR_LO _ (evReg_of_list (by decide)))).trans hq (setReg R.HIF_DMA_ERR_HI _ (evReg_of_list (by decide)))
  · exact h0 _

theorem setRingState (hq : q < 32) {p : Nat} (h : p = q ∨ p = 2) (v : Nat) (s : State) : Quiet q s (setRingState p v s) := by
  have e : Machine.evReg q (R.RING_STATE p) = true := evReg_mem h (by simp [ringRegs])
  unfold Machine.setRingState
  exact ((setF _ _ _ _ e).trans hq (setReg R.HIF_RING_ON _ (evReg_of_list (by decide)))).trans hq
    (setReg R.HIF_RING_HALT _ (evReg_of_list (by decide)))

theorem ringHaltEv (hq : q < 32) {p : Nat} (h : p = q ∨ p = 2) (c : Nat) (a : Option Nat) (s : State) :
    Quiet q s (ringHaltEv p c a s).1 := by
  have e : Machine.evReg q (R.RING_STATUS p) = true := evReg_mem h (by simp [ringRegs])
  unfold Machine.ringHaltEv
  exact (((((setRingState hq h 2 s).trans hq (dmaCapture hq p c a _)).trans hq (setRh _ _)).trans hq (sticky _ _ e)).trans hq
    (msiDue hq (by omega) _)).trans hq (alertSet hq 3 _)

end Quiet

end Sys2Proof.Machine
end

