-- ==== Sys2Proof/Laws/Raise.lean ====
section
/-! SUPPORT. Laws/Raise.lean: raising an event and delivering a record as wholes. -/

namespace Sys2Proof.Machine

theorem evWord_spi {s : State} {k : Nat} (hs : s.spiMode = true) (hk : k < 4194304) : evWord s k = true := by
  simp [evWord, hs, hk]

theorem padTo_length (n : Nat) (ws : List Word) : (padTo n ws).length = n := by
  simp [padTo]

theorem slotWords_length (bytes : List (BitVec 8)) : (slotWords bytes).length = bytes.length / 8 := by
  simp [slotWords]

theorem ringSize_pos (s : State) (q : Nat) : 0 < s.ringSize q := by
  unfold State.ringSize; exact Nat.two_pow_pos _

namespace Quiet

variable {q : Nat} {s t u : State}

theorem ringPlace (hq : q < 32) {p : Nat} (h : p = q ∨ p = 2) (ws : List Word) (bytes : List (BitVec 8))
    (hw : (ws ++ slotWords bytes).length = s.ringEntry p / 8) :
    Quiet q s (ringPlace p (s.rf (R.RING_PROD p) 16 0 % s.ringSize p) (s.ringAt p) ws bytes s).1 := by
  unfold Machine.ringPlace
  split
  · rename_i hs
    have hb : Quiet q s (Machine.bankServe (s.ringAt p / 262144 % 16) s).1 := bankServe hq (Nat.mod_lt _ (by decide)) s hs
    refine hb.trans hq (storeList hq _ _ _ fun i2 iq j h1 h2 => evWord_spi (by rw [hb.spiMode, hs]) ?_)
    have hin : s.ringInside p := by
      rcases h with rfl | rfl
      · exact (hb.ringInside_iff hq hq).mp iq
      · exact (hb.ringInside_iff hq (by omega)).mp i2
    have hb := hin hs
    have hm : s.rf (R.RING_PROD p) 16 0 % s.ringSize p < s.ringSize p := Nat.mod_lt _ (ringSize_pos s p)
    have hm2 : (s.rf (R.RING_PROD p) 16 0 % s.ringSize p + 1) * (s.ringEntry p / 8) ≤ s.ringSize p * (s.ringEntry p / 8) :=
      Nat.mul_le_mul_right _ hm
    rw [hw, State.ringAt, if_pos hs] at h2
    rw [Nat.add_mul, Nat.one_mul] at hm2
    omega
  · exact emit _

theorem ringCommit (hq : q < 32) {p : Nat} (h : p = q ∨ p = 2) (i : Nat) (s : State) : Quiet q s (ringCommit p i s) := by
  have e1 : Machine.evReg q (R.RING_PROD p) = true := evReg_mem h (by simp [ringRegs])
  have e2 : Machine.evReg q (R.RING_OCC_MAX p) = true := evReg_mem h (by simp [ringRegs])
  have e3 : Machine.evReg q (R.RING_STATUS p) = true := evReg_mem h (by simp [ringRegs])
  have h0 := fun n v => ((setF (q := q) (s := s) (R.RING_PROD p) 16 0 i e1).trans hq (countBytes hq n _)).trans hq
    (maxF (R.RING_OCC_MAX p) 16 0 v e2)
  unfold Machine.ringCommit
  dsimp only
  exact (((ite ((h0 _ _).trans hq (sticky _ _ e3)) (h0 _ _)).trans hq (syncFull p _)).trans hq (ringWriteBack hq p i _)).trans hq
    (ringModerate hq h true _)

/-- R424, R425: an entry, words and byte-packed samples, delivered or dropped. -/
theorem ringPutB (hq : q < 32) {p : Nat} (h : p = q ∨ p = 2) (cls : Nat) (ws : List Word) (bytes : List (BitVec 8)) (s : State)
    (hb : bytes.length / 8 ≤ s.ringEntry p / 8) : Quiet q s (ringPutB p cls ws bytes s).1 := by
  unfold Machine.ringPutB
  split
  · exact (cnt R.HIF_MISROUTE_CNT 1 (evReg_of_list (by decide))).trans hq (sticky R.HIF_STATUS 4 evReg_status)
  · split
    · exact ringDrop hq h s
    · split
      · exact ringHaltEv hq h _ _ s
      · exact (ringPlace hq h _ _ (by simp only [List.length_append, padTo_length, slotWords_length]; omega)).trans hq (ringCommit hq h _ _)

/-- R424, R425: a record delivered or dropped. -/
theorem ringPut (hq : q < 32) {p : Nat} (h : p = q ∨ p = 2) (cls : Nat) (ws : List Word) (s : State) :
    Quiet q s (ringPut p cls ws s).1 := ringPutB hq h cls ws [] s (Nat.zero_le _)

theorem provQueue (hq : q < 32) (e : EvReq) (mk : Bool → List Word) (s : State) : Quiet q s (provQueue e mk s).2 := by
  unfold Machine.provQueue
  split
  · split
    · exact of_eq rfl rfl rfl
    · exact ((cnt R.CUR_PROV_LOST_CNT 1 (evReg_of_list (by decide))).trans hq (sticky R.CUR_STATUS 3 (evReg_of_list (by decide)))).trans hq
        (of_eq rfl rfl rfl)
  · exact refl q s

theorem evNumber (hq : q < 32) (e : EvReq) (s : State) : Quiet q s (evNumber e s) := by
  have h0 := fun v => setReg (q := q) (s := s) R.HIF_ACC_NEXT v (evReg_of_list (by decide))
  unfold Machine.evNumber
  dsimp only
  exact ite ((h0 _).trans hq (of_eq rfl rfl rfl)) (h0 _)

theorem evLog (hq : q < 32) (e : EvReq) (acc : Word) (ws : List Word) (hw : ws.length = 8) (s : State) : Quiet q s (evLog e acc ws s) := by
  have h0 : Quiet q s (Machine.storeList (kBank 15 (8 * (acc.toNat % 32768))) ws s) := by
    refine storeList hq _ _ _ fun _ _ j h1 h2 => ?_
    have := Nat.mod_lt acc.toNat (y := 32768) (by decide)
    rw [hw] at h2
    simp only [kBank] at h1 h2
    have h3 : kBank 15 0 ≤ j ∧ j < kBank 16 0 := by simp only [kBank]; omega
    simp [Machine.evWord, h3]
  unfold Machine.evLog
  dsimp only
  have h1 := ite (c := 1 ≤ e.sev ∧ (Machine.storeList (kBank 15 (8 * (acc.toNat % 32768))) ws s).cur.consoleQ.length < 16)
    (h0.trans hq (t := Machine.storeList (kBank 15 (8 * (acc.toNat % 32768))) ws s) (u := { Machine.storeList (kBank 15 (8 * (acc.toNat % 32768))) ws s with cur := { (Machine.storeList (kBank 15 (8 * (acc.toNat % 32768))) ws s).cur with consoleQ := (Machine.storeList (kBank 15 (8 * (acc.toNat % 32768))) ws s).cur.consoleQ ++ [ws] } }) (of_eq rfl rfl rfl)) h0
  exact ite (h1.trans hq (alertSet hq 4 _)) h1

theorem evDeliver (hq : q < 32) (e : EvReq) (ws : List Word) (s : State) : Quiet q s (evDeliver e ws s).1 := by
  have h0 := ringPut hq (Or.inr rfl) 2 ws s (p := 2)
  unfold Machine.evDeliver
  split
  · exact ite (h0.trans hq (cnt R.HIF_EVT_CNT 1 (evReg_of_list (by decide)))) (ite (h0.trans hq (alertSet hq 2 _)) h0)
  · exact refl q s

theorem evWords_length (e : EvReq) (a : Word) (p r : Bool) : (evWords e a p r).length = 8 := by
  simp [evWords, padTo_length]

theorem postEvent (hq : q < 32) (e : EvReq) (s : State) : Quiet q s (postEvent e s).1 := by
  unfold Machine.postEvent
  split
  · exact refl q s
  · exact (((evNumber hq e s).trans hq (provQueue hq e _ _)).trans hq (evLog hq e _ _ (evWords_length _ _ _ _) _)).trans hq (evDeliver hq e _ _)

theorem raiseList (hq : q < 32) (n : Nat) (es : List EvReq) (s : State) : Quiet q s (raiseList n es s) := by
  induction n generalizing es s with
  | zero => exact refl q s
  | succ n ih =>
    cases es with
    | nil => exact refl q s
    | cons e es => exact (postEvent hq e s).trans hq (ih _ _)

/-- What raising an event may change. -/
theorem raise (hq : q < 32) (code sev unit : Nat) (ps : List Word) (s : State) : Quiet q s (raise code sev unit ps s) :=
  raiseList hq 8 _ s

theorem raiseAt (hq : q < 32) (d : Dt) (code sev unit : Nat) (ps : List Word) (s : State) : Quiet q s (raiseAt d code sev unit ps s) :=
  raiseList hq 8 _ s

theorem raiseIn (hq : q < 32) (sec : Word) (code sev unit : Nat) (ps : List Word) (s : State) : Quiet q s (raiseIn sec code sev unit ps s) := by
  have h0 := rateOkAt (q := q) sec (rateKey code unit) s
  unfold Machine.raiseIn
  exact ite (h0.trans hq (raise hq _ _ _ _ _)) h0

theorem raiseLimited (hq : q < 32) (code sev unit : Nat) (ps : List Word) (s : State) : Quiet q s (raiseLimited code sev unit ps s) :=
  raiseIn hq _ code sev unit ps s

/-- What delivering a record to ring `q` may change. -/
theorem record (hq : q < 32) (cls : Nat) (ws : List Word) (s : State) : Quiet q s (record q cls ws s) := by
  unfold Machine.record
  split
  · exact refl q s
  · exact (ringPut hq (Or.inl rfl) cls ws s).trans hq (raiseList hq 8 _ _)

theorem ringHalt (hq : q < 32) (cause : Nat) (addr : Option Nat) (s : State) : Quiet q s (ringHalt q cause addr s) :=
  (ringHaltEv hq (Or.inl rfl) cause addr s).trans hq (raiseList hq 8 _ _)

end Quiet

end Sys2Proof.Machine
end

