-- ==== Sys2Proof/Laws/State.lean ====
section
/-! SUPPORT. Laws/State.lean: one lemma for each field and each update of State, true by computation, so that no proof unfolds a record
update. -/

namespace Sys2Proof.Machine

/-! ### setReg -/

@[simp] theorem State.setReg_pending (s : State) (o : Nat) (v : Word) : (s.setReg o v).pending = s.pending := rfl
@[simp] theorem State.setReg_freeCtr (s : State) (o : Nat) (v : Word) : (s.setReg o v).freeCtr = s.freeCtr := rfl
@[simp] theorem State.setReg_dt (s : State) (o : Nat) (v : Word) : (s.setReg o v).dt = s.dt := rfl
@[simp] theorem State.setReg_acc (s : State) (o : Nat) (v : Word) : (s.setReg o v).acc = s.acc := rfl
@[simp] theorem State.setReg_cycle (s : State) (o : Nat) (v : Word) : (s.setReg o v).cycle = s.cycle := rfl
@[simp] theorem State.setReg_fresh (s : State) (o : Nat) (v : Word) : (s.setReg o v).fresh = s.fresh := rfl
@[simp] theorem State.setReg_mem (s : State) (o : Nat) (v : Word) : (s.setReg o v).mem = s.mem := rfl
@[simp] theorem State.setReg_bankH (s : State) (o : Nat) (v : Word) : (s.setReg o v).bankH = s.bankH := rfl
@[simp] theorem State.setReg_memErr (s : State) (o : Nat) (v : Word) : (s.setReg o v).memErr = s.memErr := rfl
@[simp] theorem State.setReg_cons (s : State) (o : Nat) (v : Word) : (s.setReg o v).cons = s.cons := rfl
@[simp] theorem State.setReg_cores (s : State) (o : Nat) (v : Word) : (s.setReg o v).cores = s.cores := rfl
@[simp] theorem State.setReg_hif (s : State) (o : Nat) (v : Word) : (s.setReg o v).hif = s.hif := rfl
@[simp] theorem State.setReg_ringH (s : State) (o : Nat) (v : Word) : (s.setReg o v).ringH = s.ringH := rfl
@[simp] theorem State.setReg_rate (s : State) (o : Nat) (v : Word) : (s.setReg o v).rate = s.rate := rfl
@[simp] theorem State.setReg_dtSnap (s : State) (o : Nat) (v : Word) : (s.setReg o v).dtSnap = s.dtSnap := rfl
@[simp] theorem State.setReg_evtSnap (s : State) (o : Nat) (v : Word) : (s.setReg o v).evtSnap = s.evtSnap := rfl
@[simp] theorem State.setReg_out (s : State) (o : Nat) (v : Word) : (s.setReg o v).out = s.out := rfl
@[simp] theorem State.setReg_cmdPend (s : State) (o : Nat) (v : Word) : (s.setReg o v).cmdPend = s.cmdPend := rfl
@[simp] theorem State.setReg_cmdPark (s : State) (o : Nat) (v : Word) : (s.setReg o v).cmdPark = s.cmdPark := rfl
@[simp] theorem State.setReg_waitReply (s : State) (o : Nat) (v : Word) : (s.setReg o v).waitReply = s.waitReply := rfl
@[simp] theorem State.setReg_waitMax (s : State) (o : Nat) (v : Word) : (s.setReg o v).waitMax = s.waitMax := rfl
@[simp] theorem State.setReg_policy (s : State) (o : Nat) (v : Word) : (s.setReg o v).policy = s.policy := rfl
@[simp] theorem State.setReg_faults (s : State) (o : Nat) (v : Word) : (s.setReg o v).faults = s.faults := rfl
@[simp] theorem State.setReg_retiredNow (s : State) (o : Nat) (v : Word) : (s.setReg o v).retiredNow = s.retiredNow := rfl
@[simp] theorem State.setReg_retiredVol (s : State) (o : Nat) (v : Word) : (s.setReg o v).retiredVol = s.retiredVol := rfl
@[simp] theorem State.setReg_cur (s : State) (o : Nat) (v : Word) : (s.setReg o v).cur = s.cur := rfl
@[simp] theorem State.setReg_nvs (s : State) (o : Nat) (v : Word) : (s.setReg o v).nvs = s.nvs := rfl
@[simp] theorem State.setReg_fuses (s : State) (o : Nat) (v : Word) : (s.setReg o v).fuses = s.fuses := rfl
@[simp] theorem State.setReg_pwr (s : State) (o : Nat) (v : Word) : (s.setReg o v).pwr = s.pwr := rfl
@[simp] theorem State.setReg_jtag (s : State) (o : Nat) (v : Word) : (s.setReg o v).jtag = s.jtag := rfl
@[simp] theorem State.setReg_smp (s : State) (o : Nat) (v : Word) : (s.setReg o v).smp = s.smp := rfl
@[simp] theorem State.setReg_ramp (s : State) (o : Nat) (v : Word) : (s.setReg o v).ramp = s.ramp := rfl
@[simp] theorem State.setReg_pll (s : State) (o : Nat) (v : Word) : (s.setReg o v).pll = s.pll := rfl
@[simp] theorem State.setReg_fes (s : State) (o : Nat) (v : Word) : (s.setReg o v).fes = s.fes := rfl
@[simp] theorem State.setReg_coex (s : State) (o : Nat) (v : Word) : (s.setReg o v).coex = s.coex := rfl
@[simp] theorem State.setReg_keepTime (s : State) (o : Nat) (v : Word) : (s.setReg o v).keepTime = s.keepTime := rfl
@[simp] theorem State.setReg_chans (s : State) (o : Nat) (v : Word) : (s.setReg o v).chans = s.chans := rfl
@[simp] theorem State.setReg_assignQ (s : State) (o : Nat) (v : Word) : (s.setReg o v).assignQ = s.assignQ := rfl
@[simp] theorem State.setReg_loop (s : State) (o : Nat) (v : Word) : (s.setReg o v).loop = s.loop := rfl
@[simp] theorem State.setReg_acq (s : State) (o : Nat) (v : Word) : (s.setReg o v).acq = s.acq := rfl
@[simp] theorem State.setReg_obs (s : State) (o : Nat) (v : Word) : (s.setReg o v).obs = s.obs := rfl
@[simp] theorem State.setReg_sol (s : State) (o : Nat) (v : Word) : (s.setReg o v).sol = s.sol := rfl
@[simp] theorem State.setReg_tpc (s : State) (o : Nat) (v : Word) : (s.setReg o v).tpc = s.tpc := rfl
@[simp] theorem State.setReg_stored (s : State) (o : Nat) (v : Word) (i : Nat) : (s.setReg o v).stored i = s.stored i := rfl

/-! ### emit -/

@[simp] theorem State.emit_pending (s : State) (x : Out) : (s.emit x).pending = s.pending := rfl
@[simp] theorem State.emit_freeCtr (s : State) (x : Out) : (s.emit x).freeCtr = s.freeCtr := rfl
@[simp] theorem State.emit_dt (s : State) (x : Out) : (s.emit x).dt = s.dt := rfl
@[simp] theorem State.emit_acc (s : State) (x : Out) : (s.emit x).acc = s.acc := rfl
@[simp] theorem State.emit_cycle (s : State) (x : Out) : (s.emit x).cycle = s.cycle := rfl
@[simp] theorem State.emit_regs (s : State) (x : Out) : (s.emit x).regs = s.regs := rfl
@[simp] theorem State.emit_fresh (s : State) (x : Out) : (s.emit x).fresh = s.fresh := rfl
@[simp] theorem State.emit_mem (s : State) (x : Out) : (s.emit x).mem = s.mem := rfl
@[simp] theorem State.emit_bankH (s : State) (x : Out) : (s.emit x).bankH = s.bankH := rfl
@[simp] theorem State.emit_memErr (s : State) (x : Out) : (s.emit x).memErr = s.memErr := rfl
@[simp] theorem State.emit_cons (s : State) (x : Out) : (s.emit x).cons = s.cons := rfl
@[simp] theorem State.emit_cores (s : State) (x : Out) : (s.emit x).cores = s.cores := rfl
@[simp] theorem State.emit_hif (s : State) (x : Out) : (s.emit x).hif = s.hif := rfl
@[simp] theorem State.emit_ringH (s : State) (x : Out) : (s.emit x).ringH = s.ringH := rfl
@[simp] theorem State.emit_rate (s : State) (x : Out) : (s.emit x).rate = s.rate := rfl
@[simp] theorem State.emit_dtSnap (s : State) (x : Out) : (s.emit x).dtSnap = s.dtSnap := rfl
@[simp] theorem State.emit_evtSnap (s : State) (x : Out) : (s.emit x).evtSnap = s.evtSnap := rfl
@[simp] theorem State.emit_cmdPend (s : State) (x : Out) : (s.emit x).cmdPend = s.cmdPend := rfl
@[simp] theorem State.emit_cmdPark (s : State) (x : Out) : (s.emit x).cmdPark = s.cmdPark := rfl
@[simp] theorem State.emit_waitReply (s : State) (x : Out) : (s.emit x).waitReply = s.waitReply := rfl
@[simp] theorem State.emit_waitMax (s : State) (x : Out) : (s.emit x).waitMax = s.waitMax := rfl
@[simp] theorem State.emit_policy (s : State) (x : Out) : (s.emit x).policy = s.policy := rfl
@[simp] theorem State.emit_faults (s : State) (x : Out) : (s.emit x).faults = s.faults := rfl
@[simp] theorem State.emit_retiredNow (s : State) (x : Out) : (s.emit x).retiredNow = s.retiredNow := rfl
@[simp] theorem State.emit_retiredVol (s : State) (x : Out) : (s.emit x).retiredVol = s.retiredVol := rfl
@[simp] theorem State.emit_cur (s : State) (x : Out) : (s.emit x).cur = s.cur := rfl
@[simp] theorem State.emit_nvs (s : State) (x : Out) : (s.emit x).nvs = s.nvs := rfl
@[simp] theorem State.emit_fuses (s : State) (x : Out) : (s.emit x).fuses = s.fuses := rfl
@[simp] theorem State.emit_pwr (s : State) (x : Out) : (s.emit x).pwr = s.pwr := rfl
@[simp] theorem State.emit_jtag (s : State) (x : Out) : (s.emit x).jtag = s.jtag := rfl
@[simp] theorem State.emit_smp (s : State) (x : Out) : (s.emit x).smp = s.smp := rfl
@[simp] theorem State.emit_ramp (s : State) (x : Out) : (s.emit x).ramp = s.ramp := rfl
@[simp] theorem State.emit_pll (s : State) (x : Out) : (s.emit x).pll = s.pll := rfl
@[simp] theorem State.emit_fes (s : State) (x : Out) : (s.emit x).fes = s.fes := rfl
@[simp] theorem State.emit_coex (s : State) (x : Out) : (s.emit x).coex = s.coex := rfl
@[simp] theorem State.emit_keepTime (s : State) (x : Out) : (s.emit x).keepTime = s.keepTime := rfl
@[simp] theorem State.emit_chans (s : State) (x : Out) : (s.emit x).chans = s.chans := rfl
@[simp] theorem State.emit_assignQ (s : State) (x : Out) : (s.emit x).assignQ = s.assignQ := rfl
@[simp] theorem State.emit_loop (s : State) (x : Out) : (s.emit x).loop = s.loop := rfl
@[simp] theorem State.emit_acq (s : State) (x : Out) : (s.emit x).acq = s.acq := rfl
@[simp] theorem State.emit_obs (s : State) (x : Out) : (s.emit x).obs = s.obs := rfl
@[simp] theorem State.emit_sol (s : State) (x : Out) : (s.emit x).sol = s.sol := rfl
@[simp] theorem State.emit_tpc (s : State) (x : Out) : (s.emit x).tpc = s.tpc := rfl
@[simp] theorem State.emit_reg (s : State) (x : Out) (r : Nat) : (s.emit x).reg r = s.reg r := rfl
@[simp] theorem State.emit_rf (s : State) (x : Out) (r hi lo : Nat) : (s.emit x).rf r hi lo = s.rf r hi lo := rfl
@[simp] theorem State.emit_stored (s : State) (x : Out) (i : Nat) : (s.emit x).stored i = s.stored i := rfl

/-! ### putStored -/

@[simp] theorem State.putStored_pending (s : State) (k : Nat) (x : Stored) : (s.putStored k x).pending = s.pending := rfl
@[simp] theorem State.putStored_freeCtr (s : State) (k : Nat) (x : Stored) : (s.putStored k x).freeCtr = s.freeCtr := rfl
@[simp] theorem State.putStored_dt (s : State) (k : Nat) (x : Stored) : (s.putStored k x).dt = s.dt := rfl
@[simp] theorem State.putStored_acc (s : State) (k : Nat) (x : Stored) : (s.putStored k x).acc = s.acc := rfl
@[simp] theorem State.putStored_cycle (s : State) (k : Nat) (x : Stored) : (s.putStored k x).cycle = s.cycle := rfl
@[simp] theorem State.putStored_regs (s : State) (k : Nat) (x : Stored) : (s.putStored k x).regs = s.regs := rfl
@[simp] theorem State.putStored_fresh (s : State) (k : Nat) (x : Stored) : (s.putStored k x).fresh = s.fresh := rfl
@[simp] theorem State.putStored_bankH (s : State) (k : Nat) (x : Stored) : (s.putStored k x).bankH = s.bankH := rfl
@[simp] theorem State.putStored_memErr (s : State) (k : Nat) (x : Stored) : (s.putStored k x).memErr = s.memErr := rfl
@[simp] theorem State.putStored_cons (s : State) (k : Nat) (x : Stored) : (s.putStored k x).cons = s.cons := rfl
@[simp] theorem State.putStored_cores (s : State) (k : Nat) (x : Stored) : (s.putStored k x).cores = s.cores := rfl
@[simp] theorem State.putStored_hif (s : State) (k : Nat) (x : Stored) : (s.putStored k x).hif = s.hif := rfl
@[simp] theorem State.putStored_ringH (s : State) (k : Nat) (x : Stored) : (s.putStored k x).ringH = s.ringH := rfl
@[simp] theorem State.putStored_rate (s : State) (k : Nat) (x : Stored) : (s.putStored k x).rate = s.rate := rfl
@[simp] theorem State.putStored_dtSnap (s : State) (k : Nat) (x : Stored) : (s.putStored k x).dtSnap = s.dtSnap := rfl
@[simp] theorem State.putStored_evtSnap (s : State) (k : Nat) (x : Stored) : (s.putStored k x).evtSnap = s.evtSnap := rfl
@[simp] theorem State.putStored_out (s : State) (k : Nat) (x : Stored) : (s.putStored k x).out = s.out := rfl
@[simp] theorem State.putStored_cmdPend (s : State) (k : Nat) (x : Stored) : (s.putStored k x).cmdPend = s.cmdPend := rfl
@[simp] theorem State.putStored_cmdPark (s : State) (k : Nat) (x : Stored) : (s.putStored k x).cmdPark = s.cmdPark := rfl
@[simp] theorem State.putStored_waitReply (s : State) (k : Nat) (x : Stored) : (s.putStored k x).waitReply = s.waitReply := rfl
@[simp] theorem State.putStored_waitMax (s : State) (k : Nat) (x : Stored) : (s.putStored k x).waitMax = s.waitMax := rfl
@[simp] theorem State.putStored_policy (s : State) (k : Nat) (x : Stored) : (s.putStored k x).policy = s.policy := rfl
@[simp] theorem State.putStored_faults (s : State) (k : Nat) (x : Stored) : (s.putStored k x).faults = s.faults := rfl
@[simp] theorem State.putStored_retiredNow (s : State) (k : Nat) (x : Stored) : (s.putStored k x).retiredNow = s.retiredNow := rfl
@[simp] theorem State.putStored_retiredVol (s : State) (k : Nat) (x : Stored) : (s.putStored k x).retiredVol = s.retiredVol := rfl
@[simp] theorem State.putStored_cur (s : State) (k : Nat) (x : Stored) : (s.putStored k x).cur = s.cur := rfl
@[simp] theorem State.putStored_nvs (s : State) (k : Nat) (x : Stored) : (s.putStored k x).nvs = s.nvs := rfl
@[simp] theorem State.putStored_fuses (s : State) (k : Nat) (x : Stored) : (s.putStored k x).fuses = s.fuses := rfl
@[simp] theorem State.putStored_pwr (s : State) (k : Nat) (x : Stored) : (s.putStored k x).pwr = s.pwr := rfl
@[simp] theorem State.putStored_jtag (s : State) (k : Nat) (x : Stored) : (s.putStored k x).jtag = s.jtag := rfl
@[simp] theorem State.putStored_smp (s : State) (k : Nat) (x : Stored) : (s.putStored k x).smp = s.smp := rfl
@[simp] theorem State.putStored_ramp (s : State) (k : Nat) (x : Stored) : (s.putStored k x).ramp = s.ramp := rfl
@[simp] theorem State.putStored_pll (s : State) (k : Nat) (x : Stored) : (s.putStored k x).pll = s.pll := rfl
@[simp] theorem State.putStored_fes (s : State) (k : Nat) (x : Stored) : (s.putStored k x).fes = s.fes := rfl
@[simp] theorem State.putStored_coex (s : State) (k : Nat) (x : Stored) : (s.putStored k x).coex = s.coex := rfl
@[simp] theorem State.putStored_keepTime (s : State) (k : Nat) (x : Stored) : (s.putStored k x).keepTime = s.keepTime := rfl
@[simp] theorem State.putStored_chans (s : State) (k : Nat) (x : Stored) : (s.putStored k x).chans = s.chans := rfl
@[simp] theorem State.putStored_assignQ (s : State) (k : Nat) (x : Stored) : (s.putStored k x).assignQ = s.assignQ := rfl
@[simp] theorem State.putStored_loop (s : State) (k : Nat) (x : Stored) : (s.putStored k x).loop = s.loop := rfl
@[simp] theorem State.putStored_acq (s : State) (k : Nat) (x : Stored) : (s.putStored k x).acq = s.acq := rfl
@[simp] theorem State.putStored_obs (s : State) (k : Nat) (x : Stored) : (s.putStored k x).obs = s.obs := rfl
@[simp] theorem State.putStored_sol (s : State) (k : Nat) (x : Stored) : (s.putStored k x).sol = s.sol := rfl
@[simp] theorem State.putStored_tpc (s : State) (k : Nat) (x : Stored) : (s.putStored k x).tpc = s.tpc := rfl
@[simp] theorem State.putStored_reg (s : State) (k : Nat) (x : Stored) (r : Nat) : (s.putStored k x).reg r = s.reg r := rfl
@[simp] theorem State.putStored_rf (s : State) (k : Nat) (x : Stored) (r hi lo : Nat) : (s.putStored k x).rf r hi lo = s.rf r hi lo := rfl

/-! ### zeroMem -/

@[simp] theorem State.zeroMem_pending (s : State) (k n : Nat) : (s.zeroMem k n).pending = s.pending := rfl
@[simp] theorem State.zeroMem_freeCtr (s : State) (k n : Nat) : (s.zeroMem k n).freeCtr = s.freeCtr := rfl
@[simp] theorem State.zeroMem_dt (s : State) (k n : Nat) : (s.zeroMem k n).dt = s.dt := rfl
@[simp] theorem State.zeroMem_acc (s : State) (k n : Nat) : (s.zeroMem k n).acc = s.acc := rfl
@[simp] theorem State.zeroMem_cycle (s : State) (k n : Nat) : (s.zeroMem k n).cycle = s.cycle := rfl
@[simp] theorem State.zeroMem_regs (s : State) (k n : Nat) : (s.zeroMem k n).regs = s.regs := rfl
@[simp] theorem State.zeroMem_fresh (s : State) (k n : Nat) : (s.zeroMem k n).fresh = s.fresh := rfl
@[simp] theorem State.zeroMem_bankH (s : State) (k n : Nat) : (s.zeroMem k n).bankH = s.bankH := rfl
@[simp] theorem State.zeroMem_memErr (s : State) (k n : Nat) : (s.zeroMem k n).memErr = s.memErr := rfl
@[simp] theorem State.zeroMem_cons (s : State) (k n : Nat) : (s.zeroMem k n).cons = s.cons := rfl
@[simp] theorem State.zeroMem_cores (s : State) (k n : Nat) : (s.zeroMem k n).cores = s.cores := rfl
@[simp] theorem State.zeroMem_hif (s : State) (k n : Nat) : (s.zeroMem k n).hif = s.hif := rfl
@[simp] theorem State.zeroMem_ringH (s : State) (k n : Nat) : (s.zeroMem k n).ringH = s.ringH := rfl
@[simp] theorem State.zeroMem_rate (s : State) (k n : Nat) : (s.zeroMem k n).rate = s.rate := rfl
@[simp] theorem State.zeroMem_dtSnap (s : State) (k n : Nat) : (s.zeroMem k n).dtSnap = s.dtSnap := rfl
@[simp] theorem State.zeroMem_evtSnap (s : State) (k n : Nat) : (s.zeroMem k n).evtSnap = s.evtSnap := rfl
@[simp] theorem State.zeroMem_out (s : State) (k n : Nat) : (s.zeroMem k n).out = s.out := rfl
@[simp] theorem State.zeroMem_cmdPend (s : State) (k n : Nat) : (s.zeroMem k n).cmdPend = s.cmdPend := rfl
@[simp] theorem State.zeroMem_cmdPark (s : State) (k n : Nat) : (s.zeroMem k n).cmdPark = s.cmdPark := rfl
@[simp] theorem State.zeroMem_waitReply (s : State) (k n : Nat) : (s.zeroMem k n).waitReply = s.waitReply := rfl
@[simp] theorem State.zeroMem_waitMax (s : State) (k n : Nat) : (s.zeroMem k n).waitMax = s.waitMax := rfl
@[simp] theorem State.zeroMem_policy (s : State) (k n : Nat) : (s.zeroMem k n).policy = s.policy := rfl
@[simp] theorem State.zeroMem_faults (s : State) (k n : Nat) : (s.zeroMem k n).faults = s.faults := rfl
@[simp] theorem State.zeroMem_retiredNow (s : State) (k n : Nat) : (s.zeroMem k n).retiredNow = s.retiredNow := rfl
@[simp] theorem State.zeroMem_retiredVol (s : State) (k n : Nat) : (s.zeroMem k n).retiredVol = s.retiredVol := rfl
@[simp] theorem State.zeroMem_cur (s : State) (k n : Nat) : (s.zeroMem k n).cur = s.cur := rfl
@[simp] theorem State.zeroMem_nvs (s : State) (k n : Nat) : (s.zeroMem k n).nvs = s.nvs := rfl
@[simp] theorem State.zeroMem_fuses (s : State) (k n : Nat) : (s.zeroMem k n).fuses = s.fuses := rfl
@[simp] theorem State.zeroMem_pwr (s : State) (k n : Nat) : (s.zeroMem k n).pwr = s.pwr := rfl
@[simp] theorem State.zeroMem_jtag (s : State) (k n : Nat) : (s.zeroMem k n).jtag = s.jtag := rfl
@[simp] theorem State.zeroMem_smp (s : State) (k n : Nat) : (s.zeroMem k n).smp = s.smp := rfl
@[simp] theorem State.zeroMem_ramp (s : State) (k n : Nat) : (s.zeroMem k n).ramp = s.ramp := rfl
@[simp] theorem State.zeroMem_pll (s : State) (k n : Nat) : (s.zeroMem k n).pll = s.pll := rfl
@[simp] theorem State.zeroMem_fes (s : State) (k n : Nat) : (s.zeroMem k n).fes = s.fes := rfl
@[simp] theorem State.zeroMem_coex (s : State) (k n : Nat) : (s.zeroMem k n).coex = s.coex := rfl
@[simp] theorem State.zeroMem_keepTime (s : State) (k n : Nat) : (s.zeroMem k n).keepTime = s.keepTime := rfl
@[simp] theorem State.zeroMem_chans (s : State) (k n : Nat) : (s.zeroMem k n).chans = s.chans := rfl
@[simp] theorem State.zeroMem_assignQ (s : State) (k n : Nat) : (s.zeroMem k n).assignQ = s.assignQ := rfl
@[simp] theorem State.zeroMem_loop (s : State) (k n : Nat) : (s.zeroMem k n).loop = s.loop := rfl
@[simp] theorem State.zeroMem_acq (s : State) (k n : Nat) : (s.zeroMem k n).acq = s.acq := rfl
@[simp] theorem State.zeroMem_obs (s : State) (k n : Nat) : (s.zeroMem k n).obs = s.obs := rfl
@[simp] theorem State.zeroMem_sol (s : State) (k n : Nat) : (s.zeroMem k n).sol = s.sol := rfl
@[simp] theorem State.zeroMem_tpc (s : State) (k n : Nat) : (s.zeroMem k n).tpc = s.tpc := rfl
@[simp] theorem State.zeroMem_reg (s : State) (k n : Nat) (r : Nat) : (s.zeroMem k n).reg r = s.reg r := rfl
@[simp] theorem State.zeroMem_rf (s : State) (k n : Nat) (r hi lo : Nat) : (s.zeroMem k n).rf r hi lo = s.rf r hi lo := rfl

/-! ### setRh -/

@[simp] theorem State.setRh_pending (s : State) (q : Nat) (x : RingH) : (s.setRh q x).pending = s.pending := rfl
@[simp] theorem State.setRh_freeCtr (s : State) (q : Nat) (x : RingH) : (s.setRh q x).freeCtr = s.freeCtr := rfl
@[simp] theorem State.setRh_dt (s : State) (q : Nat) (x : RingH) : (s.setRh q x).dt = s.dt := rfl
@[simp] theorem State.setRh_acc (s : State) (q : Nat) (x : RingH) : (s.setRh q x).acc = s.acc := rfl
@[simp] theorem State.setRh_cycle (s : State) (q : Nat) (x : RingH) : (s.setRh q x).cycle = s.cycle := rfl
@[simp] theorem State.setRh_regs (s : State) (q : Nat) (x : RingH) : (s.setRh q x).regs = s.regs := rfl
@[simp] theorem State.setRh_fresh (s : State) (q : Nat) (x : RingH) : (s.setRh q x).fresh = s.fresh := rfl
@[simp] theorem State.setRh_mem (s : State) (q : Nat) (x : RingH) : (s.setRh q x).mem = s.mem := rfl
@[simp] theorem State.setRh_bankH (s : State) (q : Nat) (x : RingH) : (s.setRh q x).bankH = s.bankH := rfl
@[simp] theorem State.setRh_memErr (s : State) (q : Nat) (x : RingH) : (s.setRh q x).memErr = s.memErr := rfl
@[simp] theorem State.setRh_cons (s : State) (q : Nat) (x : RingH) : (s.setRh q x).cons = s.cons := rfl
@[simp] theorem State.setRh_cores (s : State) (q : Nat) (x : RingH) : (s.setRh q x).cores = s.cores := rfl
@[simp] theorem State.setRh_hif (s : State) (q : Nat) (x : RingH) : (s.setRh q x).hif = s.hif := rfl
@[simp] theorem State.setRh_rate (s : State) (q : Nat) (x : RingH) : (s.setRh q x).rate = s.rate := rfl
@[simp] theorem State.setRh_dtSnap (s : State) (q : Nat) (x : RingH) : (s.setRh q x).dtSnap = s.dtSnap := rfl
@[simp] theorem State.setRh_evtSnap (s : State) (q : Nat) (x : RingH) : (s.setRh q x).evtSnap = s.evtSnap := rfl
@[simp] theorem State.setRh_out (s : State) (q : Nat) (x : RingH) : (s.setRh q x).out = s.out := rfl
@[simp] theorem State.setRh_cmdPend (s : State) (q : Nat) (x : RingH) : (s.setRh q x).cmdPend = s.cmdPend := rfl
@[simp] theorem State.setRh_cmdPark (s : State) (q : Nat) (x : RingH) : (s.setRh q x).cmdPark = s.cmdPark := rfl
@[simp] theorem State.setRh_waitReply (s : State) (q : Nat) (x : RingH) : (s.setRh q x).waitReply = s.waitReply := rfl
@[simp] theorem State.setRh_waitMax (s : State) (q : Nat) (x : RingH) : (s.setRh q x).waitMax = s.waitMax := rfl
@[simp] theorem State.setRh_policy (s : State) (q : Nat) (x : RingH) : (s.setRh q x).policy = s.policy := rfl
@[simp] theorem State.setRh_faults (s : State) (q : Nat) (x : RingH) : (s.setRh q x).faults = s.faults := rfl
@[simp] theorem State.setRh_retiredNow (s : State) (q : Nat) (x : RingH) : (s.setRh q x).retiredNow = s.retiredNow := rfl
@[simp] theorem State.setRh_retiredVol (s : State) (q : Nat) (x : RingH) : (s.setRh q x).retiredVol = s.retiredVol := rfl
@[simp] theorem State.setRh_cur (s : State) (q : Nat) (x : RingH) : (s.setRh q x).cur = s.cur := rfl
@[simp] theorem State.setRh_nvs (s : State) (q : Nat) (x : RingH) : (s.setRh q x).nvs = s.nvs := rfl
@[simp] theorem State.setRh_fuses (s : State) (q : Nat) (x : RingH) : (s.setRh q x).fuses = s.fuses := rfl
@[simp] theorem State.setRh_pwr (s : State) (q : Nat) (x : RingH) : (s.setRh q x).pwr = s.pwr := rfl
@[simp] theorem State.setRh_jtag (s : State) (q : Nat) (x : RingH) : (s.setRh q x).jtag = s.jtag := rfl
@[simp] theorem State.setRh_smp (s : State) (q : Nat) (x : RingH) : (s.setRh q x).smp = s.smp := rfl
@[simp] theorem State.setRh_ramp (s : State) (q : Nat) (x : RingH) : (s.setRh q x).ramp = s.ramp := rfl
@[simp] theorem State.setRh_pll (s : State) (q : Nat) (x : RingH) : (s.setRh q x).pll = s.pll := rfl
@[simp] theorem State.setRh_fes (s : State) (q : Nat) (x : RingH) : (s.setRh q x).fes = s.fes := rfl
@[simp] theorem State.setRh_coex (s : State) (q : Nat) (x : RingH) : (s.setRh q x).coex = s.coex := rfl
@[simp] theorem State.setRh_keepTime (s : State) (q : Nat) (x : RingH) : (s.setRh q x).keepTime = s.keepTime := rfl
@[simp] theorem State.setRh_chans (s : State) (q : Nat) (x : RingH) : (s.setRh q x).chans = s.chans := rfl
@[simp] theorem State.setRh_assignQ (s : State) (q : Nat) (x : RingH) : (s.setRh q x).assignQ = s.assignQ := rfl
@[simp] theorem State.setRh_loop (s : State) (q : Nat) (x : RingH) : (s.setRh q x).loop = s.loop := rfl
@[simp] theorem State.setRh_acq (s : State) (q : Nat) (x : RingH) : (s.setRh q x).acq = s.acq := rfl
@[simp] theorem State.setRh_obs (s : State) (q : Nat) (x : RingH) : (s.setRh q x).obs = s.obs := rfl
@[simp] theorem State.setRh_sol (s : State) (q : Nat) (x : RingH) : (s.setRh q x).sol = s.sol := rfl
@[simp] theorem State.setRh_tpc (s : State) (q : Nat) (x : RingH) : (s.setRh q x).tpc = s.tpc := rfl
@[simp] theorem State.setRh_reg (s : State) (q : Nat) (x : RingH) (r : Nat) : (s.setRh q x).reg r = s.reg r := rfl
@[simp] theorem State.setRh_rf (s : State) (q : Nat) (x : RingH) (r hi lo : Nat) : (s.setRh q x).rf r hi lo = s.rf r hi lo := rfl
@[simp] theorem State.setRh_stored (s : State) (q : Nat) (x : RingH) (i : Nat) : (s.setRh q x).stored i = s.stored i := rfl

/-! ### setCore -/

@[simp] theorem State.setCore_pending (s : State) (c : Nat) (x : ApCore) : (s.setCore c x).pending = s.pending := rfl
@[simp] theorem State.setCore_freeCtr (s : State) (c : Nat) (x : ApCore) : (s.setCore c x).freeCtr = s.freeCtr := rfl
@[simp] theorem State.setCore_dt (s : State) (c : Nat) (x : ApCore) : (s.setCore c x).dt = s.dt := rfl
@[simp] theorem State.setCore_acc (s : State) (c : Nat) (x : ApCore) : (s.setCore c x).acc = s.acc := rfl
@[simp] theorem State.setCore_cycle (s : State) (c : Nat) (x : ApCore) : (s.setCore c x).cycle = s.cycle := rfl
@[simp] theorem State.setCore_regs (s : State) (c : Nat) (x : ApCore) : (s.setCore c x).regs = s.regs := rfl
@[simp] theorem State.setCore_fresh (s : State) (c : Nat) (x : ApCore) : (s.setCore c x).fresh = s.fresh := rfl
@[simp] theorem State.setCore_mem (s : State) (c : Nat) (x : ApCore) : (s.setCore c x).mem = s.mem := rfl
@[simp] theorem State.setCore_bankH (s : State) (c : Nat) (x : ApCore) : (s.setCore c x).bankH = s.bankH := rfl
@[simp] theorem State.setCore_memErr (s : State) (c : Nat) (x : ApCore) : (s.setCore c x).memErr = s.memErr := rfl
@[simp] theorem State.setCore_cons (s : State) (c : Nat) (x : ApCore) : (s.setCore c x).cons = s.cons := rfl
@[simp] theorem State.setCore_hif (s : State) (c : Nat) (x : ApCore) : (s.setCore c x).hif = s.hif := rfl
@[simp] theorem State.setCore_ringH (s : State) (c : Nat) (x : ApCore) : (s.setCore c x).ringH = s.ringH := rfl
@[simp] theorem State.setCore_rate (s : State) (c : Nat) (x : ApCore) : (s.setCore c x).rate = s.rate := rfl
@[simp] theorem State.setCore_dtSnap (s : State) (c : Nat) (x : ApCore) : (s.setCore c x).dtSnap = s.dtSnap := rfl
@[simp] theorem State.setCore_evtSnap (s : State) (c : Nat) (x : ApCore) : (s.setCore c x).evtSnap = s.evtSnap := rfl
@[simp] theorem State.setCore_out (s : State) (c : Nat) (x : ApCore) : (s.setCore c x).out = s.out := rfl
@[simp] theorem State.setCore_cmdPend (s : State) (c : Nat) (x : ApCore) : (s.setCore c x).cmdPend = s.cmdPend := rfl
@[simp] theorem State.setCore_cmdPark (s : State) (c : Nat) (x : ApCore) : (s.setCore c x).cmdPark = s.cmdPark := rfl
@[simp] theorem State.setCore_waitReply (s : State) (c : Nat) (x : ApCore) : (s.setCore c x).waitReply = s.waitReply := rfl
@[simp] theorem State.setCore_waitMax (s : State) (c : Nat) (x : ApCore) : (s.setCore c x).waitMax = s.waitMax := rfl
@[simp] theorem State.setCore_policy (s : State) (c : Nat) (x : ApCore) : (s.setCore c x).policy = s.policy := rfl
@[simp] theorem State.setCore_faults (s : State) (c : Nat) (x : ApCore) : (s.setCore c x).faults = s.faults := rfl
@[simp] theorem State.setCore_retiredNow (s : State) (c : Nat) (x : ApCore) : (s.setCore c x).retiredNow = s.retiredNow := rfl
@[simp] theorem State.setCore_retiredVol (s : State) (c : Nat) (x : ApCore) : (s.setCore c x).retiredVol = s.retiredVol := rfl
@[simp] theorem State.setCore_cur (s : State) (c : Nat) (x : ApCore) : (s.setCore c x).cur = s.cur := rfl
@[simp] theorem State.setCore_nvs (s : State) (c : Nat) (x : ApCore) : (s.setCore c x).nvs = s.nvs := rfl
@[simp] theorem State.setCore_fuses (s : State) (c : Nat) (x : ApCore) : (s.setCore c x).fuses = s.fuses := rfl
@[simp] theorem State.setCore_pwr (s : State) (c : Nat) (x : ApCore) : (s.setCore c x).pwr = s.pwr := rfl
@[simp] theorem State.setCore_jtag (s : State) (c : Nat) (x : ApCore) : (s.setCore c x).jtag = s.jtag := rfl
@[simp] theorem State.setCore_smp (s : State) (c : Nat) (x : ApCore) : (s.setCore c x).smp = s.smp := rfl
@[simp] theorem State.setCore_ramp (s : State) (c : Nat) (x : ApCore) : (s.setCore c x).ramp = s.ramp := rfl
@[simp] theorem State.setCore_pll (s : State) (c : Nat) (x : ApCore) : (s.setCore c x).pll = s.pll := rfl
@[simp] theorem State.setCore_fes (s : State) (c : Nat) (x : ApCore) : (s.setCore c x).fes = s.fes := rfl
@[simp] theorem State.setCore_coex (s : State) (c : Nat) (x : ApCore) : (s.setCore c x).coex = s.coex := rfl
@[simp] theorem State.setCore_keepTime (s : State) (c : Nat) (x : ApCore) : (s.setCore c x).keepTime = s.keepTime := rfl
@[simp] theorem State.setCore_chans (s : State) (c : Nat) (x : ApCore) : (s.setCore c x).chans = s.chans := rfl
@[simp] theorem State.setCore_assignQ (s : State) (c : Nat) (x : ApCore) : (s.setCore c x).assignQ = s.assignQ := rfl
@[simp] theorem State.setCore_loop (s : State) (c : Nat) (x : ApCore) : (s.setCore c x).loop = s.loop := rfl
@[simp] theorem State.setCore_acq (s : State) (c : Nat) (x : ApCore) : (s.setCore c x).acq = s.acq := rfl
@[simp] theorem State.setCore_obs (s : State) (c : Nat) (x : ApCore) : (s.setCore c x).obs = s.obs := rfl
@[simp] theorem State.setCore_sol (s : State) (c : Nat) (x : ApCore) : (s.setCore c x).sol = s.sol := rfl
@[simp] theorem State.setCore_tpc (s : State) (c : Nat) (x : ApCore) : (s.setCore c x).tpc = s.tpc := rfl
@[simp] theorem State.setCore_reg (s : State) (c : Nat) (x : ApCore) (r : Nat) : (s.setCore c x).reg r = s.reg r := rfl
@[simp] theorem State.setCore_rf (s : State) (c : Nat) (x : ApCore) (r hi lo : Nat) : (s.setCore c x).rf r hi lo = s.rf r hi lo := rfl
@[simp] theorem State.setCore_stored (s : State) (c : Nat) (x : ApCore) (i : Nat) : (s.setCore c x).stored i = s.stored i := rfl

/-! ### setBh -/

@[simp] theorem State.setBh_pending (s : State) (b : Nat) (x : BankH) : (s.setBh b x).pending = s.pending := rfl
@[simp] theorem State.setBh_freeCtr (s : State) (b : Nat) (x : BankH) : (s.setBh b x).freeCtr = s.freeCtr := rfl
@[simp] theorem State.setBh_dt (s : State) (b : Nat) (x : BankH) : (s.setBh b x).dt = s.dt := rfl
@[simp] theorem State.setBh_acc (s : State) (b : Nat) (x : BankH) : (s.setBh b x).acc = s.acc := rfl
@[simp] theorem State.setBh_cycle (s : State) (b : Nat) (x : BankH) : (s.setBh b x).cycle = s.cycle := rfl
@[simp] theorem State.setBh_regs (s : State) (b : Nat) (x : BankH) : (s.setBh b x).regs = s.regs := rfl
@[simp] theorem State.setBh_fresh (s : State) (b : Nat) (x : BankH) : (s.setBh b x).fresh = s.fresh := rfl
@[simp] theorem State.setBh_mem (s : State) (b : Nat) (x : BankH) : (s.setBh b x).mem = s.mem := rfl
@[simp] theorem State.setBh_memErr (s : State) (b : Nat) (x : BankH) : (s.setBh b x).memErr = s.memErr := rfl
@[simp] theorem State.setBh_cons (s : State) (b : Nat) (x : BankH) : (s.setBh b x).cons = s.cons := rfl
@[simp] theorem State.setBh_cores (s : State) (b : Nat) (x : BankH) : (s.setBh b x).cores = s.cores := rfl
@[simp] theorem State.setBh_hif (s : State) (b : Nat) (x : BankH) : (s.setBh b x).hif = s.hif := rfl
@[simp] theorem State.setBh_ringH (s : State) (b : Nat) (x : BankH) : (s.setBh b x).ringH = s.ringH := rfl
@[simp] theorem State.setBh_rate (s : State) (b : Nat) (x : BankH) : (s.setBh b x).rate = s.rate := rfl
@[simp] theorem State.setBh_dtSnap (s : State) (b : Nat) (x : BankH) : (s.setBh b x).dtSnap = s.dtSnap := rfl
@[simp] theorem State.setBh_evtSnap (s : State) (b : Nat) (x : BankH) : (s.setBh b x).evtSnap = s.evtSnap := rfl
@[simp] theorem State.setBh_out (s : State) (b : Nat) (x : BankH) : (s.setBh b x).out = s.out := rfl
@[simp] theorem State.setBh_cmdPend (s : State) (b : Nat) (x : BankH) : (s.setBh b x).cmdPend = s.cmdPend := rfl
@[simp] theorem State.setBh_cmdPark (s : State) (b : Nat) (x : BankH) : (s.setBh b x).cmdPark = s.cmdPark := rfl
@[simp] theorem State.setBh_waitReply (s : State) (b : Nat) (x : BankH) : (s.setBh b x).waitReply = s.waitReply := rfl
@[simp] theorem State.setBh_waitMax (s : State) (b : Nat) (x : BankH) : (s.setBh b x).waitMax = s.waitMax := rfl
@[simp] theorem State.setBh_policy (s : State) (b : Nat) (x : BankH) : (s.setBh b x).policy = s.policy := rfl
@[simp] theorem State.setBh_faults (s : State) (b : Nat) (x : BankH) : (s.setBh b x).faults = s.faults := rfl
@[simp] theorem State.setBh_retiredNow (s : State) (b : Nat) (x : BankH) : (s.setBh b x).retiredNow = s.retiredNow := rfl
@[simp] theorem State.setBh_retiredVol (s : State) (b : Nat) (x : BankH) : (s.setBh b x).retiredVol = s.retiredVol := rfl
@[simp] theorem State.setBh_cur (s : State) (b : Nat) (x : BankH) : (s.setBh b x).cur = s.cur := rfl
@[simp] theorem State.setBh_nvs (s : State) (b : Nat) (x : BankH) : (s.setBh b x).nvs = s.nvs := rfl
@[simp] theorem State.setBh_fuses (s : State) (b : Nat) (x : BankH) : (s.setBh b x).fuses = s.fuses := rfl
@[simp] theorem State.setBh_pwr (s : State) (b : Nat) (x : BankH) : (s.setBh b x).pwr = s.pwr := rfl
@[simp] theorem State.setBh_jtag (s : State) (b : Nat) (x : BankH) : (s.setBh b x).jtag = s.jtag := rfl
@[simp] theorem State.setBh_smp (s : State) (b : Nat) (x : BankH) : (s.setBh b x).smp = s.smp := rfl
@[simp] theorem State.setBh_ramp (s : State) (b : Nat) (x : BankH) : (s.setBh b x).ramp = s.ramp := rfl
@[simp] theorem State.setBh_pll (s : State) (b : Nat) (x : BankH) : (s.setBh b x).pll = s.pll := rfl
@[simp] theorem State.setBh_fes (s : State) (b : Nat) (x : BankH) : (s.setBh b x).fes = s.fes := rfl
@[simp] theorem State.setBh_coex (s : State) (b : Nat) (x : BankH) : (s.setBh b x).coex = s.coex := rfl
@[simp] theorem State.setBh_keepTime (s : State) (b : Nat) (x : BankH) : (s.setBh b x).keepTime = s.keepTime := rfl
@[simp] theorem State.setBh_chans (s : State) (b : Nat) (x : BankH) : (s.setBh b x).chans = s.chans := rfl
@[simp] theorem State.setBh_assignQ (s : State) (b : Nat) (x : BankH) : (s.setBh b x).assignQ = s.assignQ := rfl
@[simp] theorem State.setBh_loop (s : State) (b : Nat) (x : BankH) : (s.setBh b x).loop = s.loop := rfl
@[simp] theorem State.setBh_acq (s : State) (b : Nat) (x : BankH) : (s.setBh b x).acq = s.acq := rfl
@[simp] theorem State.setBh_obs (s : State) (b : Nat) (x : BankH) : (s.setBh b x).obs = s.obs := rfl
@[simp] theorem State.setBh_sol (s : State) (b : Nat) (x : BankH) : (s.setBh b x).sol = s.sol := rfl
@[simp] theorem State.setBh_tpc (s : State) (b : Nat) (x : BankH) : (s.setBh b x).tpc = s.tpc := rfl
@[simp] theorem State.setBh_reg (s : State) (b : Nat) (x : BankH) (r : Nat) : (s.setBh b x).reg r = s.reg r := rfl
@[simp] theorem State.setBh_rf (s : State) (b : Nat) (x : BankH) (r hi lo : Nat) : (s.setBh b x).rf r hi lo = s.rf r hi lo := rfl
@[simp] theorem State.setBh_stored (s : State) (b : Nat) (x : BankH) (i : Nat) : (s.setBh b x).stored i = s.stored i := rfl

/-! ### setFe -/

@[simp] theorem State.setFe_pending (s : State) (n : Nat) (x : RfSt) : (s.setFe n x).pending = s.pending := rfl
@[simp] theorem State.setFe_freeCtr (s : State) (n : Nat) (x : RfSt) : (s.setFe n x).freeCtr = s.freeCtr := rfl
@[simp] theorem State.setFe_dt (s : State) (n : Nat) (x : RfSt) : (s.setFe n x).dt = s.dt := rfl
@[simp] theorem State.setFe_acc (s : State) (n : Nat) (x : RfSt) : (s.setFe n x).acc = s.acc := rfl
@[simp] theorem State.setFe_cycle (s : State) (n : Nat) (x : RfSt) : (s.setFe n x).cycle = s.cycle := rfl
@[simp] theorem State.setFe_regs (s : State) (n : Nat) (x : RfSt) : (s.setFe n x).regs = s.regs := rfl
@[simp] theorem State.setFe_fresh (s : State) (n : Nat) (x : RfSt) : (s.setFe n x).fresh = s.fresh := rfl
@[simp] theorem State.setFe_mem (s : State) (n : Nat) (x : RfSt) : (s.setFe n x).mem = s.mem := rfl
@[simp] theorem State.setFe_bankH (s : State) (n : Nat) (x : RfSt) : (s.setFe n x).bankH = s.bankH := rfl
@[simp] theorem State.setFe_memErr (s : State) (n : Nat) (x : RfSt) : (s.setFe n x).memErr = s.memErr := rfl
@[simp] theorem State.setFe_cons (s : State) (n : Nat) (x : RfSt) : (s.setFe n x).cons = s.cons := rfl
@[simp] theorem State.setFe_cores (s : State) (n : Nat) (x : RfSt) : (s.setFe n x).cores = s.cores := rfl
@[simp] theorem State.setFe_hif (s : State) (n : Nat) (x : RfSt) : (s.setFe n x).hif = s.hif := rfl
@[simp] theorem State.setFe_ringH (s : State) (n : Nat) (x : RfSt) : (s.setFe n x).ringH = s.ringH := rfl
@[simp] theorem State.setFe_rate (s : State) (n : Nat) (x : RfSt) : (s.setFe n x).rate = s.rate := rfl
@[simp] theorem State.setFe_dtSnap (s : State) (n : Nat) (x : RfSt) : (s.setFe n x).dtSnap = s.dtSnap := rfl
@[simp] theorem State.setFe_evtSnap (s : State) (n : Nat) (x : RfSt) : (s.setFe n x).evtSnap = s.evtSnap := rfl
@[simp] theorem State.setFe_out (s : State) (n : Nat) (x : RfSt) : (s.setFe n x).out = s.out := rfl
@[simp] theorem State.setFe_cmdPend (s : State) (n : Nat) (x : RfSt) : (s.setFe n x).cmdPend = s.cmdPend := rfl
@[simp] theorem State.setFe_cmdPark (s : State) (n : Nat) (x : RfSt) : (s.setFe n x).cmdPark = s.cmdPark := rfl
@[simp] theorem State.setFe_waitReply (s : State) (n : Nat) (x : RfSt) : (s.setFe n x).waitReply = s.waitReply := rfl
@[simp] theorem State.setFe_waitMax (s : State) (n : Nat) (x : RfSt) : (s.setFe n x).waitMax = s.waitMax := rfl
@[simp] theorem State.setFe_policy (s : State) (n : Nat) (x : RfSt) : (s.setFe n x).policy = s.policy := rfl
@[simp] theorem State.setFe_faults (s : State) (n : Nat) (x : RfSt) : (s.setFe n x).faults = s.faults := rfl
@[simp] theorem State.setFe_retiredNow (s : State) (n : Nat) (x : RfSt) : (s.setFe n x).retiredNow = s.retiredNow := rfl
@[simp] theorem State.setFe_retiredVol (s : State) (n : Nat) (x : RfSt) : (s.setFe n x).retiredVol = s.retiredVol := rfl
@[simp] theorem State.setFe_cur (s : State) (n : Nat) (x : RfSt) : (s.setFe n x).cur = s.cur := rfl
@[simp] theorem State.setFe_nvs (s : State) (n : Nat) (x : RfSt) : (s.setFe n x).nvs = s.nvs := rfl
@[simp] theorem State.setFe_fuses (s : State) (n : Nat) (x : RfSt) : (s.setFe n x).fuses = s.fuses := rfl
@[simp] theorem State.setFe_pwr (s : State) (n : Nat) (x : RfSt) : (s.setFe n x).pwr = s.pwr := rfl
@[simp] theorem State.setFe_jtag (s : State) (n : Nat) (x : RfSt) : (s.setFe n x).jtag = s.jtag := rfl
@[simp] theorem State.setFe_smp (s : State) (n : Nat) (x : RfSt) : (s.setFe n x).smp = s.smp := rfl
@[simp] theorem State.setFe_ramp (s : State) (n : Nat) (x : RfSt) : (s.setFe n x).ramp = s.ramp := rfl
@[simp] theorem State.setFe_pll (s : State) (n : Nat) (x : RfSt) : (s.setFe n x).pll = s.pll := rfl
@[simp] theorem State.setFe_coex (s : State) (n : Nat) (x : RfSt) : (s.setFe n x).coex = s.coex := rfl
@[simp] theorem State.setFe_keepTime (s : State) (n : Nat) (x : RfSt) : (s.setFe n x).keepTime = s.keepTime := rfl
@[simp] theorem State.setFe_chans (s : State) (n : Nat) (x : RfSt) : (s.setFe n x).chans = s.chans := rfl
@[simp] theorem State.setFe_assignQ (s : State) (n : Nat) (x : RfSt) : (s.setFe n x).assignQ = s.assignQ := rfl
@[simp] theorem State.setFe_loop (s : State) (n : Nat) (x : RfSt) : (s.setFe n x).loop = s.loop := rfl
@[simp] theorem State.setFe_acq (s : State) (n : Nat) (x : RfSt) : (s.setFe n x).acq = s.acq := rfl
@[simp] theorem State.setFe_obs (s : State) (n : Nat) (x : RfSt) : (s.setFe n x).obs = s.obs := rfl
@[simp] theorem State.setFe_sol (s : State) (n : Nat) (x : RfSt) : (s.setFe n x).sol = s.sol := rfl
@[simp] theorem State.setFe_tpc (s : State) (n : Nat) (x : RfSt) : (s.setFe n x).tpc = s.tpc := rfl
@[simp] theorem State.setFe_reg (s : State) (n : Nat) (x : RfSt) (r : Nat) : (s.setFe n x).reg r = s.reg r := rfl
@[simp] theorem State.setFe_rf (s : State) (n : Nat) (x : RfSt) (r hi lo : Nat) : (s.setFe n x).rf r hi lo = s.rf r hi lo := rfl
@[simp] theorem State.setFe_stored (s : State) (n : Nat) (x : RfSt) (i : Nat) : (s.setFe n x).stored i = s.stored i := rfl

/-! ### setRamp -/

@[simp] theorem State.setRamp_pending (s : State) (u : Nat) (x : RampSt) : (s.setRamp u x).pending = s.pending := rfl
@[simp] theorem State.setRamp_freeCtr (s : State) (u : Nat) (x : RampSt) : (s.setRamp u x).freeCtr = s.freeCtr := rfl
@[simp] theorem State.setRamp_dt (s : State) (u : Nat) (x : RampSt) : (s.setRamp u x).dt = s.dt := rfl
@[simp] theorem State.setRamp_acc (s : State) (u : Nat) (x : RampSt) : (s.setRamp u x).acc = s.acc := rfl
@[simp] theorem State.setRamp_cycle (s : State) (u : Nat) (x : RampSt) : (s.setRamp u x).cycle = s.cycle := rfl
@[simp] theorem State.setRamp_regs (s : State) (u : Nat) (x : RampSt) : (s.setRamp u x).regs = s.regs := rfl
@[simp] theorem State.setRamp_fresh (s : State) (u : Nat) (x : RampSt) : (s.setRamp u x).fresh = s.fresh := rfl
@[simp] theorem State.setRamp_mem (s : State) (u : Nat) (x : RampSt) : (s.setRamp u x).mem = s.mem := rfl
@[simp] theorem State.setRamp_bankH (s : State) (u : Nat) (x : RampSt) : (s.setRamp u x).bankH = s.bankH := rfl
@[simp] theorem State.setRamp_memErr (s : State) (u : Nat) (x : RampSt) : (s.setRamp u x).memErr = s.memErr := rfl
@[simp] theorem State.setRamp_cons (s : State) (u : Nat) (x : RampSt) : (s.setRamp u x).cons = s.cons := rfl
@[simp] theorem State.setRamp_cores (s : State) (u : Nat) (x : RampSt) : (s.setRamp u x).cores = s.cores := rfl
@[simp] theorem State.setRamp_hif (s : State) (u : Nat) (x : RampSt) : (s.setRamp u x).hif = s.hif := rfl
@[simp] theorem State.setRamp_ringH (s : State) (u : Nat) (x : RampSt) : (s.setRamp u x).ringH = s.ringH := rfl
@[simp] theorem State.setRamp_rate (s : State) (u : Nat) (x : RampSt) : (s.setRamp u x).rate = s.rate := rfl
@[simp] theorem State.setRamp_dtSnap (s : State) (u : Nat) (x : RampSt) : (s.setRamp u x).dtSnap = s.dtSnap := rfl
@[simp] theorem State.setRamp_evtSnap (s : State) (u : Nat) (x : RampSt) : (s.setRamp u x).evtSnap = s.evtSnap := rfl
@[simp] theorem State.setRamp_out (s : State) (u : Nat) (x : RampSt) : (s.setRamp u x).out = s.out := rfl
@[simp] theorem State.setRamp_cmdPend (s : State) (u : Nat) (x : RampSt) : (s.setRamp u x).cmdPend = s.cmdPend := rfl
@[simp] theorem State.setRamp_cmdPark (s : State) (u : Nat) (x : RampSt) : (s.setRamp u x).cmdPark = s.cmdPark := rfl
@[simp] theorem State.setRamp_waitReply (s : State) (u : Nat) (x : RampSt) : (s.setRamp u x).waitReply = s.waitReply := rfl
@[simp] theorem State.setRamp_waitMax (s : State) (u : Nat) (x : RampSt) : (s.setRamp u x).waitMax = s.waitMax := rfl
@[simp] theorem State.setRamp_policy (s : State) (u : Nat) (x : RampSt) : (s.setRamp u x).policy = s.policy := rfl
@[simp] theorem State.setRamp_faults (s : State) (u : Nat) (x : RampSt) : (s.setRamp u x).faults = s.faults := rfl
@[simp] theorem State.setRamp_retiredNow (s : State) (u : Nat) (x : RampSt) : (s.setRamp u x).retiredNow = s.retiredNow := rfl
@[simp] theorem State.setRamp_retiredVol (s : State) (u : Nat) (x : RampSt) : (s.setRamp u x).retiredVol = s.retiredVol := rfl
@[simp] theorem State.setRamp_cur (s : State) (u : Nat) (x : RampSt) : (s.setRamp u x).cur = s.cur := rfl
@[simp] theorem State.setRamp_nvs (s : State) (u : Nat) (x : RampSt) : (s.setRamp u x).nvs = s.nvs := rfl
@[simp] theorem State.setRamp_fuses (s : State) (u : Nat) (x : RampSt) : (s.setRamp u x).fuses = s.fuses := rfl
@[simp] theorem State.setRamp_pwr (s : State) (u : Nat) (x : RampSt) : (s.setRamp u x).pwr = s.pwr := rfl
@[simp] theorem State.setRamp_jtag (s : State) (u : Nat) (x : RampSt) : (s.setRamp u x).jtag = s.jtag := rfl
@[simp] theorem State.setRamp_smp (s : State) (u : Nat) (x : RampSt) : (s.setRamp u x).smp = s.smp := rfl
@[simp] theorem State.setRamp_pll (s : State) (u : Nat) (x : RampSt) : (s.setRamp u x).pll = s.pll := rfl
@[simp] theorem State.setRamp_fes (s : State) (u : Nat) (x : RampSt) : (s.setRamp u x).fes = s.fes := rfl
@[simp] theorem State.setRamp_coex (s : State) (u : Nat) (x : RampSt) : (s.setRamp u x).coex = s.coex := rfl
@[simp] theorem State.setRamp_keepTime (s : State) (u : Nat) (x : RampSt) : (s.setRamp u x).keepTime = s.keepTime := rfl
@[simp] theorem State.setRamp_chans (s : State) (u : Nat) (x : RampSt) : (s.setRamp u x).chans = s.chans := rfl
@[simp] theorem State.setRamp_assignQ (s : State) (u : Nat) (x : RampSt) : (s.setRamp u x).assignQ = s.assignQ := rfl
@[simp] theorem State.setRamp_loop (s : State) (u : Nat) (x : RampSt) : (s.setRamp u x).loop = s.loop := rfl
@[simp] theorem State.setRamp_acq (s : State) (u : Nat) (x : RampSt) : (s.setRamp u x).acq = s.acq := rfl
@[simp] theorem State.setRamp_obs (s : State) (u : Nat) (x : RampSt) : (s.setRamp u x).obs = s.obs := rfl
@[simp] theorem State.setRamp_sol (s : State) (u : Nat) (x : RampSt) : (s.setRamp u x).sol = s.sol := rfl
@[simp] theorem State.setRamp_tpc (s : State) (u : Nat) (x : RampSt) : (s.setRamp u x).tpc = s.tpc := rfl
@[simp] theorem State.setRamp_reg (s : State) (u : Nat) (x : RampSt) (r : Nat) : (s.setRamp u x).reg r = s.reg r := rfl
@[simp] theorem State.setRamp_rf (s : State) (u : Nat) (x : RampSt) (r hi lo : Nat) : (s.setRamp u x).rf r hi lo = s.rf r hi lo := rfl
@[simp] theorem State.setRamp_stored (s : State) (u : Nat) (x : RampSt) (i : Nat) : (s.setRamp u x).stored i = s.stored i := rfl

/-! ### setCoex -/

@[simp] theorem State.setCoex_pending (s : State) (k : Nat) (x : CoexSt) : (s.setCoex k x).pending = s.pending := rfl
@[simp] theorem State.setCoex_freeCtr (s : State) (k : Nat) (x : CoexSt) : (s.setCoex k x).freeCtr = s.freeCtr := rfl
@[simp] theorem State.setCoex_dt (s : State) (k : Nat) (x : CoexSt) : (s.setCoex k x).dt = s.dt := rfl
@[simp] theorem State.setCoex_acc (s : State) (k : Nat) (x : CoexSt) : (s.setCoex k x).acc = s.acc := rfl
@[simp] theorem State.setCoex_cycle (s : State) (k : Nat) (x : CoexSt) : (s.setCoex k x).cycle = s.cycle := rfl
@[simp] theorem State.setCoex_regs (s : State) (k : Nat) (x : CoexSt) : (s.setCoex k x).regs = s.regs := rfl
@[simp] theorem State.setCoex_fresh (s : State) (k : Nat) (x : CoexSt) : (s.setCoex k x).fresh = s.fresh := rfl
@[simp] theorem State.setCoex_mem (s : State) (k : Nat) (x : CoexSt) : (s.setCoex k x).mem = s.mem := rfl
@[simp] theorem State.setCoex_bankH (s : State) (k : Nat) (x : CoexSt) : (s.setCoex k x).bankH = s.bankH := rfl
@[simp] theorem State.setCoex_memErr (s : State) (k : Nat) (x : CoexSt) : (s.setCoex k x).memErr = s.memErr := rfl
@[simp] theorem State.setCoex_cons (s : State) (k : Nat) (x : CoexSt) : (s.setCoex k x).cons = s.cons := rfl
@[simp] theorem State.setCoex_cores (s : State) (k : Nat) (x : CoexSt) : (s.setCoex k x).cores = s.cores := rfl
@[simp] theorem State.setCoex_hif (s : State) (k : Nat) (x : CoexSt) : (s.setCoex k x).hif = s.hif := rfl
@[simp] theorem State.setCoex_ringH (s : State) (k : Nat) (x : CoexSt) : (s.setCoex k x).ringH = s.ringH := rfl
@[simp] theorem State.setCoex_rate (s : State) (k : Nat) (x : CoexSt) : (s.setCoex k x).rate = s.rate := rfl
@[simp] theorem State.setCoex_dtSnap (s : State) (k : Nat) (x : CoexSt) : (s.setCoex k x).dtSnap = s.dtSnap := rfl
@[simp] theorem State.setCoex_evtSnap (s : State) (k : Nat) (x : CoexSt) : (s.setCoex k x).evtSnap = s.evtSnap := rfl
@[simp] theorem State.setCoex_out (s : State) (k : Nat) (x : CoexSt) : (s.setCoex k x).out = s.out := rfl
@[simp] theorem State.setCoex_cmdPend (s : State) (k : Nat) (x : CoexSt) : (s.setCoex k x).cmdPend = s.cmdPend := rfl
@[simp] theorem State.setCoex_cmdPark (s : State) (k : Nat) (x : CoexSt) : (s.setCoex k x).cmdPark = s.cmdPark := rfl
@[simp] theorem State.setCoex_waitReply (s : State) (k : Nat) (x : CoexSt) : (s.setCoex k x).waitReply = s.waitReply := rfl
@[simp] theorem State.setCoex_waitMax (s : State) (k : Nat) (x : CoexSt) : (s.setCoex k x).waitMax = s.waitMax := rfl
@[simp] theorem State.setCoex_policy (s : State) (k : Nat) (x : CoexSt) : (s.setCoex k x).policy = s.policy := rfl
@[simp] theorem State.setCoex_faults (s : State) (k : Nat) (x : CoexSt) : (s.setCoex k x).faults = s.faults := rfl
@[simp] theorem State.setCoex_retiredNow (s : State) (k : Nat) (x : CoexSt) : (s.setCoex k x).retiredNow = s.retiredNow := rfl
@[simp] theorem State.setCoex_retiredVol (s : State) (k : Nat) (x : CoexSt) : (s.setCoex k x).retiredVol = s.retiredVol := rfl
@[simp] theorem State.setCoex_cur (s : State) (k : Nat) (x : CoexSt) : (s.setCoex k x).cur = s.cur := rfl
@[simp] theorem State.setCoex_nvs (s : State) (k : Nat) (x : CoexSt) : (s.setCoex k x).nvs = s.nvs := rfl
@[simp] theorem State.setCoex_fuses (s : State) (k : Nat) (x : CoexSt) : (s.setCoex k x).fuses = s.fuses := rfl
@[simp] theorem State.setCoex_pwr (s : State) (k : Nat) (x : CoexSt) : (s.setCoex k x).pwr = s.pwr := rfl
@[simp] theorem State.setCoex_jtag (s : State) (k : Nat) (x : CoexSt) : (s.setCoex k x).jtag = s.jtag := rfl
@[simp] theorem State.setCoex_smp (s : State) (k : Nat) (x : CoexSt) : (s.setCoex k x).smp = s.smp := rfl
@[simp] theorem State.setCoex_ramp (s : State) (k : Nat) (x : CoexSt) : (s.setCoex k x).ramp = s.ramp := rfl
@[simp] theorem State.setCoex_pll (s : State) (k : Nat) (x : CoexSt) : (s.setCoex k x).pll = s.pll := rfl
@[simp] theorem State.setCoex_fes (s : State) (k : Nat) (x : CoexSt) : (s.setCoex k x).fes = s.fes := rfl
@[simp] theorem State.setCoex_keepTime (s : State) (k : Nat) (x : CoexSt) : (s.setCoex k x).keepTime = s.keepTime := rfl
@[simp] theorem State.setCoex_chans (s : State) (k : Nat) (x : CoexSt) : (s.setCoex k x).chans = s.chans := rfl
@[simp] theorem State.setCoex_assignQ (s : State) (k : Nat) (x : CoexSt) : (s.setCoex k x).assignQ = s.assignQ := rfl
@[simp] theorem State.setCoex_loop (s : State) (k : Nat) (x : CoexSt) : (s.setCoex k x).loop = s.loop := rfl
@[simp] theorem State.setCoex_acq (s : State) (k : Nat) (x : CoexSt) : (s.setCoex k x).acq = s.acq := rfl
@[simp] theorem State.setCoex_obs (s : State) (k : Nat) (x : CoexSt) : (s.setCoex k x).obs = s.obs := rfl
@[simp] theorem State.setCoex_sol (s : State) (k : Nat) (x : CoexSt) : (s.setCoex k x).sol = s.sol := rfl
@[simp] theorem State.setCoex_tpc (s : State) (k : Nat) (x : CoexSt) : (s.setCoex k x).tpc = s.tpc := rfl
@[simp] theorem State.setCoex_reg (s : State) (k : Nat) (x : CoexSt) (r : Nat) : (s.setCoex k x).reg r = s.reg r := rfl
@[simp] theorem State.setCoex_rf (s : State) (k : Nat) (x : CoexSt) (r hi lo : Nat) : (s.setCoex k x).rf r hi lo = s.rf r hi lo := rfl
@[simp] theorem State.setCoex_stored (s : State) (k : Nat) (x : CoexSt) (i : Nat) : (s.setCoex k x).stored i = s.stored i := rfl

/-! ### setChan -/

@[simp] theorem State.setChan_pending (s : State) (c : Nat) (x : Chan) : (s.setChan c x).pending = s.pending := rfl
@[simp] theorem State.setChan_freeCtr (s : State) (c : Nat) (x : Chan) : (s.setChan c x).freeCtr = s.freeCtr := rfl
@[simp] theorem State.setChan_dt (s : State) (c : Nat) (x : Chan) : (s.setChan c x).dt = s.dt := rfl
@[simp] theorem State.setChan_acc (s : State) (c : Nat) (x : Chan) : (s.setChan c x).acc = s.acc := rfl
@[simp] theorem State.setChan_cycle (s : State) (c : Nat) (x : Chan) : (s.setChan c x).cycle = s.cycle := rfl
@[simp] theorem State.setChan_regs (s : State) (c : Nat) (x : Chan) : (s.setChan c x).regs = s.regs := rfl
@[simp] theorem State.setChan_fresh (s : State) (c : Nat) (x : Chan) : (s.setChan c x).fresh = s.fresh := rfl
@[simp] theorem State.setChan_mem (s : State) (c : Nat) (x : Chan) : (s.setChan c x).mem = s.mem := rfl
@[simp] theorem State.setChan_bankH (s : State) (c : Nat) (x : Chan) : (s.setChan c x).bankH = s.bankH := rfl
@[simp] theorem State.setChan_memErr (s : State) (c : Nat) (x : Chan) : (s.setChan c x).memErr = s.memErr := rfl
@[simp] theorem State.setChan_cons (s : State) (c : Nat) (x : Chan) : (s.setChan c x).cons = s.cons := rfl
@[simp] theorem State.setChan_cores (s : State) (c : Nat) (x : Chan) : (s.setChan c x).cores = s.cores := rfl
@[simp] theorem State.setChan_hif (s : State) (c : Nat) (x : Chan) : (s.setChan c x).hif = s.hif := rfl
@[simp] theorem State.setChan_ringH (s : State) (c : Nat) (x : Chan) : (s.setChan c x).ringH = s.ringH := rfl
@[simp] theorem State.setChan_rate (s : State) (c : Nat) (x : Chan) : (s.setChan c x).rate = s.rate := rfl
@[simp] theorem State.setChan_dtSnap (s : State) (c : Nat) (x : Chan) : (s.setChan c x).dtSnap = s.dtSnap := rfl
@[simp] theorem State.setChan_evtSnap (s : State) (c : Nat) (x : Chan) : (s.setChan c x).evtSnap = s.evtSnap := rfl
@[simp] theorem State.setChan_out (s : State) (c : Nat) (x : Chan) : (s.setChan c x).out = s.out := rfl
@[simp] theorem State.setChan_cmdPend (s : State) (c : Nat) (x : Chan) : (s.setChan c x).cmdPend = s.cmdPend := rfl
@[simp] theorem State.setChan_cmdPark (s : State) (c : Nat) (x : Chan) : (s.setChan c x).cmdPark = s.cmdPark := rfl
@[simp] theorem State.setChan_waitReply (s : State) (c : Nat) (x : Chan) : (s.setChan c x).waitReply = s.waitReply := rfl
@[simp] theorem State.setChan_waitMax (s : State) (c : Nat) (x : Chan) : (s.setChan c x).waitMax = s.waitMax := rfl
@[simp] theorem State.setChan_policy (s : State) (c : Nat) (x : Chan) : (s.setChan c x).policy = s.policy := rfl
@[simp] theorem State.setChan_faults (s : State) (c : Nat) (x : Chan) : (s.setChan c x).faults = s.faults := rfl
@[simp] theorem State.setChan_retiredNow (s : State) (c : Nat) (x : Chan) : (s.setChan c x).retiredNow = s.retiredNow := rfl
@[simp] theorem State.setChan_retiredVol (s : State) (c : Nat) (x : Chan) : (s.setChan c x).retiredVol = s.retiredVol := rfl
@[simp] theorem State.setChan_cur (s : State) (c : Nat) (x : Chan) : (s.setChan c x).cur = s.cur := rfl
@[simp] theorem State.setChan_nvs (s : State) (c : Nat) (x : Chan) : (s.setChan c x).nvs = s.nvs := rfl
@[simp] theorem State.setChan_fuses (s : State) (c : Nat) (x : Chan) : (s.setChan c x).fuses = s.fuses := rfl
@[simp] theorem State.setChan_pwr (s : State) (c : Nat) (x : Chan) : (s.setChan c x).pwr = s.pwr := rfl
@[simp] theorem State.setChan_jtag (s : State) (c : Nat) (x : Chan) : (s.setChan c x).jtag = s.jtag := rfl
@[simp] theorem State.setChan_smp (s : State) (c : Nat) (x : Chan) : (s.setChan c x).smp = s.smp := rfl
@[simp] theorem State.setChan_ramp (s : State) (c : Nat) (x : Chan) : (s.setChan c x).ramp = s.ramp := rfl
@[simp] theorem State.setChan_pll (s : State) (c : Nat) (x : Chan) : (s.setChan c x).pll = s.pll := rfl
@[simp] theorem State.setChan_fes (s : State) (c : Nat) (x : Chan) : (s.setChan c x).fes = s.fes := rfl
@[simp] theorem State.setChan_coex (s : State) (c : Nat) (x : Chan) : (s.setChan c x).coex = s.coex := rfl
@[simp] theorem State.setChan_keepTime (s : State) (c : Nat) (x : Chan) : (s.setChan c x).keepTime = s.keepTime := rfl
@[simp] theorem State.setChan_assignQ (s : State) (c : Nat) (x : Chan) : (s.setChan c x).assignQ = s.assignQ := rfl
@[simp] theorem State.setChan_loop (s : State) (c : Nat) (x : Chan) : (s.setChan c x).loop = s.loop := rfl
@[simp] theorem State.setChan_acq (s : State) (c : Nat) (x : Chan) : (s.setChan c x).acq = s.acq := rfl
@[simp] theorem State.setChan_obs (s : State) (c : Nat) (x : Chan) : (s.setChan c x).obs = s.obs := rfl
@[simp] theorem State.setChan_sol (s : State) (c : Nat) (x : Chan) : (s.setChan c x).sol = s.sol := rfl
@[simp] theorem State.setChan_tpc (s : State) (c : Nat) (x : Chan) : (s.setChan c x).tpc = s.tpc := rfl
@[simp] theorem State.setChan_reg (s : State) (c : Nat) (x : Chan) (r : Nat) : (s.setChan c x).reg r = s.reg r := rfl
@[simp] theorem State.setChan_rf (s : State) (c : Nat) (x : Chan) (r hi lo : Nat) : (s.setChan c x).rf r hi lo = s.rf r hi lo := rfl
@[simp] theorem State.setChan_stored (s : State) (c : Nat) (x : Chan) (i : Nat) : (s.setChan c x).stored i = s.stored i := rfl

/-! ### setTp -/

@[simp] theorem State.setTp_pending (s : State) (n : Nat) (x : TpSt) : (s.setTp n x).pending = s.pending := rfl
@[simp] theorem State.setTp_freeCtr (s : State) (n : Nat) (x : TpSt) : (s.setTp n x).freeCtr = s.freeCtr := rfl
@[simp] theorem State.setTp_dt (s : State) (n : Nat) (x : TpSt) : (s.setTp n x).dt = s.dt := rfl
@[simp] theorem State.setTp_acc (s : State) (n : Nat) (x : TpSt) : (s.setTp n x).acc = s.acc := rfl
@[simp] theorem State.setTp_cycle (s : State) (n : Nat) (x : TpSt) : (s.setTp n x).cycle = s.cycle := rfl
@[simp] theorem State.setTp_regs (s : State) (n : Nat) (x : TpSt) : (s.setTp n x).regs = s.regs := rfl
@[simp] theorem State.setTp_fresh (s : State) (n : Nat) (x : TpSt) : (s.setTp n x).fresh = s.fresh := rfl
@[simp] theorem State.setTp_mem (s : State) (n : Nat) (x : TpSt) : (s.setTp n x).mem = s.mem := rfl
@[simp] theorem State.setTp_bankH (s : State) (n : Nat) (x : TpSt) : (s.setTp n x).bankH = s.bankH := rfl
@[simp] theorem State.setTp_memErr (s : State) (n : Nat) (x : TpSt) : (s.setTp n x).memErr = s.memErr := rfl
@[simp] theorem State.setTp_cons (s : State) (n : Nat) (x : TpSt) : (s.setTp n x).cons = s.cons := rfl
@[simp] theorem State.setTp_cores (s : State) (n : Nat) (x : TpSt) : (s.setTp n x).cores = s.cores := rfl
@[simp] theorem State.setTp_hif (s : State) (n : Nat) (x : TpSt) : (s.setTp n x).hif = s.hif := rfl
@[simp] theorem State.setTp_ringH (s : State) (n : Nat) (x : TpSt) : (s.setTp n x).ringH = s.ringH := rfl
@[simp] theorem State.setTp_rate (s : State) (n : Nat) (x : TpSt) : (s.setTp n x).rate = s.rate := rfl
@[simp] theorem State.setTp_dtSnap (s : State) (n : Nat) (x : TpSt) : (s.setTp n x).dtSnap = s.dtSnap := rfl
@[simp] theorem State.setTp_evtSnap (s : State) (n : Nat) (x : TpSt) : (s.setTp n x).evtSnap = s.evtSnap := rfl
@[simp] theorem State.setTp_out (s : State) (n : Nat) (x : TpSt) : (s.setTp n x).out = s.out := rfl
@[simp] theorem State.setTp_cmdPend (s : State) (n : Nat) (x : TpSt) : (s.setTp n x).cmdPend = s.cmdPend := rfl
@[simp] theorem State.setTp_cmdPark (s : State) (n : Nat) (x : TpSt) : (s.setTp n x).cmdPark = s.cmdPark := rfl
@[simp] theorem State.setTp_waitReply (s : State) (n : Nat) (x : TpSt) : (s.setTp n x).waitReply = s.waitReply := rfl
@[simp] theorem State.setTp_waitMax (s : State) (n : Nat) (x : TpSt) : (s.setTp n x).waitMax = s.waitMax := rfl
@[simp] theorem State.setTp_policy (s : State) (n : Nat) (x : TpSt) : (s.setTp n x).policy = s.policy := rfl
@[simp] theorem State.setTp_faults (s : State) (n : Nat) (x : TpSt) : (s.setTp n x).faults = s.faults := rfl
@[simp] theorem State.setTp_retiredNow (s : State) (n : Nat) (x : TpSt) : (s.setTp n x).retiredNow = s.retiredNow := rfl
@[simp] theorem State.setTp_retiredVol (s : State) (n : Nat) (x : TpSt) : (s.setTp n x).retiredVol = s.retiredVol := rfl
@[simp] theorem State.setTp_cur (s : State) (n : Nat) (x : TpSt) : (s.setTp n x).cur = s.cur := rfl
@[simp] theorem State.setTp_nvs (s : State) (n : Nat) (x : TpSt) : (s.setTp n x).nvs = s.nvs := rfl
@[simp] theorem State.setTp_fuses (s : State) (n : Nat) (x : TpSt) : (s.setTp n x).fuses = s.fuses := rfl
@[simp] theorem State.setTp_pwr (s : State) (n : Nat) (x : TpSt) : (s.setTp n x).pwr = s.pwr := rfl
@[simp] theorem State.setTp_jtag (s : State) (n : Nat) (x : TpSt) : (s.setTp n x).jtag = s.jtag := rfl
@[simp] theorem State.setTp_smp (s : State) (n : Nat) (x : TpSt) : (s.setTp n x).smp = s.smp := rfl
@[simp] theorem State.setTp_ramp (s : State) (n : Nat) (x : TpSt) : (s.setTp n x).ramp = s.ramp := rfl
@[simp] theorem State.setTp_pll (s : State) (n : Nat) (x : TpSt) : (s.setTp n x).pll = s.pll := rfl
@[simp] theorem State.setTp_fes (s : State) (n : Nat) (x : TpSt) : (s.setTp n x).fes = s.fes := rfl
@[simp] theorem State.setTp_coex (s : State) (n : Nat) (x : TpSt) : (s.setTp n x).coex = s.coex := rfl
@[simp] theorem State.setTp_keepTime (s : State) (n : Nat) (x : TpSt) : (s.setTp n x).keepTime = s.keepTime := rfl
@[simp] theorem State.setTp_chans (s : State) (n : Nat) (x : TpSt) : (s.setTp n x).chans = s.chans := rfl
@[simp] theorem State.setTp_assignQ (s : State) (n : Nat) (x : TpSt) : (s.setTp n x).assignQ = s.assignQ := rfl
@[simp] theorem State.setTp_loop (s : State) (n : Nat) (x : TpSt) : (s.setTp n x).loop = s.loop := rfl
@[simp] theorem State.setTp_acq (s : State) (n : Nat) (x : TpSt) : (s.setTp n x).acq = s.acq := rfl
@[simp] theorem State.setTp_obs (s : State) (n : Nat) (x : TpSt) : (s.setTp n x).obs = s.obs := rfl
@[simp] theorem State.setTp_sol (s : State) (n : Nat) (x : TpSt) : (s.setTp n x).sol = s.sol := rfl
@[simp] theorem State.setTp_reg (s : State) (n : Nat) (x : TpSt) (r : Nat) : (s.setTp n x).reg r = s.reg r := rfl
@[simp] theorem State.setTp_rf (s : State) (n : Nat) (x : TpSt) (r hi lo : Nat) : (s.setTp n x).rf r hi lo = s.rf r hi lo := rfl
@[simp] theorem State.setTp_stored (s : State) (n : Nat) (x : TpSt) (i : Nat) : (s.setTp n x).stored i = s.stored i := rfl

/-! ### setCap -/

@[simp] theorem State.setCap_pending (s : State) (n : Nat) (x : CapSt) : (s.setCap n x).pending = s.pending := rfl
@[simp] theorem State.setCap_freeCtr (s : State) (n : Nat) (x : CapSt) : (s.setCap n x).freeCtr = s.freeCtr := rfl
@[simp] theorem State.setCap_dt (s : State) (n : Nat) (x : CapSt) : (s.setCap n x).dt = s.dt := rfl
@[simp] theorem State.setCap_acc (s : State) (n : Nat) (x : CapSt) : (s.setCap n x).acc = s.acc := rfl
@[simp] theorem State.setCap_cycle (s : State) (n : Nat) (x : CapSt) : (s.setCap n x).cycle = s.cycle := rfl
@[simp] theorem State.setCap_regs (s : State) (n : Nat) (x : CapSt) : (s.setCap n x).regs = s.regs := rfl
@[simp] theorem State.setCap_fresh (s : State) (n : Nat) (x : CapSt) : (s.setCap n x).fresh = s.fresh := rfl
@[simp] theorem State.setCap_mem (s : State) (n : Nat) (x : CapSt) : (s.setCap n x).mem = s.mem := rfl
@[simp] theorem State.setCap_bankH (s : State) (n : Nat) (x : CapSt) : (s.setCap n x).bankH = s.bankH := rfl
@[simp] theorem State.setCap_memErr (s : State) (n : Nat) (x : CapSt) : (s.setCap n x).memErr = s.memErr := rfl
@[simp] theorem State.setCap_cons (s : State) (n : Nat) (x : CapSt) : (s.setCap n x).cons = s.cons := rfl
@[simp] theorem State.setCap_cores (s : State) (n : Nat) (x : CapSt) : (s.setCap n x).cores = s.cores := rfl
@[simp] theorem State.setCap_hif (s : State) (n : Nat) (x : CapSt) : (s.setCap n x).hif = s.hif := rfl
@[simp] theorem State.setCap_ringH (s : State) (n : Nat) (x : CapSt) : (s.setCap n x).ringH = s.ringH := rfl
@[simp] theorem State.setCap_rate (s : State) (n : Nat) (x : CapSt) : (s.setCap n x).rate = s.rate := rfl
@[simp] theorem State.setCap_dtSnap (s : State) (n : Nat) (x : CapSt) : (s.setCap n x).dtSnap = s.dtSnap := rfl
@[simp] theorem State.setCap_evtSnap (s : State) (n : Nat) (x : CapSt) : (s.setCap n x).evtSnap = s.evtSnap := rfl
@[simp] theorem State.setCap_out (s : State) (n : Nat) (x : CapSt) : (s.setCap n x).out = s.out := rfl
@[simp] theorem State.setCap_cmdPend (s : State) (n : Nat) (x : CapSt) : (s.setCap n x).cmdPend = s.cmdPend := rfl
@[simp] theorem State.setCap_cmdPark (s : State) (n : Nat) (x : CapSt) : (s.setCap n x).cmdPark = s.cmdPark := rfl
@[simp] theorem State.setCap_waitReply (s : State) (n : Nat) (x : CapSt) : (s.setCap n x).waitReply = s.waitReply := rfl
@[simp] theorem State.setCap_waitMax (s : State) (n : Nat) (x : CapSt) : (s.setCap n x).waitMax = s.waitMax := rfl
@[simp] theorem State.setCap_policy (s : State) (n : Nat) (x : CapSt) : (s.setCap n x).policy = s.policy := rfl
@[simp] theorem State.setCap_faults (s : State) (n : Nat) (x : CapSt) : (s.setCap n x).faults = s.faults := rfl
@[simp] theorem State.setCap_retiredNow (s : State) (n : Nat) (x : CapSt) : (s.setCap n x).retiredNow = s.retiredNow := rfl
@[simp] theorem State.setCap_retiredVol (s : State) (n : Nat) (x : CapSt) : (s.setCap n x).retiredVol = s.retiredVol := rfl
@[simp] theorem State.setCap_cur (s : State) (n : Nat) (x : CapSt) : (s.setCap n x).cur = s.cur := rfl
@[simp] theorem State.setCap_nvs (s : State) (n : Nat) (x : CapSt) : (s.setCap n x).nvs = s.nvs := rfl
@[simp] theorem State.setCap_fuses (s : State) (n : Nat) (x : CapSt) : (s.setCap n x).fuses = s.fuses := rfl
@[simp] theorem State.setCap_pwr (s : State) (n : Nat) (x : CapSt) : (s.setCap n x).pwr = s.pwr := rfl
@[simp] theorem State.setCap_jtag (s : State) (n : Nat) (x : CapSt) : (s.setCap n x).jtag = s.jtag := rfl
@[simp] theorem State.setCap_smp (s : State) (n : Nat) (x : CapSt) : (s.setCap n x).smp = s.smp := rfl
@[simp] theorem State.setCap_ramp (s : State) (n : Nat) (x : CapSt) : (s.setCap n x).ramp = s.ramp := rfl
@[simp] theorem State.setCap_pll (s : State) (n : Nat) (x : CapSt) : (s.setCap n x).pll = s.pll := rfl
@[simp] theorem State.setCap_fes (s : State) (n : Nat) (x : CapSt) : (s.setCap n x).fes = s.fes := rfl
@[simp] theorem State.setCap_coex (s : State) (n : Nat) (x : CapSt) : (s.setCap n x).coex = s.coex := rfl
@[simp] theorem State.setCap_keepTime (s : State) (n : Nat) (x : CapSt) : (s.setCap n x).keepTime = s.keepTime := rfl
@[simp] theorem State.setCap_chans (s : State) (n : Nat) (x : CapSt) : (s.setCap n x).chans = s.chans := rfl
@[simp] theorem State.setCap_assignQ (s : State) (n : Nat) (x : CapSt) : (s.setCap n x).assignQ = s.assignQ := rfl
@[simp] theorem State.setCap_loop (s : State) (n : Nat) (x : CapSt) : (s.setCap n x).loop = s.loop := rfl
@[simp] theorem State.setCap_acq (s : State) (n : Nat) (x : CapSt) : (s.setCap n x).acq = s.acq := rfl
@[simp] theorem State.setCap_obs (s : State) (n : Nat) (x : CapSt) : (s.setCap n x).obs = s.obs := rfl
@[simp] theorem State.setCap_sol (s : State) (n : Nat) (x : CapSt) : (s.setCap n x).sol = s.sol := rfl
@[simp] theorem State.setCap_reg (s : State) (n : Nat) (x : CapSt) (r : Nat) : (s.setCap n x).reg r = s.reg r := rfl
@[simp] theorem State.setCap_rf (s : State) (n : Nat) (x : CapSt) (r hi lo : Nat) : (s.setCap n x).rf r hi lo = s.rf r hi lo := rfl
@[simp] theorem State.setCap_stored (s : State) (n : Nat) (x : CapSt) (i : Nat) : (s.setCap n x).stored i = s.stored i := rfl

/-! ### setTherm -/

@[simp] theorem State.setTherm_pending (s : State) (x : ThermSt) : (s.setTherm x).pending = s.pending := rfl
@[simp] theorem State.setTherm_freeCtr (s : State) (x : ThermSt) : (s.setTherm x).freeCtr = s.freeCtr := rfl
@[simp] theorem State.setTherm_dt (s : State) (x : ThermSt) : (s.setTherm x).dt = s.dt := rfl
@[simp] theorem State.setTherm_acc (s : State) (x : ThermSt) : (s.setTherm x).acc = s.acc := rfl
@[simp] theorem State.setTherm_cycle (s : State) (x : ThermSt) : (s.setTherm x).cycle = s.cycle := rfl
@[simp] theorem State.setTherm_regs (s : State) (x : ThermSt) : (s.setTherm x).regs = s.regs := rfl
@[simp] theorem State.setTherm_fresh (s : State) (x : ThermSt) : (s.setTherm x).fresh = s.fresh := rfl
@[simp] theorem State.setTherm_mem (s : State) (x : ThermSt) : (s.setTherm x).mem = s.mem := rfl
@[simp] theorem State.setTherm_bankH (s : State) (x : ThermSt) : (s.setTherm x).bankH = s.bankH := rfl
@[simp] theorem State.setTherm_memErr (s : State) (x : ThermSt) : (s.setTherm x).memErr = s.memErr := rfl
@[simp] theorem State.setTherm_cons (s : State) (x : ThermSt) : (s.setTherm x).cons = s.cons := rfl
@[simp] theorem State.setTherm_cores (s : State) (x : ThermSt) : (s.setTherm x).cores = s.cores := rfl
@[simp] theorem State.setTherm_hif (s : State) (x : ThermSt) : (s.setTherm x).hif = s.hif := rfl
@[simp] theorem State.setTherm_ringH (s : State) (x : ThermSt) : (s.setTherm x).ringH = s.ringH := rfl
@[simp] theorem State.setTherm_rate (s : State) (x : ThermSt) : (s.setTherm x).rate = s.rate := rfl
@[simp] theorem State.setTherm_dtSnap (s : State) (x : ThermSt) : (s.setTherm x).dtSnap = s.dtSnap := rfl
@[simp] theorem State.setTherm_evtSnap (s : State) (x : ThermSt) : (s.setTherm x).evtSnap = s.evtSnap := rfl
@[simp] theorem State.setTherm_out (s : State) (x : ThermSt) : (s.setTherm x).out = s.out := rfl
@[simp] theorem State.setTherm_cmdPend (s : State) (x : ThermSt) : (s.setTherm x).cmdPend = s.cmdPend := rfl
@[simp] theorem State.setTherm_cmdPark (s : State) (x : ThermSt) : (s.setTherm x).cmdPark = s.cmdPark := rfl
@[simp] theorem State.setTherm_waitReply (s : State) (x : ThermSt) : (s.setTherm x).waitReply = s.waitReply := rfl
@[simp] theorem State.setTherm_waitMax (s : State) (x : ThermSt) : (s.setTherm x).waitMax = s.waitMax := rfl
@[simp] theorem State.setTherm_policy (s : State) (x : ThermSt) : (s.setTherm x).policy = s.policy := rfl
@[simp] theorem State.setTherm_faults (s : State) (x : ThermSt) : (s.setTherm x).faults = s.faults := rfl
@[simp] theorem State.setTherm_retiredNow (s : State) (x : ThermSt) : (s.setTherm x).retiredNow = s.retiredNow := rfl
@[simp] theorem State.setTherm_retiredVol (s : State) (x : ThermSt) : (s.setTherm x).retiredVol = s.retiredVol := rfl
@[simp] theorem State.setTherm_nvs (s : State) (x : ThermSt) : (s.setTherm x).nvs = s.nvs := rfl
@[simp] theorem State.setTherm_fuses (s : State) (x : ThermSt) : (s.setTherm x).fuses = s.fuses := rfl
@[simp] theorem State.setTherm_pwr (s : State) (x : ThermSt) : (s.setTherm x).pwr = s.pwr := rfl
@[simp] theorem State.setTherm_jtag (s : State) (x : ThermSt) : (s.setTherm x).jtag = s.jtag := rfl
@[simp] theorem State.setTherm_smp (s : State) (x : ThermSt) : (s.setTherm x).smp = s.smp := rfl
@[simp] theorem State.setTherm_ramp (s : State) (x : ThermSt) : (s.setTherm x).ramp = s.ramp := rfl
@[simp] theorem State.setTherm_pll (s : State) (x : ThermSt) : (s.setTherm x).pll = s.pll := rfl
@[simp] theorem State.setTherm_fes (s : State) (x : ThermSt) : (s.setTherm x).fes = s.fes := rfl
@[simp] theorem State.setTherm_coex (s : State) (x : ThermSt) : (s.setTherm x).coex = s.coex := rfl
@[simp] theorem State.setTherm_keepTime (s : State) (x : ThermSt) : (s.setTherm x).keepTime = s.keepTime := rfl
@[simp] theorem State.setTherm_chans (s : State) (x : ThermSt) : (s.setTherm x).chans = s.chans := rfl
@[simp] theorem State.setTherm_assignQ (s : State) (x : ThermSt) : (s.setTherm x).assignQ = s.assignQ := rfl
@[simp] theorem State.setTherm_loop (s : State) (x : ThermSt) : (s.setTherm x).loop = s.loop := rfl
@[simp] theorem State.setTherm_acq (s : State) (x : ThermSt) : (s.setTherm x).acq = s.acq := rfl
@[simp] theorem State.setTherm_obs (s : State) (x : ThermSt) : (s.setTherm x).obs = s.obs := rfl
@[simp] theorem State.setTherm_sol (s : State) (x : ThermSt) : (s.setTherm x).sol = s.sol := rfl
@[simp] theorem State.setTherm_tpc (s : State) (x : ThermSt) : (s.setTherm x).tpc = s.tpc := rfl
@[simp] theorem State.setTherm_reg (s : State) (x : ThermSt) (r : Nat) : (s.setTherm x).reg r = s.reg r := rfl
@[simp] theorem State.setTherm_rf (s : State) (x : ThermSt) (r hi lo : Nat) : (s.setTherm x).rf r hi lo = s.rf r hi lo := rfl
@[simp] theorem State.setTherm_stored (s : State) (x : ThermSt) (i : Nat) : (s.setTherm x).stored i = s.stored i := rfl

/-! ### setPll -/

@[simp] theorem State.setPll_pending (s : State) (u : Nat) (x : PllSt) : (s.setPll u x).pending = s.pending := rfl
@[simp] theorem State.setPll_freeCtr (s : State) (u : Nat) (x : PllSt) : (s.setPll u x).freeCtr = s.freeCtr := rfl
@[simp] theorem State.setPll_dt (s : State) (u : Nat) (x : PllSt) : (s.setPll u x).dt = s.dt := rfl
@[simp] theorem State.setPll_acc (s : State) (u : Nat) (x : PllSt) : (s.setPll u x).acc = s.acc := rfl
@[simp] theorem State.setPll_cycle (s : State) (u : Nat) (x : PllSt) : (s.setPll u x).cycle = s.cycle := rfl
@[simp] theorem State.setPll_regs (s : State) (u : Nat) (x : PllSt) : (s.setPll u x).regs = s.regs := rfl
@[simp] theorem State.setPll_fresh (s : State) (u : Nat) (x : PllSt) : (s.setPll u x).fresh = s.fresh := rfl
@[simp] theorem State.setPll_mem (s : State) (u : Nat) (x : PllSt) : (s.setPll u x).mem = s.mem := rfl
@[simp] theorem State.setPll_bankH (s : State) (u : Nat) (x : PllSt) : (s.setPll u x).bankH = s.bankH := rfl
@[simp] theorem State.setPll_memErr (s : State) (u : Nat) (x : PllSt) : (s.setPll u x).memErr = s.memErr := rfl
@[simp] theorem State.setPll_cons (s : State) (u : Nat) (x : PllSt) : (s.setPll u x).cons = s.cons := rfl
@[simp] theorem State.setPll_cores (s : State) (u : Nat) (x : PllSt) : (s.setPll u x).cores = s.cores := rfl
@[simp] theorem State.setPll_hif (s : State) (u : Nat) (x : PllSt) : (s.setPll u x).hif = s.hif := rfl
@[simp] theorem State.setPll_ringH (s : State) (u : Nat) (x : PllSt) : (s.setPll u x).ringH = s.ringH := rfl
@[simp] theorem State.setPll_rate (s : State) (u : Nat) (x : PllSt) : (s.setPll u x).rate = s.rate := rfl
@[simp] theorem State.setPll_dtSnap (s : State) (u : Nat) (x : PllSt) : (s.setPll u x).dtSnap = s.dtSnap := rfl
@[simp] theorem State.setPll_evtSnap (s : State) (u : Nat) (x : PllSt) : (s.setPll u x).evtSnap = s.evtSnap := rfl
@[simp] theorem State.setPll_out (s : State) (u : Nat) (x : PllSt) : (s.setPll u x).out = s.out := rfl
@[simp] theorem State.setPll_cmdPend (s : State) (u : Nat) (x : PllSt) : (s.setPll u x).cmdPend = s.cmdPend := rfl
@[simp] theorem State.setPll_cmdPark (s : State) (u : Nat) (x : PllSt) : (s.setPll u x).cmdPark = s.cmdPark := rfl
@[simp] theorem State.setPll_waitReply (s : State) (u : Nat) (x : PllSt) : (s.setPll u x).waitReply = s.waitReply := rfl
@[simp] theorem State.setPll_waitMax (s : State) (u : Nat) (x : PllSt) : (s.setPll u x).waitMax = s.waitMax := rfl
@[simp] theorem State.setPll_policy (s : State) (u : Nat) (x : PllSt) : (s.setPll u x).policy = s.policy := rfl
@[simp] theorem State.setPll_faults (s : State) (u : Nat) (x : PllSt) : (s.setPll u x).faults = s.faults := rfl
@[simp] theorem State.setPll_retiredNow (s : State) (u : Nat) (x : PllSt) : (s.setPll u x).retiredNow = s.retiredNow := rfl
@[simp] theorem State.setPll_retiredVol (s : State) (u : Nat) (x : PllSt) : (s.setPll u x).retiredVol = s.retiredVol := rfl
@[simp] theorem State.setPll_cur (s : State) (u : Nat) (x : PllSt) : (s.setPll u x).cur = s.cur := rfl
@[simp] theorem State.setPll_nvs (s : State) (u : Nat) (x : PllSt) : (s.setPll u x).nvs = s.nvs := rfl
@[simp] theorem State.setPll_fuses (s : State) (u : Nat) (x : PllSt) : (s.setPll u x).fuses = s.fuses := rfl
@[simp] theorem State.setPll_pwr (s : State) (u : Nat) (x : PllSt) : (s.setPll u x).pwr = s.pwr := rfl
@[simp] theorem State.setPll_jtag (s : State) (u : Nat) (x : PllSt) : (s.setPll u x).jtag = s.jtag := rfl
@[simp] theorem State.setPll_smp (s : State) (u : Nat) (x : PllSt) : (s.setPll u x).smp = s.smp := rfl
@[simp] theorem State.setPll_ramp (s : State) (u : Nat) (x : PllSt) : (s.setPll u x).ramp = s.ramp := rfl
@[simp] theorem State.setPll_fes (s : State) (u : Nat) (x : PllSt) : (s.setPll u x).fes = s.fes := rfl
@[simp] theorem State.setPll_coex (s : State) (u : Nat) (x : PllSt) : (s.setPll u x).coex = s.coex := rfl
@[simp] theorem State.setPll_keepTime (s : State) (u : Nat) (x : PllSt) : (s.setPll u x).keepTime = s.keepTime := rfl
@[simp] theorem State.setPll_chans (s : State) (u : Nat) (x : PllSt) : (s.setPll u x).chans = s.chans := rfl
@[simp] theorem State.setPll_assignQ (s : State) (u : Nat) (x : PllSt) : (s.setPll u x).assignQ = s.assignQ := rfl
@[simp] theorem State.setPll_loop (s : State) (u : Nat) (x : PllSt) : (s.setPll u x).loop = s.loop := rfl
@[simp] theorem State.setPll_acq (s : State) (u : Nat) (x : PllSt) : (s.setPll u x).acq = s.acq := rfl
@[simp] theorem State.setPll_obs (s : State) (u : Nat) (x : PllSt) : (s.setPll u x).obs = s.obs := rfl
@[simp] theorem State.setPll_sol (s : State) (u : Nat) (x : PllSt) : (s.setPll u x).sol = s.sol := rfl
@[simp] theorem State.setPll_tpc (s : State) (u : Nat) (x : PllSt) : (s.setPll u x).tpc = s.tpc := rfl
@[simp] theorem State.setPll_reg (s : State) (u : Nat) (x : PllSt) (r : Nat) : (s.setPll u x).reg r = s.reg r := rfl
@[simp] theorem State.setPll_rf (s : State) (u : Nat) (x : PllSt) (r hi lo : Nat) : (s.setPll u x).rf r hi lo = s.rf r hi lo := rfl
@[simp] theorem State.setPll_stored (s : State) (u : Nat) (x : PllSt) (i : Nat) : (s.setPll u x).stored i = s.stored i := rfl

/-! ### setScale -/

@[simp] theorem State.setScale_pending (s : State) (k : Nat) (x : ScaleM) : (s.setScale k x).pending = s.pending := rfl
@[simp] theorem State.setScale_freeCtr (s : State) (k : Nat) (x : ScaleM) : (s.setScale k x).freeCtr = s.freeCtr := rfl
@[simp] theorem State.setScale_dt (s : State) (k : Nat) (x : ScaleM) : (s.setScale k x).dt = s.dt := rfl
@[simp] theorem State.setScale_acc (s : State) (k : Nat) (x : ScaleM) : (s.setScale k x).acc = s.acc := rfl
@[simp] theorem State.setScale_cycle (s : State) (k : Nat) (x : ScaleM) : (s.setScale k x).cycle = s.cycle := rfl
@[simp] theorem State.setScale_regs (s : State) (k : Nat) (x : ScaleM) : (s.setScale k x).regs = s.regs := rfl
@[simp] theorem State.setScale_fresh (s : State) (k : Nat) (x : ScaleM) : (s.setScale k x).fresh = s.fresh := rfl
@[simp] theorem State.setScale_mem (s : State) (k : Nat) (x : ScaleM) : (s.setScale k x).mem = s.mem := rfl
@[simp] theorem State.setScale_bankH (s : State) (k : Nat) (x : ScaleM) : (s.setScale k x).bankH = s.bankH := rfl
@[simp] theorem State.setScale_memErr (s : State) (k : Nat) (x : ScaleM) : (s.setScale k x).memErr = s.memErr := rfl
@[simp] theorem State.setScale_cons (s : State) (k : Nat) (x : ScaleM) : (s.setScale k x).cons = s.cons := rfl
@[simp] theorem State.setScale_cores (s : State) (k : Nat) (x : ScaleM) : (s.setScale k x).cores = s.cores := rfl
@[simp] theorem State.setScale_hif (s : State) (k : Nat) (x : ScaleM) : (s.setScale k x).hif = s.hif := rfl
@[simp] theorem State.setScale_ringH (s : State) (k : Nat) (x : ScaleM) : (s.setScale k x).ringH = s.ringH := rfl
@[simp] theorem State.setScale_rate (s : State) (k : Nat) (x : ScaleM) : (s.setScale k x).rate = s.rate := rfl
@[simp] theorem State.setScale_dtSnap (s : State) (k : Nat) (x : ScaleM) : (s.setScale k x).dtSnap = s.dtSnap := rfl
@[simp] theorem State.setScale_evtSnap (s : State) (k : Nat) (x : ScaleM) : (s.setScale k x).evtSnap = s.evtSnap := rfl
@[simp] theorem State.setScale_out (s : State) (k : Nat) (x : ScaleM) : (s.setScale k x).out = s.out := rfl
@[simp] theorem State.setScale_cmdPend (s : State) (k : Nat) (x : ScaleM) : (s.setScale k x).cmdPend = s.cmdPend := rfl
@[simp] theorem State.setScale_cmdPark (s : State) (k : Nat) (x : ScaleM) : (s.setScale k x).cmdPark = s.cmdPark := rfl
@[simp] theorem State.setScale_waitReply (s : State) (k : Nat) (x : ScaleM) : (s.setScale k x).waitReply = s.waitReply := rfl
@[simp] theorem State.setScale_waitMax (s : State) (k : Nat) (x : ScaleM) : (s.setScale k x).waitMax = s.waitMax := rfl
@[simp] theorem State.setScale_policy (s : State) (k : Nat) (x : ScaleM) : (s.setScale k x).policy = s.policy := rfl
@[simp] theorem State.setScale_faults (s : State) (k : Nat) (x : ScaleM) : (s.setScale k x).faults = s.faults := rfl
@[simp] theorem State.setScale_retiredNow (s : State) (k : Nat) (x : ScaleM) : (s.setScale k x).retiredNow = s.retiredNow := rfl
@[simp] theorem State.setScale_retiredVol (s : State) (k : Nat) (x : ScaleM) : (s.setScale k x).retiredVol = s.retiredVol := rfl
@[simp] theorem State.setScale_cur (s : State) (k : Nat) (x : ScaleM) : (s.setScale k x).cur = s.cur := rfl
@[simp] theorem State.setScale_nvs (s : State) (k : Nat) (x : ScaleM) : (s.setScale k x).nvs = s.nvs := rfl
@[simp] theorem State.setScale_fuses (s : State) (k : Nat) (x : ScaleM) : (s.setScale k x).fuses = s.fuses := rfl
@[simp] theorem State.setScale_pwr (s : State) (k : Nat) (x : ScaleM) : (s.setScale k x).pwr = s.pwr := rfl
@[simp] theorem State.setScale_jtag (s : State) (k : Nat) (x : ScaleM) : (s.setScale k x).jtag = s.jtag := rfl
@[simp] theorem State.setScale_smp (s : State) (k : Nat) (x : ScaleM) : (s.setScale k x).smp = s.smp := rfl
@[simp] theorem State.setScale_ramp (s : State) (k : Nat) (x : ScaleM) : (s.setScale k x).ramp = s.ramp := rfl
@[simp] theorem State.setScale_pll (s : State) (k : Nat) (x : ScaleM) : (s.setScale k x).pll = s.pll := rfl
@[simp] theorem State.setScale_fes (s : State) (k : Nat) (x : ScaleM) : (s.setScale k x).fes = s.fes := rfl
@[simp] theorem State.setScale_coex (s : State) (k : Nat) (x : ScaleM) : (s.setScale k x).coex = s.coex := rfl
@[simp] theorem State.setScale_keepTime (s : State) (k : Nat) (x : ScaleM) : (s.setScale k x).keepTime = s.keepTime := rfl
@[simp] theorem State.setScale_chans (s : State) (k : Nat) (x : ScaleM) : (s.setScale k x).chans = s.chans := rfl
@[simp] theorem State.setScale_assignQ (s : State) (k : Nat) (x : ScaleM) : (s.setScale k x).assignQ = s.assignQ := rfl
@[simp] theorem State.setScale_loop (s : State) (k : Nat) (x : ScaleM) : (s.setScale k x).loop = s.loop := rfl
@[simp] theorem State.setScale_acq (s : State) (k : Nat) (x : ScaleM) : (s.setScale k x).acq = s.acq := rfl
@[simp] theorem State.setScale_obs (s : State) (k : Nat) (x : ScaleM) : (s.setScale k x).obs = s.obs := rfl
@[simp] theorem State.setScale_tpc (s : State) (k : Nat) (x : ScaleM) : (s.setScale k x).tpc = s.tpc := rfl
@[simp] theorem State.setScale_reg (s : State) (k : Nat) (x : ScaleM) (r : Nat) : (s.setScale k x).reg r = s.reg r := rfl
@[simp] theorem State.setScale_rf (s : State) (k : Nat) (x : ScaleM) (r hi lo : Nat) : (s.setScale k x).rf r hi lo = s.rf r hi lo := rfl
@[simp] theorem State.setScale_stored (s : State) (k : Nat) (x : ScaleM) (i : Nat) : (s.setScale k x).stored i = s.stored i := rfl

/-! ### setSnap -/

@[simp] theorem State.setSnap_pending (s : State) (n : Nat) (x : Snap) : (s.setSnap n x).pending = s.pending := rfl
@[simp] theorem State.setSnap_freeCtr (s : State) (n : Nat) (x : Snap) : (s.setSnap n x).freeCtr = s.freeCtr := rfl
@[simp] theorem State.setSnap_dt (s : State) (n : Nat) (x : Snap) : (s.setSnap n x).dt = s.dt := rfl
@[simp] theorem State.setSnap_acc (s : State) (n : Nat) (x : Snap) : (s.setSnap n x).acc = s.acc := rfl
@[simp] theorem State.setSnap_cycle (s : State) (n : Nat) (x : Snap) : (s.setSnap n x).cycle = s.cycle := rfl
@[simp] theorem State.setSnap_regs (s : State) (n : Nat) (x : Snap) : (s.setSnap n x).regs = s.regs := rfl
@[simp] theorem State.setSnap_fresh (s : State) (n : Nat) (x : Snap) : (s.setSnap n x).fresh = s.fresh := rfl
@[simp] theorem State.setSnap_mem (s : State) (n : Nat) (x : Snap) : (s.setSnap n x).mem = s.mem := rfl
@[simp] theorem State.setSnap_bankH (s : State) (n : Nat) (x : Snap) : (s.setSnap n x).bankH = s.bankH := rfl
@[simp] theorem State.setSnap_memErr (s : State) (n : Nat) (x : Snap) : (s.setSnap n x).memErr = s.memErr := rfl
@[simp] theorem State.setSnap_cons (s : State) (n : Nat) (x : Snap) : (s.setSnap n x).cons = s.cons := rfl
@[simp] theorem State.setSnap_cores (s : State) (n : Nat) (x : Snap) : (s.setSnap n x).cores = s.cores := rfl
@[simp] theorem State.setSnap_hif (s : State) (n : Nat) (x : Snap) : (s.setSnap n x).hif = s.hif := rfl
@[simp] theorem State.setSnap_ringH (s : State) (n : Nat) (x : Snap) : (s.setSnap n x).ringH = s.ringH := rfl
@[simp] theorem State.setSnap_rate (s : State) (n : Nat) (x : Snap) : (s.setSnap n x).rate = s.rate := rfl
@[simp] theorem State.setSnap_dtSnap (s : State) (n : Nat) (x : Snap) : (s.setSnap n x).dtSnap = s.dtSnap := rfl
@[simp] theorem State.setSnap_evtSnap (s : State) (n : Nat) (x : Snap) : (s.setSnap n x).evtSnap = s.evtSnap := rfl
@[simp] theorem State.setSnap_out (s : State) (n : Nat) (x : Snap) : (s.setSnap n x).out = s.out := rfl
@[simp] theorem State.setSnap_cmdPend (s : State) (n : Nat) (x : Snap) : (s.setSnap n x).cmdPend = s.cmdPend := rfl
@[simp] theorem State.setSnap_cmdPark (s : State) (n : Nat) (x : Snap) : (s.setSnap n x).cmdPark = s.cmdPark := rfl
@[simp] theorem State.setSnap_waitReply (s : State) (n : Nat) (x : Snap) : (s.setSnap n x).waitReply = s.waitReply := rfl
@[simp] theorem State.setSnap_waitMax (s : State) (n : Nat) (x : Snap) : (s.setSnap n x).waitMax = s.waitMax := rfl
@[simp] theorem State.setSnap_policy (s : State) (n : Nat) (x : Snap) : (s.setSnap n x).policy = s.policy := rfl
@[simp] theorem State.setSnap_faults (s : State) (n : Nat) (x : Snap) : (s.setSnap n x).faults = s.faults := rfl
@[simp] theorem State.setSnap_retiredNow (s : State) (n : Nat) (x : Snap) : (s.setSnap n x).retiredNow = s.retiredNow := rfl
@[simp] theorem State.setSnap_retiredVol (s : State) (n : Nat) (x : Snap) : (s.setSnap n x).retiredVol = s.retiredVol := rfl
@[simp] theorem State.setSnap_cur (s : State) (n : Nat) (x : Snap) : (s.setSnap n x).cur = s.cur := rfl
@[simp] theorem State.setSnap_nvs (s : State) (n : Nat) (x : Snap) : (s.setSnap n x).nvs = s.nvs := rfl
@[simp] theorem State.setSnap_fuses (s : State) (n : Nat) (x : Snap) : (s.setSnap n x).fuses = s.fuses := rfl
@[simp] theorem State.setSnap_pwr (s : State) (n : Nat) (x : Snap) : (s.setSnap n x).pwr = s.pwr := rfl
@[simp] theorem State.setSnap_jtag (s : State) (n : Nat) (x : Snap) : (s.setSnap n x).jtag = s.jtag := rfl
@[simp] theorem State.setSnap_smp (s : State) (n : Nat) (x : Snap) : (s.setSnap n x).smp = s.smp := rfl
@[simp] theorem State.setSnap_ramp (s : State) (n : Nat) (x : Snap) : (s.setSnap n x).ramp = s.ramp := rfl
@[simp] theorem State.setSnap_pll (s : State) (n : Nat) (x : Snap) : (s.setSnap n x).pll = s.pll := rfl
@[simp] theorem State.setSnap_fes (s : State) (n : Nat) (x : Snap) : (s.setSnap n x).fes = s.fes := rfl
@[simp] theorem State.setSnap_coex (s : State) (n : Nat) (x : Snap) : (s.setSnap n x).coex = s.coex := rfl
@[simp] theorem State.setSnap_keepTime (s : State) (n : Nat) (x : Snap) : (s.setSnap n x).keepTime = s.keepTime := rfl
@[simp] theorem State.setSnap_chans (s : State) (n : Nat) (x : Snap) : (s.setSnap n x).chans = s.chans := rfl
@[simp] theorem State.setSnap_assignQ (s : State) (n : Nat) (x : Snap) : (s.setSnap n x).assignQ = s.assignQ := rfl
@[simp] theorem State.setSnap_loop (s : State) (n : Nat) (x : Snap) : (s.setSnap n x).loop = s.loop := rfl
@[simp] theorem State.setSnap_obs (s : State) (n : Nat) (x : Snap) : (s.setSnap n x).obs = s.obs := rfl
@[simp] theorem State.setSnap_sol (s : State) (n : Nat) (x : Snap) : (s.setSnap n x).sol = s.sol := rfl
@[simp] theorem State.setSnap_tpc (s : State) (n : Nat) (x : Snap) : (s.setSnap n x).tpc = s.tpc := rfl
@[simp] theorem State.setSnap_reg (s : State) (n : Nat) (x : Snap) (r : Nat) : (s.setSnap n x).reg r = s.reg r := rfl
@[simp] theorem State.setSnap_rf (s : State) (n : Nat) (x : Snap) (r hi lo : Nat) : (s.setSnap n x).rf r hi lo = s.rf r hi lo := rfl
@[simp] theorem State.setSnap_stored (s : State) (n : Nat) (x : Snap) (i : Nat) : (s.setSnap n x).stored i = s.stored i := rfl

/-! ### setJob -/

@[simp] theorem State.setJob_pending (s : State) (x : Job) : (s.setJob x).pending = s.pending := rfl
@[simp] theorem State.setJob_freeCtr (s : State) (x : Job) : (s.setJob x).freeCtr = s.freeCtr := rfl
@[simp] theorem State.setJob_dt (s : State) (x : Job) : (s.setJob x).dt = s.dt := rfl
@[simp] theorem State.setJob_acc (s : State) (x : Job) : (s.setJob x).acc = s.acc := rfl
@[simp] theorem State.setJob_cycle (s : State) (x : Job) : (s.setJob x).cycle = s.cycle := rfl
@[simp] theorem State.setJob_regs (s : State) (x : Job) : (s.setJob x).regs = s.regs := rfl
@[simp] theorem State.setJob_fresh (s : State) (x : Job) : (s.setJob x).fresh = s.fresh := rfl
@[simp] theorem State.setJob_mem (s : State) (x : Job) : (s.setJob x).mem = s.mem := rfl
@[simp] theorem State.setJob_bankH (s : State) (x : Job) : (s.setJob x).bankH = s.bankH := rfl
@[simp] theorem State.setJob_memErr (s : State) (x : Job) : (s.setJob x).memErr = s.memErr := rfl
@[simp] theorem State.setJob_cons (s : State) (x : Job) : (s.setJob x).cons = s.cons := rfl
@[simp] theorem State.setJob_cores (s : State) (x : Job) : (s.setJob x).cores = s.cores := rfl
@[simp] theorem State.setJob_hif (s : State) (x : Job) : (s.setJob x).hif = s.hif := rfl
@[simp] theorem State.setJob_ringH (s : State) (x : Job) : (s.setJob x).ringH = s.ringH := rfl
@[simp] theorem State.setJob_rate (s : State) (x : Job) : (s.setJob x).rate = s.rate := rfl
@[simp] theorem State.setJob_dtSnap (s : State) (x : Job) : (s.setJob x).dtSnap = s.dtSnap := rfl
@[simp] theorem State.setJob_evtSnap (s : State) (x : Job) : (s.setJob x).evtSnap = s.evtSnap := rfl
@[simp] theorem State.setJob_out (s : State) (x : Job) : (s.setJob x).out = s.out := rfl
@[simp] theorem State.setJob_cmdPend (s : State) (x : Job) : (s.setJob x).cmdPend = s.cmdPend := rfl
@[simp] theorem State.setJob_cmdPark (s : State) (x : Job) : (s.setJob x).cmdPark = s.cmdPark := rfl
@[simp] theorem State.setJob_waitReply (s : State) (x : Job) : (s.setJob x).waitReply = s.waitReply := rfl
@[simp] theorem State.setJob_waitMax (s : State) (x : Job) : (s.setJob x).waitMax = s.waitMax := rfl
@[simp] theorem State.setJob_policy (s : State) (x : Job) : (s.setJob x).policy = s.policy := rfl
@[simp] theorem State.setJob_faults (s : State) (x : Job) : (s.setJob x).faults = s.faults := rfl
@[simp] theorem State.setJob_retiredNow (s : State) (x : Job) : (s.setJob x).retiredNow = s.retiredNow := rfl
@[simp] theorem State.setJob_retiredVol (s : State) (x : Job) : (s.setJob x).retiredVol = s.retiredVol := rfl
@[simp] theorem State.setJob_cur (s : State) (x : Job) : (s.setJob x).cur = s.cur := rfl
@[simp] theorem State.setJob_nvs (s : State) (x : Job) : (s.setJob x).nvs = s.nvs := rfl
@[simp] theorem State.setJob_fuses (s : State) (x : Job) : (s.setJob x).fuses = s.fuses := rfl
@[simp] theorem State.setJob_pwr (s : State) (x : Job) : (s.setJob x).pwr = s.pwr := rfl
@[simp] theorem State.setJob_jtag (s : State) (x : Job) : (s.setJob x).jtag = s.jtag := rfl
@[simp] theorem State.setJob_smp (s : State) (x : Job) : (s.setJob x).smp = s.smp := rfl
@[simp] theorem State.setJob_ramp (s : State) (x : Job) : (s.setJob x).ramp = s.ramp := rfl
@[simp] theorem State.setJob_pll (s : State) (x : Job) : (s.setJob x).pll = s.pll := rfl
@[simp] theorem State.setJob_fes (s : State) (x : Job) : (s.setJob x).fes = s.fes := rfl
@[simp] theorem State.setJob_coex (s : State) (x : Job) : (s.setJob x).coex = s.coex := rfl
@[simp] theorem State.setJob_keepTime (s : State) (x : Job) : (s.setJob x).keepTime = s.keepTime := rfl
@[simp] theorem State.setJob_chans (s : State) (x : Job) : (s.setJob x).chans = s.chans := rfl
@[simp] theorem State.setJob_assignQ (s : State) (x : Job) : (s.setJob x).assignQ = s.assignQ := rfl
@[simp] theorem State.setJob_loop (s : State) (x : Job) : (s.setJob x).loop = s.loop := rfl
@[simp] theorem State.setJob_obs (s : State) (x : Job) : (s.setJob x).obs = s.obs := rfl
@[simp] theorem State.setJob_sol (s : State) (x : Job) : (s.setJob x).sol = s.sol := rfl
@[simp] theorem State.setJob_tpc (s : State) (x : Job) : (s.setJob x).tpc = s.tpc := rfl
@[simp] theorem State.setJob_reg (s : State) (x : Job) (r : Nat) : (s.setJob x).reg r = s.reg r := rfl
@[simp] theorem State.setJob_rf (s : State) (x : Job) (r hi lo : Nat) : (s.setJob x).rf r hi lo = s.rf r hi lo := rfl
@[simp] theorem State.setJob_stored (s : State) (x : Job) (i : Nat) : (s.setJob x).stored i = s.stored i := rfl

/-! ### setTap -/

@[simp] theorem State.setTap_pending (s : State) (n t : Nat) (x : TapSt) : (s.setTap n t x).pending = s.pending := rfl
@[simp] theorem State.setTap_freeCtr (s : State) (n t : Nat) (x : TapSt) : (s.setTap n t x).freeCtr = s.freeCtr := rfl
@[simp] theorem State.setTap_dt (s : State) (n t : Nat) (x : TapSt) : (s.setTap n t x).dt = s.dt := rfl
@[simp] theorem State.setTap_acc (s : State) (n t : Nat) (x : TapSt) : (s.setTap n t x).acc = s.acc := rfl
@[simp] theorem State.setTap_cycle (s : State) (n t : Nat) (x : TapSt) : (s.setTap n t x).cycle = s.cycle := rfl
@[simp] theorem State.setTap_regs (s : State) (n t : Nat) (x : TapSt) : (s.setTap n t x).regs = s.regs := rfl
@[simp] theorem State.setTap_fresh (s : State) (n t : Nat) (x : TapSt) : (s.setTap n t x).fresh = s.fresh := rfl
@[simp] theorem State.setTap_mem (s : State) (n t : Nat) (x : TapSt) : (s.setTap n t x).mem = s.mem := rfl
@[simp] theorem State.setTap_bankH (s : State) (n t : Nat) (x : TapSt) : (s.setTap n t x).bankH = s.bankH := rfl
@[simp] theorem State.setTap_memErr (s : State) (n t : Nat) (x : TapSt) : (s.setTap n t x).memErr = s.memErr := rfl
@[simp] theorem State.setTap_cons (s : State) (n t : Nat) (x : TapSt) : (s.setTap n t x).cons = s.cons := rfl
@[simp] theorem State.setTap_cores (s : State) (n t : Nat) (x : TapSt) : (s.setTap n t x).cores = s.cores := rfl
@[simp] theorem State.setTap_hif (s : State) (n t : Nat) (x : TapSt) : (s.setTap n t x).hif = s.hif := rfl
@[simp] theorem State.setTap_ringH (s : State) (n t : Nat) (x : TapSt) : (s.setTap n t x).ringH = s.ringH := rfl
@[simp] theorem State.setTap_rate (s : State) (n t : Nat) (x : TapSt) : (s.setTap n t x).rate = s.rate := rfl
@[simp] theorem State.setTap_dtSnap (s : State) (n t : Nat) (x : TapSt) : (s.setTap n t x).dtSnap = s.dtSnap := rfl
@[simp] theorem State.setTap_evtSnap (s : State) (n t : Nat) (x : TapSt) : (s.setTap n t x).evtSnap = s.evtSnap := rfl
@[simp] theorem State.setTap_out (s : State) (n t : Nat) (x : TapSt) : (s.setTap n t x).out = s.out := rfl
@[simp] theorem State.setTap_cmdPend (s : State) (n t : Nat) (x : TapSt) : (s.setTap n t x).cmdPend = s.cmdPend := rfl
@[simp] theorem State.setTap_cmdPark (s : State) (n t : Nat) (x : TapSt) : (s.setTap n t x).cmdPark = s.cmdPark := rfl
@[simp] theorem State.setTap_waitReply (s : State) (n t : Nat) (x : TapSt) : (s.setTap n t x).waitReply = s.waitReply := rfl
@[simp] theorem State.setTap_waitMax (s : State) (n t : Nat) (x : TapSt) : (s.setTap n t x).waitMax = s.waitMax := rfl
@[simp] theorem State.setTap_policy (s : State) (n t : Nat) (x : TapSt) : (s.setTap n t x).policy = s.policy := rfl
@[simp] theorem State.setTap_faults (s : State) (n t : Nat) (x : TapSt) : (s.setTap n t x).faults = s.faults := rfl
@[simp] theorem State.setTap_retiredNow (s : State) (n t : Nat) (x : TapSt) : (s.setTap n t x).retiredNow = s.retiredNow := rfl
@[simp] theorem State.setTap_retiredVol (s : State) (n t : Nat) (x : TapSt) : (s.setTap n t x).retiredVol = s.retiredVol := rfl
@[simp] theorem State.setTap_cur (s : State) (n t : Nat) (x : TapSt) : (s.setTap n t x).cur = s.cur := rfl
@[simp] theorem State.setTap_nvs (s : State) (n t : Nat) (x : TapSt) : (s.setTap n t x).nvs = s.nvs := rfl
@[simp] theorem State.setTap_fuses (s : State) (n t : Nat) (x : TapSt) : (s.setTap n t x).fuses = s.fuses := rfl
@[simp] theorem State.setTap_pwr (s : State) (n t : Nat) (x : TapSt) : (s.setTap n t x).pwr = s.pwr := rfl
@[simp] theorem State.setTap_jtag (s : State) (n t : Nat) (x : TapSt) : (s.setTap n t x).jtag = s.jtag := rfl
@[simp] theorem State.setTap_smp (s : State) (n t : Nat) (x : TapSt) : (s.setTap n t x).smp = s.smp := rfl
@[simp] theorem State.setTap_ramp (s : State) (n t : Nat) (x : TapSt) : (s.setTap n t x).ramp = s.ramp := rfl
@[simp] theorem State.setTap_pll (s : State) (n t : Nat) (x : TapSt) : (s.setTap n t x).pll = s.pll := rfl
@[simp] theorem State.setTap_coex (s : State) (n t : Nat) (x : TapSt) : (s.setTap n t x).coex = s.coex := rfl
@[simp] theorem State.setTap_keepTime (s : State) (n t : Nat) (x : TapSt) : (s.setTap n t x).keepTime = s.keepTime := rfl
@[simp] theorem State.setTap_chans (s : State) (n t : Nat) (x : TapSt) : (s.setTap n t x).chans = s.chans := rfl
@[simp] theorem State.setTap_assignQ (s : State) (n t : Nat) (x : TapSt) : (s.setTap n t x).assignQ = s.assignQ := rfl
@[simp] theorem State.setTap_loop (s : State) (n t : Nat) (x : TapSt) : (s.setTap n t x).loop = s.loop := rfl
@[simp] theorem State.setTap_acq (s : State) (n t : Nat) (x : TapSt) : (s.setTap n t x).acq = s.acq := rfl
@[simp] theorem State.setTap_obs (s : State) (n t : Nat) (x : TapSt) : (s.setTap n t x).obs = s.obs := rfl
@[simp] theorem State.setTap_sol (s : State) (n t : Nat) (x : TapSt) : (s.setTap n t x).sol = s.sol := rfl
@[simp] theorem State.setTap_tpc (s : State) (n t : Nat) (x : TapSt) : (s.setTap n t x).tpc = s.tpc := rfl
@[simp] theorem State.setTap_reg (s : State) (n t : Nat) (x : TapSt) (r : Nat) : (s.setTap n t x).reg r = s.reg r := rfl
@[simp] theorem State.setTap_rf (s : State) (n t : Nat) (x : TapSt) (r hi lo : Nat) : (s.setTap n t x).rf r hi lo = s.rf r hi lo := rfl
@[simp] theorem State.setTap_stored (s : State) (n t : Nat) (x : TapSt) (i : Nat) : (s.setTap n t x).stored i = s.stored i := rfl

/-! ### setNf -/

@[simp] theorem State.setNf_pending (s : State) (n k : Nat) (x : NotchSt) : (s.setNf n k x).pending = s.pending := rfl
@[simp] theorem State.setNf_freeCtr (s : State) (n k : Nat) (x : NotchSt) : (s.setNf n k x).freeCtr = s.freeCtr := rfl
@[simp] theorem State.setNf_dt (s : State) (n k : Nat) (x : NotchSt) : (s.setNf n k x).dt = s.dt := rfl
@[simp] theorem State.setNf_acc (s : State) (n k : Nat) (x : NotchSt) : (s.setNf n k x).acc = s.acc := rfl
@[simp] theorem State.setNf_cycle (s : State) (n k : Nat) (x : NotchSt) : (s.setNf n k x).cycle = s.cycle := rfl
@[simp] theorem State.setNf_regs (s : State) (n k : Nat) (x : NotchSt) : (s.setNf n k x).regs = s.regs := rfl
@[simp] theorem State.setNf_fresh (s : State) (n k : Nat) (x : NotchSt) : (s.setNf n k x).fresh = s.fresh := rfl
@[simp] theorem State.setNf_mem (s : State) (n k : Nat) (x : NotchSt) : (s.setNf n k x).mem = s.mem := rfl
@[simp] theorem State.setNf_bankH (s : State) (n k : Nat) (x : NotchSt) : (s.setNf n k x).bankH = s.bankH := rfl
@[simp] theorem State.setNf_memErr (s : State) (n k : Nat) (x : NotchSt) : (s.setNf n k x).memErr = s.memErr := rfl
@[simp] theorem State.setNf_cons (s : State) (n k : Nat) (x : NotchSt) : (s.setNf n k x).cons = s.cons := rfl
@[simp] theorem State.setNf_cores (s : State) (n k : Nat) (x : NotchSt) : (s.setNf n k x).cores = s.cores := rfl
@[simp] theorem State.setNf_hif (s : State) (n k : Nat) (x : NotchSt) : (s.setNf n k x).hif = s.hif := rfl
@[simp] theorem State.setNf_ringH (s : State) (n k : Nat) (x : NotchSt) : (s.setNf n k x).ringH = s.ringH := rfl
@[simp] theorem State.setNf_rate (s : State) (n k : Nat) (x : NotchSt) : (s.setNf n k x).rate = s.rate := rfl
@[simp] theorem State.setNf_dtSnap (s : State) (n k : Nat) (x : NotchSt) : (s.setNf n k x).dtSnap = s.dtSnap := rfl
@[simp] theorem State.setNf_evtSnap (s : State) (n k : Nat) (x : NotchSt) : (s.setNf n k x).evtSnap = s.evtSnap := rfl
@[simp] theorem State.setNf_out (s : State) (n k : Nat) (x : NotchSt) : (s.setNf n k x).out = s.out := rfl
@[simp] theorem State.setNf_cmdPend (s : State) (n k : Nat) (x : NotchSt) : (s.setNf n k x).cmdPend = s.cmdPend := rfl
@[simp] theorem State.setNf_cmdPark (s : State) (n k : Nat) (x : NotchSt) : (s.setNf n k x).cmdPark = s.cmdPark := rfl
@[simp] theorem State.setNf_waitReply (s : State) (n k : Nat) (x : NotchSt) : (s.setNf n k x).waitReply = s.waitReply := rfl
@[simp] theorem State.setNf_waitMax (s : State) (n k : Nat) (x : NotchSt) : (s.setNf n k x).waitMax = s.waitMax := rfl
@[simp] theorem State.setNf_policy (s : State) (n k : Nat) (x : NotchSt) : (s.setNf n k x).policy = s.policy := rfl
@[simp] theorem State.setNf_faults (s : State) (n k : Nat) (x : NotchSt) : (s.setNf n k x).faults = s.faults := rfl
@[simp] theorem State.setNf_retiredNow (s : State) (n k : Nat) (x : NotchSt) : (s.setNf n k x).retiredNow = s.retiredNow := rfl
@[simp] theorem State.setNf_retiredVol (s : State) (n k : Nat) (x : NotchSt) : (s.setNf n k x).retiredVol = s.retiredVol := rfl
@[simp] theorem State.setNf_cur (s : State) (n k : Nat) (x : NotchSt) : (s.setNf n k x).cur = s.cur := rfl
@[simp] theorem State.setNf_nvs (s : State) (n k : Nat) (x : NotchSt) : (s.setNf n k x).nvs = s.nvs := rfl
@[simp] theorem State.setNf_fuses (s : State) (n k : Nat) (x : NotchSt) : (s.setNf n k x).fuses = s.fuses := rfl
@[simp] theorem State.setNf_pwr (s : State) (n k : Nat) (x : NotchSt) : (s.setNf n k x).pwr = s.pwr := rfl
@[simp] theorem State.setNf_jtag (s : State) (n k : Nat) (x : NotchSt) : (s.setNf n k x).jtag = s.jtag := rfl
@[simp] theorem State.setNf_smp (s : State) (n k : Nat) (x : NotchSt) : (s.setNf n k x).smp = s.smp := rfl
@[simp] theorem State.setNf_ramp (s : State) (n k : Nat) (x : NotchSt) : (s.setNf n k x).ramp = s.ramp := rfl
@[simp] theorem State.setNf_pll (s : State) (n k : Nat) (x : NotchSt) : (s.setNf n k x).pll = s.pll := rfl
@[simp] theorem State.setNf_coex (s : State) (n k : Nat) (x : NotchSt) : (s.setNf n k x).coex = s.coex := rfl
@[simp] theorem State.setNf_keepTime (s : State) (n k : Nat) (x : NotchSt) : (s.setNf n k x).keepTime = s.keepTime := rfl
@[simp] theorem State.setNf_chans (s : State) (n k : Nat) (x : NotchSt) : (s.setNf n k x).chans = s.chans := rfl
@[simp] theorem State.setNf_assignQ (s : State) (n k : Nat) (x : NotchSt) : (s.setNf n k x).assignQ = s.assignQ := rfl
@[simp] theorem State.setNf_loop (s : State) (n k : Nat) (x : NotchSt) : (s.setNf n k x).loop = s.loop := rfl
@[simp] theorem State.setNf_acq (s : State) (n k : Nat) (x : NotchSt) : (s.setNf n k x).acq = s.acq := rfl
@[simp] theorem State.setNf_obs (s : State) (n k : Nat) (x : NotchSt) : (s.setNf n k x).obs = s.obs := rfl
@[simp] theorem State.setNf_sol (s : State) (n k : Nat) (x : NotchSt) : (s.setNf n k x).sol = s.sol := rfl
@[simp] theorem State.setNf_tpc (s : State) (n k : Nat) (x : NotchSt) : (s.setNf n k x).tpc = s.tpc := rfl
@[simp] theorem State.setNf_reg (s : State) (n k : Nat) (x : NotchSt) (r : Nat) : (s.setNf n k x).reg r = s.reg r := rfl
@[simp] theorem State.setNf_rf (s : State) (n k : Nat) (x : NotchSt) (r hi lo : Nat) : (s.setNf n k x).rf r hi lo = s.rf r hi lo := rfl
@[simp] theorem State.setNf_stored (s : State) (n k : Nat) (x : NotchSt) (i : Nat) : (s.setNf n k x).stored i = s.stored i := rfl

/-! ### Reading what an update wrote -/

@[simp] theorem State.emit_out (s : State) (x : Out) : (s.emit x).out = x :: s.out := rfl
@[simp] theorem State.setRh_rh_same (s : State) (q : Nat) (x : RingH) : (s.setRh q x).rh q = x := tget_tset_same _ _ _ _
@[simp] theorem State.setCore_core_same (s : State) (c : Nat) (x : ApCore) : (s.setCore c x).core c = x := tget_tset_same _ _ _ _
@[simp] theorem State.setBh_bh_same (s : State) (b : Nat) (x : BankH) : (s.setBh b x).bh b = x := tget_tset_same _ _ _ _
@[simp] theorem State.setPll_pllOf_same (s : State) (u : Nat) (x : PllSt) : (s.setPll u x).pllOf u = x := tget_tset_same _ _ _ _
@[simp] theorem State.setFe_fe_same (s : State) (n : Nat) (x : RfSt) : (s.setFe n x).fe n = x := tget_tset_same _ _ _ _
@[simp] theorem State.setChan_chan_same (s : State) (c : Nat) (x : Chan) : (s.setChan c x).chan c = x := tget_tset_same _ _ _ _
theorem State.setCore_core_ne (s : State) {c d : Nat} (x : ApCore) (h : d ≠ c) : (s.setCore c x).core d = s.core d := tget_tset_ne _ _ _ h
theorem State.setRh_rh_ne (s : State) {q p : Nat} (x : RingH) (h : p ≠ q) : (s.setRh q x).rh p = s.rh p := tget_tset_ne _ _ _ h
theorem State.setBh_bh_ne (s : State) {b c : Nat} (x : BankH) (h : c ≠ b) : (s.setBh b x).bh c = s.bh c := tget_tset_ne _ _ _ h
theorem State.setFe_fe_ne (s : State) {n m : Nat} (x : RfSt) (h : m ≠ n) : (s.setFe n x).fe m = s.fe m := tget_tset_ne _ _ _ h
theorem State.setChan_chan_ne (s : State) {c d : Nat} (x : Chan) (h : d ≠ c) : (s.setChan c x).chan d = s.chan d := tget_tset_ne _ _ _ h

/-! ### The derived register updates -/

theorem State.cnt_eq (s : State) (o n : Nat) : s.cnt o n = s.setReg o (bump (s.reg o) n) := rfl
theorem State.sticky_eq (s : State) (o i : Nat) : s.sticky o i = s.setReg o (setBit (s.reg o) i true) := rfl
theorem State.setF_eq (s : State) (o hi lo v : Nat) : s.setF o hi lo v = s.setReg o (setFld (s.reg o) hi lo v) := rfl
theorem State.incr_eq (s : State) (o : Nat) : s.incr o = s.setReg o (s.reg o + 1#36) := rfl

end Sys2Proof.Machine
end

