-- ==== Sys2Proof/Laws/Cmd.lean ====
section
/-! SUPPORT. Laws/Cmd.lean: what consuming a command entry gives when every check passes (R436 to R447). -/

namespace Sys2Proof.Machine

/-- A command that meets its boundary with no status has its effect and is answered. -/
theorem applyCmd_ok {c : CmdSpec} {h : HeldCmd} {u : State} (hok : firstStatus (chkCommon c h u ++ c.chk h u) = 0) :
    applyCmd c h u = (match c.eff h u with
      | (.done ws, t) => reply h 0 (c.at_ h u) ws t
      | (.doneAt d ws, t) => reply h 0 d ws t
      | (.later, t) => t) := by
  unfold applyCmd
  rcases he : c.eff h u with ⟨_ | _ | _, t⟩ <;> simp [hok, he]

/-- What consuming an entry that passes phases A and B gives: the command waits, or meets its boundary now. -/
theorem consume_admitted {c : CmdSpec} {p : Packet} {s u : State} {h : HeldCmd} (hp : Admitted c p s h u) :
    consumeCmd c p s = if cmdWaits c h u then { u with cmdPend := u.cmdPend ++ [h] } else applyCmd c h u := by
  have h1 := hp.header
  have h2 := hp.buffer
  have h3 := hp.command
  have e : (if s.spiMode then spiEntry c.op p s else (true, s)) = (true, entryRead c.op p s) := by
    unfold entryRead
    by_cases hs : s.spiMode = true
    · rw [if_pos hs, if_pos hs, ← hp.entry hs]
    · rw [if_neg hs, if_neg hs]
  unfold consumeCmd
  rw [hp.booted, hp.ready, e]
  unfold entryTaken at h1 h2
  simp only [Bool.and_self, Bool.not_true, Bool.false_eq_true, if_false]
  unfold admitCmd
  have hs : h.stamped = false := by rw [h3]; simp [HeldCmd.stamped, hp.now]
  simp only [h1, h2, ne_eq, not_true, if_false, hp.now, Bool.false_and, Bool.false_eq_true]
  rw [← h3]
  simp [hs]

/-- A command that passes every check has its effect in the step that consumes it. -/
theorem consume_passes {c : CmdSpec} {p : Packet} {s u : State} {h : HeldCmd} (hp : Passes c p s h u) :
    consumeCmd c p s = (match c.eff h u with
      | (.done ws, t) => reply h 0 (c.at_ h u) ws t
      | (.doneAt d ws, t) => reply h 0 d ws t
      | (.later, t) => t) := by
  rw [← applyCmd_ok hp.allowed, consume_admitted hp.toAdmitted]
  simp [hp.free]

/-- PENDING_COMMAND_DUE gives the effect of the command whose boundary is the next. -/
theorem due_passes {c : CmdSpec} {s u : State} {h : HeldCmd} (hd : Due c s h u) :
    exec .pendingCommandDue s = .next (resetCheck (heldAfter h (h.n s) (match c.eff h u with
      | (.done ws, t) => reply h 0 (c.at_ h u) ws t
      | (.doneAt d ws, t) => reply h 0 d ws t
      | (.later, t) => t))) := by
  rw [← applyCmd_ok hd.allowed, hd.rest]
  show execPendingCommandDue s = _
  unfold execPendingCommandDue
  simp [hd.booted, hd.first, hd.spec]

/-- A row that consumes the entries of a command takes the command's effect. -/
theorem takes_of {row : Packet → Instr} {c : CmdSpec} {h : HeldCmd} {u t : State} (hr : ∀ p s, exec (row p) s = .next (consumeCmd c p s))
    (he : (match c.eff h u with
      | (.done ws, t) => reply h 0 (c.at_ h u) ws t
      | (.doneAt d ws, t) => reply h 0 d ws t
      | (.later, t) => t) = t) : Takes row c h u t := by
  refine ⟨fun p s hp => ?_, And.intro (fun p s hp hw => ?_) (fun s hd => ?_)⟩
  · rw [hr, consume_passes hp, he]
  · rw [hr, consume_admitted hp, if_pos hw]
  · rw [due_passes hd, he]

theorem consume_done {c : CmdSpec} {p : Packet} {s u t : State} {h : HeldCmd} {ws : List Word} (hp : Passes c p s h u)
    (he : c.eff h u = (.done ws, t)) : consumeCmd c p s = reply h 0 (c.at_ h u) ws t := by
  rw [consume_passes hp, he]

theorem consume_doneAt {c : CmdSpec} {p : Packet} {s u t : State} {h : HeldCmd} {d : Dt} {ws : List Word} (hp : Passes c p s h u)
    (he : c.eff h u = (.doneAt d ws, t)) : consumeCmd c p s = reply h 0 d ws t := by
  rw [consume_passes hp, he]

theorem consume_later {c : CmdSpec} {p : Packet} {s u t : State} {h : HeldCmd} (hp : Passes c p s h u)
    (he : c.eff h u = (.later, t)) : consumeCmd c p s = t := by
  rw [consume_passes hp, he]

end Sys2Proof.Machine
end

