-- ==== Sys2Proof/Laws/Memory.lean ====
section
/-! SUPPORT. Laws/Memory.lean: stored words and their code, reading after writing, and the canonical form of the SRAM (R377, R388). -/

namespace Sys2Proof.Machine

theorem eccCheckFrom_lt (cols : List Nat) (d acc : Nat) (hc : ∀ c ∈ cols, c < 128) (ha : acc < 128) : eccCheckFrom cols d acc < 128 := by
  induction cols generalizing d acc with
  | nil => exact ha
  | cons c cs ih =>
    refine ih _ _ (fun x hx => hc x (List.mem_cons_of_mem _ hx)) ?_
    split
    · exact Nat.xor_lt_two_pow (n := 7) ha (hc c (by simp))
    · exact ha

/-- The check bits are seven. -/
theorem eccCheck_lt (d : Word) : eccCheck d < 128 := by
  refine eccCheckFrom_lt _ _ _ (fun c hc => ?_) (Nat.zero_lt_succ _)
  have : eccCols.all (fun c => decide (c < 128)) = true := rfl
  simpa using List.all_eq_true.mp this c hc

theorem enc_num (c n : Nat) (h1 : c < 128) (h2 : n < 68719476736) :
    (BitVec.ofNat 43 (c * 68719476736 + n)).toNat = c * 68719476736 + n := by
  rw [BitVec.toNat_ofNat]
  exact Nat.mod_eq_of_lt (by omega)

theorem enc_low (c n : Nat) (h2 : n < 68719476736) : (c * 68719476736 + n) % 68719476736 = n := by omega

theorem enc_high (c n : Nat) (h2 : n < 68719476736) : (c * 68719476736 + n) / 68719476736 = c := by omega

@[simp] theorem storedData_eccEnc (d : Word) : storedData (eccEnc d) = d := by
  apply BitVec.eq_of_toNat_eq
  unfold storedData eccEnc
  rw [BitVec.extractLsb'_toNat, enc_num _ _ (eccCheck_lt d) d.isLt, Nat.shiftRight_zero]
  exact enc_low _ _ d.isLt

@[simp] theorem storedCheck_eccEnc (d : Word) : storedCheck (eccEnc d) = eccCheck d := by
  unfold storedCheck eccEnc
  rw [enc_num _ _ (eccCheck_lt d) d.isLt]
  exact enc_high _ _ d.isLt

/-- A word stored with its check bits reads back clean. -/
@[simp] theorem eccDec_eccEnc (d : Word) : eccDec (eccEnc d) = .clean d := by
  simp [eccDec, syndrome]

theorem peek_of_stored {s : State} {k : Nat} {d : Word} (h : s.stored k = eccEnc d) : s.peek k = d := by
  simp [State.peek, h]

/-- A read of the index stored gives the bits stored; every other index is left alone. -/
@[simp] theorem stored_putStored_same (s : State) (k : Nat) (x : Stored) : (s.putStored k x).stored k = x := by
  simp [stored_putStored]

theorem stored_putStored_ne (s : State) {k j : Nat} (x : Stored) (h : j ≠ k) : (s.putStored k x).stored j = s.stored j := by
  simp [stored_putStored, h]

/-- With no flip armed for its bank, a store puts the word with its check bits (R377, R400). -/
theorem store_unarmed {s : State} {k : Nat} (d : Word) (h : k < 4194304 → bit (s.reg R.MEM_FLIP_ARM) (k / 262144) = false) :
    s.store k d = s.putStored k (eccEnc d) := by
  unfold State.store State.storeBits
  split
  · rename_i hc
    rw [h hc.1] at hc
    exact absurd hc.2 (by decide)
  · rfl

/-! ## The canonical form -/

theorem wf_putStored {s : State} (k : Nat) (x : Stored) (h : Memory.wf s.mem = true) : Memory.wf (s.putStored k x).mem = true :=
  twf_tset _ _ _ _ h

theorem wf_storeBits {s : State} (k : Nat) (x : Stored) (h : Memory.wf s.mem = true) : Memory.wf (s.storeBits k x).mem = true := by
  unfold State.storeBits
  split
  · exact wf_putStored k _ h
  · exact wf_putStored k x h

theorem wf_store {s : State} (k : Nat) (d : Word) (h : Memory.wf s.mem = true) : Memory.wf (s.store k d).mem = true :=
  wf_storeBits k _ h

theorem wf_storeList (ws : List Word) (k : Nat) (s : State) (h : Memory.wf s.mem = true) : Memory.wf (storeList k ws s).mem = true := by
  induction ws generalizing k s with
  | nil => exact h
  | cons w ws ih => exact ih _ _ (wf_store k w h)

theorem wf_zeroMem {s : State} (k n : Nat) (h : Memory.wf s.mem = true) : Memory.wf (s.zeroMem k n).mem = true :=
  twf_filter _ _ _ h

/-- The SRAM at reset has the canonical form. -/
theorem wf_reset : Memory.wf State.reset.mem = true := rfl

/-- The registers keep their canonical form. -/
theorem regs_wf_setReg {s : State} (o : Nat) (v : Word) (h : twf regReset s.regs = true) : twf regReset (s.setReg o v).regs = true :=
  twf_tset _ _ _ _ h

end Sys2Proof.Machine
end

