-- ==== Sys2Proof/WellFormed.lean ====
section
/-! DEFINITION. WellFormed.lean: which commands are spelled as the spec spells them: a command entry holds what its slot can (R435), and an
event carries as many readings as its rule names. -/

namespace Sys2Proof

/-- A command entry fits its 256-byte slot: at most sixteen parameter words, an epoch only where AT_EPOCH is set (R435). -/
def Packet.wf (p : Packet) : Bool := decide (p.params.length ≤ 16) && (p.atEpoch || p.epoch == 0)

/-- The well-formedness of a command. -/
def Instr.wf : Instr → Bool
  | .registerWrite _ _ _ _ => true
  | .registerReadClear _ _ _ => true
  | .highDwordWrite _ _ _ => true
  | .partialAccess _ _ _ be _ => decide (be ≠ 15#4)
  | .undefinedOffsetAccess _ _ _ _ _ => true
  | .glbDtSecRead _ _ => true
  | .glbLastevt0Read _ _ => true
  | .msixVectorUnmask _ => true
  | .bar2Read _ _ => true
  | .bar2Write _ _ _ => true
  | .spiRegisterRead _ n => decide (0 < n)
  | .spiRegisterWrite _ _ => true
  | .spiWordRead _ ready => decide (0 < ready.length)
  | .spiWordWrite _ _ => true
  | .spiStatusRead => true
  | .spiFrameRefused _ _ => true
  | .powerOnResetRelease _ _ _ _ => true
  | .supplyReset _ => true
  | .resetNAssert => true
  | .warmReset _ _ => true
  | .watchdogExpiry => true
  | .bootConfirm => true
  | .functionLevelReset => true
  | .perstN _ => true
  | .linkDown => true
  | .linkUp _ _ => true
  | .dmaReadFailure _ _ _ _ => true
  | .dmaCompletionTimeout _ _ _ => true
  | .supplyWarning _ _ => true
  | .supplyRecovery _ _ => true
  | .tamperFilterPass _ => true
  | .sensorSample temps mv => decide (temps.length = 12 ∧ mv.length = 14)
  | .ageingMeasure vals => decide (vals.length = 16)
  | .tpcDelayRefresh => true
  | .provenanceWrite => true
  | .nvsWriteComplete => true
  | .nvsSectorRefresh _ => true
  | .historyEntry => true
  | .consoleLine => true
  | .sampleClockAbsent => true
  | .sampleClockReturned _ => true
  | .referenceLost _ _ => true
  | .qualWindowEnd _ => true
  | .synthLocked _ _ => true
  | .synthLockLost _ => true
  | .lockTimeout => true
  | .discDeclared => true
  | .synSmpCtrlEnable _ => true
  | .synSmpCtrlReengage _ => true
  | .rampFracWrite _ _ _ => true
  | .rampStart _ => true
  | .rampSegmentEnd _ => true
  | .rampStop _ _ => true
  | .feCtrlEnable _ _ => true
  | .feCtrlDisable _ _ => true
  | .feCtrlRecal _ _ => true
  | .feLockTimeout _ => true
  | .calStepEnd _ _ => true
  | .calStepRestart _ => true
  | .agcBlockEnd _ => true
  | .agcCodeApply _ => true
  | .levelScaleApply _ _ => true
  | .notchEngage _ _ => true
  | .notchRelease _ _ => true
  | .mismatchCheckStart _ => true
  | .mismatchCheckEnd _ _ _ _ _ => true
  | .biasSample _ _ => true
  | .biasRetry _ => true
  | .biasCfgWrite _ _ _ => true
  | .coexReqEdge _ _ => true
  | .coexGntEdge _ _ => true
  | .coexWinFracWrite _ _ _ _ => true
  | .coexWindowStart _ => true
  | .coexWindowEnd _ => true
  | .tapCfgWrite _ _ _ _ _ => true
  | .tapStart _ _ => true
  | .streamBlockEnd _ _ => true
  | .chzCtrlReplayStart _ _ => true
  | .chzCtrlReplayStop _ _ => true
  | .replayBlock _ h _ => decide (h.length = 32)
  | .captureComplete _ _ => true
  | .jobStart _ _ => true
  | .jobComplete _ _ => true
  | .acqHalfFault _ _ => true
  | .resultRecordWrite => true
  | .jobNominalEnd => true
  | .acqCfgWrite _ _ => true
  | .acqCtrlPlanNow _ => true
  | .planRebuildStart => true
  | .planRebuildComplete => true
  | .planActivate => true
  | .schedulerTick => true
  | .fallbackDwellEnd _ => true
  | .wgCtrlEnable _ _ => true
  | .wgCtrlDisable _ _ => true
  | .wingCoreReady _ => true
  | .channelAssignmentEntry => true
  | .integrationStart _ => true
  | .tokenLatch _ => true
  | .integrationEnd _ => true
  | .residueCheckpoint _ _ _ => true
  | .channelOverrun _ => true
  | .channelMove _ => true
  | .loopProcessIntegration _ _ => true
  | .wingCoreFault _ _ _ _ _ => true
  | .epochRecords => true
  | .solutionEpoch => true
  | .solutionCoreFault _ _ => true
  | .ossGridPoint => true
  | .tpModelUpdate => true
  | .tpFirstAlignment _ => true
  | .tpEdgeCommit _ => true
  | .tpLeadingEdge _ => true
  | .tpTrailingEdge _ => true
  | .slewComplete _ => true
  | .tpCtrlJump _ _ => true
  | .captureEdge _ _ _ => true
  | .captureRecordWrite _ => true
  | .injectionStart _ => true
  | .injectWaitTimeout _ => true
  | .calSecondEnd => true
  | .liveDelayApply => true
  | .calCtrlInjStop _ _ => true
  | .calCtrlSweepAbort _ _ => true
  | .sweepDue _ => true
  | .sweepEnd _ => true
  | .sweepTableApply _ => true
  | .bankOwnerWrite _ _ _ => true
  | .handoverDrainComplete _ => true
  | .handoverActivate _ => true
  | .bankPowerWrite _ _ _ => true
  | .bankWakeComplete _ => true
  | .bankRefillComplete _ => true
  | .bankIdleTimeout _ => true
  | .vaultWipeComplete _ => true
  | .priorityScrub _ _ => true
  | .scrubWord => true
  | .bucketLeak => true
  | .regionBorrow => true
  | .marchTestComplete _ _ _ => true
  | .memCtrlScrubNow _ => true
  | .memCtrlTestRestart _ => true
  | .feHistCtrlClear _ _ => true
  | .acqHistCtrlClear _ => true
  | .ringCtrlEnable _ _ => true
  | .ringCtrlDisable _ _ => true
  | .ringBaseLoWrite _ _ _ => true
  | .ringProdWrite _ _ _ => true
  | .ringConsWrite _ _ _ => true
  | .ringModTimeout _ => true
  | .commandUnknownOpcode _ p => p.wf
  | .pendingCommandDue => true
  | .parkedCommandRetry => true
  | .parkedCommandTimeout => true
  | .productLanding _ => true
  | .interrupt _ => true
  | .waitResume _ => true
  | .add _ _ => true
  | .sub _ _ => true
  | .and _ _ => true
  | .or _ _ => true
  | .xor _ _ => true
  | .andn _ _ => true
  | .sll _ _ => true
  | .srl _ _ => true
  | .sra _ _ => true
  | .seq _ _ => true
  | .sne _ _ => true
  | .slt _ _ => true
  | .sltu _ _ => true
  | .sge _ _ => true
  | .sgeu _ _ => true
  | .addi _ _ => true
  | .andi _ _ => true
  | .ori _ _ => true
  | .xori _ _ => true
  | .lui _ _ => true
  | .slli _ _ => true
  | .srli _ _ => true
  | .srai _ _ => true
  | .seqi _ _ => true
  | .snei _ _ => true
  | .slti _ _ => true
  | .sltui _ _ => true
  | .sgei _ _ => true
  | .sgeui _ _ => true
  | .ext _ _ => true
  | .exts _ _ => true
  | .ins _ _ => true
  | .ld _ _ => true
  | .st _ _ => true
  | .ldd _ _ => true
  | .std _ _ => true
  | .mul _ _ => true
  | .mulu _ _ => true
  | .mac _ _ => true
  | .dstep _ _ => true
  | .mfp _ _ => true
  | .mtp _ _ => true
  | .rep _ _ => true
  | .bz _ _ => true
  | .bnz _ _ => true
  | .jmp _ _ => true
  | .jr _ _ => true
  | .call _ _ => true
  | .callr _ _ => true
  | .ret _ _ => true
  | .rett _ _ => true
  | .sys _ _ => true
  | .brk _ _ => true
  | .wait _ _ => true
  | .mfc _ _ => true
  | .mtc _ _ => true
  | .devNop p => p.wf
  | .devCancel p => p.wf
  | .devFaultPolicy p => p.wf
  | .devReset p => p.wf
  | .devCmdCfg p => p.wf
  | .feState p => p.wf
  | .feConfig p => p.wf
  | .feCalibrate p => p.wf
  | .feBias p => p.wf
  | .feCoex p => p.wf
  | .synSmp p => p.wf
  | .synRefConfig p => p.wf
  | .synLoConfig p => p.wf
  | .synRampSeg p => p.wf
  | .synRampArm p => p.wf
  | .tapConfig p => p.wf
  | .chzConfig p => p.wf
  | .notchConfig p => p.wf
  | .streamConfig p => p.wf
  | .replayCtrl p => p.wf
  | .codeRamLoad p => p.wf
  | .codeRamRead p => p.wf
  | .acqJob p => p.wf
  | .acqSnap p => p.wf
  | .acqSnapRelease p => p.wf
  | .acqCancel p => p.wf
  | .acqSchedList p => p.wf
  | .acqBankReturn p => p.wf
  | .chAssign p => p.wf
  | .chRelease p => p.wf
  | .chConfig p => p.wf
  | .chMove p => p.wf
  | .wgCtrl p => p.wf
  | .loopParamSet p => p.wf
  | .loopSelect p => p.wf
  | .loopParamGet p => p.wf
  | .loopDefault p => p.wf
  | .loopStatus p => p.wf
  | .loopHook p => p.wf
  | .obsConfig p => p.wf
  | .solConfig p => p.wf
  | .solModeSet p => p.wf
  | .solPosition p => p.wf
  | .solOscModel p => p.wf
  | .solSteer p => p.wf
  | .catLoad p => p.wf
  | .catTime p => p.wf
  | .catRead p => p.wf
  | .catClear p => p.wf
  | .tpConfig p => p.wf
  | .tpJump p => p.wf
  | .capConfig p => p.wf
  | .calInject p => p.wf
  | .calSweep p => p.wf
  | .calConfig p => p.wf
  | .bankHandover p => p.wf
  | .bankConfig p => p.wf
  | .bankPower p => p.wf
  | .memRepairRead p => p.wf
  | .logDrain p => p.wf
  | .provRead p => p.wf
  | .retiredRead p => p.wf
  | .retiredRemove p => p.wf
  | .settingsWrite p => p.wf
  | .settingsRead p => p.wf
  | .sensorRead p => p.wf
  | .lifecycle p => p.wf
  | .fwWrite p => p.wf
  | .fwVerify p => p.wf
  | .fwActivate p => p.wf
  | .fwInfo p => p.wf
  | .fwCosignKey p => p.wf
  | .userLoad p => p.wf
  | .userClear p => p.wf
  | .userInfo p => p.wf
  | .sampleCycle _ _ _ _ cmps _ => decide (cmps.length ≤ 9)
  | .resetNRelease _ _ => true
  | .referenceReturn _ => true
  | .illegalInstruction _ => true
  | .instructionFetchFault _ => true
  | .tckEdge _ _ _ _ _ => true
  | .trstNAssert => true

end Sys2Proof
end

