-- ==== Sys2Proof/Tests/Slice0.lean ====
section
/-! SUPPORT. Slice0.lean: the model's own tests: ill-formed commands refused, words of the Apone instructions written out from
R351 and R352, single steps on small states, and for every statement a state and operands that meet its hypotheses. -/

namespace Sys2Proof.Tests

set_option Elab.async false

open Sys2Proof Sys2Proof.Machine

/-! ## Small states -/

/-- Out of reset, boot complete, the PCI Express link up. -/
def up : State :=
  (({ State.reset with pwr := { State.reset.pwr with inReset := false } }).setReg R.HIF_BOOT 1).setReg R.HIF_LINK_STAT 1

/-- The same with SPI strapped. -/
def spi : State := (up.setReg R.HIF_LINK_STAT 0).setReg R.HIF_MODE 1

/-- The sample synthesiser in state `v` with the reference present. -/
def clocked (v : Word) (s : State) : State := (s.setReg R.SYN_SMP_STATE v).setReg R.SYN_REF_STAT 1

/-- Ring 0 ON with one entry waiting. -/
def cmdUp : State := (clocked 2 up |>.setReg (R.RING_STATE 0) 1).setReg (R.RING_PROD 0) 1

/-- A command entry of inline words with nothing set. -/
def pk (ws : List Word) (b : List Word := []) : Packet := ⟨5, BitVec.ofNat 8 ws.length, false, false, false, false, 0, ws, .ok b⟩

/-- The command of an entry as read, and the state then. -/
def entered (c : CmdSpec) (p : Packet) (s : State) : HeldCmd × State :=
  let b := phaseB c p (entryTaken c.op p s)
  (⟨c.op, b.2.2.1, (entryRead c.op p s).rf (R.RING_CONS 0) 16 0, false, false, (entryRead c.op p s).dt, c.units p, c.bnd b.2.2.1 false b.2.2.2⟩, b.2.2.2)

/-- The command entry passes phases A and B of R447 in `s`. -/
def admits (c : CmdSpec) (p : Packet) (s : State) : Bool :=
  let b := phaseB c p (entryTaken c.op p s)
  s.booted && s.ringReady 0 && (!s.spiMode || (spiEntry c.op p s).1) && phaseA c p (entryTaken c.op p s) == 0 && b.1 == 0 && b.2.1 == [] && !b.2.2.1.atEpoch

/-- No check of phase C refuses a command. -/
def allows (c : CmdSpec) (q : HeldCmd × State) : Bool := firstStatus (chkCommon c q.1 q.2 ++ c.chk q.1 q.2) == 0

/-- The command takes effect in the step that consumes it. -/
def passes (c : CmdSpec) (p : Packet) (s : State) : Bool :=
  admits c p s && !cmdWaits c (entered c p s).1 (entered c p s).2 && allows c (entered c p s)

/-- The command waits. -/
def waits (c : CmdSpec) (p : Packet) (s : State) : Bool := admits c p s && cmdWaits c (entered c p s).1 (entered c p s).2

/-- The state `n` sample cycles after reset. -/
def after (n : Nat) (s : State) : State := { s with cycle := n, acc := n * 268435456 % 639375, dt := dtOfCycle n }

/-- The state at the boundary of the command, which waits alone. -/
def atBoundary (c : CmdSpec) (p : Packet) (s : State) : State :=
  let q := entered c p s
  { after (q.1.bnd.getD q.2.cycle) q.2 with cmdPend := [q.1] }

/-- The command that waits takes effect when its boundary comes. -/
def comes (c : CmdSpec) (p : Packet) (s : State) : Bool :=
  let t := atBoundary c p s
  t.booted && earliest t (pendReady t [] t.cmdPend) == some (entered c p s).1 && allows c ((entered c p s).1, { t with cmdPend := t.cmdPend.erase (entered c p s).1 })

theorem admits_meets (c : CmdSpec) (p : Packet) (s : State) (hp : admits c p s = true) : Admitted c p s (entered c p s).1 (entered c p s).2 := by
  simp only [admits, Bool.and_eq_true, beq_iff_eq, Bool.or_eq_true, Bool.not_eq_true'] at hp
  obtain ⟨⟨⟨⟨⟨⟨h1, h2⟩, h3⟩, h4⟩, h5⟩, h6⟩, h7⟩ := hp
  refine ⟨h1, h2, ?_, h4, Prod.ext h5 (Prod.ext h6 rfl), rfl, h7⟩
  intro hs
  rcases h3 with h3 | h3
  · rw [hs] at h3
    cases h3
  · exact h3

theorem passes_meets (c : CmdSpec) (p : Packet) (s : State) (hp : passes c p s = true) : ∃ h u, Passes c p s h u := by
  simp only [passes, allows, Bool.and_eq_true, beq_iff_eq, Bool.not_eq_true'] at hp
  exact ⟨_, _, ⟨admits_meets c p s hp.1.1, hp.1.2, hp.2⟩⟩

theorem waits_meets (c : CmdSpec) (p : Packet) (s : State) (hp : waits c p s = true) : ∃ h u, Admitted c p s h u ∧ cmdWaits c h u = true := by
  simp only [waits, Bool.and_eq_true] at hp
  exact ⟨_, _, admits_meets c p s hp.1, hp.2⟩

theorem comes_meets (c : CmdSpec) (p : Packet) (s : State) (hc : cmdSpecOf c.op = some c) (hp : comes c p s = true) : ∃ t h u, Due c t h u := by
  simp only [comes, allows, Bool.and_eq_true, beq_iff_eq] at hp
  exact ⟨_, _, _, ⟨hp.1.1, hp.1.2, hc, rfl, hp.2⟩⟩

/-- The state with the sample synthesiser OFF, and the state with a waiting command that names the same units. -/
def quiet (s : State) : State := s.setReg R.SYN_SMP_STATE 0
def behind (c : CmdSpec) (p : Packet) (s : State) : State := { s with cmdPend := [⟨0x000, pk [], 0, false, false, 0, c.units p, none⟩] }

/-- Every case of a command of a row (`Takes`): it takes effect in the step that consumes it, it waits, and it takes effect when its boundary comes. -/
def meets (c : CmdSpec) (p : Packet) (s : State) : Bool :=
  comes c p s && (passes c p s || passes c p (quiet s)) && (waits c p s || (c.units p).isEmpty || waits c p (behind c p s))

/-- A command whose boundary is never in the step that consumes it: it waits, and takes effect when its boundary comes. -/
def meetsLater (c : CmdSpec) (p : Packet) (s : State) : Bool := comes c p s && waits c p s

theorem test_small_states : up.booted = true ∧ up.srcLive .pcie = true ∧ spi.srcLive .spi = true ∧ cmdUp.ringReady 0 = true ∧ cmdUp.fsOn = true := by
  decide +kernel

/-! ## Ill-formed commands are refused by the checks of WellFormed -/

theorem test_wf_packet_params : (Instr.devNop (pk (List.replicate 16 0))).wf = true ∧ (Instr.devNop (pk (List.replicate 17 0))).wf = false := by decide

theorem test_wf_packet_epoch : (Instr.devNop { pk [] with epoch := 1 }).wf = false
    ∧ (Instr.devNop { pk [] with epoch := 1, atEpoch := true }).wf = true := by decide

theorem test_wf_unknown_opcode : (Instr.commandUnknownOpcode 0xFFF (pk (List.replicate 17 0))).wf = false := by decide

theorem test_wf_partial_access : (Instr.partialAccess false 0 false 15 true).wf = false ∧ (Instr.partialAccess false 0 false 14 true).wf = true := by decide

theorem test_wf_spi_reads : (Instr.spiRegisterRead 0 0).wf = false ∧ (Instr.spiRegisterRead 0 1).wf = true ∧ (Instr.spiWordRead 0 []).wf = false := by decide

theorem test_wf_sensor_sample : (Instr.sensorSample (List.replicate 11 25) (List.replicate 14 800)).wf = false
    ∧ (Instr.sensorSample (List.replicate 12 25) (List.replicate 13 800)).wf = false
    ∧ (Instr.sensorSample (List.replicate 12 25) (List.replicate 14 800)).wf = true := by decide

theorem test_wf_ageing : (Instr.ageingMeasure (List.replicate 15 0)).wf = false ∧ (Instr.ageingMeasure (List.replicate 16 0)).wf = true := by decide

theorem test_wf_replay_block : (Instr.replayBlock 0 (List.replicate 31 0) []).wf = false ∧ (Instr.replayBlock 0 (List.replicate 32 0) []).wf = true := by decide

theorem test_wf_sample_cycle : (Instr.sampleCycle (0, 0) (0, 0) (0, 0) (0, 0) (List.replicate 10 (8, 0)) []).wf = false
    ∧ (Instr.sampleCycle (0, 0) (0, 0) (0, 0) (0, 0) (List.replicate 9 (8, 0)) []).wf = true := by decide

/-! ## Words of the Apone instructions, written out field by field from R351 and R352 -/

theorem test_word_arithmetic : apDecode 0 (0b000000#6 ++ 0b00011#5 ++ 0b00001#5 ++ 0b00010#5 ++ 0b000000#6 ++ 0b000000000#9) = some (.add 0 ⟨3, 1, 2, 0⟩)
    ∧ apDecode 0 (0b000000#6 ++ 0b11111#5 ++ 0b00001#5 ++ 0b00010#5 ++ 0b001110#6 ++ 0b000000000#9) = some (.sgeu 0 ⟨31, 1, 2, 0⟩)
    ∧ apDecode 0 (0b000000#6 ++ 0b00000#5 ++ 0b00000#5 ++ 0b00000#5 ++ 0b001111#6 ++ 0b000000000#9) = none := by decide +kernel

theorem test_word_immediate : apDecode 16 (0b000001#6 ++ 0b00100#5 ++ 0b00000#5 ++ 0b11111111111111111111#20) = some (.addi 16 ⟨4, 0, 0xFFFFF⟩)
    ∧ apDecode 16 (0b001100#6 ++ 0b00100#5 ++ 0b00111#5 ++ 0b00000000000000000001#20) = some (.sgeui 16 ⟨4, 7, 1⟩) := by decide +kernel

theorem test_word_shift : apDecode 3 (0b000110#6 ++ 0b00100#5 ++ 0b00101#5 ++ 0b10#2 ++ 0b100011#6 ++ 0b000000000000#12) = some (.srai 3 ⟨4, 5, 35, 0⟩)
    ∧ apDecode 3 (0b000110#6 ++ 0b00100#5 ++ 0b00101#5 ++ 0b11#2 ++ 0b000001#6 ++ 0b000000000000#12) = none := by decide +kernel

theorem test_word_field : apDecode 3 (0b001111#6 ++ 0b00100#5 ++ 0b00101#5 ++ 0b010000#6 ++ 0b000100#6 ++ 0b00000000#8) = some (.ins 3 ⟨4, 5, 16, 4, 0⟩) := by decide +kernel

theorem test_word_memory : apDecode 3 (0b010000#6 ++ 0b00100#5 ++ 0b00101#5 ++ 0b00000000000000000111#20) = some (.ld 3 ⟨4, 5, 7⟩)
    ∧ apDecode 3 (0b010011#6 ++ 0b00100#5 ++ 0b00101#5 ++ 0b00000000000000000111#20) = some (.std 3 ⟨4, 5, 7⟩) := by decide +kernel

theorem test_word_product : apDecode 3 (0b010110#6 ++ 0b00000#5 ++ 0b00101#5 ++ 0b00110#5 ++ 0b000000#6 ++ 0b000000000#9) = some (.mac 3 ⟨0, 5, 6, 0, 0⟩)
    ∧ apDecode 3 (0b011001#6 ++ 0b00000#5 ++ 0b00101#5 ++ 0b11#2 ++ 0b000000000000000000#18) = some (.mtp 3 ⟨0, 5, 3, 0⟩) := by decide +kernel

theorem test_word_control : apDecode 3 (0b100001#6 ++ 0b00111#5 ++ 0b0#1 ++ 0b111111111111111111111110#24) = some (.bnz 3 ⟨7, 0, 0xFFFFFE⟩)
    ∧ apDecode 3 (0b100100#6 ++ 0b000000#6 ++ 0b000000000000000100000000#24) = some (.call 3 ⟨0, 0x100⟩)
    ∧ apDecode 3 (0b011010#6 ++ 0b000000000000000000000000000000#30) = some (.rep 3 0) := by decide +kernel

theorem test_word_system : apDecode 3 (0b101000#6 ++ 0b0000000000#10 ++ 0b00000000000000101010#20) = some (.sys 3 ⟨0, 42⟩)
    ∧ apDecode 3 (0b110001#6 ++ 0b00000#5 ++ 0b00101#5 ++ 0b000111#6 ++ 0b00000000000000#14) = some (.mtc 3 ⟨0, 5, 7, 0⟩) := by decide +kernel
/-! ## Witnesses: for each statement, states and operands that meet its hypotheses, clause by clause -/

/-- The register at an offset exists and passes a test. -/
def has (o : Nat) (f : RegLoc → Bool) : Bool := match regAt o with
  | some l => f l
  | none => false

theorem has_spec (o : Nat) (f : RegLoc → Bool) (h : has o f = true) : ∃ l, regAt o = some l ∧ f l = true := by
  unfold has at h
  split at h
  · exact ⟨_, ‹_›, h⟩
  · cases h

theorem witness_StepRunsFrontCommand : ({ up with pending := [Instr.scrubWord] }).pending = Instr.scrubWord :: [] ∧ up.pending = [] := by
  decide +kernel

theorem witness_EveryStepKeepsInvariant : (match step { up with pending := [Instr.registerWrite .pcie (BitVec.ofNat 14 (R.GLB_SCRATCH 0 / 8)) .qword 7] } with
    | .next t => t.reg (R.GLB_SCRATCH 0) == 7
    | _ => false) = true := by
  decide +kernel

/-- The invariant holds in a state that is not the reset state. -/
theorem witness_invariant : State.Inv ({ up with pending := [Instr.scrubWord] }) := by
  unfold State.Inv
  decide +kernel

theorem witness_RegisterWrites : up.srcLive .pcie = true
    ∧ has (R.GLB_SCRATCH 0) (fun l => [Blk.glb, Blk.cur, Blk.tpc, Blk.cap, Blk.cal, Blk.sol].contains l.blk && !writeBad (R.GLB_SCRATCH 0) l 0xFFFFFFFFF#36 up
        && l.row.rw ||| l.row.w1c ||| l.row.wo != 0) = true
    ∧ slotOff (BitVec.ofNat 14 (R.GLB_SCRATCH 0 / 8)) = R.GLB_SCRATCH 0 := by
  decide +kernel

/-- A reserved value, and a write before boot is complete. -/
theorem witness_RegisterWrites_discarded : has R.SYN_REF_FREQ (fun l => writeBad R.SYN_REF_FREQ l 9999999 up && !writeBad R.SYN_REF_FREQ l 10000000 up) = true
    ∧ (up.setReg R.HIF_BOOT 0).srcLive .pcie = true ∧ (up.setReg R.HIF_BOOT 0).booted = false ∧ blkIndex R.SYN_REF_FREQ ∉ [0, 1, 8]
    ∧ (regAt R.SYN_REF_FREQ).isSome = true := by
  decide +kernel

theorem witness_ReadsHaveTheirSideEffects : has R.HIF_CMD_CNT (fun l => l.row.rc) = true ∧ up.srcLive .pcie = true ∧ (clocked 2 up).srcLive .pcie = true
    ∧ (clocked 2 up).smpState ≠ 0 := by
  decide +kernel

theorem witness_DwordPair : up.srcLive .pcie = true ∧ msixOff (slotOff 0#14) = false ∧ msixOff (slotOff (BitVec.ofNat 14 16383)) = false := by
  decide +kernel

theorem witness_PartialAndUndefined : up.srcLive .pcie = true ∧ (0#4 ≠ 15#4) ∧ (14#4 ≠ 15#4) ∧ regAt (slotOff (BitVec.ofNat 14 16383)) = none
    ∧ msixOff (slotOff (BitVec.ofNat 14 16383)) = false ∧ bit (up.reg R.GLB_UNDEF_ADDR) 35 = false := by
  decide +kernel

/-- Bank 0 on loan to HOST. -/
def lent : State := up.setReg (R.BANK_OWNER 0) 1

theorem witness_HostAccesses : lent.srcLive .pcie = true ∧ lent.rf (R.BANK_OWNER (262143 / 262144)) 5 0 = 1 ∧ lent.bankStage 0 = 0 ∧ lent.bankPower 0 = 0
    ∧ (lent.bh 0).wiping = none ∧ lent.cons.borrowed = none ∧ lent.isRetired (uRegion 262143) = false ∧ bit (lent.reg R.MEM_FLIP_ARM) 0 = false
    ∧ eccDec (lent.stored 262143) = .clean 0 ∧ lent.rf (R.BANK_OWNER (262144 / 262144)) 5 0 ≠ 1 := by
  decide +kernel

theorem witness_SpiFrames : spi.srcLive .spi = true ∧ msixOff 0 = false ∧ msixOff 8 = false ∧ 0x1FFF0 + 8 < 0x20000 ∧ msixOff 0x1FFF0 = false
    ∧ (spi.setReg (R.BANK_OWNER 15) 1).srcLive .spi = true ∧ (spi.setReg (R.BANK_OWNER 15) 1).rf (R.BANK_OWNER (4194303 / 262144)) 5 0 = 1
    ∧ eccDec ((spi.setReg (R.BANK_OWNER 15) 1).stored 4194303) = .clean 0 ∧ (0xFF#8 ∉ [0x0B#8, 0x02#8, 0x1B#8, 0x12#8, 0x05#8]) := by
  decide +kernel

theorem witness_LinkEvents : up.spiMode = false ∧ up.pwr.inReset = false ∧ up.linkUp = true
    ∧ tget (fun _ => false) ({ up with hif := { up.hif with msixPend := [(33, true)] } }).hif.msixPend 33 = true
    ∧ (up.setReg R.HIF_LINK_STAT 0).linkUp = false := by
  decide +kernel

/-- Held in the warm reset of a cause. -/
def warm (c : Nat) : State := { up with pwr := { up.pwr with warmHeld := true }, cur := { up.cur with resetReq := some c } }

theorem witness_ResetRelease : State.reset.settings = [] ∧ State.reset.pwr.inReset = true
    ∧ State.reset.pwr.warmHeld = false ∧ (warm 3).cur.resetReq = some 3 ∧ (warm 3).pwr.warmHeld = true ∧ (warm 3).pwr.inReset = false ∧ (warm 3).settings = []
    ∧ (warm 2).cur.resetReq = some 2 ∧ (warm 2).settings = [] := by
  decide +kernel

theorem witness_BootConfirm : let s := { up with dt := 687194767360, cur := { up.cur with bootDone := some 0 } }
    s.booted = true ∧ s.cur.confirmed = false ∧ tenSecSince 0 s.dt = true ∧ tenSecSince 0 687194767359 = false ∧ s.cur.runningRom = false ∧ s.cur.running < 2
      ∧ (s.slot s.cur.running).arb ≤ s.fuses.arb := by
  decide +kernel

theorem witness_WarmReset : up.pwr.inReset = false ∧ up.pwr.warmHeld = false ∧ up.booted = true ∧ (8 : Fin 9) ≠ 4 := by
  decide +kernel

theorem witness_CuratorMeasures : up.booted = true ∧ bit (up.reg (R.CUR_S_VAL 31)) 35 = false ∧ up.facValid = true
    ∧ State.facValid ({ up with nvs := { up.nvs with recs := [] } }) = false := by
  decide +kernel
theorem witness_StoreRows : let s := { up with
      cur := { up.cur with provQ := [⟨[], false⟩], tjCnt := 1 }
      nvs := { up.nvs with writes := [⟨1, [], true⟩] } }
    s.booted = true ∧ (s.cur.provQ.map (fun e => e.lost)) = [false] ∧ (s.nvs.writes.map (fun w => w.begun)) = [true]
      ∧ (up.setReg R.CUR_POWERED 61440).storeBusy = false ∧ (up.setReg R.CUR_POWERED 61440).refreshed < ((up.setReg R.CUR_POWERED 61440).reg R.CUR_POWERED).toNat / 61440
      ∧ (up.setReg R.CUR_POWERED 61440).rf R.CUR_REFRESH 9 0 < 1023
      ∧ histLast 1 (up.setReg R.CUR_POWERED 31536000) / 31536000 < ((up.setReg R.CUR_POWERED 31536000).reg R.CUR_POWERED).toNat / 31536000
      ∧ ¬ histLast 1 (up.setReg R.CUR_POWERED 31535999) / 31536000 < ((up.setReg R.CUR_POWERED 31535999).reg R.CUR_POWERED).toNat / 31536000 := by
  decide +kernel

theorem witness_CuratorPinsAndSupplies : up.pwr.inReset = false ∧ up.cur.tamperPassed = false
    ∧ ({ up with cur := { up.cur with consoleQ := [[1]] } }).cur.consoleQ = [1] :: []
    ∧ (tget (fun _ => SupplyIv.none) up.pwr.ivs (railOf 12)).isOpen = false ∧ (railLevels 0 false).1 = 680 ∧ (railLevels 0 false).2.1 = 620
    ∧ 679 < (railLevels (railOf 12) up.pwr.iob33).1 ∧ coreUnsafe 12 679 = false ∧ coreUnsafe 12 650 = false ∧ coreUnsafe 12 620 = false ∧ coreUnsafe 12 621 = true
    ∧ (tget (fun _ => SupplyIv.none) ({ up with pwr := { up.pwr with ivs := [(0, ⟨true, 0, 12, 679⟩)] } }).pwr.ivs (railOf 12)).isOpen = true := by
  decide +kernel

/-- Ring 4 configured for job results: 16 entries of 128 bytes from host address 0x1000. -/
def ring4 : State := (up.setReg (R.RING_CFG 4) (wd (7 * 131072 + 4 * 4096 + 1024))).setReg (R.RING_BASE_LO 4) 0x1000

theorem witness_RingsEnableAndDisable : ring4.srcLive .pcie = true ∧ ring4.ringState 4 = 0 ∧ ringValid 4 ring4 = true
    ∧ (ring4.setReg (R.RING_STATE 4) 1).ringState 4 = 1 ∧ up.spiMode = false ∧ up.ringState 2 = 0
    ∧ has (R.RING_BASE_LO 2) (fun l => !writeBad (R.RING_BASE_LO 2) l 0x1000 up
        && ringValid 2 (up.setReg (R.RING_BASE_LO 2) (wMerge l.row (up.reg (R.RING_BASE_LO 2)) 0x1000))) = true := by
  decide +kernel

/-- Ring 4 with as many entries as there is room for, and ring 0 with its last free place. -/
theorem witness_RingIndexWrites : hostToDev (up.ringClass 0) = true ∧ hostToDev (ring4.ringClass 4) = false
    ∧ (fld 16#36 16 0 + 2 * ring4.ringSize 4 - ring4.rf (R.RING_PROD 4) 16 0 % (2 * ring4.ringSize 4)) % (2 * ring4.ringSize 4) = ring4.ringSize 4 - ring4.ringOcc 4
    ∧ (fld 1#36 16 0 + 2 * ring4.ringSize 4 - ring4.rf (R.RING_CONS 4) 16 0 % (2 * ring4.ringSize 4)) % (2 * ring4.ringSize 4) = ring4.ringOcc 4 + 1
    ∧ (fld (wd (up.ringSize 0)) 16 0 + 2 * up.ringSize 0 - up.rf (R.RING_PROD 0) 16 0 % (2 * up.ringSize 0)) % (2 * up.ringSize 0) = up.ringSize 0 - up.ringOcc 0
    ∧ up.ringSize 0 - up.ringOcc 0 < (fld (wd (up.ringSize 0 + 1)) 16 0 + 2 * up.ringSize 0 - up.rf (R.RING_PROD 0) 16 0 % (2 * up.ringSize 0)) % (2 * up.ringSize 0)
    ∧ (ring4.setReg (R.RING_PROD 4) 16).ringOcc 4 = 16 := by
  decide +kernel

theorem witness_RingMessages : let s := (ring4.setReg (R.RING_STATE 4) 1).setRh 4 { RingH.idle with u := 1 }
    s.ringOn 4 = true ∧ s.ringClass 4 ≠ 14 ∧ 1 ≤ (s.rh 4).u ∧ cmdUp.ringOn 0 = true ∧ cmdUp.spiMode = false ∧ hostToDev (cmdUp.ringClass 0) = true
      ∧ 0 < cmdUp.ringOcc 0 := by
  decide +kernel

theorem witness_EventsNumbered : up.spiMode = false ∧ bit (up.reg R.MEM_FLIP_ARM) 15 = false ∧ evEnabled ⟨0x046, 4, uPcie, [], 0⟩ up = true
    ∧ evEnabled ⟨0x040, 0, uRing 4, [0, 1], 0⟩ (up.setReg R.HIF_EVT_MASK 0) = false := by
  decide +kernel

theorem witness_RecordsDelivered : up.ringClass 2 = 2 ∧ ring4.ringClass 4 = 7 ∧ ring4.ringOn 4 = false
    ∧ ring4.linkUp = true ∧ (ring4.setReg (R.RING_STATE 4) 1).ringOn 4 = true ∧ ring4.ringOcc 4 < ring4.ringSize 4 ∧ ring4.ringSize 4 ≤ 65536
    ∧ (ring4.setReg (R.RING_PROD 4) 16).ringSize 4 ≤ (ring4.setReg (R.RING_PROD 4) 16).ringOcc 4 := by
  decide +kernel

/-- A command held with a stamp that has come, and one parked that is no longer busy. -/
def heldCmd : HeldCmd := ⟨0x000, { pk [] with atEpoch := true }, 0, false, false, 0, [], none⟩

theorem witness_UnknownOpcode : cmdSpecOf 0xFFF = none ∧ cmdUp.booted = true ∧ cmdUp.ringReady 0 = true ∧ cmdUp.spiMode = false := by
  decide +kernel

/-- A stamped command that waits, one that is late without and with LATE_OK, and one that finds 64 waiting. -/
theorem witness_StampedCommand : let p := { pk [] with atEpoch := true, epoch := 1 }
    let q := { p with lateOk := true }
    let full := { cmdUp with cmdPend := List.replicate 64 heldCmd }
    let h : HeldCmd := ⟨0, p, 0, false, false, 0, [], none⟩
    phaseA devNopSpec p (entryTaken 0 p cmdUp) = 0 ∧ (phaseB devNopSpec p (entryTaken 0 p cmdUp)).1 = 0 ∧ devNopSpec.late p (entryTaken 0 p cmdUp) = false
      ∧ cmdWaits devNopSpec h (entryTaken 0 p cmdUp) = true ∧ (entryTaken 0 p cmdUp).cmdPend.countP HeldCmd.stamped < 64
      ∧ 64 ≤ (entryTaken 0 p full).cmdPend.countP HeldCmd.stamped ∧ cmdWaits devNopSpec h (entryTaken 0 p full) = true
      ∧ devNopSpec.late p (entryTaken 0 p { cmdUp with dt := 2 }) = true ∧ devNopSpec.late q (entryTaken 0 q { cmdUp with dt := 2 }) = true := by
  decide +kernel

theorem witness_HeldCommands : earliest { up with cmdPend := [heldCmd] } (pendReady { up with cmdPend := [heldCmd] } [] [heldCmd]) = some heldCmd ∧ (cmdSpecOf heldCmd.op).isSome = true
    ∧ parkReady { up with cmdPark := [heldCmd] } [] [heldCmd] = some heldCmd
    ∧ (let h : HeldCmd := ⟨0xA03, pk [wd (uFe 0)], 0, false, true, 0, [], none⟩
       let s := { up with cmdPark := [h], nvs := { up.nvs with recs := [(4, ⟨true, false, 0, 0, [wd (uFe 0), 0, 0]⟩)], writes := [⟨1, [], false⟩] } }
       s.cmdPark.find? (fun g => parkBusy s (parkNow s g) && parkExpired s g) = some h)
    ∧ firstStatus (chkCommon devNopSpec heldCmd up ++ devNopSpec.chk heldCmd up) = 0 := by
  decide +kernel

theorem witness_CheckOrder : (∀ c ∈ [(false, 10), (true, 4), (true, 5)], c.2 ∈ phaseC) ∧ firstStatus [(false, 10), (true, 4), (true, 5)] = 5 := by
  decide +kernel
theorem witness_SampleSynthesiser : (clocked 0 up).srcLive .pcie = true ∧ (clocked 0 up).booted = true ∧ (clocked 0 up).smpState = 0 ∧ smpPlanOk (clocked 0 up) = true
    ∧ (clocked 0 up).refPresent = true
    ∧ (¬ 6 * ((clocked 0 up).setReg R.SYN_REF_EST 10000).rf R.SYN_REF_FREQ 25 0
        < 100 * ((1000 * ((clocked 0 up).setReg R.SYN_REF_EST 10000).rf R.SYN_REF_EST 15 0 : Int) - ((clocked 0 up).setReg R.SYN_REF_EST 10000).rf R.SYN_REF_FREQ 25 0).natAbs)
    ∧ up.refPresent = false ∧ (clocked 5 up).smpState = 5 ∧ (clocked 2 up).smpState ∈ [1, 2, 3, 6] ∧ (clocked 1 up).smpState ≠ 2
    ∧ (clocked 2 up).refPresent = true ∧ (clocked 2 up).refGross 0 = true ∧ (clocked 4 up).smpState ≠ 2 ∧ up.refGross 10000 = false ∧ up.refGross 0 = true
    ∧ (let s := after 1636800 (clocked 4 up)
       s.smpState = 4 ∧ s.refPresent = true ∧ s.fsOn = true ∧ s.cycle % 1636800 = 0 ∧ s.smp.qualN + 1636800 ≤ s.cycle
         ∧ s.rf R.SYN_QUAL_CFG 27 12 * 1099511627776 < (10995117#36).toInt.natAbs * 100000000
         ∧ (10995116#36).toInt.natAbs * 100000000 ≤ s.rf R.SYN_QUAL_CFG 27 12 * 1099511627776 ∧ s.rf R.SYN_QUAL_ELAPSED 11 0 + 1 < s.rf R.SYN_QUAL_CFG 11 0) := by
  decide +kernel

/-- An episode in progress that began at reset. -/
def unlocked : State := { clocked 3 up with smp := { up.smp with epi := some ⟨0, 0, 0, false, false, false⟩ } }

theorem witness_SynthesiserLocks : (let x : PllSt := ⟨65535, 0, 255, 0⟩
      (clocked 1 up).lockN 8 ≤ (((clocked 1 up).setPll 8 x).pllOf 8).good ∧ (clocked 2 up).lossK 8 ≤ (((clocked 2 up).setPll 8 x).pllOf 8).bad
        ∧ ((clocked 1 up).pllOf 8).good < (clocked 1 up).lockN 8 ∧ ((clocked 2 up).pllOf 8).bad < (clocked 2 up).lossK 8
        ∧ (clocked 2 up).lockN 7 ≤ (((clocked 2 up).setPll 7 x).pllOf 7).good ∧ (clocked 2 up).lossK 0 ≤ (((clocked 2 up).setPll 0 x).pllOf 0).bad
        ∧ ((clocked 2 up).pllOf 7).good < (clocked 2 up).lockN 7 ∧ ((clocked 2 up).pllOf 0).bad < (clocked 2 up).lossK 0)
    ∧ (clocked 1 up).fsOn = true ∧ (clocked 1 up).smpState ∈ [1, 3, 6] ∧ ((clocked 2 up).setReg (R.LO_STATE 7) 1).loState 7 = 1
    ∧ ((clocked 2 up).setReg (R.LO_STATE 0) 2).loState 0 = 2 ∧ (clocked 2 up).smpState = 2 ∧ (clocked 2 up).refPresent = true
    ∧ (let s := after 1000000000 (clocked 1 up)
       s.smp.closedN + 16368000 + ceilDiv (s.rf R.SYN_SMP_LOCK 31 16 * s.rf R.SYN_SMP_DIV 11 0 * 163680000) (max 1 (s.rf R.SYN_REF_FREQ 25 0)) ≤ s.cycle)
    ∧ (after 16368000 unlocked).smp.epi = some ⟨0, 0, 0, false, false, false⟩ ∧ 0 + 16368000 ≤ (after 16368000 unlocked).cycle
    ∧ (clocked 1 up).smp.epi = none ∧ ({ up with smp := { up.smp with absent := true } }).smp.absent = true := by
  decide +kernel

theorem witness_EpisodeEnd : unlocked.smp.epi = some ⟨0, 0, 0, false, false, false⟩ ∧ unlocked.rf R.SYN_DISC_CNT 15 0 < 65535 := by
  decide +kernel

/-- FE0 in RUN with a profile of one segment ready on its LO. -/
def ramping : State := ((clocked 2 up).setReg (R.FE_STATE 0) 3).setReg (R.LO_CFG 0) 1 |>.setReg (R.LO_TARGET 0) 1300000000 |>.setReg (R.LO_SEG 0 0) 1

theorem witness_Ramps : ramping.srcLive .pcie = true ∧ ramping.booted = true ∧ rampOk 0 ramping = true ∧ ramping.feState 0 = feRun ∧ (ramping.rampOf 0).active = false
    ∧ dtGe ramping.dt 1 = false ∧ (rampArm 0 1 ramping).fsOn = true ∧ ((rampArm 0 1 ramping).rampOf 0).armed = some 1
    ∧ later 72 ramping.dt 1 = false ∧ dtGe (after 1 (rampArm 0 1 ramping)).dt 1 = true
    ∧ (let s := after 1636800 (ramping.setRamp 0 ⟨none, true, false, 0, none⟩)
       (s.rampOf 0).active = true ∧ (s.rampOf 0).segN + s.rf (R.LO_SEG 0 (s.rf (R.LO_RAMP_STAT 0) 7 4)) 7 0 * 1636800 ≤ s.cycle ∧ s.rf (R.LO_RAMP_CFG 0) 5 4 = 0
         ∧ s.rf (R.LO_RAMP_CFG 0) 3 0 ≤ s.rf (R.LO_RAMP_STAT 0) 7 4 ∧ s.rf (R.LO_RAMP_STAT 0) 7 4 < (s.setReg (R.LO_RAMP_CFG 0) 1).rf (R.LO_RAMP_CFG 0) 3 0
         ∧ (s.setReg (R.LO_RAMP_CFG 0) 16).rf (R.LO_RAMP_CFG 0) 5 4 ≠ 0
         ∧ ((s.setRamp 0 ⟨none, true, false, 0, some 1636800⟩).rampOf 0).stopN = some 1636800 ∧ 1636800 ≤ s.cycle) := by
  decide +kernel

/-- FE0 in a calibration run whose last step is `k`. -/
def calRun (k : Nat) (susp : Option Nat) : State :=
  after 1000000000 (((clocked 2 up).setReg (R.FE_STATE 0) 4).setFe 0 { RfSt.idle with run := some ⟨[k], 0, 0, false, 0, susp, 0, 0⟩ })

theorem witness_FrontEndStates : (clocked 2 up).feState 0 = feOff ∧ feEnableStatus 0 (clocked 2 up) = 0 ∧ ramping.feState 0 = feRun ∧ ramping.rf (R.FE_CAL_CFG 0) 6 0 ≠ 0
    ∧ (let s := after 818400 ((clocked 2 up).setReg (R.FE_STATE 0) 1)
       s.feState 0 = feStarting ∧ s.fsOn = true ∧ ¬ (s.loState 0 = 2 ∧ s.loState 4 = 2) ∧ max (s.fe 0).enN s.smp.lockedN + 818400 ≤ s.cycle)
    ∧ ((calRun 3 none).fe 0).run = some ⟨[3], 0, 0, false, 0, none, 0, 0⟩ ∧ (calRun 3 none).fsOn = true ∧ 0 + stepMs.getD 3 0 * 163680 ≤ (calRun 3 none).cycle
    ∧ stepPass 0 3 [256] (calRun 3 none) = true ∧ stepPass 0 3 [257] (calRun 3 none) = false ∧ (calRun 3 none).rfSupplyHold = false
    ∧ ((calRun 3 (some 5)).fe 0).run = some ⟨[3], 0, 0, false, 0, some 5, 0, 0⟩ ∧ (calRun 3 (some 5)).smpState = 2 ∧ (calRun 3 (some 5)).coexActive 0 = false := by
  decide +kernel

theorem witness_MismatchChecks : (let s := (after 163680000 ramping).setReg (R.FE_MATCH_CFG 0) 1
      s.rf (R.FE_MATCH_CFG 0) 11 0 ≠ 0 ∧ s.fsOn = true
        ∧ (s.cycle + s.rf (R.FE_MATCH_CFG 0) 11 0 * 163680000 - 0 * 40920000 % (s.rf (R.FE_MATCH_CFG 0) 11 0 * 163680000)) % (s.rf (R.FE_MATCH_CFG 0) 11 0 * 163680000) = 0
        ∧ s.feState 0 = feRun ∧ (s.calU 0).sweep = none ∧ s.coexActive 0 = false ∧ (s.fe 0).check = none)
    ∧ (let s := (after 16368 ramping).setFe 0 { RfSt.idle with check := some (0, false) }
       (s.fe 0).check = some (0, false) ∧ s.fsOn = true ∧ 0 + 16368 ≤ s.cycle ∧ s.feState 0 = feRun)
    ∧ (let s := ramping.setReg (R.FE_MATCH_CFG 0) 0
       s.rf (R.FE_MATCH_CFG 0) 27 20 ≤ min (min 161 160) (min (min 0 160) (min 160 160)) ∧ (s.fe 0).poor = false
         ∧ s.rf (R.FE_MATCH_CFG 0) 19 12 ≤ s.rf (R.FE_MATCH_CFG 0) 27 20) := by
  decide +kernel

theorem witness_AerialBias : up.srcLive .pcie = true ∧ has (R.FE_BIAS_CFG 3) (fun l => !writeBad (R.FE_BIAS_CFG 3) l 0x07D0C80F1 up && !writeBad (R.FE_BIAS_CFG 3) l 0x07D0C80F0 up) = true
    ∧ bit (up.reg (R.FE_BIAS_CFG 3)) 0 = false ∧ up.feState 3 ≠ feRetired ∧ (up.fe 3).bias.on = false
    ∧ (let s := after 163681 (up.setFe 3 { RfSt.idle with bias := { BiasSt.off with on := true, onCnt := 99, retryAt := some 0 } })
       let cur := min (10000000 * 100 / max 1 (s.rf (R.FE_BIAS_CFG 3) 33 21)) 65535
       (s.fe 3).bias.on = true ∧ 99 ≤ (s.fe 3).bias.onCnt ∧ 200 ≤ cur ∧ 100 * s.rf (R.FE_BIAS_CFG 3) 20 13 < cur ∧ (s.fe 3).bias.overCnt = 0
         ∧ (s.fe 3).bias.retryAt = some 0 ∧ dtGe s.dt 0 = true) := by
  decide +kernel

/-- Pair 0 in a mode, with a window of a state. -/
def pair (mode : Word) (x : CoexSt) : State := ((clocked 2 up).setReg (R.FE_COEX_CFG 0 0) mode).setCoex 0 x

theorem witness_Coexistence : (pair 1 CoexSt.idle).fsOn = true ∧ (pair 1 CoexSt.idle).coexMode 0 = 1 ∧ ((pair 1 { CoexSt.idle with req := true }).coexP 0).req = true
    ∧ ((pair 5 { CoexSt.idle with inWin := true }).coexMode 0 = 1 ∧ (pair 5 { CoexSt.idle with inWin := true }).coexDeny 0 = true
        ∧ ((pair 5 { CoexSt.idle with inWin := true }).coexP 0).inWin = true)
    ∧ (pair 2 { CoexSt.idle with winN := some 0 }).coexMode 0 = 2 ∧ ((pair 2 { CoexSt.idle with winN := some 0 }).coexP 0).gnt ≠ true
    ∧ (pair 0 { CoexSt.idle with winN := some 0 }).coexMode 0 ≠ 2 ∧ ((pair 0 { CoexSt.idle with winN := some 0 }).coexP 0).inWin = false
    ∧ ((pair 0 { CoexSt.idle with winN := some 0, inWin := true }).coexP 0).inWin = true
    ∧ 0 + ((pair 0 { CoexSt.idle with winN := some 0, inWin := true }).reg (R.FE_COEX_WIN_LEN 0 0)).toNat ≤ (pair 0 CoexSt.idle).cycle
    ∧ coexWinBad 5 6 = false ∧ coexWinBad 5 5 = true ∧ coexWinBad 5 0 = false := by
  decide +kernel
theorem witness_BlocksSetGain : let s := after 163711 ((clocked 2 up).setFe 0 { RfSt.idle with
      done := some (0, { BlkSums.zero with cnt := 16368 })
      codes := [(163680, 9)]
      taps := [(0, { TapSt.off with scales := [(163680, 9)] })]
      notch := [(0, { NotchSt.idle with engage := some (163680, 5, 6) }), (1, { NotchSt.idle with release := some 163680 })] })
    (s.fe 0).done.map (fun d => d.1) = some 0 ∧ s.feState 0 ≠ feReplay ∧ s.rf (R.FE_GAIN_CFG 0) 15 14 = 0 ∧ 32736 ≤ 2 * 16368 ∧ 2 * 16367 < 32736 ∧ s.fsOn = true
      ∧ (s.fe 0).codes = [(163680, 9)] ∧ (s.tap 0 0).scales = [(163680, 9)] ∧ (s.nf 0 0).engage = some (163680, 5, 6) ∧ 163680 ≤ s.cycle ∧ 163680 ≤ s.streamN 0
      ∧ (s.setReg (R.CHZ_NF_STAT 0 0) 256).nfState 0 0 = 1 ∧ (s.nf 0 1).release = some 163680 ∧ (s.setReg (R.CHZ_NF_STAT 0 1) 512).nfState 0 1 = 2 := by
  decide +kernel

/-- Taps 1 to 4 of channeliser 0 enabled at the full rate, which takes its whole budget. -/
def tapsFull : State := (((up.setReg (R.CHZ_TAP_CFG 0 1) 1).setReg (R.CHZ_TAP_CFG 0 2) 1).setReg (R.CHZ_TAP_CFG 0 3) 1).setReg (R.CHZ_TAP_CFG 0 4) 1

theorem witness_Taps : up.feState 0 ≠ feRetired ∧ up.tapEn 0 0 = false ∧ bit (1#36) 0 = true ∧ fld (1#36) 7 5 ≤ 4
    ∧ has (R.CHZ_TAP_CFG 0 0) (fun l => !writeBad (R.CHZ_TAP_CFG 0 0) l 1 up && !writeBad (R.CHZ_TAP_CFG 0 0) l 1 tapsFull && tapStatus 0 0 (wMerge l.row (up.reg (R.CHZ_TAP_CFG 0 0)) 1) 0 up == 0
        && tapStatus 0 0 (wMerge l.row (up.reg (R.CHZ_TAP_CFG 0 0)) 1) 0x7FFFFFFFF up == 3 && tapStatus 0 0 (wMerge l.row (tapsFull.reg (R.CHZ_TAP_CFG 0 0)) 1) 0 tapsFull == 6) = true
    ∧ (let s := ramping.setReg (R.CHZ_TAP_STAT 0 0) 262144
       s.tapState 0 0 = 1 ∧ feProduces (s.feState 0) = true ∧ s.fsOn = true ∧ s.cycle % tapDec (s.tapRate 0 0) = 0) := by
  decide +kernel

/-- FE0 in REPLAY with ring 5 as its replay ring, holding an entry. -/
def replaying : State :=
  ((((clocked 2 up).setReg (R.FE_STATE 0) 6).setReg (R.CHZ_REPLAY_CFG 0) 5).setReg (R.RING_CFG 5) (wd (13 * 131072 + 4 * 4096 + 3072))).setReg (R.RING_STATE 5) 1
    |>.setReg (R.RING_PROD 5) 1

/-- The same with replay begun. -/
def replayOn : State := replaying.setReg (R.CHZ_REPLAY_STAT 0) 3

/-- FE0 with 60 samples of alternating kinds waiting for ring 6 of class 0xC, a run for each sample, so that the 25th run ends the block. -/
def streaming : State :=
  ((up.setReg (R.CHZ_STREAM_CFG 0) 38).setReg (R.RING_CFG 6) (wd (12 * 131072 + 4 * 4096 + 3072))).setReg (R.RING_STATE 6) 1 |>.setFe 0
    { RfSt.idle with strm := { StreamSt.idle with q := ((List.range 60).map (fun i => ⟨i, [0, 0], i % 2, 0⟩)).reverse } }

/-- A block that is not complete, one that its runs cut short, and the ring that takes it. -/
theorem witness_stream_blocks : (blockSplit 1920 0 [] [] (up.fe 0).strm.q.reverse).2.2.2 = false
    ∧ (blockSplit 1920 0 [] [] (streaming.fe 0).strm.q.reverse).2.2.2 = true ∧ (blockSplit 1920 0 [] [] (streaming.fe 0).strm.q.reverse).1 ≠ []
    ∧ streaming.rf R.CUR_THERM_STAT 34 33 ≠ 3 ∧ streaming.spiMode = false ∧ streaming.linkUp = true ∧ streaming.ringClass 6 = 0xC ∧ streaming.ringOn 6 = true
    ∧ streaming.ringOcc 6 < streaming.ringSize 6 ∧ streaming.ringSize 6 ≤ 65536 ∧ streaming.rf (R.CHZ_STREAM_CFG 0) 4 0 = 6 := by
  decide +kernel

/-- The complete block goes out at slot 0 of ring 6. -/
theorem test_stream_block : (match exec (.streamBlockEnd 0 16) streaming with
    | .next t => t.rf (R.RING_PROD 6) 16 0 == 1 && t.out.length == 1 && t.reg (R.CHZ_STREAM_SEQ 0) == 1
    | _ => false) = true := by
  decide +kernel

theorem witness_StreamsAndReplay : (up.setReg R.CUR_THERM_STAT (wd (3 * 2 ^ 33))).rf R.CUR_THERM_STAT 34 33 = 3
    ∧ replaying.feState 0 = feReplay ∧ bit (replaying.reg (R.CHZ_REPLAY_STAT 0)) 0 = false
    ∧ bit (replayOn.reg (R.CHZ_REPLAY_STAT 0)) 0 = true ∧ replayOn.ringClass 5 = 0xD ∧ replayOn.ringReady 5 = true ∧ replayOn.rf (R.CHZ_REPLAY_CFG 0) 4 0 = 5
    ∧ bit (replayOn.reg (R.CHZ_REPLAY_CFG 0)) 8 = false := by
  decide +kernel

theorem witness_replay_first : ((ringConsume 5 replayOn).fe 0).rep.expect = [] := by
  decide +kernel

/-- A block of header words all zero is wrong; one of a single sample with its CRC-32 is good. -/
theorem witness_replay_cause : replayCause 0 (List.replicate 32 0) [] (ringConsume 5 replayOn) ≠ 0 := by
  decide +kernel

theorem witness_replay_good : replayCause 0 ([1, 0, 0, wd 4096, 0, wd (crc32 [0, 0])] ++ List.replicate 26 0) [0, 0] (ringConsume 5 replayOn) = 0 := by
  decide +kernel

theorem witness_SampleCycle : (let s := after 1 (clocked 2 up)
      s.fsOn = true ∧ (∀ n : Fin 4, feProduces (s.feState n) = false) ∧ (∀ u : Fin 8, (s.rampOf u).active = false) ∧ s.cycle % 163680000 ≠ 0 ∧ (s.cycle + 1) % 16368000 ≠ 0)
    ∧ (clocked 2 up).smpState = 2 ∧ up.fsOn = false := by
  decide +kernel

/-- A job of half 0, and snapshot 31 complete. -/
def someJob : Job := ⟨1, true, 5, 0, 1, 0, 0, 0, false, 31, 0, [], 0, 0, 1, 1, 3, 0, 0, 0, 5, 0, 0, 0, 163680, 1, 0, 0, false, false, false, 0, 0, 0, []⟩

def acq (j : Job) (half snap : Word) : State :=
  (((clocked 2 up).setReg (R.ACQ_H_STATE 0) half).setReg (R.ACQ_SNAP_DESC 31) snap).setReg (R.ACQ_H_CUR_JOB 0) 1 |> fun s => { s with acq := { s.acq with jobs := [j] } }

theorem witness_AcquisitionEngine : (acq someJob 1 (wd (2 ^ 34))).snapState 31 = 1 ∧ reached ((acq someJob 1 (wd (2 ^ 34))).snapFe 31) ((acq someJob 1 (wd (2 ^ 34))).snap 31).endN (acq someJob 1 (wd (2 ^ 34))) = true
    ∧ (acq someJob 1 0).halfState 0 = 1 ∧ (acq someJob 1 0).halfState 1 ≠ 4 ∧ ((acq someJob 4 0).setReg (R.ACQ_H_STATE 1) 4).acqGone = true ∧ (acq someJob 1 0).acq.jobs.find? (fun j => j.stage == 0 && jobReady j (acq someJob 1 0)) = some someJob
    ∧ (let s := acq { someJob with stage := 1 } 2 0
       s.halfState 0 = 2 ∧ s.acq.jobs.find? (fun j => j.seq == s.reg (R.ACQ_H_CUR_JOB 0) && j.stage == 1) = some { someJob with stage := 1 }
         ∧ (faultJudge (uHalf 0) 3 true s.dt s).1 = none)
    ∧ (let s := after 163680 (acq { someJob with stage := 2 } 2 0)
       s.acq.jobs.find? (fun j => decide (j.stage < 3)) = some { someJob with stage := 2 } ∧ s.fsOn = true ∧ someJob.nomEnd ≤ s.cycle ∧ someJob.host = true)
    ∧ (let s := acq someJob 1 (wd (2 ^ 33 + 2 ^ 35))
       s.snapState 31 ≠ 0 ∧ bit (s.reg (R.ACQ_SNAP_DESC 31)) 33 = true ∧ s.acq.jobs.any (fun j => j.snap == 31 && j.startN == (s.snap 31).startN) = true)
    ∧ (snapRead [] 0 0 up).1 = some [] := by
  decide +kernel

theorem witness_PlanAndScheduler : (clocked 2 up).srcLive .pcie = true ∧ (clocked 2 up).booted = true ∧ (regAt R.ACQ_CFG).isSome = true
    ∧ (let s := { clocked 2 up with acq := { up.acq with eks := [0], ticks := [0] }, obs := { up.obs with closed := some 0#72 } }
       s.fsOn = true ∧ s.acq.eks = [0] ∧ s.acq.ticks = [0] ∧ catAlive s = true ∧ epochsBy 0 s = true ∧ planDue 0 s = none ∧ allPassed 0 s = true ∧ s.rf R.ACQ_SCHED_CFG 21 20 = 0
         ∧ s.acq.rebuilds = [] ∧ s.acq.planNow = false ∧ (s.setReg R.ACQ_SCHED_CFG (wd (2 ^ 20))).rf R.ACQ_SCHED_CFG 21 20 ≠ 0)
    ∧ (∀ done : Bool, let r : Rebuild := ⟨0, 163680, done, [], false, false⟩
       let s := { after 163680 (clocked 2 up) with acq := { up.acq with rebuilds := [r] } }
       planDue s.smpNow s = some r ∧ s.fsOn = true ∧ s.acq.rebuilds = [] ++ r :: [] ∧ r.dead = false) := by
  decide +kernel

def search : FbSearch := ⟨someJob, 2047, 0, 2, 0, 1, [], 0, 0, 0, [], 0⟩

def searching (f : FbSearch) : State := { after 163680 (clocked 2 up) with acq := { up.acq with fb := [f] } }

theorem leastFrom_le (f : Nat → Bool) (n lo : Nat) : lo ≤ leastFrom f n lo ∧ leastFrom f n lo ≤ lo + 2 ^ n := by
  induction n generalizing lo with
  | zero => simp [leastFrom]
  | succ n ih =>
    have h := Nat.pow_succ (n := 2) (m := n)
    unfold leastFrom
    split
    · have := ih lo
      omega
    · have := ih (lo + 2 ^ n)
      omega

/-- A threshold of zero would have the condition at zero. -/
theorem leastFrom_eq (f : Nat → Bool) (n lo : Nat) (h : leastFrom f (n + 1) lo = lo) : f lo = true := by
  induction n with
  | zero =>
    unfold leastFrom at h
    split at h
    · simpa using ‹_›
    · simp [leastFrom] at h
  | succ n ih =>
    unfold leastFrom at h
    split at h
    · exact ih h
    · have := (leastFrom_le f (n + 1) (lo + 2 ^ (n + 1))).1
      have := Nat.two_pow_pos (n + 1)
      omega

theorem test_threshold_zero : threshOk search.job.nnc search.job.pfa (searchW search.job * searchF search.job) 0 = false := by
  decide +kernel

theorem test_threshold_bounds : 0 < searchThresh search.job ∧ searchThresh search.job ≤ 2 ^ 24 := by
  unfold searchThresh acqThresh
  have hz := test_threshold_zero
  generalize threshOk search.job.nnc search.job.pfa (searchW search.job * searchF search.job) = f at hz ⊢
  refine ⟨Nat.pos_of_ne_zero fun h => ?_, by simpa using (leastFrom_le f 24 0).2⟩
  rw [leastFrom_eq f 23 0 h] at hz
  cases hz

/-- A dwell with no power reaches no threshold, one of great power does. -/
theorem witness_fallback : (searching search).fbOf 2047 = some search ∧ search.job.nnc ≤ search.blk ∧ (∀ v ∈ search.values, v.2.2 = 0) ∧ search.dwell + 1 < search.dwells
    ∧ (searching { search with dwells := 1 }).fbOf 2047 = some { search with dwells := 1 } ∧ (∀ v ∈ ({ search with dwells := 1 } : FbSearch).values, v.2.2 = 0)
    ∧ (searching { search with pows := [2 ^ 40] }).fbOf 2047 = some { search with pows := [2 ^ 40] }
    ∧ ∃ v ∈ ({ search with pows := [2 ^ 40] } : FbSearch).values, 2 ^ 24 ≤ v.2.2 := by
  decide +kernel
/-- Channel 2047 assigned and entered at grid point 0 on tap 0 of FE0, whose samples up to 1,000,000 are there. -/
def chan0 : Chan := { Chan.free with cond := 2, units := 1, entered := true, freerun := true }

def onTap (x : Chan) : State :=
  after 1000000 ((((clocked 2 up).setReg (R.FE_STATE 0) 3).setReg (R.CHZ_TAP_STAT 0 0) 524288).setFe 0 { RfSt.idle with taps := [(0, { TapSt.off with newest := some 1000000 })] })
    |>.setChan 2047 x |>.setReg (R.WG_STATE 15) 2

def assign0 : Assign := ⟨163680, some 2047, 0, 1, 0, 0, 0, false, false, false, 0, 0, false, false, false, 0, false, 0, 0, 0, false, 0, 0⟩

theorem witness_Wings : up.wgState 15 = 0 ∧ (up.setReg (R.WG_STATE 15) 2).wgState 15 = 2 ∧ wgCount 15 (up.setReg (R.WG_STATE 15) 2) = 0
    ∧ (up.setReg (R.WG_STATE 15) 1).wgState 15 = 1 ∧ (faultJudge (uWgCore 15) 1 true 0 up).1 = none ∧ (faultJudge (uWgCore 15) 1 false 0 up).1 = some 0
    ∧ (faultJudge (uWgCore 15) 1 true 0 { up with policy := [(1, ⟨1, 10⟩)] }).1 = some 1 := by
  decide +kernel

theorem witness_Assignment : (let s := { onTap { Chan.free with cond := 1 } with assignQ := [assign0] }
      firstAssign (s.assignQ.filter (fun a => reached a.fe a.n s)) = some assign0 ∧ (s.chan 2047).cond ≠ 0 ∧ (s.chan 2047).entered = false)
    ∧ (let a := { assign0 with chan := none, sched := true, n := 981120 }
       let s := { onTap Chan.free with assignQ := [a] }
       firstAssign (s.assignQ.filter (fun a => reached a.fe a.n s)) = some a ∧ hostAhead a.n s [] s.cmdPend = false ∧ gridTooOld a.fe a.tap a.n s = false
         ∧ (placeAuto (tapUnits (s.tapRate a.fe a.tap)) false s).isSome = true)
    ∧ (let m : MoveSt := ⟨0, 0x503, pk [wd (2047 + 2046 * 2048)], 0, false, 0⟩
       let s := onTap { chan0 with mv := some m }
       (s.chan 2047).mv = some m ∧ (s.chan 2047).running = false ∧ (s.chan 2047).j = m.j ∧ (moveTarget m.pk s).isSome = true)
    ∧ ((onTap chan0).chan 2047).cond ≠ 0 ∧ ((onTap chan0).chan 2047).entered = true ∧ 327360 < chLag ((onTap chan0).chan 2047) (onTap chan0) := by
  decide +kernel

theorem witness_IntegrationStart : startable 2047 (onTap chan0) = true ∧ ((onTap chan0).chan 2047).cond ≠ 3 ∧ ((onTap chan0).chan 2047).stopAct = none
    ∧ chHas ((onTap chan0).chan 2047) ((onTap chan0).chan 2047).nextN (onTap chan0) = true
    ∧ startable 2047 (onTap { chan0 with stopAct := some 1 }) = true ∧ ((onTap { chan0 with stopAct := some 1 }).chan 2047).j ≤ ((onTap { chan0 with stopAct := some 1 }).chan 2047).proc
    ∧ startable 2047 (onTap { chan0 with cond := 3 }) = true ∧ (onTap chan0).fbOf 2047 = none
    ∧ (let s := { onTap chan0 with acq := { up.acq with fb := [search] } }
       s.fbOf 2047 = some search ∧ startable 2047 s = true) := by
  decide +kernel

/-- A valid slot of integration 0 is latched, and one of integration 1 is not its token. -/
theorem witness_Slots : ((onTap chan0).chan 2047).cfgAt = [] ∧ (slotRead 2047 0 [0] [] (onTap chan0)).2 = .inl [0]
    ∧ (slotRead 2047 0 [1, 2, 3, 4, 5, 6] [0] (onTap chan0)).2 = .inl (List.replicate 7 0) ∧ fld (([0#36] : List Word).getD 0 0) 35 20 = 0 % 65536
    ∧ fld (([0#36] : List Word).getD 0 0) 35 20 ≠ 1 % 65536
    ∧ slotBad 0 [1, 0, 1, 0, 0, wd (16777216 + 2 * 262144 + 4096), 1] = false ∧ bit (([1, 0, 1, 0, 0, wd (16777216 + 2 * 262144 + 4096), 1] : List Word).getD 0 0) 19 = false := by
  decide +kernel

/-- The channel runs an integration that ends at cycle 900,000. -/
def running0 : Chan := { chan0 with running := true, endN := 900000, segN := 800000, nextN := 700000 }

theorem witness_IntegrationEnd : endEff ((onTap running0).chan 2047) (onTap running0) = 900000 ∧ ((onTap running0).chan 2047).running = true
    ∧ chLag ((onTap running0).chan 2047) (onTap running0) ≤ 327360
    ∧ chHas ((onTap running0).chan 2047) (lastBefore 900000 ((onTap running0).chan 2047) (onTap running0)) (onTap running0) = true
    ∧ ((onTap running0).chan 2047).segN < min ((((onTap running0).chan 2047).segN / 81840 + 1) * 81840) 900000
    ∧ (faultJudge (uCh 2047) 0 true 0 ((lagNote 2047 (onTap running0)).sticky (R.WG_STATUS 15) 0)).1 = none := by
  decide +kernel

/-- Integration 0 has posted its result: word 0 of its buffer says DONE. -/
theorem witness_Loop : let k : Contrib := ⟨0, 0, 0, [], 0, 0, 0, 0, [], 0, 0, false, false, 0, 0, none, 0, false, false, false, 0⟩
    let s := (onTap { chan0 with j := 1, contribs := [k] }).putStored (kBuf 2047 0) (eccEnc 524288)
    loopReady 2047 s = some k := by
  decide +kernel

/-- Records of epoch 1 wait for a solution, with SOL0 holding the Catalogue and SOL1 the solution duty. -/
def solving : State := { (clocked 2 up).setReg R.SOL_CORES 2 with sol := { up.sol with epochs := [⟨1, 5, 0, 0, [], 163680⟩] } }

theorem witness_Epochs : (let s := after 1000000000 (clocked 2 up)
      epochReady s.nextEpoch s = true ∧ epochHeld s.nextEpoch s = false ∧ s.sol.epochs = [])
    ∧ solving.rf R.SOL_CORES 5 4 ≠ 3 ∧ solving.sol.takeover = false ∧ solving.catCore ≠ solving.solCore
    ∧ (solving.setReg R.SOL_CORES 0).catCore = (solving.setReg R.SOL_CORES 0).solCore := by
  decide +kernel

/-- With R269's default of ten epochs a second and a rate limit of 20 Hz, epoch 1 is rate-limited. -/
theorem witness_rate_limit : 1 % (max 1 (solving.rf R.SOL_CFG 35 28) * max 1 (ceilDiv 8184000 (max 1 (solving.rf R.SOL_CFG 35 28) * max 1 163680))) ≠ 0 := by
  decide +kernel

theorem witness_Holdover : usableSats 5 [] up = [] ∧ ({ up with sol := { up.sol with everValid := true } }).sol.everValid = true
    ∧ up.sol.holdover = false
    ∧ (let s := ((clocked 2 up).setReg R.OSS_CFG (wd (1 + 2 + 32)))
       s.fsOn = true ∧ bit (s.reg R.OSS_CFG) 0 = true ∧ s.rf R.OSS_CFG 11 5 ≠ 0 ∧ s.cycle % (163680000 / s.rf R.OSS_CFG 11 5) = 0 ∧ s.rf R.OSS_CFG 2 1 = 1)
    ∧ (let s := up.setCore 16 { ApCore.off with started := true }
       bit (s.reg R.SOL_CORES) (4 + 0) = false ∧ (s.core (16 + 0)).started = true ∧ (faultJudge (uSolk 0) 4 true s.dt s).1 = none) := by
  decide +kernel

/-- An edge of device time at 16 ticks. -/
def edge0 : TEdge := ⟨1000, 16 * 68719476736, 16 * 68719476736, false, false, 0, none, 0, 1000, []⟩

/-- Output 3 in a state, with what it holds. -/
def out3 (st : Word) (x : TpSt) : State := (after 163680000 ((clocked 2 up).setReg (R.TP_STATE 3) st)).setTp 3 x

theorem witness_Pulses : ({ after 5 (clocked 2 up) with tpc := { up.tpc with upd := [(5, 0, [])] } }).tpc.upd = [(5, 0, [])] ∧ 5 ≤ (after 5 (clocked 2 up)).cycle
    ∧ (out3 1 TpSt.idle).tpState 3 = 1 ∧ ((out3 1 TpSt.idle).setReg (R.TP_CFG 3) 0).tpScale 3 = 0 ∧ ((out3 1 TpSt.idle).model 0).avail = true
    ∧ (let s := out3 2 { TpSt.idle with edge := some edge0 }
       (s.tp 3).edge = some edge0 ∧ edge0.late = false ∧ s.tpState 3 ≠ 3 ∧ ((16 * 68719476736 + 8) / 16 : Int) ≤ (s.dt.toNat : Int))
    ∧ (let s := out3 2 { TpSt.idle with trail := some 8 }
       (s.tp 3).trail = some 8 ∧ ((8 + 8) / 16 : Int) ≤ (s.dt.toNat : Int) ∧ (s.tp 3).stopping = false)
    ∧ (let s := (out3 2 { TpSt.idle with delta := 5 }).setReg (R.TP_SLEW 3) 1000000
       s.tpState 3 = 2 ∧ (s.tp 3).delta ≠ 0 ∧ tpDelta 3 s.now16 s = 0) := by
  decide +kernel

/-- The next edge of a one-second pulse on device time is 64 sample cycles ahead. -/
theorem witness_edge_commit : let s := ((after 163679936 ((clocked 2 up).setReg (R.TP_STATE 3) 2)).setReg (R.TP_CFG 3) 0).setReg (R.TP_PERIOD 3) 1000
    s.tpState 3 = 2 ∧ (s.tp 3).edge = none ∧ (s.tp 3).stopping = false ∧ (s.model (s.tpScale 3)).avail = true ∧ (tpNext 3 s).1 = 1000 ∧ (tpNext 3 s).2.2 = 0
      ∧ (tpNext 3 s).2.1 ≤ 16 * (dtOfCycle (s.cycle + 64)).toNat := by
  decide +kernel

/-- A CAP_CFG that stamps rising edges and one that stamps falling edges, the first edge, one in the dead time (less than 6,872 ticks), and a full queue. -/
theorem witness_Captures : fld (capCfgAt 3 0 (up.setReg (R.CAP_CFG 3) 8)) 4 3 % 2 = 1 ∧ 2 ≤ fld (capCfgAt 3 0 (up.setReg (R.CAP_CFG 3) 16)) 4 3
    ∧ (up.cap 3).last = none ∧ (up.cap 3).fifo.length < 64 ∧ 64 ≤ ((up.setCap 3 { CapSt.idle with fifo := List.replicate 64 ⟨[]⟩ }).cap 3).fifo.length
    ∧ ((up.setCap 3 { CapSt.idle with last := some 5 }).cap 3).last = some 5
    ∧ ((up.setReg R.TPC_RINGS 512).setCap 3 { CapSt.idle with fifo := [⟨[]⟩] }).rf R.TPC_RINGS 12 8 ≠ 0
    ∧ has (R.CAP_CFG 3) (fun l => !writeBad (R.CAP_CFG 3) l (wd 8) up) = true ∧ slotOff (BitVec.ofNat 14 (R.CAP_CFG 3 / 8)) = R.CAP_CFG 3
    ∧ capCfgAt 3 0 (capCfgSet 3 8 { up with dt := 5 }) = up.reg (R.CAP_CFG 3) ∧ capCfgAt 3 5 (capCfgSet 3 8 { up with dt := 5 }) = 8 := by
  decide +kernel

/-- A dead time is shorter than 6,872 ticks: an edge 6,872 ticks on is past it. -/
theorem test_dead_time : Config.deadTicks % 6872 < 6872 := Nat.mod_lt _ (by decide)

/-- Unit 2 in a state, with what it holds, its front end in RUN and its injection synthesiser LOCKED. -/
def cal2 (st : Word) (x : CalSt) : State :=
  (((after 163680000 (clocked 2 up)).setReg (R.FE_STATE 2) 3).setReg (R.LO_STATE 6) 2).setReg (R.CALN_STATE 2) st |>.setCal 2 x

def someSweep : SweepSt := ⟨false, 0, 163680000, 0, 1, []⟩

theorem witness_Injection : (let w : InjWait := ⟨0x800, pk [], 0, false, 0, 1000⟩
      let s := cal2 1 { CalSt.idle with wait := some w }
      (s.calU 2).wait = some w ∧ injReady 2 s = true ∧ s.fsOn = true ∧ s.calState 2 = 1 ∧ w.limit ≤ msSince w.at_ s)
    ∧ (cal2 2 CalSt.idle).calState 2 = 2 ∧ ((cal2 2 CalSt.idle).calU 2).sweep = none ∧ ((cal2 2 CalSt.idle).calU 2).wait = none
    ∧ (let s := cal2 3 { CalSt.idle with sweep := some someSweep }
       (s.calU 2).sweep = some someSweep ∧ s.calState 2 = 3 ∧ someSweep.endN ≤ calClock 2 s)
    ∧ (let s := after 1000000000 (cal2 2 { CalSt.idle with tblDue := [someSweep] })
       (s.calU 2).tblDue = someSweep :: [] ∧ s.fsOn = true ∧ someSweep.tableN ≤ calClock 2 s) := by
  decide +kernel

/-- A periodic sweep of one hour is due at 1,800 s on unit 2: refused in WAIT, begun in INJECT at a centre inside the band. -/
theorem witness_SweepDue : let s := after (5400 * 163680000) ((cal2 1 CalSt.idle).setReg (R.CALN_SWEEP_CFG 2) (wd (2 ^ 28)))
    let u := after (5400 * 163680000) ((cal2 2 CalSt.idle).setReg (R.CALN_SWEEP_CFG 2) (wd (2 ^ 28)) |>.setReg (R.FE_LO_ACT 2) (wd (32 * 1300000000)) |>.setReg (R.FE_CFG 2) 3)
    s.booted = true ∧ s.rf (R.CALN_SWEEP_CFG 2) 35 28 * 3600 = 3600 ∧ calClock 2 s / 163680000 = 5400 ∧ 900 * 2 ≤ 5400 ∧ (5400 - 900 * 2) % 3600 = 0 ∧ (s.calU 2).sweepSec ≠ some 5400
      ∧ firstStatus (sweepStatus 2 (s.setCal 2 { s.calU 2 with sweepSec := some 5400 })) ≠ 0
      ∧ firstStatus (sweepStatus 2 (u.setCal 2 { u.calU 2 with sweepSec := some 5400 })) = 0 := by
  decide +kernel

theorem witness_Estimates : (let s := cal2 2 { CalSt.idle with due := some 1 }
      (s.calU 2).due = some 1 ∧ s.calState 2 = 2 ∧ (s.setReg (R.CALN_CC_CFG 2) 0).reg (R.CALN_CC_CFG 2) = 0)
    ∧ (let e : CalEst := ⟨0, 0, false, 4096, [⟨true, 0, 0, true, 5, 0, 0, 0⟩]⟩
       let s := after 327360000 (cal2 2 { CalSt.idle with est := [e] })
       (s.calU 2).est = [e] ∧ e.cc = ⟨true, 0, 0, true, 5, 0, 0, 0⟩ :: [] ∧ (e.sec + 2) * 163680000 ≤ calClock 2 s ∧ (s.calU 2).seen = false) := by
  decide +kernel

/-- A handover of bank 7 in a stage, from HOST to owner 3. -/
def handing (st : Nat) : State := (up.setReg (R.BANK_OWNER 7) 1).setReg (R.BANK_STATE 7) (wd (3 * 65536 + st))

theorem witness_BankWrites : has (R.BANK_OWNER 7) (fun l => !writeBad (R.BANK_OWNER 7) l 3 up) = true ∧ ownerOk 31 = true ∧ ownerOk 6 = true ∧ ownerOk 7 = false
    ∧ bankMay (ownerCode .pcie) 7 up = true ∧ bankMay (ownerCode .pcie) 15 up = false ∧ up.bankStage 7 = 0 ∧ (handing 1).bankStage 7 ≠ 0 ∧ ownerCode .pcie ≠ 2
    ∧ has (R.BANK_POWER 7) (fun l => !writeBad (R.BANK_POWER 7) l 1 up && !writeBad (R.BANK_POWER 7) l 2 up) = true ∧ up.bankPower 7 = 0 := by
  decide +kernel

theorem witness_Handover : (handing 1).bankStage 7 = 1 ∧ needsWipe 7 (handing 1) = false ∧ needsWipe 7 ((handing 1).setReg (R.BANK_CFG 7) 1) = true
    ∧ (handing 2).bankStage 7 = 2 ∧ (handing 2).cons.borrowed = none ∧ (handing 2).rf (R.BANK_OWNER 7) 5 0 = 1 ∧ (handing 2).rf (R.BANK_STATE 7) 21 16 = 3
    ∧ ((handing 2).bh 7).powReq = none ∧ ((handing 2).bh 7).held = none ∧ (∀ q ∈ (handing 2).waitReply, q.1 ≠ 7) ∧ bit ((handing 2).reg (R.BANK_CFG 7)) 1 = false := by
  decide +kernel

theorem witness_BankPower : (up.setReg (R.BANK_STATE 7) 512).bankPower 7 = 2 ∧ (up.setReg (R.BANK_STATE 7) 1024).bankPower 7 = 4
    ∧ (let s := (up.setReg (R.BANK_POWER 7) 5).setBh 7 { BankH.idle with woken := true }
       s.bankPower 7 = 0 ∧ (s.bh 7).woken = true ∧ s.rf (R.BANK_POWER 7) 1 0 = 1 ∧ s.rf (R.BANK_POWER 7) 13 2 ≠ 0 ∧ s.bankStage 7 = 0)
    ∧ ((up.setBh 7 { BankH.idle with wiping := some 1 }).bh 7).wiping = some 1 := by
  decide +kernel

/-- The columns of R388, and words with no, one, two and the poison's syndrome. -/
theorem witness_Columns : (∀ i < 35, eccCols.getD i 0 = ((List.range 128).filter (fun v => (List.range 7).countP (fun j => v.testBit j) == 3)).getD i 0)
    ∧ eccCols.getD 35 0 = 31 ∧ eccDec (eccEnc 5) = .clean 5 ∧ eccDec (eccEnc 5 ^^^ 1#43 <<< 42) = .corrected 5 42 ∧ eccDec (eccEnc 5 ^^^ 3#43) = .uncorrectable
    ∧ eccDec poisonWord = .poisoned ∧ up.isRetired (uRegion 4194303) = false ∧ (up.putStored 9 poisonWord).stored 9 = poisonWord := by
  decide +kernel

/-- The scrubber stands at a word that holds `x`. -/
def scrubbing (x : Stored) : State :=
  { (up.setReg R.MEM_SCRUB_CFG 4096).putStored 64 x with cons := { ConsSt.idle with scrubPos := 64, prio := [64] } }

theorem witness_Scrub : bit ((scrubbing 1).reg R.MEM_SCRUB_CFG) 12 = true ∧ (scrubbing 1).cons.scrubPos = 64 ∧ 64 + 1 < sramWords ∧ (scrubbing 1).bankPower (64 / 262144) ≠ 3
    ∧ scrubbable 64 (scrubbing 1) = true ∧ eccDec ((scrubbing 1).stored 64) = .corrected 0 0 ∧ eccDec ((scrubbing 3).stored 64) = .uncorrectable
    ∧ eccDec ((scrubbing poisonWord).stored 64) = .poisoned ∧ eccDec ((scrubbing (eccEnc 5)).stored 64) = .clean 5 ∧ scrubbable (sramWords - 1) up = true
    ∧ eccDec (up.stored (sramWords - 1)) = .clean 0 ∧ (scrubbing 1).cons.prio = 64 :: [] := by
  decide +kernel

/-- The background scrub of that word may go on, waits for a priority scrub of its sub-bank, or wakes its bank from RETAIN; and it stands at the last word of all. -/
theorem witness_background : (let s := { scrubbing 1 with cons := { ConsSt.idle with scrubPos := 64 } }
      scrubNext 16 s.cons.scrubPos s = 64 ∧ scrubWaits 64 s = false ∧ scrubbable 64 s = true)
    ∧ scrubNext 16 64 (scrubbing 1) = 64 ∧ scrubWaits 64 (scrubbing 1) = true
    ∧ (let s := (scrubbing 1).setReg (R.BANK_STATE 0) 256
       s.bankPower 0 = 1 ∧ scrubNext 16 64 s = 64 ∧ scrubWaits 64 s = true)
    ∧ (let s := { up.setReg R.MEM_SCRUB_CFG 4096 with cons := { ConsSt.idle with scrubPos := sramWords - 1 } }
       scrubNext 16 s.cons.scrubPos s + 1 = sramWords ∧ scrubWaits (sramWords - 1) s = false)
    ∧ (let s := { (up.setReg R.MEM_SCRUB_CFG 4096).setReg (R.BANK_POWER 0) 1 with cons := { ConsSt.idle with scrubPos := 262143 } }.setBh 0 { BankH.idle with scrubbing := true }
       (s.bh 0).scrubbing = true ∧ s.bankPower 0 = 0 ∧ s.rf (R.BANK_POWER 0) 1 0 = 1 ∧ (s.bh 0).woken = false ∧ scrubWaits 262143 s = false) := by
  decide +kernel

theorem witness_Leak : up.rf R.MEM_BUCKET_CFG 19 8 ≠ 0 ∧ (dtSec up.dt).toNat % up.rf R.MEM_BUCKET_CFG 19 8 = 0 ∧ up.cons.leakSec ≠ some (dtSec up.dt)
    ∧ bit (up.reg R.ACQ_HIST_CTRL) 0 = false ∧ bit (up.reg (R.FE_HIST_CTRL 3)) 0 = false := by
  decide +kernel

theorem witness_Regions : bit ((up.setReg R.MEM_TEST_CFG 4096).reg R.MEM_TEST_CFG) 12 = true ∧ up.cons.borrowed = none ∧ nextRegion 1 65535 up = some 65535
    ∧ testable 65535 up = true ∧ eccDec (up.stored (kBank 15 (64 * 4095 + 63))) = .clean 0
    ∧ ({ up with cons := { up.cons with borrowed := some 65535 } }).cons.borrowed = some 65535 := by
  decide +kernel
/-- Wing core 0 at firmware level with word `w` at address 0 and registers `x`. -/
def core0 (w : Word) (x : ApCore) : State := (up.putStored (kWim 0 0) (eccEnc w)).setCore 0 { x with started := true }

/-- A core issues a word. -/
def issues (c : Fin 19) (w : Word) (s : State) : Bool :=
  (s.core c).live && (apFetch c (s.core c) (s.core c).pc s).2 == .word w && !((landDue (s.core c)).budgeted && (landDue (s.core c)).budget == 0)

theorem issues_meets (c : Fin 19) (w : Word) (s : State) (h : issues c w s = true) : ∃ u, Issues c w s u := by
  simp only [issues, Bool.and_eq_true, beq_iff_eq, Bool.not_eq_true'] at h
  exact ⟨_, h.1.1, Prod.ext rfl h.1.2, h.2⟩

/-- The registers of core 0 after an instruction. -/
def regsAfter (i : Instr) (s : State) : Option ApCore := match exec i s with
  | .next t => some (t.core 0)
  | _ => none

def regs2 (a b : Word) : ApCore := { ApCore.off with w := [(1, a), (2, b)] }

theorem witness_AponeComputes : issues 0 (encR 0 ⟨3, 1, 2, 0⟩) (core0 (encR 0 ⟨3, 1, 2, 0⟩) (regs2 1 2)) = true
    ∧ issues 0 (encI 1 ⟨3, 1, 5⟩) (core0 (encI 1 ⟨3, 1, 5⟩) (regs2 1 2)) = true ∧ issues 0 (encI 5 ⟨3, 0, 5⟩) (core0 (encI 5 ⟨3, 0, 5⟩) (regs2 1 2)) = true
    ∧ issues 0 (encS 2 ⟨3, 1, 35, 0⟩) (core0 (encS 2 ⟨3, 1, 35, 0⟩) (regs2 1 2)) = true
    ∧ issues 0 (encF 13 ⟨3, 1, 0, 36, 0⟩) (core0 (encF 13 ⟨3, 1, 0, 36, 0⟩) (regs2 1 2)) = true := by
  decide +kernel

theorem test_add_wraps : (regsAfter (.add 0 ⟨3, 1, 2, 0⟩) (core0 (encR 0 ⟨3, 1, 2, 0⟩) (regs2 0xFFFFFFFFF 2))).map (fun x => (x.get 3, x.pc)) = some (1, 1) := by
  decide +kernel

/-- The source is also the destination, and w0 discards. -/
theorem test_sub_same_register : (regsAfter (.sub 0 ⟨1, 1, 2, 0⟩) (core0 (encR 1 ⟨1, 1, 2, 0⟩) (regs2 1 2))).map (fun x => x.get 1) = some 0xFFFFFFFFF
    ∧ (regsAfter (.sub 0 ⟨0, 1, 2, 0⟩) (core0 (encR 1 ⟨0, 1, 2, 0⟩) (regs2 1 2))).map (fun x => x.get 0) = some 0 := by
  decide +kernel

/-- R352: a left shift by 36 or more gives zero, an arithmetic right shift copies of bit 35. -/
theorem test_wide_shifts : (regsAfter (.sll 0 ⟨3, 1, 2, 0⟩) (core0 (encR 6 ⟨3, 1, 2, 0⟩) (regs2 0x800000001 36))).map (fun x => x.get 3) = some 0
    ∧ (regsAfter (.sra 0 ⟨3, 1, 2, 0⟩) (core0 (encR 8 ⟨3, 1, 2, 0⟩) (regs2 0x800000001 63))).map (fun x => x.get 3) = some 0xFFFFFFFFF := by
  decide +kernel

theorem test_exts_ins : (regsAfter (.exts 0 ⟨3, 1, 4, 4, 0⟩) (core0 (encF 14 ⟨3, 1, 4, 4, 0⟩) (regs2 0x80 0))).map (fun x => x.get 3) = some 0xFFFFFFFF8
    ∧ (regsAfter (.ins 0 ⟨2, 1, 4, 8, 0⟩) (core0 (encF 15 ⟨2, 1, 4, 8, 0⟩) (regs2 0xFFFFFFFAB 0xF))).map (fun x => x.get 2) = some 0xABF := by
  decide +kernel

/-- R358's worked example: LUI and ORI make the dividend. -/
theorem test_lui_ori : (regsAfter (.lui 0 ⟨3, 0, 0xBA43B⟩) (core0 (encI 5 ⟨3, 0, 0xBA43B⟩) ApCore.off)).map (fun x => x.get 3) = some 0xBA43B0000
    ∧ (regsAfter (.ori 0 ⟨1, 1, 0x7400⟩) (core0 (encI 3 ⟨1, 1, 0x7400⟩) (regs2 0xBA43B0000 0))).map (fun x => x.get 1) = some 0xBA43B7400 := by
  decide +kernel

/-- R356's worked example, at step 17, step 18 and step 36. -/
theorem test_division_example : (Nat.repeat (dstep 163680) 17 { ApCore.off with p1 := 0xBA43B7400 }).p0 = 95367
    ∧ (Nat.repeat (dstep 163680) 18 { ApCore.off with p1 := 0xBA43B7400 }).p0 = 27054
    ∧ (Nat.repeat (dstep 163680) 36 { ApCore.off with p1 := 0xBA43B7400 }).p1 = 305474 ∧ (Nat.repeat (dstep 163680) 36 { ApCore.off with p1 := 0xBA43B7400 }).p0 = 15680 := by
  decide +kernel

/-- After iteration 20 of 36 an interrupt saves TREP 16 and REPV, with TPC at the repeated instruction. -/
theorem test_interrupt_in_repeat : (regsAfter (.interrupt 0) (core0 0 { ApCore.off with pc := 8, rep := some 16, status := 2, ipend := 4, imask := 6, tvec := 0x100 })).map
    (fun x => (x.pc, x.tpc, x.trep, x.tstat, x.status, x.tcause)) = some (0x100, 8, 16, 34, 8, 31) := by
  decide +kernel

theorem witness_AponeLoads : ((core0 0 (regs2 0x100000 0)).core 0).get 1 = 0x100000 ∧ apLocal 0 0x100000 = some (kWdm 0 0) ∧ apRom 0 0x100000 = false
    ∧ apLocal 0 0x100001 = some (kWdm 0 1)
    ∧ ((landDue ((core0 0 (regs2 0x100000 0)).core 0)).get 1).toInt + (0#20 : BitVec 20).toInt - 0x100000 = 0 ∧ 0x100000 < 0x400000
    ∧ issues 0 (encI 16 ⟨3, 1, 0⟩) (core0 (encI 16 ⟨3, 1, 0⟩) (regs2 0x100000 0)) = true ∧ apForbid 0 0x100000 false ApCore.off = false
    ∧ eccDec ((core0 0 (regs2 0x100000 0)).stored (kWdm 0 0)) = .clean 0 ∧ issues 0 (encM 22 ⟨0, 1, 2, 0, 0⟩) (core0 (encM 22 ⟨0, 1, 2, 0, 0⟩) (regs2 3 5)) = true
    ∧ issues 0 (encP 24 ⟨3, 0, 1, 0⟩) (core0 (encP 24 ⟨3, 0, 1, 0⟩) ApCore.off) = true ∧ issues 0 (encI 19 ⟨2, 1, 1⟩) (core0 (encI 19 ⟨2, 1, 1⟩) (regs2 0x100000 0)) = true := by
  decide +kernel

theorem test_store_then_word : (match exec (.st 0 ⟨2, 1, 7⟩) (core0 (encI 17 ⟨2, 1, 7⟩) (regs2 0x100000 0xABC)) with
    | .next t => some (t.peek (kWdm 0 7))
    | _ => none) = some 0xABC := by
  decide +kernel

/-- LDD at an odd address traps cause 8 with the address in TADDR. -/
theorem test_ldd_odd : (regsAfter (.ldd 0 ⟨2, 1, 1⟩) (core0 (encI 18 ⟨2, 1, 1⟩) { regs2 0x100000 0 with tvec := 0x40 })).map (fun x => (x.tcause, x.taddr, x.pc)) = some (8, 0x100001, 0x40) := by
  decide +kernel

/-- A product lands two instructions after its issue, and MAC adds modulo 2^72. -/
theorem test_product_lands : landDue { ApCore.off with flight := [⟨2, false, 15⟩] } = { ApCore.off with p1 := 15 }
    ∧ landDue { ApCore.off with flight := [⟨1, false, 15⟩] } = { ApCore.off with flight := [⟨1, false, 15⟩] }
    ∧ landDue { ApCore.off with p2 := 0xFFFFFFFFF, p3 := 0xFFFFFFFFF, flight := [⟨2, true, 1⟩] } = ApCore.off := by
  decide +kernel

theorem witness_DivisionStep : issues 0 (encM 23 ⟨0, 0, 2, 0, 0⟩) (core0 (encM 23 ⟨0, 0, 2, 0, 0⟩) (regs2 0 163680)) = true ∧ (163680#36 : Word) ≠ 0
    ∧ ({ ApCore.off with flight := [⟨0, false, 9⟩] }).flight = [⟨0, false, 9⟩] := by
  decide +kernel

theorem witness_AponeControls : issues 0 (encB 32 ⟨1, 0, 5⟩) (core0 (encB 32 ⟨1, 0, 5⟩) ApCore.off) = true
    ∧ issues 0 (encJ 36 ⟨0, 5⟩) (core0 (encJ 36 ⟨0, 5⟩) { ApCore.off with rsp := 8 }) = true ∧ issues 0 (encJ 36 ⟨0, 5⟩) (core0 (encJ 36 ⟨0, 5⟩) { ApCore.off with rsp := 7 }) = true
    ∧ issues 0 (encM 35 ⟨0, 1, 0, 0, 0⟩) (core0 (encM 35 ⟨0, 1, 0, 0, 0⟩) ApCore.off) = true ∧ issues 0 (encZ 38 0) (core0 (encZ 38 0) ApCore.off) = true
    ∧ issues 0 (encZ 39 0) (core0 (encZ 39 0) ApCore.off) = true ∧ issues 0 (encZ 42 0) (core0 (encZ 42 0) ApCore.off) = true
    ∧ issues 0 (encC 48 ⟨3, 0, 7, 0⟩) (core0 (encC 48 ⟨3, 0, 7, 0⟩) ApCore.off) = true ∧ apCtlOk 0x17 = true ∧ apCtlOk 0x18 = false := by
  decide +kernel

/-- REP before ADD, and before JMP. -/
theorem witness_Repeat : issues 0 (encZ 26 0) (core0 (encZ 26 0) ApCore.off) = true
    ∧ (apFetch 0 ApCore.off 1 (core0 (encZ 26 0) ApCore.off)).2 = .word 0 ∧ apListed 0 = true ∧ apControl 0 = false ∧ apOp 0 ≠ 26
    ∧ apControl (encJ 34 ⟨0, 5⟩) = true := by
  decide +kernel

theorem test_call_wraps_nothing : (regsAfter (.call 0 ⟨0, 0x20⟩) (core0 (encJ 36 ⟨0, 0x20⟩) { ApCore.off with rsp := 7 })).map (fun x => (x.pc, x.rsp)) = some (0x20, 8)
    ∧ (regsAfter (.call 0 ⟨0, 0x20⟩) (core0 (encJ 36 ⟨0, 0x20⟩) { ApCore.off with rsp := 8, tvec := 0x40 })).map (fun x => (x.pc, x.rsp, x.tcause)) = some (0x40, 8, 5) := by
  decide +kernel

theorem witness_Traps : issues 0 (encX 40 ⟨0, 3⟩) (core0 (encX 40 ⟨0, 3⟩) ApCore.off) = true ∧ issues 0 (encR 0 ⟨3, 1, 2, 1⟩) (core0 (encR 0 ⟨3, 1, 2, 1⟩) ApCore.off) = true
    ∧ (let x : ApCore := { ApCore.off with status := 16, budget := 0 }
       (landDue x).budgeted = true ∧ (landDue x).budget = 0 ∧ ((core0 0 x).core 0).live = true ∧ (apFetch 0 x 0 (core0 0 x)).2 = .word 0)
    ∧ issues 0 (encR 15 ⟨0, 0, 0, 0⟩) (core0 (encR 15 ⟨0, 0, 0, 0⟩) ApCore.off) = true ∧ apListed (encR 15 ⟨0, 0, 0, 0⟩) = false
    ∧ (apFetch 0 { ApCore.off with status := 1 } 0 up).2 = .priv ∧ (apFetch 0 ApCore.off 0x4000 up).2 = .err 6
    ∧ bit (2 : Word) 1 = true ∧ ((4#8 &&& 6#8).getLsbD 2 = true ∧ ∀ m < 2, (4#8 &&& 6#8).getLsbD m = false) ∧ apStops { ApCore.off with status := 1 } true 1 0 0 = false
    ∧ apStops ApCore.off true 1 0 0 = true ∧ apStops { ApCore.off with status := 9 } true 1 0 0 = true := by
  decide +kernel

/-- At user level, in the user partition of wing core 0. -/
theorem witness_user_level : issues 0 (encZ 39 0) ((up.putStored (kWim 0 0x3000) (eccEnc (encZ 39 0))).setCore 0 { ApCore.off with started := true, status := 1, pc := 0x3000 }) = true
    ∧ issues 0 (encC 48 ⟨3, 0, 5, 0⟩) ((up.putStored (kWim 0 0x3FFF) (eccEnc (encC 48 ⟨3, 0, 5, 0⟩))).setCore 0 { ApCore.off with started := true, status := 1, pc := 0x3FFF }) = true := by
  decide +kernel

theorem witness_waiting : let x : ApCore := { ApCore.off with waiting := true, ipend := 1, imask := 1 }
    x.waiting = true ∧ x.ipend &&& x.imask ≠ 0 := by
  decide +kernel

/-! ## The test port -/

theorem witness_TestPort : ({ up.jtag with tap := .captureDr }).ir = .idcode ∧ ({ up.jtag with tap := .shiftIr }).tap = .shiftIr ∧ State.reset.fuses.life ≠ 2
    ∧ ({ up with fuses := { up.fuses with life := 2 } }).fuses.life = 2 := by
  decide +kernel

theorem test_five_ones : [Tap.shiftDr, .pauseIr, .exit2Dr, .updateIr, .runTestIdle].all
    (fun q => ((((q.next true).next true).next true).next true).next true == .testLogicReset) = true := by
  decide
/-! ## Commands that pass every check -/

/-- FE0 in RUN near L1 with tap 0 producing at full rate, wing 0 ON, channel 5 of it running, and ring 4 for job results. -/
def rx : State :=
  (((((((cmdUp.setReg (R.FE_STATE 0) 3).setReg (R.FE_LO_ACT 0) (wd (32 * 1573420000))).setReg (R.CHZ_TAP_CFG 0 0) 1).setReg (R.CHZ_TAP_FCW 0 0) 839670781).setReg
    (R.CHZ_TAP_STAT 0 0) 524288).setReg (R.WG_STATE 0) 2).setReg (R.RING_CFG 4) (wd (7 * 131072 + 4 * 4096 + 1024))).setChan 5 { chan0 with units := 1 }

/-- The value a register has at reset. -/
def r (o : Nat) : Word := up.reg o

theorem witness_commands_1 : ([(devNopSpec, pk [], cmdUp),
     (devCancelSpec, pk [5], cmdUp),
     (devFaultPolicySpec, pk [wd (10*65536 + 3*256 + 1)], cmdUp),
     (devResetSpec, pk [0x4620], cmdUp),
     (devCmdCfgSpec, pk [60000], cmdUp)] : List (CmdSpec × Packet × State)).all
    (fun q => meets q.1 q.2.1 q.2.2) = true := by
  decide +kernel

theorem witness_commands_2 : ([(feStateSpec, pk [32], rx),
     (feStateSpec, pk [48], cmdUp),
     (feConfigSpec, pk [0, r (R.FE_CENTRE 0), r (R.FE_CFG 0), r (R.FE_GAIN_CFG 0), r (R.FE_TUNER 0), r (R.FE_MATCH_CFG 0), r (R.FE_CAL_CFG 0), r (R.FE_COEX_MAP 0), r (R.FE_EVT_MASK 0)], cmdUp),
     (feCalibrateSpec, pk [0x7F00], rx)] : List (CmdSpec × Packet × State)).all
    (fun q => meets q.1 q.2.1 q.2.2) = true := by
  decide +kernel

theorem witness_commands_3 : ([(feBiasSpec, pk [0, 0x07D0C80F1], cmdUp),
     (feCoexSpec, pk [0, 1, 0, 0, 0, 5, 6], cmdUp),
     (synRefConfigSpec, pk [r R.SYN_REF_FREQ, r R.SYN_REF_CFG, r R.SYN_QUAL_CFG, r R.SYN_POLICY, r R.SYN_SMP_CFG, r R.SYN_SMP_LOCK], quiet cmdUp),
     (synLoConfigSpec, pk [0, r (R.LO_CFG 0), r (R.LO_LOCK 0)], cmdUp)] : List (CmdSpec × Packet × State)).all
    (fun q => meets q.1 q.2.1 q.2.2) = true := by
  decide +kernel

theorem witness_commands_4 : ([(synRampSegSpec, pk [0xF0, 1], cmdUp),
     (synRampArmSpec, pk [0, 0, 5, 0], (((rx.setReg (R.LO_CFG 0) 1).setReg (R.LO_TARGET 0) 1300000000).setReg (R.LO_SEG 0 0) 1)),
     (tapConfigSpec, pk [4, 1, 0], cmdUp),
     (chzConfigSpec, pk [0, r (R.CHZ_BLANK_CFG 0), r (R.CHZ_BLANK_EXT 0), r (R.CHZ_LVL_CFG 0), r (R.CHZ_EVT_MASK 0)], cmdUp),
     (notchConfigSpec, pk [0, r (R.CHZ_NF_CFG 0 0), r (R.CHZ_NF_RANGE 0 0)], cmdUp)] : List (CmdSpec × Packet × State)).all
    (fun q => meets q.1 q.2.1 q.2.2) = true := by
  decide +kernel

theorem witness_commands_5 : ([(streamConfigSpec, pk [0, 38], (cmdUp.setReg (R.RING_CFG 6) (wd (12 * 131072 + 4 * 4096 + 3072)))),
     (replayCtrlSpec, pk [16, 5], (replaying.setReg (R.RING_STATE 0) 1 |>.setReg (R.RING_PROD 0) 1)),
     (replayCtrlSpec, pk [32, 5], (replaying.setReg (R.RING_STATE 0) 1 |>.setReg (R.RING_PROD 0) 1))] : List (CmdSpec × Packet × State)).all
    (fun q => meets q.1 q.2.1 q.2.2) = true := by
  decide +kernel

theorem witness_commands_6 : ([(chReleaseSpec, pk [5], rx)] : List (CmdSpec × Packet × State)).all
    (fun q => meets q.1 q.2.1 q.2.2) = true := by
  decide +kernel

theorem witness_commands_7 : ([(chConfigSpec, pk [wd (5 + 2048)], rx),
     (chMoveSpec, pk [wd (5 + 6*2048)], rx),
     (wgCtrlSpec, pk [17], cmdUp),
     (wgCtrlSpec, pk [33], cmdUp),
     (loopParamSetSpec, pk (cmdUp.loopSetAt 0 0), cmdUp)] : List (CmdSpec × Packet × State)).all
    (fun q => meets q.1 q.2.1 q.2.2) = true := by
  decide +kernel

theorem witness_commands_8 : ([(loopSelectSpec, pk [wd (5 + 3*2048)], rx),
     (loopParamGetSpec, pk [7], cmdUp),
     (loopDefaultSpec, pk [0x37], cmdUp),
     (loopStatusSpec, pk [5], rx),
     (loopHookSpec, pk [wd (0x3000*8)], cmdUp)] : List (CmdSpec × Packet × State)).all
    (fun q => meets q.1 q.2.1 q.2.2) = true := by
  decide +kernel

theorem witness_commands_9 : ([(obsConfigSpec, pk [12], cmdUp),
     (synSmpSpec, pk [1], ((cmdUp.setReg R.SYN_SMP_STATE 0).setReg R.SYN_REF_EST 10000)),
     (solConfigSpec, pk [r R.SOL_CFG, r R.SOL_CFG1, r R.SOL_CFG2], cmdUp),
     (solModeSpec, pk [wd (65536 + 1), 1], cmdUp)] : List (CmdSpec × Packet × State)).all
    (fun q => meets q.1 q.2.1 q.2.2) = true := by
  decide +kernel

theorem witness_commands_10 : ([(solPositionSpec, pk [0, 0, 0, 1], cmdUp),
     (solOscSpec, pk [0, 0, 0, 0], cmdUp),
     (solSteerSpec, pk [wd (14 * 2^32 + 300 * 2^20 + 600 * 256)], cmdUp),
     (catLoadSpec, pk [8, 0, 1] [5], cmdUp),
     (catTimeSpec, pk [wd (65536 + 1), 0, 0, 0, 0], cmdUp)] : List (CmdSpec × Packet × State)).all
    (fun q => meets q.1 q.2.1 q.2.2) = true := by
  decide +kernel

theorem witness_commands_11 : ([(catReadSpec, pk [8, 0, 1], cmdUp),
     (catClearSpec, pk [0x7F], cmdUp),
     (tpConfigSpec, pk [3, wd (2 ^ 28), 1000, 10, 0, 1000000, 1], cmdUp),
     (tpJumpSpec, pk [8], (cmdUp.setReg (R.TP_STATE 3) 2)),
     (capConfigSpec, pk [3, 8], cmdUp)] : List (CmdSpec × Packet × State)).all
    (fun q => meets q.1 q.2.1 q.2.2) = true := by
  decide +kernel

theorem witness_commands_12 : ([(calInjectSpec, pk [wd (2^35)], cmdUp),
     (calInjectSpec, pk [2], (cmdUp.setReg (R.FE_STATE 2) 3 |>.setReg (R.LO_STATE 6) 2)),
     (calInjectSpec, pk [2], cmdUp),
     (calSweepSpec, pk [2], ((cmdUp.setReg (R.FE_LO_ACT 2) (wd (32 * 1300000000))).setReg (R.FE_CFG 2) 3 |>.setReg (R.CALN_STATE 2) 2)),
     (calSweepSpec, pk [6], cmdUp)] : List (CmdSpec × Packet × State)).all
    (fun q => meets q.1 q.2.1 q.2.2) = true := by
  decide +kernel

theorem witness_commands_13 : ([(calConfigSpec, pk [0, r (R.CALN_CFG 0), 0, 0, 0, wd (2^17), 0], cmdUp),
     (bankHandoverSpec, pk [wd (7*64 + 3)], cmdUp),
     (bankConfigSpec, pk [wd (7*4096 + 2 * 256 + 7)], cmdUp),
     (bankPowerSpec, pk [wd (7*65536 + 1)], cmdUp),
     (memRepairReadSpec, pk [8, 0, 2], cmdUp)] : List (CmdSpec × Packet × State)).all
    (fun q => meets q.1 q.2.1 q.2.2) = true := by
  decide +kernel

theorem witness_commands_14 : ([(codeRamLoadSpec, pk [8, 0, 1, wd (crc32 (slotBytes [0]))] [0], cmdUp),
     (codeRamReadSpec, pk [8, 0, 2], cmdUp),
     (logDrainSpec, pk [4, 0, 5], ((cmdUp.setReg (R.RING_CFG 4) (wd (11 * 131072 + 4 * 4096))).setReg (R.RING_STATE 4) 1)),
     (provReadSpec, pk [8, 0, 2], cmdUp),
     (retiredReadSpec, pk [8, 0, 2], cmdUp)] : List (CmdSpec × Packet × State)).all
    (fun q => meets q.1 q.2.1 q.2.2) = true := by
  decide +kernel

theorem witness_commands_15 : ([(retiredRemoveSpec, pk [wd (uFe 0)], { cmdUp with nvs := { up.nvs with recs := [(4, ⟨true, false, 0, 0, [wd (uFe 0), 0, 0]⟩)] } }),
     (settingsReadSpec, pk [8, 0, 2], cmdUp),
     (settingsWriteSpec, pk [8, 0, 2] [0], cmdUp),
     (sensorReadSpec, pk [46], cmdUp),
     (lifecycleSpec, pk [wd (0x4620 * 2^20 + 2)], cmdUp)] : List (CmdSpec × Packet × State)).all
    (fun q => meets q.1 q.2.1 q.2.2) = true := by
  decide +kernel

theorem witness_commands_16 : ([(fwWriteSpec, pk [1, 8, 0, 1] [5], cmdUp),
     (fwVerifySpec, pk [0], cmdUp),
     (fwActivateSpec, pk [0], cmdUp),
     (fwInfoSpec, pk [], cmdUp),
     (fwCosignKeySpec, pk [8, 0, 8] [1,2,3,4,5,6,7,8], cmdUp)] : List (CmdSpec × Packet × State)).all
    (fun q => meets q.1 q.2.1 q.2.2) = true := by
  decide +kernel

theorem witness_commands_17 : ([(userLoadSpec, pk [1, 8, 0, 2] [0, wd (crc32 [])], (cmdUp.setReg (R.WG_STATE 0) 2)),
     (userClearSpec, pk [1], (cmdUp.setReg (R.WG_STATE 0) 2)),
     (userInfoSpec, pk [15], cmdUp)] : List (CmdSpec × Packet × State)).all
    (fun q => meets q.1 q.2.1 q.2.2) = true := by
  decide +kernel

/-- SYN_REF_CONFIG in a state with a clock waits. -/
theorem witness_commands_waits : waits synRefConfigSpec (pk [r R.SYN_REF_FREQ, r R.SYN_REF_CFG, r R.SYN_QUAL_CFG, r R.SYN_POLICY, r R.SYN_SMP_CFG, r R.SYN_SMP_LOCK]) cmdUp = true := by
  decide +kernel

theorem witness_commands_later : ([(feStateSpec, pk [16], cmdUp),
     (synSmpSpec, pk [2], (cmdUp.setReg R.SYN_SMP_STATE 5)),
     (acqSnapSpec, pk [4096], (rx.setReg (R.BANK_OWNER 0) 5)),
     (acqReleaseSpec, pk [15], cmdUp),
     (acqCancelSpec, pk [5], cmdUp),
     (acqListSpec, pk [0x10, 0,0,0,0], cmdUp),
     (acqReturnSpec, pk [0], (rx.setReg (R.BANK_OWNER 0) 5)),
     (chAssignSpec, pk [512, 0, 0, 0, 0, 0, 0], rx),
     (acqJobSpec, pk [wd (1 * 512 + 16), wd (2^22 + 2^15 + 4 * 512 + 4 * 16), 0, wd (5000 * 262144 + 500), 0, 0], (rx.setReg (R.ACQ_SNAP_DESC 16) (wd (2^35+100*1024))))] : List (CmdSpec × Packet × State)).all
    (fun q => meetsLater q.1 q.2.1 q.2.2) = true := by
  decide +kernel

/-- Each of these specifications is the one of its opcode (R452). -/
theorem witness_command_specs : cmdSpecOf acqCancelSpec.op = some acqCancelSpec ∧ cmdSpecOf acqJobSpec.op = some acqJobSpec ∧ cmdSpecOf acqListSpec.op = some acqListSpec
    ∧ cmdSpecOf acqReleaseSpec.op = some acqReleaseSpec ∧ cmdSpecOf acqReturnSpec.op = some acqReturnSpec ∧ cmdSpecOf acqSnapSpec.op = some acqSnapSpec
    ∧ cmdSpecOf bankConfigSpec.op = some bankConfigSpec ∧ cmdSpecOf bankHandoverSpec.op = some bankHandoverSpec ∧ cmdSpecOf bankPowerSpec.op = some bankPowerSpec
    ∧ cmdSpecOf calConfigSpec.op = some calConfigSpec ∧ cmdSpecOf calInjectSpec.op = some calInjectSpec ∧ cmdSpecOf calSweepSpec.op = some calSweepSpec
    ∧ cmdSpecOf capConfigSpec.op = some capConfigSpec ∧ cmdSpecOf catClearSpec.op = some catClearSpec ∧ cmdSpecOf catLoadSpec.op = some catLoadSpec
    ∧ cmdSpecOf catReadSpec.op = some catReadSpec ∧ cmdSpecOf catTimeSpec.op = some catTimeSpec ∧ cmdSpecOf chAssignSpec.op = some chAssignSpec
    ∧ cmdSpecOf chConfigSpec.op = some chConfigSpec ∧ cmdSpecOf chMoveSpec.op = some chMoveSpec ∧ cmdSpecOf chReleaseSpec.op = some chReleaseSpec
    ∧ cmdSpecOf chzConfigSpec.op = some chzConfigSpec ∧ cmdSpecOf codeRamLoadSpec.op = some codeRamLoadSpec ∧ cmdSpecOf codeRamReadSpec.op = some codeRamReadSpec
    ∧ cmdSpecOf devCancelSpec.op = some devCancelSpec ∧ cmdSpecOf devCmdCfgSpec.op = some devCmdCfgSpec ∧ cmdSpecOf devFaultPolicySpec.op = some devFaultPolicySpec
    ∧ cmdSpecOf devNopSpec.op = some devNopSpec ∧ cmdSpecOf devResetSpec.op = some devResetSpec ∧ cmdSpecOf feBiasSpec.op = some feBiasSpec
    ∧ cmdSpecOf feCalibrateSpec.op = some feCalibrateSpec ∧ cmdSpecOf feCoexSpec.op = some feCoexSpec ∧ cmdSpecOf feConfigSpec.op = some feConfigSpec
    ∧ cmdSpecOf feStateSpec.op = some feStateSpec ∧ cmdSpecOf fwActivateSpec.op = some fwActivateSpec ∧ cmdSpecOf fwCosignKeySpec.op = some fwCosignKeySpec
    ∧ cmdSpecOf fwInfoSpec.op = some fwInfoSpec ∧ cmdSpecOf fwVerifySpec.op = some fwVerifySpec ∧ cmdSpecOf fwWriteSpec.op = some fwWriteSpec
    ∧ cmdSpecOf lifecycleSpec.op = some lifecycleSpec ∧ cmdSpecOf logDrainSpec.op = some logDrainSpec ∧ cmdSpecOf loopDefaultSpec.op = some loopDefaultSpec
    ∧ cmdSpecOf loopHookSpec.op = some loopHookSpec ∧ cmdSpecOf loopParamGetSpec.op = some loopParamGetSpec ∧ cmdSpecOf loopParamSetSpec.op = some loopParamSetSpec
    ∧ cmdSpecOf loopSelectSpec.op = some loopSelectSpec ∧ cmdSpecOf loopStatusSpec.op = some loopStatusSpec ∧ cmdSpecOf memRepairReadSpec.op = some memRepairReadSpec
    ∧ cmdSpecOf notchConfigSpec.op = some notchConfigSpec ∧ cmdSpecOf obsConfigSpec.op = some obsConfigSpec ∧ cmdSpecOf provReadSpec.op = some provReadSpec
    ∧ cmdSpecOf replayCtrlSpec.op = some replayCtrlSpec ∧ cmdSpecOf retiredReadSpec.op = some retiredReadSpec ∧ cmdSpecOf retiredRemoveSpec.op = some retiredRemoveSpec
    ∧ cmdSpecOf sensorReadSpec.op = some sensorReadSpec ∧ cmdSpecOf settingsReadSpec.op = some settingsReadSpec ∧ cmdSpecOf settingsWriteSpec.op = some settingsWriteSpec
    ∧ cmdSpecOf solConfigSpec.op = some solConfigSpec ∧ cmdSpecOf solModeSpec.op = some solModeSpec ∧ cmdSpecOf solOscSpec.op = some solOscSpec
    ∧ cmdSpecOf solPositionSpec.op = some solPositionSpec ∧ cmdSpecOf solSteerSpec.op = some solSteerSpec ∧ cmdSpecOf streamConfigSpec.op = some streamConfigSpec
    ∧ cmdSpecOf synLoConfigSpec.op = some synLoConfigSpec ∧ cmdSpecOf synRampArmSpec.op = some synRampArmSpec ∧ cmdSpecOf synRampSegSpec.op = some synRampSegSpec
    ∧ cmdSpecOf synRefConfigSpec.op = some synRefConfigSpec ∧ cmdSpecOf synSmpSpec.op = some synSmpSpec ∧ cmdSpecOf tapConfigSpec.op = some tapConfigSpec
    ∧ cmdSpecOf tpConfigSpec.op = some tpConfigSpec ∧ cmdSpecOf tpJumpSpec.op = some tpJumpSpec ∧ cmdSpecOf userClearSpec.op = some userClearSpec
    ∧ cmdSpecOf userInfoSpec.op = some userInfoSpec ∧ cmdSpecOf userLoadSpec.op = some userLoadSpec ∧ cmdSpecOf wgCtrlSpec.op = some wgCtrlSpec :=
  ⟨rfl, rfl, rfl, rfl, rfl, rfl, rfl, rfl, rfl, rfl, rfl, rfl, rfl, rfl, rfl, rfl, rfl, rfl, rfl, rfl, rfl, rfl, rfl, rfl, rfl, rfl, rfl, rfl, rfl, rfl, rfl, rfl, rfl, rfl, rfl, rfl, rfl, rfl, rfl, rfl, rfl, rfl, rfl, rfl, rfl, rfl, rfl, rfl, rfl, rfl, rfl, rfl, rfl, rfl, rfl, rfl, rfl, rfl, rfl, rfl, rfl, rfl, rfl, rfl, rfl, rfl, rfl, rfl, rfl, rfl, rfl, rfl, rfl, rfl, rfl⟩

/-! ## Worked examples of the spec's chapters -/

/-- R41's worked example, and the grid instants of the stamped channel release of the commands chapter. -/
theorem test_dt_of_cycle : dtOfCycle 163681636800 = dtOf 1000 0x028F5C28F ∧ dtOfCycle (1000 * 163680000 + 87671100) = dtOf 1000 0x891EB851E
    ∧ dtOfCycle 1 = 419 ∧ dtOfCycle 2 = 839 := by
  decide +kernel

/-- The refused write of the register index chapter: the high dword is held, the low dword commits a reserved GAIN mode. -/
theorem test_refused_write :
    let t := busWrite .pcie 0x706 .loDword 0x0000D448 (busWrite .pcie 0x706 .hiDword 0 up)
    t.reg (R.FE_GAIN_CFG 2) = up.reg (R.FE_GAIN_CFG 2) ∧ t.reg R.GLB_RESVAL = 0x800003830 ∧ t.reg R.GLB_RESVAL_DATA = 0x00000D448
      ∧ t.reg R.GLB_RESVAL_CNT = 1 ∧ bit (t.reg R.GLB_SUMMARY) 0 = bit (up.reg R.GLB_SUMMARY) 0 ∧ bit (regPeek .pcie R.GLB_SUMMARY t) 0 = true := by
  decide +kernel

/-- The same register takes the corrected value. -/
theorem test_corrected_write : (busWrite .pcie 0x706 .loDword 0x00009448 (busWrite .pcie 0x706 .hiDword 0 up)).reg (R.FE_GAIN_CFG 2) = 0x000009448 := by
  decide +kernel

/-- The undefined read of offset 0xB000 of the same chapter. -/
theorem test_undefined_read :
    let t := busRead .pcie 0x1600 .qword up
    t.reg R.GLB_UNDEF_CNT = 1 ∧ t.reg R.GLB_UNDEF_ADDR = 0x80000B000 := by
  decide +kernel

/-- A wing core reads channel 717's register at word address 0x80_2ACD, the host at 0x1_5668. -/
theorem test_register_of_channel_717 : (regAt 0x15668).isSome = true ∧ 0x10400 + 0x1000 * 5 + 8 * 77 = 0x15668 ∧ 0x800000 + 0x15668 / 8 = 0x802ACD := by
  decide +kernel

/-- The fault policy's worked example: the third fault is permanent at 1,009.8 s and transient at 1,010.2 s. -/
theorem test_fault_policy :
    let s := (faultJudge 424 0 true (dtOf 1004 0x800000000) (faultJudge 424 0 true (dtOf 1000 0) up).2).2
    (faultJudge 424 0 true (dtOf 1000 0) up).1 = none ∧ (faultJudge 424 0 true (dtOf 1009 0xCCCCCCCCC) s).1 = some 1
      ∧ (faultJudge 424 0 true (dtOf 1010 0x333333333) s).1 = none := by
  decide +kernel

/-- The label of the time pulse report: GPS week 2,390, second 302,407. -/
theorem test_pulse_label : labelWords 1 TModel.unset (1000 * (2390 * 604800 + 302407)) = [0x095649D47, 0] := by
  decide +kernel

/-- Points 18, 19, 32, 33, 56 and 57 of the delay example's table. -/
def swept : State := up.setCal 0 { up.calU 0 with tbl := List.replicate 18 0 ++ [640, 584] ++ List.replicate 12 0 ++ [36, 30] ++ List.replicate 22 0 ++ [212, 260]
                                                    ++ List.replicate 6 0, tblOfs := 0 }
theorem test_delay_table : (calF 0 false (32 * 1023000) swept).1 = 31 ∧ (calF 0 false (-(32 * 10550000)) swept).1 = 628 ∧ (calF 0 false (32 * 20140000) swept).1 = 254 := by
  decide +kernel

/-- The ring example: PROD 4,288 with CONS 192 is full, and PROD has wrapped to 192 with CONS 7,778 at 606. -/
def ring3 (p c : Nat) : State := ((up.setReg (R.RING_CFG 3) 0x00006C600).setReg (R.RING_PROD 3) (wd p)).setReg (R.RING_CONS 3) (wd c)
theorem test_ring_occupancy : (ring3 4288 192).ringOcc 3 = 4096 ∧ (ring3 7980 7778).ringOcc 3 = 202 ∧ (ring3 192 7778).ringOcc 3 = 606 := by
  decide +kernel

/-- The bank example: the write stages OWNER ACQ (0x05) of bank 9 for the handover. -/
theorem test_handover_staged :
    let t := busWrite .pcie (BitVec.ofNat 14 (R.BANK_OWNER 9 / 8)) .qword 5 (up.setReg (R.BANK_OWNER 9) 1)
    t.bankStage 9 = 1 ∧ t.rf (R.BANK_STATE 9) 21 16 = 5 := by
  decide +kernel

end Sys2Proof.Tests
end

section
/-! Whole reads of BAR0 registers and their side effects (R9, R10, R415, R519, R520): the state an access works on, the row a defined
offset has, what a read of each kind of register gives, and the obligation on reads. -/

namespace Sys2Proof.Machine

/-! ## The state an access works on: only what the link holds differs -/

theorem onBus_eq (s : State) (src : Src) : s.onBus src = { s with hif := (s.onBus src).hif } := by
  unfold State.onBus
  split <;> rfl

@[simp] theorem onBus_regs (s : State) (src : Src) : (s.onBus src).regs = s.regs := by rw [onBus_eq]
@[simp] theorem onBus_mem (s : State) (src : Src) : (s.onBus src).mem = s.mem := by rw [onBus_eq]
@[simp] theorem onBus_out (s : State) (src : Src) : (s.onBus src).out = s.out := by rw [onBus_eq]
@[simp] theorem onBus_dt (s : State) (src : Src) : (s.onBus src).dt = s.dt := by rw [onBus_eq]
@[simp] theorem onBus_acc (s : State) (src : Src) : (s.onBus src).acc = s.acc := by rw [onBus_eq]
@[simp] theorem onBus_dtSnap (s : State) (src : Src) : (s.onBus src).dtSnap = s.dtSnap := by rw [onBus_eq]
@[simp] theorem onBus_reg (s : State) (src : Src) (o : Nat) : (s.onBus src).reg o = s.reg o := by simp [State.reg]
@[simp] theorem onBus_smpState (s : State) (src : Src) : (s.onBus src).smpState = s.smpState := by
  simp [State.smpState, State.rf]
@[simp] theorem onBus_dtSnapOf (s : State) (src u : Src) : (s.onBus src).dtSnapOf u = s.dtSnapOf u := by
  simp [State.dtSnapOf]
@[simp] theorem newestEvent_onBus (s : State) (src : Src) : newestEvent (s.onBus src) = newestEvent s := by
  rw [onBus_eq]; rfl

/-! ## The row of a defined offset (R512) -/

/-- What `regAt` found: the offset lies in the block it names, and the row is one of that block's and covers the offset. -/
theorem regAt_some {o : Nat} {l : RegLoc} (h : regAt o = some l) :
    ∃ t, blkOf o = some (l.blk, l.unit, t) ∧ l.row ∈ rowsOf l.blk ∧ l.row.hit t = true := by
  unfold regAt at h
  split at h
  · cases h
  · split at h
    · cases h
    · next b u t hb =>
      split at h
      · cases h
      · split at h
        · cases h
        · next r hr =>
          cases h
          have hhit : r.hit t = true := List.find?_some (p := fun r : RegRow => r.hit t) hr
          exact ⟨t, hb, List.mem_of_find?_eq_some hr, hhit⟩

theorem RegRow.hit_le {r : RegRow} {t : Nat} (h : r.hit t = true) : t ≤ r.off + r.stride * r.cnt := by
  unfold RegRow.hit at h
  split at h
  · simp at h; omega
  · next hs =>
    simp only [Bool.and_eq_true, decide_eq_true_eq] at h
    have hlt : t - r.off < r.cnt * r.stride := (Nat.div_lt_iff_lt_mul (Nat.pos_of_ne_zero hs)).mp h.2
    rw [Nat.mul_comm] at hlt
    omega

/-- The registers of the link's block end below the MSI-X table. -/
theorem rows_hif_end_below_msix : ∀ r ∈ rows_hif, r.off + r.stride * r.cnt < 0x400 := by decide

theorem blkOf_of_msixOff {o : Nat} (h : msixOff o = true) : blkOf o = some (.hif, 0, o - 0x800) ∧ 0x400 ≤ o - 0x800 := by
  have ho : 0xC00 ≤ o ∧ o < 0x1000 := by
    simp only [msixOff, Bool.or_eq_true, decide_eq_true_eq] at h; omega
  have h1 : ¬ o < 0x800 := by omega
  simp only [blkOf, h1, ho.2, if_true, if_false, true_and]
  omega

/-- No 36-bit register lies in the MSI-X table or the pending-bit array (R412). -/
theorem msixOff_eq_false_of_regAt {o : Nat} {l : RegLoc} (h : regAt o = some l) : msixOff o = false := by
  by_contra hm
  obtain ⟨hblk, hlow⟩ := blkOf_of_msixOff (Bool.not_eq_false _ ▸ hm)
  obtain ⟨t, hb, hmem, hhit⟩ := regAt_some h
  rw [hblk] at hb
  obtain ⟨blk, unit, row, inst⟩ := l
  cases hb
  have hle : o - 0x800 ≤ row.off + row.stride * row.cnt := RegRow.hit_le hhit
  exact absurd (rows_hif_end_below_msix row hmem) (by omega)

theorem regAt_glbDtSec : regAt R.GLB_DT_SEC = some ⟨.glb, 0, ⟨0x98, 0x0, 1, 0x0, 0x0, false, 0x0, 0x0, []⟩, 0⟩ := rfl
theorem regAt_glbDtFrac : regAt R.GLB_DT_FRAC = some ⟨.glb, 0, ⟨0xa0, 0x0, 1, 0x0, 0x0, false, 0x0, 0x0, []⟩, 0⟩ := rfl
theorem regAt_glbLastevt0 : regAt (R.GLB_LASTEVT 0) = some ⟨.glb, 0, ⟨0x100, 0x8, 8, 0x0, 0x0, false, 0x0, 0x0, []⟩, 0⟩ := rfl

/-! ## What a read of each kind of register gives -/

/-- A read of an RC register gives what it shows and clears it; besides, only the mark of a least value may change (R10). -/
theorem regRead_rc {o : Nat} {l : RegLoc} (src : Src) (s : State) (hl : regAt o = some l) (hrc : l.row.rc = true) :
    ∃ f, regRead src o s = (viewWord src o l s, { s.setReg o 0 with fresh := f }) := by
  have hsec : o ≠ R.GLB_DT_SEC := by rintro rfl; cases regAt_glbDtSec.symm.trans hl; cases hrc
  have hevt : o ≠ R.GLB_LASTEVT 0 := by rintro rfl; cases regAt_glbLastevt0.symm.trans hl; cases hrc
  simp only [regRead, hl, hsec, hevt, hrc, if_true, if_false]
  split
  · exact ⟨_, rfl⟩
  · exact ⟨s.fresh, rfl⟩

theorem regRead_glbDtSec (src : Src) (s : State) :
    regRead src R.GLB_DT_SEC s = (((takeDt src s).dtSnapOf src).sec, takeDt src s) := by
  simp only [regRead, regAt_glbDtSec, if_true]

theorem regRead_glbDtFrac (src : Src) (s : State) : regRead src R.GLB_DT_FRAC s = ((s.dtSnapOf src).frac, s) := rfl

theorem regRead_glbLastevt0 (src : Src) (s : State) :
    regRead src (R.GLB_LASTEVT 0) s = (((takeEvt src s).evtSnapOf src).getD 0 0, takeEvt src s) := rfl

/-! ## Snapshots (R519, R520) -/

theorem dtSnapOf_takeDt_same (src : Src) {s : State} (h : s.smpState ≠ 0) :
    (takeDt src s).dtSnapOf src = ⟨dtSec s.dt, dtFrac s.dt, wd s.acc⟩ := by
  simp [takeDt, State.dtSnapOf, h]

theorem dtSnapOf_takeDt_ne {src u : Src} (s : State) (h : srcKey u ≠ srcKey src) :
    (takeDt src s).dtSnapOf u = s.dtSnapOf u := tget_tset_ne _ _ _ h

theorem evtSnapOf_takeEvt_same (src : Src) (s : State) : (takeEvt src s).evtSnapOf src = newestEvent s := tget_tset_same _ _ _ _

/-! ## A whole read through the bus -/

theorem busRead_qword {slot : BitVec 14} (src : Src) (s : State) (h : msixOff (slotOff slot) = false) :
    busRead src slot .qword s = (regRead src (slotOff slot) (s.onBus src)).2.emit (.readData src (regRead src (slotOff slot) (s.onBus src)).1) := by
  cases src <;> simp [busRead, h, linkRead, State.onBus]

theorem exec_registerReadClear_live {src : Src} {s : State} (slot : BitVec 14) (wid : Width) (h : s.srcLive src = true) :
    exec (.registerReadClear src slot wid) s = .next (busRead src slot wid s) := if_pos h

theorem exec_glbDtSecRead_live {src : Src} {s : State} (wid : Width) (h : s.srcLive src = true) :
    exec (.glbDtSecRead src wid) s = .next (busRead src (BitVec.ofNat 14 (R.GLB_DT_SEC / 8)) wid s) := if_pos h

theorem exec_glbLastevt0Read_live {src : Src} {s : State} (wid : Width) (h : s.srcLive src = true) :
    exec (.glbLastevt0Read src wid) s = .next (busRead src (BitVec.ofNat 14 (R.GLB_LASTEVT 0 / 8)) wid s) := if_pos h

/-! ## The clauses of the obligation -/

theorem registerReadClear_clears {src : Src} {slot : BitVec 14} {l : RegLoc} {s : State} (hlive : s.srcLive src = true)
    (hl : regAt (slotOff slot) = some l) (hrc : l.row.rc = true) :
    ∃ t, exec (.registerReadClear src slot .qword) s = .next t
      ∧ t.out = Out.readData src (viewWord src (slotOff slot) l (s.onBus src)) :: s.out
      ∧ t.reg (slotOff slot) = 0 ∧ (∀ o, o ≠ slotOff slot → t.reg o = s.reg o) ∧ t.mem = s.mem := by
  obtain ⟨f, hread⟩ := regRead_rc src (s.onBus src) hl hrc
  refine ⟨_, exec_registerReadClear_live slot .qword hlive, ?_⟩
  rw [busRead_qword src s (msixOff_eq_false_of_regAt hl), hread]
  refine ⟨by simp, reg_setReg_same (s.onBus src) (slotOff slot) 0, fun o ho => ?_, by simp⟩
  exact (reg_setReg_ne (s.onBus src) 0 ho).trans (onBus_reg s src o)

theorem glbDtSecRead_snapshots {src : Src} {s : State} (hlive : s.srcLive src = true) (hon : s.smpState ≠ 0) :
    ∃ t, exec (.glbDtSecRead src .qword) s = .next t
      ∧ t.out = Out.readData src (dtSec s.dt) :: s.out
      ∧ t.dtSnapOf src = ⟨dtSec s.dt, dtFrac s.dt, wd s.acc⟩
      ∧ (∀ u, srcKey u ≠ srcKey src → t.dtSnapOf u = s.dtSnapOf u)
      ∧ t.regs = s.regs ∧ t.mem = s.mem := by
  have hoff : slotOff (BitVec.ofNat 14 (R.GLB_DT_SEC / 8)) = R.GLB_DT_SEC := rfl
  have hsnap : (takeDt src (s.onBus src)).dtSnapOf src = ⟨dtSec s.dt, dtFrac s.dt, wd s.acc⟩ := by
    rw [dtSnapOf_takeDt_same src (by simpa using hon)]; simp
  refine ⟨_, exec_glbDtSecRead_live .qword hlive, ?_⟩
  rw [busRead_qword src s rfl, hoff, regRead_glbDtSec, hsnap]
  refine ⟨congrArg _ (onBus_out s src), hsnap, fun u hu => ?_, onBus_regs s src, onBus_mem s src⟩
  exact (dtSnapOf_takeDt_ne (s.onBus src) hu).trans (onBus_dtSnapOf s src u)

theorem glbDtFracRead_returns_snapshot {src : Src} {s : State} (hlive : s.srcLive src = true) :
    ∃ t, exec (.registerReadClear src (BitVec.ofNat 14 (R.GLB_DT_FRAC / 8)) .qword) s = .next t
      ∧ t.out = Out.readData src (s.dtSnapOf src).frac :: s.out ∧ t.dtSnap = s.dtSnap := by
  have hoff : slotOff (BitVec.ofNat 14 (R.GLB_DT_FRAC / 8)) = R.GLB_DT_FRAC := rfl
  refine ⟨_, exec_registerReadClear_live _ .qword hlive, ?_⟩
  rw [busRead_qword src s rfl, hoff, regRead_glbDtFrac]
  exact ⟨by simp, by simp⟩

theorem glbLastevt0Read_snapshots {src : Src} {s : State} (hlive : s.srcLive src = true) :
    ∃ t, exec (.glbLastevt0Read src .qword) s = .next t
      ∧ t.evtSnapOf src = newestEvent s ∧ t.out = Out.readData src ((newestEvent s).getD 0 0) :: s.out
      ∧ t.regs = s.regs ∧ t.mem = s.mem := by
  have hoff : slotOff (BitVec.ofNat 14 (R.GLB_LASTEVT 0 / 8)) = R.GLB_LASTEVT 0 := rfl
  have hsnap : (takeEvt src (s.onBus src)).evtSnapOf src = newestEvent s := by
    rw [evtSnapOf_takeEvt_same, newestEvent_onBus]
  refine ⟨_, exec_glbLastevt0Read_live .qword hlive, ?_⟩
  rw [busRead_qword src s rfl, hoff, regRead_glbLastevt0, hsnap]
  exact ⟨hsnap, congrArg _ (onBus_out s src), onBus_regs s src, onBus_mem s src⟩

/-- Settles O6: a whole read of each of the four kinds works on the state `onBus`, in which only the link's held dwords differ,
and `regRead` gives its one side effect there. -/
theorem readsHaveTheirSideEffects : Obligations.ReadsHaveTheirSideEffects := by
  unfold Obligations.ReadsHaveTheirSideEffects
  exact ⟨fun _ _ _ _ hlive hl hrc => registerReadClear_clears hlive hl hrc,
    fun _ _ hlive hon => glbDtSecRead_snapshots hlive hon,
    fun _ _ hlive => glbDtFracRead_returns_snapshot hlive,
    fun _ _ hlive => glbLastevt0Read_snapshots hlive⟩

end Sys2Proof.Machine
end

section
/-! The statement on wings and channel assignment (R20, R188, R209 to R217, R240) fails: it speaks of every state, and a `Chan` holds the ring of
its records as a number that nothing bounds, where the commands' field for it has five bits. -/

namespace Sys2Proof.Machine

/-- A state in which channel 0 lags one sample cycle too far and its records go to ring 288, beyond the 32 rings of the spec. The registers of that
ring are those of wing 0: its class, a field of WG0_STATUS, is that of assignment records, it is OFF by WG0_UNITS, and it counts the records it drops
in WG0_OVERRUN_CNT. -/
def strayRing : State :=
  ((State.reset.setTap 0 0 { TapSt.off with newest := some 327361 }).setChan 0
    { Chan.free with cond := 1, entered := true, ring := 288 }).setReg (R.RING_CFG 288) (wd (7 * 131072))

theorem exec_channelOverrun_late {c : Fin 2048} {s : State} (hcond : (s.chan c).cond ≠ 0) (hin : (s.chan c).entered = true)
    (hlag : 327360 < chLag (s.chan c) s) : exec (.channelOverrun c) s = .next (chanOverrun c s) := by
  show execChannelOverrun c s = _
  simp [execChannelOverrun, hcond, hin, hlag]

theorem strayRing_overruns {c : Fin 2048} (hc : c = 0) :
    (strayRing.chan c).cond ≠ 0 ∧ (strayRing.chan c).entered = true ∧ 327360 < chLag (strayRing.chan c) strayRing := by
  subst hc
  decide +kernel

/-- The counter takes the overrun and, as the drop counter of ring 288, the record of the release: from 0 it goes to 2. -/
theorem strayRing_counts_overrun_and_drop {c : Fin 2048} (hc : c = 0) :
    strayRing.reg (R.WG_OVERRUN_CNT (c.val / 128)) = 0 ∧ (chanOverrun c strayRing).reg (R.WG_OVERRUN_CNT (c.val / 128)) = 2 := by
  subst hc
  decide +kernel

/-- Refutes O40: in `strayRing` the overrun of channel 0 advances WG0_OVERRUN_CNT by two, where the statement has it advance by one. -/
theorem not_wingsAndChannelAssignment : ¬ Obligations.WingsAndChannelAssignment := by
  unfold Obligations.WingsAndChannelAssignment
  intro h
  obtain ⟨-, -, -, -, -, hchan⟩ := h strayRing
  obtain ⟨c, hc⟩ : ∃ c : Fin 2048, c = 0 := ⟨0, rfl⟩
  obtain ⟨hcond, hin, hlag⟩ := strayRing_overruns hc
  obtain ⟨hbefore, hafter⟩ := strayRing_counts_overrun_and_drop hc
  obtain ⟨t, ht, -, hcnt, -⟩ := (hchan c).2 hcond hin hlag
  obtain rfl : chanOverrun c strayRing = t := Host.Outcome.next.inj ((exec_channelOverrun_late hcond hin hlag).symm.trans ht)
  rw [hbefore, hafter] at hcnt
  exact absurd hcnt (by decide)

end Sys2Proof.Machine
end

section
/-! What the records of an epoch and the steps of a solution leave alone (R247, R270, R271, R284): one relation, a rule for each operation. -/

namespace Sys2Proof.Machine

/-! ## Registers and fields -/

theorem State.setDt_reg_sec (s : State) {a b : Nat} (d : Dt) (h : a ≠ b) : (s.setDt a b d).reg a = dtSec d :=
  (reg_setReg_ne _ _ h).trans (reg_setReg_same _ _ _)

theorem State.setDt_reg_frac (s : State) (a b : Nat) (d : Dt) : (s.setDt a b d).reg b = dtFrac d := reg_setReg_same _ _ _

theorem State.setDt_reg_ne (s : State) {a b o : Nat} (d : Dt) (ha : o ≠ a) (hb : o ≠ b) : (s.setDt a b d).reg o = s.reg o :=
  (reg_setReg_ne _ _ hb).trans (reg_setReg_ne _ _ ha)

theorem fld_lt (w : Word) (hi lo : Nat) : fld w hi lo < 2 ^ (hi + 1 - lo) := Nat.mod_lt _ (Nat.two_pow_pos _)

/-! ## What is kept -/

/-- Registers that neither the records of an epoch nor what follows a holdover entry write. -/
def keptRegs : List Nat :=
  [R.OBS_CFG, R.OBS_EPOCH_SEC, R.OBS_EPOCH_FRAC, R.SOL_LAST_SEC, R.SOL_HOLD_SEC, R.SOL_HOLD_CNT]

/-- `t` agrees with `s` in those registers, in the last epoch closed and in what decides holdover. -/
structure Keeps (s t : State) : Prop where
  regs : ∀ o ∈ keptRegs, t.reg o = s.reg o
  closed : t.obs.closed = s.obs.closed
  holdover : t.sol.holdover = s.sol.holdover
  everValid : t.sol.everValid = s.sol.everValid
  t0 : t.sol.t0 = s.sol.t0

theorem evReg_of_mem_keptRegs : ∀ q < 32, ∀ o ∈ keptRegs, evReg q o = false := by decide +kernel

theorem calnStatus_not_mem_keptRegs (n : Nat) : R.CALN_STATUS n ∉ keptRegs := by
  simp only [keptRegs, R.CALN_STATUS, R.OBS_CFG, R.OBS_EPOCH_SEC, R.OBS_EPOCH_FRAC, R.SOL_LAST_SEC, R.SOL_HOLD_SEC, R.SOL_HOLD_CNT,
    List.mem_cons, List.not_mem_nil, or_false]
  omega

namespace Keeps

variable {s t u : State} {q o : Nat}

theorem refl (s : State) : Keeps s s := ⟨fun _ _ => rfl, rfl, rfl, rfl, rfl⟩

theorem trans (h : Keeps s t) (k : Keeps t u) : Keeps s u :=
  ⟨fun o ho => (k.regs o ho).trans (h.regs o ho), k.closed.trans h.closed, k.holdover.trans h.holdover, k.everValid.trans h.everValid,
    k.t0.trans h.t0⟩

theorem ite {c : Prop} [Decidable c] (h : Keeps s t) (k : Keeps s u) : Keeps s (if c then t else u) := by
  split
  · exact h
  · exact k

/-- A change of neither registers nor what belongs to epochs and solutions. -/
theorem of_eq (hr : t.regs = s.regs) (ho : t.obs = s.obs) (hs : t.sol = s.sol) : Keeps s t :=
  ⟨fun o _ => by simp [State.reg, hr], by rw [ho], by rw [hs], by rw [hs], by rw [hs]⟩

theorem of_quiet (hq : q < 32) (h : Quiet q s t) : Keeps s t := by
  have hobs : t.obs = s.obs := (congrArg State.obs h.1 :)
  have hsol : t.sol = s.sol := (congrArg State.sol h.1 :)
  exact ⟨fun o ho => h.2.1 o (evReg_of_mem_keptRegs q hq o ho), by rw [hobs], by rw [hsol], by rw [hsol], by rw [hsol]⟩

/-! ### Registers, cores, events and records -/

theorem setReg (h : o ∉ keptRegs) (v : Word) : Keeps s (s.setReg o v) :=
  ⟨fun _ ho => reg_setReg_ne s v (ne_of_mem_of_not_mem ho h), rfl, rfl, rfl, rfl⟩

theorem setF (h : o ∉ keptRegs) (hi lo v : Nat) : Keeps s (s.setF o hi lo v) := setReg h _
theorem cnt (h : o ∉ keptRegs) (n : Nat) : Keeps s (s.cnt o n) := setReg h _
theorem sticky (h : o ∉ keptRegs) (i : Nat) : Keeps s (s.sticky o i) := setReg h _

theorem stickyIf (h : o ∉ keptRegs) (c : Prop) [Decidable c] (i : Nat) (s : State) : Keeps s (if c then s.sticky o i else s) :=
  ite (sticky h i) (refl s)

theorem maxF (h : o ∉ keptRegs) (hi lo v : Nat) : Keeps s (s.maxF o hi lo v) := ite (setF h hi lo v) (refl s)

theorem pendLine (c l : Nat) (s : State) : Keeps s (pendLine c l s) := ite (of_eq rfl rfl rfl) (refl s)

theorem raise (code sev unit : Nat) (ps : List Word) (s : State) : Keeps s (raise code sev unit ps s) :=
  of_quiet (q := 2) (by decide) (Quiet.raise (by decide) code sev unit ps s)

theorem recordSeq (hq : q < 32) (ho : o ∉ keptRegs) (cls : Nat) (mk : Word → List Word) (s : State) : Keeps s (recordSeq q cls o mk s) :=
  ite (refl s) ((setReg ho _).trans (of_quiet hq (Quiet.record hq cls _ _)))

/-! ### The records of an epoch -/

theorem setCal (n : Nat) (x : CalSt) (s : State) : Keeps s (s.setCal n x) := of_eq rfl rfl rfl

theorem rxDelay (n sig : Nat) (carrier at_ : Int) (s : State) : Keeps s (rxDelay n sig carrier at_ s).2.2 := by
  have hsticky : Keeps s (s.sticky (R.CALN_STATUS n) 6) := sticky (calnStatus_not_mem_keptRegs n) 6
  unfold Machine.rxDelay
  dsimp only
  split
  · exact refl s
  · split
    · exact hsticky
    · exact (hsticky.trans (setCal n _ _)).trans (raise _ _ _ _ _)

theorem obsRecord (e : EpochAt) (r : EpCh) (k : Option Contrib) (prof : Bool) (s : State) : Keeps s (obsRecord e r k prof s).2 :=
  rxDelay _ _ _ _ s

theorem obsWrite (e : EpochAt) (hq : q < 32) (ps : List EpPart) (s : State) : Keeps s (obsWrite e q ps s).2 := by
  induction ps generalizing s with
  | nil => exact refl s
  | cons p ps ih =>
    unfold Machine.obsWrite
    split
    · exact ih s
    · have hrec := obsRecord e p.r p.k p.prof s
      split
      next r t hr =>
      rw [hr] at hrec
      extract_lets t0 t1 t2 t3 t5 n0 n1 t6
      have hflags : Keeps t t5 :=
        ((((stickyIf (by decide) _ 0 t).trans (stickyIf (by decide) _ 1 t0)).trans (stickyIf (by decide) _ 2 t1)).trans
          (stickyIf (by decide) _ 3 t2)).trans (stickyIf (by decide) _ 5 t3)
      have hwritten : Keeps t5 t6 :=
        ite (refl t5) (((cnt (by decide) 1).trans (ite (cnt (by decide) 1) (refl n0))).trans (recordSeq hq (by decide) _ _ n1))
      exact ((hrec.trans hflags).trans hwritten).trans (ih t6)

theorem profWrite (e : EpochAt) (hq : q < 32) (ps : List EpPart) (s : State) : Keeps s (profWrite e q ps s) := by
  induction ps generalizing s with
  | nil => exact refl s
  | cons p ps ih =>
    unfold Machine.profWrite
    refine trans ?_ (ih _)
    split
    · exact (cnt (by decide) 1).trans (recordSeq hq (by decide) _ _ _)
    · exact refl s

theorem catReject (sig svk cause : Nat) (s : State) : Keeps s (catReject sig svk cause s) :=
  ((cnt (by decide) 1).trans (sticky (by decide) 0)).trans (raise _ _ _ _ _)

theorem catSync (acc : Nat) (s : State) : Keeps s (catSync acc s) := setReg (by decide) _

theorem setCat (cat : List CatEnt) (s : State) : Keeps s { s with sol := { s.sol with cat := cat } } := ⟨fun _ _ => rfl, rfl, rfl, rfl, rfl⟩

theorem catEnter (sig svk fcn : Nat) (force : Bool) (ws : List Word) (len : Nat) (s : State) :
    Keeps s (catEnter sig svk fcn force ws len s).2 := by
  unfold Machine.catEnter
  dsimp only
  split
  · exact catReject _ _ _ s
  · split
    · exact refl s
    · split
      · exact (setCat _ s).trans (catSync 0 _)
      · split
        · exact (setCat _ s).trans (catSync 0 _)
        · exact catReject _ _ _ s

theorem navWrite (hq : q < 32) (keep : Bool) (r : EpCh) (ms : List NavMsg) (s : State) : Keeps s (navWrite q keep r ms s) := by
  induction ms generalizing s with
  | nil => exact refl s
  | cons m ms ih =>
    exact (((ite (catEnter _ _ _ _ _ _ s) (refl s)).trans (stickyIf (by decide) _ 4 _)).trans
      (ite (refl _) ((cnt (by decide) 1).trans (recordSeq hq (by decide) _ _ _)))).trans (ih _)

theorem navAll (e : EpochAt) (hq : q < 32) (ps : List EpPart) (s : State) : Keeps s (navAll e q ps s) := by
  induction ps generalizing s with
  | nil => exact refl s
  | cons p ps ih => exact (navWrite hq _ _ _ s).trans (ih _)

theorem epochAfter (e : EpochAt) (ps : List EpPart) (s : State) : Keeps s (epochAfter e ps s) := by
  induction ps generalizing s with
  | nil => exact refl s
  | cons p ps ih =>
    unfold Machine.epochAfter
    refine trans ?_ (ih _)
    split
    · exact of_eq rfl rfl rfl
    · exact ⟨fun _ _ => rfl, rfl, rfl, rfl, rfl⟩

/-! ### What a solution epoch does apart from its holdover -/

theorem foldl {α : Type} {f : State → α → State} (l : List α) (s : State) (hf : ∀ a ∈ l, ∀ t, Keeps t (f t a)) : Keeps s (l.foldl f s) := by
  induction l generalizing s with
  | nil => exact refl s
  | cons a l ih =>
    exact (hf a List.mem_cons_self s).trans (ih (f s a) fun b hb => hf b (List.mem_cons_of_mem a hb))

theorem setScales (l : List (Nat × ScaleM)) (s : State) : Keeps s { s with sol := { s.sol with scales := l } } :=
  ⟨fun _ _ => rfl, rfl, rfl, rfl, rfl⟩

theorem setSteer (x : SteerSt) (s : State) : Keeps s { s with sol := { s.sol with steer := x } } := ⟨fun _ _ => rfl, rfl, rfl, rfl, rfl⟩

theorem stepShift (d : Int) (s : State) : Keeps s (stepShift d s) := ⟨fun _ _ => rfl, rfl, rfl, rfl, rfl⟩

theorem leapSettle (te : Dt) (s : State) (k : Nat) : Keeps s (leapSettle te s k) := by
  unfold Machine.leapSettle
  dsimp only
  split
  · exact ite (setScales _ s) (refl s)
  · exact ite (setScales _ s) (refl s)
  · exact refl s

theorem fdeNote_pass (te : Dt) (core n u : Nat) (s : State) : Keeps s (fdeNote te core false n u s) := ⟨fun _ _ => rfl, rfl, rfl, rfl, rfl⟩

theorem ossSync (s : State) : Keeps s (ossSync s) := setReg (by decide) _

theorem ossDue (te : Dt) (code : Nat) (s : State) : Keeps s (ossDue te code s) := setSteer _ s

theorem ossFreeze (te : Dt) (s : State) : Keeps s (ossFreeze te s) := by
  unfold Machine.ossFreeze
  extract_lets n l sol steer s1 s2
  have h1 : Keeps s s1 := (setSteer _ s).trans (ossSync _)
  have h2 : Keeps s1 s2 := ite (sticky (by decide) 1) (refl s1)
  exact (h1.trans h2).trans (ite (refl s2) (ossDue _ _ s2))

theorem sclRegs (te : Dt) (s : State) (k : Nat) (h0 : R.SOL_SCL_TIME0 k ∉ keptRegs) (h1 : R.SOL_SCL_TIME1 k ∉ keptRegs)
    (h2 : R.SOL_SCL_STAT k ∉ keptRegs) : Keeps s (sclRegs te s k) :=
  ite (refl s) (((setReg h0 _).trans (setReg h1 _)).trans (setReg h2 _))

theorem sclAll (te : Dt) (s : State) : Keeps s (sclAll te s) := by
  have hregs : ∀ k ∈ [1, 2, 3, 4, 5, 6, 8, 9, 10, 11, 12, 13, 14],
      R.SOL_SCL_TIME0 k ∉ keptRegs ∧ R.SOL_SCL_TIME1 k ∉ keptRegs ∧ R.SOL_SCL_STAT k ∉ keptRegs := by decide
  refine foldl _ s fun k hk t => ?_
  obtain ⟨h0, h1, h2⟩ := hregs k hk
  exact sclRegs te t k h0 h1 h2

theorem solShowPos (p : List Word) (s : State) : Keeps s (solShowPos p s) :=
  ((setReg (by decide) _).trans (setReg (by decide) _)).trans (setReg (by decide) _)

theorem solHold (p : List Word) (s : State) : Keeps s (solHold p s) := by
  refine trans ?_ (setF (by decide) 3 3 1)
  exact ⟨fun _ _ => rfl, rfl, rfl, rfl, rfl⟩

theorem solSetMode (core v : Nat) (s : State) : Keeps s (solSetMode core v s) :=
  ite (refl s) ((setF (by decide) _ _ _).trans (raise _ _ _ _ _))

theorem nvsQueue (kind : Nat) (body : List Word) (s : State) : Keeps s (nvsQueue kind body s) := by
  unfold Machine.nvsQueue
  extract_lets free low src t u
  have ht : Keeps s t := of_eq rfl rfl rfl
  have hu : Keeps t u := setReg (by decide) _
  exact (ht.trans hu).trans (ite (raise _ _ _ _ u) (refl u))

theorem surveyStep (core : Nat) (te : Dt) (s : State) : Keeps s (surveyStep core te s) := by
  unfold Machine.surveyStep
  extract_lets ran mins acc t good pos u v
  have ht : Keeps s t := setReg (by decide) _
  have hu : Keeps t u := (solHold pos t).trans (solShowPos pos _)
  have hv : Keeps u v := ite (nvsQueue _ _ u) (refl u)
  exact ite (refl s) (ht.trans (ite (refl t) ((hu.trans hv).trans ((raise _ _ _ _ v).trans (solSetMode core 3 _)))))

theorem solFeed (te : Dt) (tacc fix hold : Nat) (s : State) : Keeps s (solFeed te tacc fix hold s) := of_eq rfl rfl rfl

/-- A solution record shows the epoch; besides, only what may be written with it changes. -/
theorem solRecord (te : Dt) (core disc : Nat) (r : SolRec) (s : State) :
    Keeps (s.setDt R.SOL_LAST_SEC R.SOL_LAST_FRAC te) (solRecord te core disc r s) := by
  unfold Machine.solRecord
  extract_lets t u
  have ht : Keeps (s.setDt R.SOL_LAST_SEC R.SOL_LAST_FRAC te) t := sclAll te _
  have hu : Keeps t u := setReg (by decide) _
  exact (ht.trans hu).trans (recordSeq (fld_lt _ 4 0) (by decide) _ _ u)

end Keeps

end Sys2Proof.Machine
end

section
/-! Epoch records, solution epochs, the steering output and faults of a solution core (R29 to R31, R247, R270, R271, R284, R289). -/

namespace Sys2Proof.Machine

/-! ## Closing an epoch (R247) -/

/-- The change of series shows the epoch's configuration and marks it as the last one closed. -/
theorem epochSeries_shows (e : EpochAt) (s : State) :
    (epochSeries e s).reg R.OBS_CFG = e.cfg ∧ (epochSeries e s).obs.closed = some e.dt :=
  ⟨reg_setReg_same _ R.OBS_CFG e.cfg, rfl⟩

theorem Keeps.setEpochs (l : List SolEp) (s : State) : Keeps s { s with sol := { s.sol with epochs := l } } :=
  ⟨fun _ _ => rfl, rfl, rfl, rfl, rfl⟩

/-- From the change of series on the records of the epoch keep what it set; then the epoch's DT is shown, and the rest of the step keeps all of it. -/
theorem closeEpoch_keeps (e : EpochAt) (s : State) :
    ∃ u v, Keeps (epochSeries e u) v ∧ Keeps (v.setDt R.OBS_EPOCH_SEC R.OBS_EPOCH_FRAC e.dt) (closeEpoch e s) := by
  unfold closeEpoch
  extract_lets rings qo qp qn u parts v navN profN align
  split
  next os w hw =>
  extract_lets supply st w1 w2 w3 w4 x x1 x2 lag x3 ep src
  have hrecords : Keeps v w4 := by
    have h0 : Keeps v w := by
      have h := Keeps.obsWrite (q := qo) e (fld_lt rings 4 0) parts v
      rwa [hw] at h
    have h1 : Keeps w w1 := Keeps.recordSeq (fld_lt rings 4 0) (by decide) _ _ w
    have h2 : Keeps w1 w2 := Keeps.profWrite e (fld_lt rings 12 8) parts w1
    have h3 : Keeps w2 w3 := Keeps.navAll e (fld_lt rings 20 16) parts w2
    exact (((h0.trans h1).trans h2).trans h3).trans (Keeps.epochAfter e parts w3)
  have hshow : Keeps (w4.setDt R.OBS_EPOCH_SEC R.OBS_EPOCH_FRAC e.dt) x3 := by
    have h0 : Keeps (w4.setDt R.OBS_EPOCH_SEC R.OBS_EPOCH_FRAC e.dt) x := (Keeps.pendLine 16 1 _).trans (Keeps.pendLine 17 1 _)
    have h1 : Keeps x x1 := Keeps.setF (by decide) _ _ _
    have h2 : Keeps x1 x2 := Keeps.ite (Keeps.cnt (by decide) 1) (Keeps.refl x1)
    have h3 : Keeps x2 x3 := Keeps.ite ((Keeps.setF (by decide) _ _ _).trans (Keeps.sticky (by decide) 35)) (Keeps.maxF (by decide) _ _ _)
    exact ((h0.trans h1).trans h2).trans h3
  refine ⟨u, w4, hrecords, hshow.trans ?_⟩
  clear_value x3
  split
  · exact Keeps.setEpochs _ x3
  · exact Keeps.refl x3

theorem closeEpoch_shows (e : EpochAt) (s : State) :
    (closeEpoch e s).reg R.OBS_EPOCH_SEC = dtSec e.dt ∧ (closeEpoch e s).reg R.OBS_EPOCH_FRAC = dtFrac e.dt
      ∧ (closeEpoch e s).obs.closed = some e.dt ∧ (closeEpoch e s).reg R.OBS_CFG = e.cfg := by
  obtain ⟨u, v, hrec, hshow⟩ := closeEpoch_keeps e s
  obtain ⟨hcfg, hclosed⟩ := epochSeries_shows e u
  refine ⟨?_, ?_, ?_, ?_⟩
  · rw [hshow.regs _ (by decide), State.setDt_reg_sec v e.dt (by decide)]
  · rw [hshow.regs _ (by decide), State.setDt_reg_frac]
  · exact hshow.closed.trans (hrec.closed.trans hclosed)
  · rw [hshow.regs _ (by decide), State.setDt_reg_ne v e.dt (by decide) (by decide), hrec.regs _ (by decide), hcfg]

/-! ## A solution epoch with no usable signal (R284) -/

/-- Holdover entry shows t0 and counts; what follows it in the same step keeps both. -/
theorem holdEnter_keeps (core : Nat) (te : Dt) (s : State) :
    ∃ x : SolSt, x.holdover = true ∧
      Keeps (({ s with sol := x }.setDt R.SOL_HOLD_SEC R.SOL_HOLD_FRAC s.sol.t0).cnt R.SOL_HOLD_CNT) (holdEnter core te s) := by
  unfold holdEnter
  extract_lets l sol t u
  have hfreeze : Keeps u (ossFreeze te (raise 0x612 2 (uSolk core) [wd u.sol.tacc0] (u.sticky R.SOL_STATUS 3))) :=
    ((Keeps.sticky (by decide) 3).trans (Keeps.raise _ _ _ _ _)).trans (Keeps.ossFreeze te _)
  exact ⟨t.sol, rfl, hfreeze⟩

theorem holdEnter_shows (core : Nat) (te : Dt) (s : State) :
    (holdEnter core te s).sol.holdover = true ∧ (holdEnter core te s).reg R.SOL_HOLD_CNT = bump (s.reg R.SOL_HOLD_CNT) 1
      ∧ (holdEnter core te s).reg R.SOL_HOLD_SEC = dtSec s.sol.t0 := by
  obtain ⟨x, hx, hk⟩ := holdEnter_keeps core te s
  refine ⟨hk.holdover.trans hx, ?_, ?_⟩
  · rw [hk.regs _ (by decide), State.cnt_eq, reg_setReg_same, State.setDt_reg_ne _ _ (by decide) (by decide)]
    rfl
  · rw [hk.regs _ (by decide), State.cnt_eq, reg_setReg_ne _ _ (by decide), State.setDt_reg_sec _ _ (by decide)]

/-- The state in which an epoch's satellites are chosen: offsets as they held at the epoch, leap seconds settled. -/
def solAt (ep : SolEp) (s : State) : State := [4, 8, 9, 10, 11, 12, 13].foldl (leapSettle ep.dt) (stepShift (stepsAfter ep s) s)

theorem Keeps.solAt (ep : SolEp) (s : State) : Keeps s (solAt ep s) :=
  (Keeps.stepShift _ s).trans (Keeps.foldl _ _ fun k _ t => Keeps.leapSettle ep.dt t k)

/-- Of the steps of a solution epoch only the holdover entry and the record of the epoch write what `Keeps` speaks of, in this order. -/
theorem solCompute_holdover_keeps (core : Nat) (ep : SolEp) (s : State) (hsats : usableSats ep.dt ep.recs (solAt ep s) = [])
    (hever : s.sol.everValid = true) (hhold : s.sol.holdover = false) :
    ∃ u v, Keeps s u ∧ Keeps (holdEnter core ep.dt u) v ∧ Keeps (v.setDt R.SOL_LAST_SEC R.SOL_LAST_FRAC ep.dt) (solCompute core ep s) := by
  unfold solCompute
  extract_lets te later s1 l mode unk solved test valid s1' sol s2 s3 s4 s5 s6 hold tau fix bad tacc drift used averaged pos z sys flags r
    s7 s8 s9 s10
  have hnone : solved = false := by simp [solved, show l = [] from hsats]
  have htest : test = ⟨[], solFit te s1 l, [], false⟩ := if_neg (by simp [hnone])
  have hs5 : Keeps s s5 := by
    have h2 : s2 = s1 := if_neg (by simp [hnone])
    have h3 : s3 = s2 := if_pos (by simp [htest])
    have h03 : Keeps s s3 := by
      rw [h3, h2]
      exact Keeps.solAt ep s
    have h4 : Keeps s3 s4 := by
      have hpass : test.fail = false := by rw [htest]
      simp only [s4, hpass]
      exact Keeps.fdeNote_pass _ _ _ _ s3
    have h5 : s5 = s4 := if_neg (by simp [valid, hnone])
    rw [h5]
    exact h03.trans h4
  have hs6 : s6 = holdEnter core te s5 := by
    have hever5 : s5.sol.everValid = true := hs5.everValid.trans hever
    have hhold5 : s5.sol.holdover = false := hs5.holdover.trans hhold
    simp only [s6, valid, hnone, hever5, hhold5, Bool.false_and, Bool.not_false, Bool.and_self, Bool.false_eq_true, if_false, if_true]
  have hs9 : Keeps s6 s9 := by
    have h7 : Keeps s6 s7 := Keeps.setReg (by decide) _
    have h8 : Keeps s7 s8 := Keeps.setReg (by decide) _
    exact (h7.trans h8).trans (Keeps.ite (Keeps.solShowPos _ s8) (Keeps.refl s8))
  have hs10 : Keeps (s9.setDt R.SOL_LAST_SEC R.SOL_LAST_FRAC te) s10 :=
    ((Keeps.solRecord te core ep.disc r s9).trans (Keeps.surveyStep core te _)).trans (Keeps.stepShift (-later) _)
  exact ⟨s5, s9, hs5, hs6 ▸ hs9, hs10.trans (Keeps.solFeed _ _ _ _ s10)⟩

theorem solCompute_enters_holdover (core : Nat) (ep : SolEp) (s : State) (hsats : usableSats ep.dt ep.recs (solAt ep s) = [])
    (hever : s.sol.everValid = true) (hhold : s.sol.holdover = false) :
    (solCompute core ep s).sol.holdover = true ∧ (solCompute core ep s).reg R.SOL_HOLD_CNT = bump (s.reg R.SOL_HOLD_CNT) 1
      ∧ (solCompute core ep s).reg R.SOL_LAST_SEC = dtSec ep.dt ∧ (solCompute core ep s).reg R.SOL_HOLD_SEC = dtSec s.sol.t0 := by
  obtain ⟨u, v, hu, hv, hrec⟩ := solCompute_holdover_keeps core ep s hsats hever hhold
  obtain ⟨hin, hcnt, hsec⟩ := holdEnter_shows core ep.dt u
  refine ⟨hrec.holdover.trans (hv.holdover.trans hin), ?_, ?_, ?_⟩
  · rw [hrec.regs _ (by decide), State.setDt_reg_ne _ _ (by decide) (by decide), hv.regs _ (by decide), hcnt, hu.regs _ (by decide)]
  · rw [hrec.regs _ (by decide), State.setDt_reg_sec _ _ (by decide)]
  · rw [hrec.regs _ (by decide), State.setDt_reg_ne _ _ (by decide) (by decide), hv.regs _ (by decide), hsec, hu.t0]

/-! ## Epochs and cores -/

theorem exec_epochRecords_ready {s : State} (hready : epochReady s.nextEpoch s = true) (hfree : epochHeld s.nextEpoch s = false)
    (hnone : s.sol.epochs = []) :
    exec .epochRecords s
      = .next (epochCommands true s.nextEpoch.dt (closeEpoch s.nextEpoch (epochCommands false s.nextEpoch.dt s))) := by
  show execEpochRecords s = _
  simp [execEpochRecords, hready, hfree, hnone]

/-- The epochs between two of the solutions that the core which also keeps the Catalogue forms (R271). -/
def solSpacing (ep : SolEp) (s : State) : Nat :=
  max 1 (s.rf R.SOL_CFG 35 28) * max 1 (ceilDiv 8184000 (max 1 (s.rf R.SOL_CFG 35 28) * max 1 ep.iv))

theorem solEpoch_solves {ep : SolEp} {s : State} (hcores : s.rf R.SOL_CORES 5 4 ≠ 3) (htake : s.sol.takeover = false)
    (hcat : s.catCore ≠ s.solCore) : solEpoch ep s = solCompute s.solCore ep s := by
  simp [solEpoch, hcores, htake, hcat]

theorem solEpoch_rateLimited {ep : SolEp} {s : State} (hcores : s.rf R.SOL_CORES 5 4 ≠ 3) (htake : s.sol.takeover = false)
    (hcat : s.catCore = s.solCore) (hgrid : ep.num % solSpacing ep s ≠ 0) :
    solEpoch ep s = stepShift (-stepsAfter ep (s.cnt R.SOL_RATELIM_CNT)) (solRecord ep.dt s.solCore ep.disc { SolRec.empty with
      rate := true, hold := (if s.sol.holdover then (ep.dt - s.sol.t0).toNat / 68719476736 else 0) }
      (stepShift (stepsAfter ep (s.cnt R.SOL_RATELIM_CNT)) (s.cnt R.SOL_RATELIM_CNT))) := by
  unfold solSpacing at hgrid
  simp only [solEpoch, hcores, htake, hcat, hgrid, if_false, Bool.false_eq_true, ne_eq, not_false_eq_true, and_self, if_true]

/-- Taking an epoch from those that wait changes nothing else that solving it reads. -/
theorem reads_of_setEpochs {s u : State} {l : List SolEp} (h : u = { s with sol := { s.sol with epochs := l } }) :
    u.rf = s.rf ∧ u.solCore = s.solCore ∧ u.catCore = s.catCore ∧ u.sol.takeover = s.sol.takeover ∧ u.sol.holdover = s.sol.holdover
      ∧ u.sol.t0 = s.sol.t0 := by
  subst h
  exact ⟨rfl, rfl, rfl, rfl, rfl, rfl⟩

theorem exec_solutionEpoch_cons {ep : SolEp} {rest : List SolEp} {s : State} (h : s.sol.epochs = ep :: rest) :
    exec .solutionEpoch s = .next (solEpoch ep { s with sol := { s.sol with epochs := rest } }) := by
  show Host.Outcome.next (solNext s) = _
  simp only [solNext, h]

theorem exec_solutionCoreFault_judged {k : Fin 2} {retryOk : Bool} {s u : State} {perm : Option Nat}
    (hin : bit (s.reg R.SOL_CORES) (4 + k) = false) (hrun : (s.core (16 + k)).started = true)
    (hj : faultJudge (uSolk k) 4 retryOk s.dt s = (perm, u)) :
    exec (.solutionCoreFault k retryOk) s = .next (perm.elim (solStart k u) fun _ => solRetire k u) := by
  show execSolutionCoreFault k retryOk s = _
  cases perm <;> simp [execSolutionCoreFault, hin, hrun, hj]

/-! ## The steering output -/

/-- The state once `code` has been sent, `x` what the steering loop then holds (R289). -/
def ossSent (code : Nat) (x : SolSt) (s : State) : State :=
  (((({ s with sol := x }).emit (.oss (ossFrame code s).1 (ossFrame code s).2)).setReg R.OSS_CODE (wd code)).cnt R.OSS_WRITE_CNT).setReg
    R.OSS_CODE_SEC (dtSec s.dt)

theorem exec_ossGridPoint_manual {s : State} (hclk : s.fsOn = true) (hen : bit (s.reg R.OSS_CFG) 0 = true)
    (hrate : s.rf R.OSS_CFG 11 5 ≠ 0) (hgrid : s.cycle % (163680000 / s.rf R.OSS_CFG 11 5) = 0) (hman : s.rf R.OSS_CFG 2 1 = 1) :
    ∃ x, exec .ossGridPoint s = .next (ossSent (s.rf R.OSS_MANUAL 23 0) x s) := by
  unfold State.rf at hrate hgrid hman
  show ∃ x, execOssGridPoint s = _
  simp only [execOssGridPoint, hclk, hen, hrate, hgrid, hman, Bool.not_true, Bool.or_false, decide_false, bne_self_eq_false,
    Bool.false_eq_true, if_false, if_true]
  exact ⟨_, rfl⟩

theorem ossSent_shows (code : Nat) (x : SolSt) (s : State) :
    (ossSent code x s).out = Out.oss (ossFrame code s).1 (ossFrame code s).2 :: s.out ∧ (ossSent code x s).reg R.OSS_CODE = wd code
      ∧ (ossSent code x s).reg R.OSS_CODE_SEC = dtSec s.dt
      ∧ (ossSent code x s).reg R.OSS_WRITE_CNT = bump (s.reg R.OSS_WRITE_CNT) 1
      ∧ (∀ o, o ∉ [R.OSS_CODE, R.OSS_CODE_SEC, R.OSS_WRITE_CNT] → (ossSent code x s).reg o = s.reg o) ∧ (ossSent code x s).mem = s.mem := by
  have hregs : (({ s with sol := x } : State).emit (.oss (ossFrame code s).1 (ossFrame code s).2)).reg = s.reg := rfl
  unfold ossSent
  refine ⟨rfl, ?_, reg_setReg_same _ _ _, ?_, fun o ho => ?_, rfl⟩
  · rw [reg_setReg_ne _ _ (by decide), State.cnt_eq, reg_setReg_ne _ _ (by decide), reg_setReg_same]
  · rw [reg_setReg_ne _ _ (by decide), State.cnt_eq, reg_setReg_same, reg_setReg_ne _ _ (by decide), hregs]
  · simp only [List.mem_cons, List.not_mem_nil, or_false, not_or] at ho
    obtain ⟨hcode, hsec, hcnt⟩ := ho
    rw [reg_setReg_ne _ _ hsec, State.cnt_eq, reg_setReg_ne _ _ hcnt, reg_setReg_ne _ _ hcode, hregs]

/-- Settles O42: what closing an epoch and entering holdover show is kept to the end of the step by every later operation (`Keeps`); the other
clauses are the branches of the rows taken. -/
theorem epochsSolutionsAndSteering : Obligations.EpochsSolutionsAndSteering := by
  unfold Obligations.EpochsSolutionsAndSteering
  intro s
  refine ⟨?_, fun e => closeEpoch_shows e s, ?_, ?_, ?_, ?_⟩
  · rintro e rfl hready hfree hnone
    exact exec_epochRecords_ready hready hfree hnone
  · intro ep rest u hq hu hcores htake
    obtain ⟨hrf, hsol, hcat, htk, hhold, ht0⟩ := reads_of_setEpochs hu
    rw [← hrf] at hcores
    rw [← htk] at htake
    rw [← hsol, ← hcat, ← hrf, ← hhold, ← ht0, exec_solutionEpoch_cons hq, ← hu]
    refine ⟨fun hother => congrArg _ (solEpoch_solves hcores htake hother), ?_⟩
    rintro hsame hgrid v k rfl rfl
    exact congrArg _ (solEpoch_rateLimited hcores htake hsame hgrid)
  · rintro core ep v rfl hsats hever hhold
    exact solCompute_enters_holdover core ep s hsats hever hhold
  · intro hclk hen hrate hgrid hman
    obtain ⟨x, hx⟩ := exec_ossGridPoint_manual hclk hen hrate hgrid hman
    exact ⟨_, hx, ossSent_shows _ x s⟩
  · intro k retryOk u hin hrun
    exact ⟨fun hj => by rw [exec_solutionCoreFault_judged hin hrun hj, Option.elim_none],
      fun c hj => by rw [exec_solutionCoreFault_judged hin hrun hj, Option.elim_some]⟩

end Sys2Proof.Machine
end

section
/-! What no operation below the sample clock undoes (R40, R41, R377, R512): one relation, and a rule for each operation of the model. -/

namespace Sys2Proof.Machine

set_option Elab.async false

/-- What the operations of the model leave true of a state `s`: the registers and the SRAM stay in canonical form, device time, its accumulator
and the commands still to come are as they were, and, unless `q`, so are the commands that wait and those that are parked. -/
structure Frame (q : Bool) (s t : State) : Prop where
  regs : twf regReset s.regs = true → twf regReset t.regs = true
  mem : Memory.wf s.mem = true → Memory.wf t.mem = true
  clock : t.acc = s.acc ∧ t.cycle = s.cycle ∧ t.dt = s.dt
  pending : t.pending = s.pending
  held : q = false → t.cmdPend = s.cmdPend ∧ t.cmdPark = s.cmdPark

/-- What a command's effect and its refusal keep. -/
structure CmdSpec.Framed (c : CmdSpec) : Prop where
  eff : ∀ {h : HeldCmd} {s t : State}, Frame true s t → Frame true s (c.eff h t).2
  refuse : ∀ {h : HeldCmd} {st : Nat} {s t : State}, Frame true s t → Frame true s (c.refuse h st t).2

/-- Every state an outcome answers has the property. -/
def Gives (o : Host.Outcome State Fault Refusal) (p : State → Prop) : Prop := ∀ t, o = .next t → p t

theorem Gives.next {p : State → Prop} {s : State} (h : p s) : Gives (.next s) p := by
  rintro t ⟨⟩
  exact h

theorem Gives.fault {p : State → Prop} {r : Fault} : Gives (.fault r) p := by
  intro t h
  cases h

theorem Gives.refused {p : State → Prop} {r : Refusal} : Gives (.refused r) p := by
  intro t h
  cases h

theorem Gives.ite {p : State → Prop} {c : Prop} {_ : Decidable c} {a b : Host.Outcome State Fault Refusal} (ha : Gives a p) (hb : Gives b p) :
    Gives (if c then a else b) p := by
  split
  · exact ha
  · exact hb

namespace Frame

variable {q : Bool} {s t u : State}

theorem refl (s : State) : Frame q s s := ⟨id, id, ⟨rfl, rfl, rfl⟩, rfl, fun _ => ⟨rfl, rfl⟩⟩

/-- The commands held changed, and nothing else that is spoken of. -/
theorem queued (h : Frame true s t)
    (e : (u.regs, u.mem, u.acc, u.cycle, u.dt, u.pending) = (t.regs, t.mem, t.acc, t.cycle, t.dt, t.pending) := by with_reducible exact rfl) :
    Frame true s u := by
  obtain ⟨hr, hm, ha, hc, hd, hp⟩ : u.regs = t.regs ∧ u.mem = t.mem ∧ u.acc = t.acc ∧ u.cycle = t.cycle ∧ u.dt = t.dt
      ∧ u.pending = t.pending := by simpa using e
  obtain ⟨hregs, hmem, ⟨hacc, hcycle, hdt⟩, hpending, -⟩ := h
  exact ⟨fun w => hr ▸ hregs w, fun w => hm ▸ hmem w, ⟨ha.trans hacc, hc.trans hcycle, hd.trans hdt⟩, hp.trans hpending, nofun⟩

/-- Nothing changed that is spoken of. -/
theorem same (h : Frame q s t)
    (e : (u.regs, u.mem, u.acc, u.cycle, u.dt, u.pending, u.cmdPend, u.cmdPark)
      = (t.regs, t.mem, t.acc, t.cycle, t.dt, t.pending, t.cmdPend, t.cmdPark) := by with_reducible exact rfl) :
    Frame q s u := by
  obtain ⟨hr, hm, ha, hc, hd, hp, hpend, hpark⟩ : u.regs = t.regs ∧ u.mem = t.mem ∧ u.acc = t.acc ∧ u.cycle = t.cycle ∧ u.dt = t.dt
      ∧ u.pending = t.pending ∧ u.cmdPend = t.cmdPend ∧ u.cmdPark = t.cmdPark := by simpa using e
  obtain ⟨hregs, hmem, ⟨hacc, hcycle, hdt⟩, hpending, hheld⟩ := h
  exact ⟨fun w => hr ▸ hregs w, fun w => hm ▸ hmem w, ⟨ha.trans hacc, hc.trans hcycle, hd.trans hdt⟩, hp.trans hpending,
    fun hq => ⟨hpend.trans (hheld hq).1, hpark.trans (hheld hq).2⟩⟩

/-- Commands held may change. -/
theorem loosen (h : Frame q s t) : Frame true s t := ⟨h.regs, h.mem, h.clock, h.pending, nofun⟩

theorem ite {c : Prop} {_ : Decidable c} (ht : Frame q s t) (hu : Frame q s u) : Frame q s (if c then t else u) := by
  split
  · exact ht
  · exact hu

theorem ite_fst {α : Type} {c : Prop} {_ : Decidable c} {x y : State × α} (hx : Frame q s x.1) (hy : Frame q s y.1) :
    Frame q s (if c then x else y).1 := by
  split
  · exact hx
  · exact hy

theorem ite_snd {α : Type} {c : Prop} {_ : Decidable c} {x y : α × State} (hx : Frame q s x.2) (hy : Frame q s y.2) :
    Frame q s (if c then x else y).2 := by
  split
  · exact hx
  · exact hy

theorem ite_thd {α β : Type} {c : Prop} {_ : Decidable c} {x y : α × β × State} (hx : Frame q s x.2.2) (hy : Frame q s y.2.2) :
    Frame q s (if c then x else y).2.2 := by
  split
  · exact hx
  · exact hy

theorem of_fst {α : Type} {x : State × α} {a : α} (e : x = (t, a)) (h : Frame q s x.1) : Frame q s t := by
  subst e
  exact h

theorem of_snd {α : Type} {x : α × State} {a : α} (e : x = (a, t)) (h : Frame q s x.2) : Frame q s t := by
  subst e
  exact h

theorem of_thd {α β : Type} {x : α × β × State} {a : α} {b : β} (e : x = (a, b, t)) (h : Frame q s x.2.2) : Frame q s t := by
  subst e
  exact h

theorem foldl {α : Type} {f : State → α → State} {l : List α} (h : Frame q s t) (hf : ∀ u a, Frame q s u → Frame q s (f u a)) :
    Frame q s (l.foldl f t) := by
  induction l generalizing t with
  | nil => exact h
  | cons a l ih => exact ih (hf t a h)

/-! ### Registers and stored words -/

theorem setReg {o : Nat} {v : Word} (h : Frame q s t) : Frame q s (t.setReg o v) :=
  ⟨fun w => regs_wf_setReg o v (h.regs w), h.mem, h.clock, h.pending, h.held⟩

theorem filterRegs {f : Nat × Word → Bool} (h : Frame q s t) : Frame q s { t with regs := t.regs.filter f } :=
  ⟨fun w => twf_filter _ _ _ (h.regs w), h.mem, h.clock, h.pending, h.held⟩

theorem putStored {k : Nat} {x : Stored} (h : Frame q s t) : Frame q s (t.putStored k x) :=
  ⟨h.regs, fun w => wf_putStored k x (h.mem w), h.clock, h.pending, h.held⟩

theorem zeroMem {k n : Nat} (h : Frame q s t) : Frame q s (t.zeroMem k n) :=
  ⟨h.regs, fun w => wf_zeroMem k n (h.mem w), h.clock, h.pending, h.held⟩

theorem clearMem (h : Frame q s t) : Frame q s { t with mem := [] } := ⟨h.regs, fun _ => rfl, h.clock, h.pending, h.held⟩

end Frame

end Sys2Proof.Machine
end

section
/-! The frame through the shared operations: events, records, rings, stored words and the admission of commands. -/

namespace Sys2Proof.Machine

set_option Elab.async false

namespace Frame

variable {q : Bool} {s t u : State}

/-! ## Shared operations -/

theorem setF {o hi lo v : Nat} (h : Frame q s t) :
    Frame q s (State.setF t o hi lo v) :=
  h.setReg

theorem cnt {o n : Nat} (h : Frame q s t) :
    Frame q s (State.cnt t o n) :=
  h.setReg

theorem sticky {o i : Nat} (h : Frame q s t) :
    Frame q s (State.sticky t o i) :=
  h.setReg

theorem incr {o : Nat} (h : Frame q s t) :
    Frame q s (State.incr t o) :=
  h.setReg

theorem setDt {oSec oFrac : Nat} {d : Dt} (h : Frame q s t) :
    Frame q s (State.setDt t oSec oFrac d) :=
  h.setReg.setReg

theorem maxF {o hi lo v : Nat} (h : Frame q s t) :
    Frame q s (State.maxF t o hi lo v) :=
  Frame.ite h.setF h

theorem minF {o hi lo v : Nat} (h : Frame q s t) :
    Frame q s (State.minF t o hi lo v) :=
  Frame.ite h.setF.same (Frame.ite h.setF h)

theorem takeFree (h : Frame q s t) :
    Frame q s (State.takeFree t).2 :=
  h.same rfl

theorem emit {o : Out} (h : Frame q s t) :
    Frame q s (State.emit t o) :=
  h.same rfl

theorem storeBits {k : Nat} {x : Stored} (h : Frame q s t) :
    Frame q s (State.storeBits t k x) :=
  Frame.ite h.putStored.setReg.sticky h.putStored

theorem store {k : Nat} {d : Word} (h : Frame q s t) :
    Frame q s (State.store t k d) :=
  h.storeBits

theorem storeList {k : Nat} {a : List Word} (h : Frame q s t) :
    Frame q s (Machine.storeList k a t) := by
  induction a generalizing k t with
  | nil => exact h
  | cons x xs ih =>
    unfold Machine.storeList
    exact ih h.store

theorem msiDue {v : Nat} (h : Frame q s t) :
    Frame q s (Machine.msiDue v t) :=
  Frame.ite h.cnt (Frame.ite h.cnt.same h.cnt.emit)

theorem alertSet {i : Nat} (h : Frame q s t) :
    Frame q s (Machine.alertSet i t) :=
  Frame.ite h (Frame.ite h.sticky.msiDue h.sticky)

theorem vecLat {v us : Nat} (h : Frame q s t) :
    Frame q s (Machine.vecLat v us t) :=
  (Frame.ite h.sticky h).maxF

theorem setRh {q' : Nat} {r : RingH} (h : Frame q s t) :
    Frame q s (State.setRh t q' r) :=
  h.same rfl

theorem setRingState {q' v : Nat} (h : Frame q s t) :
    Frame q s (Machine.setRingState q' v t) :=
  h.setF.setReg.setReg

theorem syncFull {q' : Nat} (h : Frame q s t) :
    Frame q s (Machine.syncFull q' t) :=
  h.setReg

theorem syncRingBit (h : Frame q s t) :
    Frame q s (Machine.syncRingBit t) :=
  Frame.ite h.setReg h.alertSet

theorem ringMessage {q' : Nat} (h : Frame q s t) :
    Frame q s (Machine.ringMessage q' t) :=
  h.vecLat.setRh.sticky.syncRingBit.msiDue

theorem ringModerate {q' : Nat} {written : Bool} (h : Frame q s t) :
    Frame q s (Machine.ringModerate q' written t) :=
  Frame.ite h (Frame.ite ((Frame.ite h.setRh.sticky h.setRh).ringMessage) (Frame.ite h.setRh.sticky h.setRh))

theorem countBytes {tx : Bool} {n : Nat} (h : Frame q s t) :
    Frame q s (Machine.countBytes tx n t) := by
  unfold Machine.countBytes
  extract_lets
  refine .ite ?_ ?_
  · exact (Frame.ite h h.cnt).same
  · exact (Frame.ite h h.cnt).same

theorem bankServe {b : Nat} (h : Frame q s t) :
    Frame q s (Machine.bankServe b t).1 := by
  unfold Machine.bankServe
  extract_lets _ _ _ t4 t5 t6
  have h4 : Frame q s t4 := Frame.ite h.zeroMem h
  have h5 : Frame q s t5 := h4.setF
  have h6 : Frame q s t6 := h5.same
  refine .ite_fst h ?_
  split
  · exact h6
  · exact h6.cnt.sticky

theorem ringWriteBack {q' idx : Nat} (h : Frame q s t) :
    Frame q s (Machine.ringWriteBack q' idx t) :=
  Frame.ite (Frame.ite (Frame.ite h.store h) h.emit) h

theorem rateOkAt {sec : Word} {key : Nat} (h : Frame q s t) :
    Frame q s (Machine.rateOkAt sec key t).2 :=
  ite_snd h.same h.same

theorem rateOk {key : Nat} (h : Frame q s t) :
    Frame q s (Machine.rateOk key t).2 :=
  h.rateOkAt

theorem ringDrop {q' : Nat} (h : Frame q s t) :
    Frame q s (Machine.ringDrop q' t).1 :=
  ite_fst h.cnt.sticky.setRh (ite_fst h.cnt.sticky.setRh.rateOk.setRh h.cnt.sticky.setRh.rateOk)

theorem dmaCapture {q' cause : Nat} {addr : Option Nat} (h : Frame q s t) :
    Frame q s (Machine.dmaCapture q' cause addr t) := by
  unfold Machine.dmaCapture
  extract_lets t1
  have h1 : Frame q s t1 := h.setReg.sticky
  split
  · exact h1.setReg.setReg
  · exact h1

theorem ringHaltEv {q' cause : Nat} {addr : Option Nat} (h : Frame q s t) :
    Frame q s (Machine.ringHaltEv q' cause addr t).1 :=
  h.setRingState.dmaCapture.setRh.sticky.msiDue.alertSet

theorem ringPlace {q' slot at_ : Nat} {ws : List Word} {bytes : List (BitVec 8)} (h : Frame q s t) :
    Frame q s (Machine.ringPlace q' slot at_ ws bytes t).1 :=
  ite_fst h.bankServe.storeList h.emit

theorem ringCommit {q' p : Nat} (h : Frame q s t) :
    Frame q s (Machine.ringCommit q' p t) :=
  (Frame.ite h.setF.countBytes.maxF.sticky h.setF.countBytes.maxF).syncFull.ringWriteBack.ringModerate

theorem ringPutB {q' cls : Nat} {ws : List Word} {bytes : List (BitVec 8)} (h : Frame q s t) :
    Frame q s (Machine.ringPutB q' cls ws bytes t).1 :=
  ite_fst h.cnt.sticky (ite_fst h.ringDrop (ite_fst h.ringHaltEv h.ringPlace.ringCommit))

theorem ringPut {q' cls : Nat} {ws : List Word} (h : Frame q s t) :
    Frame q s (Machine.ringPut q' cls ws t).1 :=
  h.ringPutB

theorem provQueue {e : EvReq} {mk : Bool → List Word} (h : Frame q s t) :
    Frame q s (Machine.provQueue e mk t).2 :=
  ite_snd (ite_snd h.same h.cnt.sticky.same) h

theorem evNumber {e : EvReq} (h : Frame q s t) :
    Frame q s (Machine.evNumber e t) :=
  Frame.ite h.setReg.same h.setReg

theorem evLog {e : EvReq} {acc : Word} {ws : List Word} (h : Frame q s t) :
    Frame q s (Machine.evLog e acc ws t) :=
  Frame.ite ((Frame.ite h.storeList.same h.storeList).alertSet) (Frame.ite h.storeList.same h.storeList)

theorem evDeliver {e : EvReq} {ws : List Word} (h : Frame q s t) :
    Frame q s (Machine.evDeliver e ws t).1 :=
  ite_fst (Frame.ite h.ringPut.cnt (Frame.ite h.ringPut.alertSet h.ringPut)) h

theorem postEvent {e : EvReq} (h : Frame q s t) :
    Frame q s (Machine.postEvent e t).1 :=
  ite_fst h h.evNumber.provQueue.evLog.evDeliver

theorem raiseList {n : Nat} {es : List EvReq} (h : Frame q s t) :
    Frame q s (Machine.raiseList n es t) := by
  induction n generalizing es t with
  | zero => exact h
  | succ n ih =>
    cases es with
    | nil => exact h
    | cons e es => exact ih h.postEvent

theorem raise {code sev unit : Nat} {params : List Word} (h : Frame q s t) :
    Frame q s (Machine.raise code sev unit params t) :=
  h.raiseList

theorem raiseAt {d : Dt} {code sev unit : Nat} {params : List Word} (h : Frame q s t) :
    Frame q s (Machine.raiseAt d code sev unit params t) :=
  h.raiseList

theorem raiseIn {sec : Word} {code sev unit : Nat} {params : List Word} (h : Frame q s t) :
    Frame q s (Machine.raiseIn sec code sev unit params t) :=
  Frame.ite h.rateOkAt.raise h.rateOkAt

theorem raiseLimited {code sev unit : Nat} {params : List Word} (h : Frame q s t) :
    Frame q s (Machine.raiseLimited code sev unit params t) :=
  h.raiseIn

theorem record {q' cls : Nat} {ws : List Word} (h : Frame q s t) :
    Frame q s (Machine.record q' cls ws t) :=
  Frame.ite h h.ringPut.raiseList

theorem ringHalt {q' cause : Nat} {addr : Option Nat} (h : Frame q s t) :
    Frame q s (Machine.ringHalt q' cause addr t) :=
  h.ringHaltEv.raiseList

theorem recordSeq {q' cls seqReg : Nat} {mk : Word → List Word} (h : Frame q s t) :
    Frame q s (Machine.recordSeq q' cls seqReg mk t) :=
  Frame.ite h h.incr.record

theorem ringConsume {q' : Nat} (h : Frame q s t) :
    Frame q s (Machine.ringConsume q' t) :=
  h.setF.countBytes.syncFull.ringWriteBack.ringModerate

theorem setCore {c : Nat} {x : ApCore} (h : Frame q s t) :
    Frame q s (State.setCore t c x) :=
  h.same rfl

theorem pendLine {c l : Nat} (h : Frame q s t) :
    Frame q s (Machine.pendLine c l t) :=
  Frame.ite h.setCore h

theorem dropSnaps {keys : Nat → Bool} (h : Frame q s t) :
    Frame q s (Machine.dropSnaps keys t) :=
  h.same rfl

theorem startCore {c : Nat} (h : Frame q s t) :
    Frame q s (Machine.startCore c t) :=
  h.setCore.dropSnaps

theorem setMerr {m : Nat} {e : MemErr} (h : Frame q s t) :
    Frame q s (State.setMerr t m e) :=
  Frame.ite h.same.setReg h.same

theorem ceCount {k syn : Nat} (h : Frame q s t) :
    Frame q s (Machine.ceCount k syn t) := by
  unfold Machine.ceCount
  extract_lets _ _ _ _ _ _ _ t8 t9 t10 _ t12 t13 t14
  have h8 : Frame q s t8 := h.cnt
  have h9 : Frame q s t9 := Frame.ite h8.cnt.setReg.setReg h8
  have h10 : Frame q s t10 := h9.setMerr
  have h12 : Frame q s t12 := h10.same
  have h13 : Frame q s t13 := h12.sticky
  have h14 : Frame q s t14 := Frame.ite h13.sticky h13
  exact Frame.ite h14.raise h12

theorem ceFound {k syn : Nat} (h : Frame q s t) :
    Frame q s (Machine.ceFound k syn t) :=
  Frame.ite h h.ceCount

theorem ueFound {k requester : Nat} (h : Frame q s t) :
    Frame q s (Machine.ueFound k requester t) :=
  (Frame.ite h.cnt.sticky.setReg.setReg.setDt.cnt.sticky.setReg.setReg h.cnt.sticky.setReg.setReg.setDt).raise

theorem memRead {k requester : Nat} (h : Frame q s t) :
    Frame q s (Machine.memRead k requester t).1 := by
  unfold Machine.memRead
  refine .ite_fst h.ueFound ?_
  split
  · exact h
  · exact h.ceFound
  · exact h.ueFound
  · exact h.ueFound

theorem setBh {b : Nat} {x : BankH} (h : Frame q s t) :
    Frame q s (State.setBh t b x) :=
  h.same rfl

theorem setBankPower {b v : Nat} (h : Frame q s t) :
    Frame q s (Machine.setBankPower b v t) :=
  Frame.ite h h.setF.raise

theorem nonOwner {b a requester : Nat} (h : Frame q s t) :
    Frame q s (Machine.nonOwner b a requester t) :=
  h.cnt.sticky.cnt.sticky.raiseLimited

theorem shadowBack {r : Nat} (h : Frame q s t) :
    Frame q s (Machine.shadowBack r t) := by
  unfold Machine.shadowBack
  extract_lets _ t2
  have h2 : Frame q s t2 := Frame.ite h.storeBits h
  exact h2.same.setReg

theorem touchBorrowed {b a : Nat} (h : Frame q s t) :
    Frame q s (Machine.touchBorrowed b a t) :=
  Frame.ite h.cnt.cnt.shadowBack h

theorem bankGate {own del b a requester : Nat} (h : Frame q s t) :
    Frame q s (Machine.bankGate own del b a requester t).1 := by
  unfold Machine.bankGate
  extract_lets _ t2
  have h2 : Frame q s t2 := h.setBankPower
  exact ite_fst h.nonOwner (ite_fst h (ite_fst h2.same.setBh (ite_fst h h.touchBorrowed)))

theorem bankRead {own del b a requester : Nat} (h : Frame q s t) :
    Frame q s (Machine.bankRead own del b a requester t).1 := by
  unfold Machine.bankRead
  split
  next e1 =>
    exact of_fst e1 h.bankGate
  next e2 =>
    exact (of_fst e2 h.bankGate).memRead

theorem bankWrite {own del b a : Nat} {d : Word} {requester : Nat} (h : Frame q s t) :
    Frame q s (Machine.bankWrite own del b a d requester t).1 := by
  unfold Machine.bankWrite
  split
  next e1 =>
    exact of_fst e1 h.bankGate
  next e2 =>
    have h2 := of_fst e2 h.bankGate
    exact ite_fst h2 h2.store

/-! ## Units -/

theorem nvsSync (h : Frame q s t) :
    Frame q s (Machine.nvsSync t) :=
  h.setReg

theorem nvsQueue {kind : Nat} {body : List Word} (h : Frame q s t) :
    Frame q s (Machine.nvsQueue kind body t) :=
  Frame.ite h.same.nvsSync.raise h.same.nvsSync

theorem faultJudge {u kind : Nat} {retryOk : Bool} {d : Dt} (h : Frame q s t) :
    Frame q s (Machine.faultJudge u kind retryOk d t).2 :=
  h.same rfl

theorem retireUnit {u code : Nat} (h : Frame q s t) :
    Frame q s (Machine.retireUnit u code t) :=
  Frame.ite h.same.nvsQueue h.same.raise

/-! ## Commands -/

theorem serveFor {a : Nat} (h : Frame q s t) :
    Frame q s (Machine.serveFor a t) :=
  Frame.ite h h.bankServe.raiseList

theorem readHostWords {a a' : Nat} (h : Frame q s t) :
    Frame q s (Machine.readHostWords a a' t).2.2 := by
  induction a generalizing a' t with
  | zero => exact h
  | succ n' ih =>
    unfold Machine.readHostWords
    split
    next e1 =>
      exact ih (of_fst e1 h.bankRead)
    next e2 =>
      exact of_fst e2 h.bankRead

theorem bufFetch {i : Nat} {p : Packet} (h : Frame q s t) :
    Frame q s (Machine.bufFetch i p t).2 := by
  unfold Machine.bufFetch
  refine .ite_snd ?_ ?_
  · split
    next e1 =>
      exact of_thd e1 h.serveFor.readHostWords
    next e2 =>
      exact of_thd e2 h.serveFor.readHostWords
  · split
    · exact h
    · exact h.cnt

theorem bufPut {i : Nat} {p : Packet} {ws : List Word} (h : Frame q s t) :
    Frame q s (Machine.bufPut i p ws t) :=
  Frame.ite h.serveFor.storeList h.emit

theorem reply {h' : HeldCmd} {status : Nat} {eff : Dt} {res : List Word} (h : Frame q s t) :
    Frame q s (Machine.reply h' status eff res t) :=
  Frame.ite h (Frame.ite (Frame.ite h h.raise) (Frame.ite h h.record))

theorem applyCmd {c : CmdSpec} {h' : HeldCmd} (h : Frame true s t) (hc : c.Framed) :
    Frame true s (Machine.applyCmd c h' t) := by
  unfold Machine.applyCmd
  extract_lets _ _ t3
  have h3 : Frame true s t3 := Frame.ite h.raise h
  refine .ite h3.queued ?_
  refine .ite ((hc.refuse h3).reply) ?_
  split
  next e5 =>
    exact (of_snd e5 (hc.eff h3)).reply
  next e6 =>
    exact (of_snd e6 (hc.eff h3)).reply
  next e7 =>
    exact (of_snd e7 (hc.eff h3))

theorem phaseB {c : CmdSpec} {p : Packet} (h : Frame q s t) :
    Frame q s (Machine.phaseB c p t).2.2.2 := by
  unfold Machine.phaseB
  split
  · exact h
  · exact h
  · split
    · exact h
    · split
      next e =>
        split
        · exact of_snd e h.bufFetch
        · exact of_snd e h.bufFetch

theorem admitCmd {c : CmdSpec} {h' : HeldCmd} (h : Frame true s t) (hc : c.Framed) :
    Frame true s (Machine.admitCmd c h' t) := by
  unfold Machine.admitCmd
  have h1 : Frame true s (Machine.phaseB c h'.pk t).2.2.2 := h.phaseB
  generalize Machine.phaseB c h'.pk t = x at h1 ⊢
  obtain ⟨b, ws, p, t1⟩ := x
  exact Frame.ite h.reply (Frame.ite h1.reply (Frame.ite h1.reply (Frame.ite (Frame.ite h1.reply h1.queued) (h1.applyCmd hc))))

theorem spiEntry {op : Nat} {p : Packet} (h : Frame q s t) :
    Frame q s (Machine.spiEntry op p t).2 := by
  unfold Machine.spiEntry
  extract_lets
  split
  next e2 =>
    exact of_thd e2 h.serveFor.readHostWords
  next e3 =>
    exact (of_thd e3 h.serveFor.readHostWords).ringHalt

theorem consumeCmd {c : CmdSpec} {p : Packet} (h : Frame true s t) (hc : c.Framed) :
    Frame true s (Machine.consumeCmd c p t) :=
  Frame.ite h (Frame.ite (ite_snd h.spiEntry h) ((ite_snd h.spiEntry h).ringConsume.cnt.admitCmd hc))

/-! ## What acquisition shares -/

theorem setSnap {i : Nat} {x : Snap} (h : Frame q s t) :
    Frame q s (State.setSnap t i x) :=
  h.same rfl

theorem acqServe {b : Nat} (h : Frame q s t) :
    Frame q s (Machine.acqServe b t) :=
  h.bankServe.raiseList

theorem snapPut {pages : List Nat} {w : Nat} {d : Word} (h : Frame q s t) :
    Frame q s (Machine.snapPut pages w d t) :=
  h.acqServe.bankWrite

theorem snapSample {pages : List Nat} {k code : Nat} {x : Bool} (h : Frame q s t) :
    Frame q s (Machine.snapSample pages k code x t) :=
  h.snapPut

theorem snapFeed {n t' c code : Nat} {x : Bool} (h : Frame q s t) :
    Frame q s (Machine.snapFeed n t' c code x t) :=
  h.foldl fun _ _ k => Frame.ite k.snapSample k

theorem snapFree {i : Nat} (h : Frame q s t) :
    Frame q s (Machine.snapFree i t) :=
  h.setSnap.setReg.setReg

theorem setJob {j : Job} (h : Frame q s t) :
    Frame q s (State.setJob t j) :=
  h.same rfl

theorem jobEnd {j : Job} {status half excl : Nat} (h : Frame q s t) :
    Frame q s (Machine.jobEnd j status half excl t) :=
  h.setJob

theorem jobOverrun {j : Job} (h : Frame q s t) :
    Frame q s (Machine.jobOverrun j t) :=
  h.jobEnd.cnt.sticky.raise

theorem snapLose {i : Nat} (h : Frame q s t) :
    Frame q s (Machine.snapLose i t) :=
  (h.foldl fun _ _ => (·.jobEnd.cnt)).snapFree.sticky.raise

theorem snapsLost {b : Nat} (h : Frame q s t) :
    Frame q s (Machine.snapsLost b t) :=
  h.foldl fun _ _ k => Frame.ite k.snapLose k

theorem snapsRelease {g : Nat} (h : Frame q s t) :
    Frame q s (Machine.snapsRelease g t) :=
  h.foldl fun _ _ k => Frame.ite k.snapFree k

end Frame

end Sys2Proof.Machine
end

section
/-! The frame through the banks, the timing block, the front-end registers, coexistence and synthesisers. -/

namespace Sys2Proof.Machine

set_option Elab.async false

namespace Frame

variable {q : Bool} {s t u : State}

/-! ## Banks -/

theorem bankDenied {b requester off : Nat} (h : Frame q s t) :
    Frame q s (Machine.bankDenied b requester off t) :=
  h.sticky.raise

theorem ownerLine {v : Nat} (h : Frame q s t) :
    Frame q s (Machine.ownerLine v t) := by
  unfold Machine.ownerLine
  split
  · exact h.pendLine
  · exact h

theorem takeReply {k : Nat} (h : Frame q s t) :
    Frame q s (Machine.takeReply k t).2 := by
  unfold Machine.takeReply
  split
  · exact h
  · exact h.same

theorem replyNow {k : Nat} (h : Frame q s t) :
    Frame q s (Machine.replyNow k t) :=
  h.same.foldl fun _ _ => (·.reply)

theorem bankPowerGo {b : Nat} (h : Frame q s t) :
    Frame q s (Machine.bankPowerGo b t) := by
  unfold Machine.bankPowerGo
  extract_lets _ _ t3 _ t5
  have h3 : Frame q s t3 := h.setBh
  have h5 : Frame q s t5 := Frame.ite h3 h3.zeroMem.setBankPower
  split
  · exact Frame.ite h3.setBankPower (Frame.ite h3.setBankPower (Frame.ite h3.replyNow h3))
  · exact Frame.ite h3.setBankPower (Frame.ite h3.setBankPower.replyNow (Frame.ite h3.replyNow (Frame.ite h3.setBh.replyNow h3)))
  · exact h5.setBh.replyNow

theorem bankPowerSet {b : Nat} {v : Word} (h : Frame q s t) :
    Frame q s (Machine.bankPowerSet b v t) :=
  Frame.ite h.setReg.setBh h.setReg.bankPowerGo

theorem bankPowerWrite {own requester b : Nat} {v : Word} (h : Frame q s t) :
    Frame q s (Machine.bankPowerWrite own requester b v t) :=
  Frame.ite h.bankDenied h.bankPowerSet

theorem vaultWiped {b cause : Nat} (h : Frame q s t) :
    Frame q s (Machine.vaultWiped b cause t) :=
  h.cnt.sticky.raise

theorem vaultWipe {cause b : Nat} (h : Frame q s t) :
    Frame q s (Machine.vaultWipe cause b t) :=
  Frame.ite h.setBh h

theorem vaultWipeAll {cause : Nat} (h : Frame q s t) :
    Frame q s (Machine.vaultWipeAll cause t) :=
  h.foldl fun _ _ => (·.vaultWipe)

theorem vaultReset (h : Frame q s t) :
    Frame q s (Machine.vaultReset t) :=
  h.foldl fun _ _ k => Frame.ite k.zeroMem.vaultWiped k

theorem execVaultWipeComplete {b : Fin 16} (h : Frame true s t) :
    Gives (Machine.execVaultWipeComplete b t) (Frame true s) := by
  unfold Machine.execVaultWipeComplete
  split
  · exact .next h
  · exact .next h.zeroMem.setBh.vaultWiped

theorem handoverStart {b v : Nat} (h : Frame q s t) :
    Frame q s (Machine.handoverStart b v t) :=
  (Frame.ite h.snapsLost h).setF.setF

theorem bankOwnerWrite {own requester b v : Nat} (h : Frame q s t) :
    Frame q s (Machine.bankOwnerWrite own requester b v t) :=
  Frame.ite h (Frame.ite h.bankDenied (Frame.ite (Frame.ite h.setBh.setF h.sticky) h.handoverStart))

theorem curatorHandover {b v : Nat} (h : Frame q s t) :
    Frame q s (Machine.curatorHandover b v t) :=
  h.bankOwnerWrite

theorem handoverFrom {o v : Nat} (h : Frame q s t) :
    Frame q s (Machine.handoverFrom o v t) :=
  h.foldl fun _ _ k => Frame.ite k.curatorHandover k

theorem drainBorrowed {b : Nat} (h : Frame q s t) :
    Frame q s (Machine.drainBorrowed b t) := by
  unfold Machine.drainBorrowed
  split
  · exact Frame.ite h.cnt.shadowBack h
  · exact h

theorem streamsHalt (h : Frame q s t) :
    Frame q s (Machine.streamsHalt t) :=
  Frame.ite h (h.foldl fun _ _ k => Frame.ite k.ringHalt k)

theorem execHandoverActivate {b : Fin 16} (h : Frame true s t) :
    Gives (Machine.execHandoverActivate b t) (Frame true s) := by
  unfold Machine.execHandoverActivate
  extract_lets _ t2 _ _ _ _ t7 t8 t9 t10 t11 t12 t13 t14 t15 _ t17
  have h2 : Frame true s t2 := h.drainBorrowed
  have h7 : Frame true s t7 := Frame.ite h2.zeroMem h2
  have h8 : Frame true s t8 := h7.setF.setReg
  have h9 : Frame true s t9 := h8.setF.setF
  have h10 : Frame true s t10 := h9.setDt.cnt
  have h11 : Frame true s t11 := h10.ownerLine.ownerLine
  have h12 : Frame true s t12 := Frame.ite h11.streamsHalt h11
  have h13 : Frame true s t13 := h12.raise
  have h14 : Frame true s t14 := Frame.ite h13.vaultWiped h13
  have h15 : Frame true s t15 := h14.replyNow
  have h17 : Frame true s t17 := Frame.ite h15.setBh.bankPowerGo h15
  refine .ite (.next h) ?_
  split
  · exact .next h17
  · exact .next h17.setBh.setF.handoverStart

theorem bankHandoverSpec_framed : bankHandoverSpec.Framed where
  eff {_ s _} h := by
    dsimp -zeta only [bankHandoverSpec]
    extract_lets _ t2
    have h2 : Frame true s t2 := h.bankOwnerWrite
    exact h2.same
  refuse h := h

theorem bankCfgSet {b v : Nat} (h : Frame q s t) :
    Frame q s (Machine.bankCfgSet b v t) :=
  h.setReg

theorem bankConfigSpec_framed : bankConfigSpec.Framed where
  eff h := h.bankCfgSet.setReg
  refuse h := Frame.ite h.bankCfgSet.setReg h

theorem bankPowerSpec_framed : bankPowerSpec.Framed where
  eff h := h.same.bankPowerSet
  refuse h := h

theorem memRepairReadSpec_framed : memRepairReadSpec.Framed where
  eff h := h.bufPut
  refuse h := h

/-! ## Time pulses and captures -/

theorem setTp {n : Nat} {x : TpSt} (h : Frame q s t) :
    Frame q s (State.setTp t n x) :=
  h.same rfl

theorem setCap {n : Nat} {x : CapSt} (h : Frame q s t) :
    Frame q s (State.setCap t n x) :=
  h.same rfl

theorem tpSetState {n v : Nat} (h : Frame q s t) :
    Frame q s (Machine.tpSetState n v t) :=
  Frame.ite h h.setF.setF.raise

theorem tpJump {n cause : Nat} (h : Frame q s t) :
    Frame q s (Machine.tpJump n cause t).2 :=
  h.setTp.setF.setReg.sticky.sticky.cnt.raise

theorem tpSlewFrom {n : Nat} {d : Int} {u : Dt} (h : Frame q s t) :
    Frame q s (Machine.tpSlewFrom n d u t) :=
  h.setTp.setF.setReg

theorem tpSetDelta {n : Nat} {d was : Int} {u : Dt} (h : Frame q s t) :
    Frame q s (Machine.tpSetDelta n d was u t) := by
  unfold Machine.tpSetDelta
  extract_lets _ t1 t2
  have h1 : Frame q s t1 := Frame.ite h.setTp h
  have h2 : Frame q s t2 := h1.tpSlewFrom
  exact Frame.ite h2.raise h2

theorem tpUpdateOne {old : List (Nat × TModel)} {n : Nat} (h : Frame q s t) :
    Frame q s (Machine.tpUpdateOne old n t) :=
  Frame.ite h (Frame.ite h.setF (Frame.ite h.setF.setTp.tpJump h.setF.tpSetDelta))

theorem execTpModelUpdate (h : Frame true s t) :
    Gives (Machine.execTpModelUpdate t) (Frame true s) := by
  unfold Machine.execTpModelUpdate
  split
  · exact .next h
  · exact .ite (.next h) (.next h.same.tpUpdateOne.tpUpdateOne.tpUpdateOne.tpUpdateOne)

theorem tpAlign {n : Nat} {fresh : Bool} (h : Frame q s t) :
    Frame q s (Machine.tpAlign n fresh t) :=
  h.setTp.sticky

theorem execTpEdgeCommit {n : Fin 4} (h : Frame true s t) :
    Gives (Machine.execTpEdgeCommit n t) (Frame true s) := by
  unfold Machine.execTpEdgeCommit
  extract_lets
  refine .ite (.next h) ?_
  split
  · exact .ite (.next h) (.ite (.next h.setTp) (.next ((Frame.ite h.setTp.cnt.sticky.sticky.sticky h.setTp.cnt.sticky.sticky).raise)))

theorem tpReport {n : Nat} {e : TEdge} {tick resid d : Int} {m : TModel} {err : Nat} {x : TpSt} (h : Frame q s t) :
    Frame q s (Machine.tpReport n e tick resid d m err x t) :=
  Frame.ite h h.recordSeq

theorem execTpLeadingEdge {n : Fin 4} (h : Frame true s t) :
    Gives (Machine.execTpLeadingEdge n t) (Frame true s) := by
  unfold Machine.execTpLeadingEdge
  extract_lets
  split
  · exact .next h
  · exact .ite (.next h) (.ite (.next h.setDt.setReg.setReg.setReg.setReg.cnt.tpReport.setTp.cnt.sticky.sticky.raise) (.next
    h.setDt.setReg.setReg.setReg.setReg.cnt.tpReport.setTp))

theorem execTpTrailingEdge {n : Fin 4} (h : Frame true s t) :
    Gives (Machine.execTpTrailingEdge n t) (Frame true s) := by
  unfold Machine.execTpTrailingEdge
  extract_lets
  split
  · exact .next h
  · exact .ite (.next h) (.next (Frame.ite h.setTp.setTp.tpSetState h.setTp))

theorem tpFeedOne {step : Int} {n : Nat} (h : Frame q s t) :
    Frame q s (Machine.tpFeedOne step u n t) :=
  Frame.ite h (Frame.ite h.sticky.setTp h.sticky.setTp)

theorem tpFeed {step : Int} (h : Frame q s t) :
    Frame q s (Machine.tpFeed step t) :=
  h.same.sticky.cnt.tpFeedOne.tpFeedOne.tpFeedOne.tpFeedOne.raise

theorem tpShutOne {n : Nat} (h : Frame q s t) :
    Frame q s (Machine.tpShutOne n t) :=
  Frame.ite h h.setTp.sticky.tpSetState

theorem tpShut (h : Frame q s t) :
    Frame q s (Machine.tpShut t) :=
  h.tpShutOne.tpShutOne.tpShutOne.tpShutOne

theorem tpConfigSpec_framed : tpConfigSpec.Framed where
  eff {_ s _} h := by
    dsimp -zeta only [tpConfigSpec]
    extract_lets _ _ _ _ _ _ _ _ t9 t10 t11 _ t13 t14
    have h9 : Frame true s t9 := h.setReg.setReg.setReg
    have h10 : Frame true s t10 := h9.setReg.setReg.setReg
    have h11 : Frame true s t11 := Frame.ite h10.tpSlewFrom h10
    have h13 : Frame true s t13 := h11.setTp
    have h14 : Frame true s t14 := Frame.ite (Frame.ite h11.tpSetState h11) (Frame.ite (Frame.ite h11.setTp h11.setTp.tpSetState)
      (Frame.ite h13.tpSlewFrom.tpAlign h13))
    exact h14
  refuse h := h

theorem tpJumpMask {mask : Nat} {a : List Nat} (h : Frame q s t) :
    Frame q s (Machine.tpJumpMask mask a t).2 := by
  induction a generalizing t with
  | nil => exact h
  | cons x xs ih =>
    unfold Machine.tpJumpMask
    exact ite_snd (ih h.tpJump) (ih h)

theorem tpJumpSpec_framed : tpJumpSpec.Framed where
  eff h := by
    simp only [tpJumpSpec]
    exact h.tpJumpMask
  refuse h := h

theorem capCfgSet {n : Nat} {v : Word} (h : Frame q s t) :
    Frame q s (Machine.capCfgSet n v t) :=
  h.setCap.setReg

theorem capConfigSpec_framed : capConfigSpec.Framed where
  eff h := h.capCfgSet
  refuse h := h

theorem capDead {n : Nat} (h : Frame q s t) :
    Frame q s (Machine.capDead n t) :=
  Frame.ite h.cnt.sticky.rateOk.setCap.raise h.cnt.sticky.rateOk.setCap

theorem capLose {n : Nat} (h : Frame q s t) :
    Frame q s (Machine.capLose n t) :=
  h.cnt.sticky.sticky.setCap.raiseLimited

theorem capStamp {n : Nat} {rising : Bool} {d : Dt} (h : Frame q s t) :
    Frame q s (Machine.capStamp n rising d t) :=
  Frame.ite h.capLose h.setCap.setReg.maxF

theorem execCaptureEdge {n : Fin 4} {rising : Bool} {d : Dt} (h : Frame true s t) :
    Gives (Machine.execCaptureEdge n rising d t) (Frame true s) := by
  unfold Machine.execCaptureEdge
  extract_lets t1 _ _ _ t5 _ _ t8
  have h1 : Frame true s t1 := h.setReg
  have h5 : Frame true s t5 := by
    unfold t5
    split
    · exact h1.minF.maxF
    · exact h1
  have h8 : Frame true s t8 := h5.setCap.incr
  exact .ite (.next h1) (.ite (.next h1.capDead) (.next h8.setDt.sticky.capStamp))

theorem execCaptureRecordWrite {n : Fin 4} (h : Frame true s t) :
    Gives (Machine.execCaptureRecordWrite n t) (Frame true s) := by
  unfold Machine.execCaptureRecordWrite
  extract_lets
  split
  · exact .next h
  · exact .next ((Frame.ite h.setCap.setReg h.setCap.setReg.setReg).recordSeq)

theorem tpCtrl {n v : Nat} (h : Frame true s t) :
    Frame true s (Machine.tpCtrl n v t) :=
  Frame.ite h (h.admitCmd tpJumpSpec_framed)

/-! ## Front-end registers and synthesisers -/

theorem setFe {n : Nat} {x : RfSt} (h : Frame q s t) :
    Frame q s (State.setFe t n x) :=
  h.same rfl

theorem setTap {n t' : Nat} {x : TapSt} (h : Frame q s t) :
    Frame q s (State.setTap t n t' x) :=
  h.setFe

theorem keepSync (h : Frame q s t) :
    Frame q s (Machine.keepSync t) :=
  Frame.ite h h.same.raise

theorem loSetAct {u : Nat} {w : Word} (h : Frame q s t) :
    Frame q s (Machine.loSetAct u w t) :=
  Frame.ite h.setReg.setReg h.setReg

theorem setPll {u : Nat} {x : PllSt} (h : Frame q s t) :
    Frame q s (State.setPll t u x) :=
  h.same rfl

theorem pllRestart {u : Nat} (h : Frame q s t) :
    Frame q s (Machine.pllRestart u t) :=
  h.setPll

theorem loPlan {u target : Nat} (h : Frame q s t) :
    Frame q s (Machine.loPlan u target t) :=
  (Frame.ite h.setReg.setReg.setReg.setReg h.setReg.setReg.setReg.setReg).loSetAct

theorem loStart {u target : Nat} (h : Frame q s t) :
    Frame q s (Machine.loStart u target t) :=
  h.loPlan.setF.pllRestart

theorem feSynthStart {n : Nat} (h : Frame q s t) :
    Frame q s (Machine.feSynthStart n t) :=
  h.loStart.loStart

theorem loStop {u : Nat} (h : Frame q s t) :
    Frame q s (Machine.loStop u t) :=
  h.setF.loSetAct

theorem setRamp {u : Nat} {x : RampSt} (h : Frame q s t) :
    Frame q s (State.setRamp t u x) :=
  h.same rfl

theorem rampClear {u : Nat} (h : Frame q s t) :
    Frame q s (Machine.rampClear u t) :=
  Frame.ite h.setRamp.setReg.setF.loSetAct h.setRamp.setReg

theorem rampDrop {u : Nat} (h : Frame q s t) :
    Frame q s (Machine.rampDrop u t) :=
  Frame.ite h.rampClear.raise h.rampClear

theorem tapSetState {n t' v : Nat} (h : Frame q s t) :
    Frame q s (Machine.tapSetState n t' v t) :=
  Frame.ite h h.setF.raise

theorem chzSync {n : Nat} (h : Frame q s t) :
    Frame q s (Machine.chzSync n t) :=
  h.setReg

theorem tapEnable {n t' : Nat} (h : Frame q s t) :
    Frame q s (Machine.tapEnable n t' t) :=
  h.setTap.setReg.setReg.tapSetState.chzSync

theorem tapDisable {n t' : Nat} (h : Frame q s t) :
    Frame q s (Machine.tapDisable n t' t) :=
  h.setTap.setF.setF.tapSetState.chzSync

theorem tapsWait {n : Nat} {a : List Nat} (h : Frame q s t) :
    Frame q s (Machine.tapsWait n a t) := by
  induction a generalizing t with
  | nil => exact h
  | cons x xs ih =>
    unfold Machine.tapsWait
    exact ih (Frame.ite h.setTap.tapSetState h)

theorem tapsOff {n : Nat} {a : List Nat} (h : Frame q s t) :
    Frame q s (Machine.tapsOff n a t) := by
  induction a generalizing t with
  | nil => exact h
  | cons x xs ih =>
    unfold Machine.tapsOff
    exact ih (Frame.ite h.tapDisable h)

theorem regionSwap {n t' r r' : Nat} (h : Frame q s t) :
    Frame q s (Machine.regionSwap n t' r r' t) :=
  h.storeList.setTap

theorem tapRegionRetired {n r : Nat} (h : Frame q s t) :
    Frame q s (Machine.tapRegionRetired n r t) := by
  unfold Machine.tapRegionRetired
  extract_lets t1 t2 t4
  have h1 : Frame q s t1 := h.setReg
  have h2 : Frame q s t2 := by
    unfold t2
    split
    · exact h1
    · split
      · exact h1.regionSwap
      · split
        · extract_lets t3
          have h3 : Frame q s t3 := h1.tapDisable
          split
          · exact Frame.ite h3 h3.regionSwap
          · exact h3
        · exact h1
  have h4 : Frame q s t4 := h2.chzSync
  exact h4.raise

theorem setCal {n : Nat} {x : CalSt} (h : Frame q s t) :
    Frame q s (State.setCal t n x) :=
  h.setFe

theorem calSetState {n v : Nat} (h : Frame q s t) :
    Frame q s (Machine.calSetState n v t) :=
  Frame.ite h.setF h.setF.setF.raise

theorem calDisturb {n : Nat} (h : Frame q s t) :
    Frame q s (Machine.calDisturb n t) :=
  Frame.ite h h.setCal

theorem sweepAbort {n cause : Nat} (h : Frame q s t) :
    Frame q s (Machine.sweepAbort n cause t) := by
  unfold Machine.sweepAbort
  extract_lets
  split
  · exact h
  · exact Frame.ite h.setCal.rampDrop.sticky.sticky.raise.calSetState h.setCal.rampDrop.sticky.sticky.raise

theorem injRefuse {n why : Nat} {w : InjWait} (h : Frame q s t) :
    Frame q s (Machine.injRefuse n why w t) :=
  h.cnt.sticky.sticky.raise.reply

theorem calStop {n : Nat} (h : Frame q s t) :
    Frame q s (Machine.calStop n t) := by
  unfold Machine.calStop
  extract_lets t1 _ t3
  have h1 : Frame q s t1 := h.sweepAbort
  have h3 : Frame q s t3 := by
    unfold t3
    split
    · exact h1.setCal.injRefuse
    · exact h1
  exact Frame.ite h h3.calDisturb.calSetState

theorem calOnFe {n old new : Nat} (h : Frame q s t) :
    Frame q s (Machine.calOnFe n old new t) := by
  unfold Machine.calOnFe
  extract_lets _ t2
  have h2 : Frame q s t2 := h.sweepAbort
  exact Frame.ite h (Frame.ite h.calStop (Frame.ite h.calStop (Frame.ite (Frame.ite h2.calDisturb.calSetState h2) (Frame.ite h.calSetState
    (Frame.ite h.sweepAbort h)))))

theorem delayNote {n c : Nat} (h : Frame q s t) :
    Frame q s (Machine.delayNote n c t) :=
  h.setFe

theorem gainCode {n code c : Nat} (h : Frame q s t) :
    Frame q s (Machine.gainCode n code c t) :=
  h.delayNote.setF

theorem feSetState {n v : Nat} (h : Frame q s t) :
    Frame q s (Machine.feSetState n v t) :=
  Frame.ite h ((Frame.ite (Frame.ite h.setF.setDt.raise.setFe h.setF.setDt.raise) ((Frame.ite h.setF.setDt.raise.setFe
    h.setF.setDt.raise).tapsWait)).calOnFe.setF.keepSync)

theorem tonesDrive {n : Nat} (h : Frame q s t) :
    Frame q s (Machine.tonesDrive n t) :=
  h.foldl fun _ _ => (·.loPlan)

theorem stepAim {n step : Nat} (h : Frame q s t) :
    Frame q s (Machine.stepAim n step t) :=
  Frame.ite h.loPlan (Frame.ite h.loPlan h.takeFree.loPlan)

theorem calRunBegin {n mask : Nat} {startup : Bool} {st : Nat} (h : Frame q s t) :
    Frame q s (Machine.calRunBegin n mask startup st t) := by
  unfold Machine.calRunBegin
  extract_lets x1
  clear_value x1
  split
  · exact h.feSetState.setFe.stepAim
  · exact h.feSetState.setFe

theorem calRunAbort {n : Nat} (h : Frame q s t) :
    Frame q s (Machine.calRunAbort n t) := by
  unfold Machine.calRunAbort
  split
  · exact h
  · exact h.setFe.setReg

theorem biasSync {n : Nat} (h : Frame q s t) :
    Frame q s (Machine.biasSync n t) :=
  h.setReg.setReg

theorem biasForceOff {n : Nat} (h : Frame q s t) :
    Frame q s (Machine.biasForceOff n t) :=
  h.setFe.biasSync

theorem replayStop {n cause : Nat} (h : Frame q s t) :
    Frame q s (Machine.replayStop n cause t) :=
  Frame.ite h h.setReg.setFe.raise.keepSync

theorem feReplayDisable {n : Nat} (h : Frame q s t) :
    Frame q s (Machine.feReplayDisable n t) :=
  h.replayStop.feSetState

theorem fePowerDown {n : Nat} (h : Frame q s t) :
    Frame q s (Machine.fePowerDown n t) :=
  h.calRunAbort.replayStop.rampDrop.rampDrop.loStop.loStop.setFe

theorem feRetire {n : Nat} (h : Frame q s t) :
    Frame q s (Machine.feRetire n t) :=
  h.fePowerDown.tapsOff.biasForceOff.feSetState.retireUnit

theorem feFault {n : Nat} (h : Frame q s t) :
    Frame q s (Machine.feFault n t) := by
  unfold Machine.feFault
  split
  next e1 =>
    have h1 := of_snd e1 h.faultJudge
    split
    · exact h1.feRetire
    · exact Frame.ite h1.setFe.feSynthStart h1.rampDrop.rampDrop.setFe.calRunBegin.setFe

theorem feThermal {n : Nat} (h : Frame q s t) :
    Frame q s (Machine.feThermal n t) :=
  Frame.ite h h.fePowerDown.biasForceOff.sticky.feSetState

theorem feEnable {n : Nat} (h : Frame q s t) :
    Frame q s (Machine.feEnable n t) :=
  h.feSetState.setFe.feSynthStart

theorem feDisable {n : Nat} (h : Frame q s t) :
    Frame q s (Machine.feDisable n t) :=
  Frame.ite h (Frame.ite h.feReplayDisable h.fePowerDown.feSetState)

theorem suspendRuns {a : List Nat} (h : Frame q s t) :
    Frame q s (Machine.suspendRuns a t) := by
  induction a generalizing t with
  | nil => exact h
  | cons x xs ih =>
    unfold Machine.suspendRuns
    refine ih ?_
    split
    · exact Frame.ite h h.setFe
    · exact h

/-! ## Coexistence -/

theorem setCoex {k : Nat} {x : CoexSt} (h : Frame q s t) :
    Frame q s (State.setCoex t k x) :=
  h.same rfl

theorem coexSync {k : Nat} (h : Frame q s t) :
    Frame q s (Machine.coexSync k t) :=
  h.setReg

theorem coexGrant {k fromN : Nat} (h : Frame q s t) :
    Frame q s (Machine.coexGrant k fromN t) :=
  h.setCoex

theorem coexDecide {k : Nat} (h : Frame q s t) :
    Frame q s (Machine.coexDecide k t) :=
  Frame.ite h (Frame.ite h.setCoex h.coexGrant)

theorem coexHit {k n : Nat} (h : Frame q s t) :
    Frame q s (Machine.coexHit k n t) :=
  Frame.ite h.setFe h

theorem coexMark {k : Nat} (h : Frame q s t) :
    Frame q s (Machine.coexMark k t) :=
  h.coexHit.coexHit.coexHit.coexHit

theorem coexMapWrite {n : Nat} {v : Word} (h : Frame q s t) :
    Frame q s (Machine.coexMapWrite n v t) :=
  h.setReg.coexHit.coexHit

theorem execCoexReqEdge {k : Fin 2} {level : Bool} (h : Frame true s t) :
    Gives (Machine.execCoexReqEdge k level t) (Frame true s) :=
  .ite (.next h) (.ite (.next ((Frame.ite h.setCoex.coexMark h.setCoex).setCoex.coexSync)) (.ite (.ite (.next ((Frame.ite
    h.setCoex.coexMark h.setCoex).setCoex.coexSync)) (.next ((Frame.ite h.setCoex.coexMark h.setCoex).coexGrant.coexSync))) (.next
    ((Frame.ite h.setCoex.coexMark h.setCoex).setCoex.coexSync))))

theorem coexDenied {k start : Nat} (h : Frame q s t) :
    Frame q s (Machine.coexDenied k start t) :=
  h.sticky.raise

theorem execCoexGntEdge {k : Fin 2} {level : Bool} (h : Frame true s t) :
    Gives (Machine.execCoexGntEdge k level t) (Frame true s) := by
  unfold Machine.execCoexGntEdge
  extract_lets _ t2
  have h2 : Frame true s t2 := h.setCoex.coexSync
  refine .ite (.next h) ?_
  split
  · exact .next (Frame.ite h2.coexDenied h2)
  · exact .next h2

theorem coexRelease {k : Nat} (h : Frame q s t) :
    Frame q s (Machine.coexRelease k t) :=
  Frame.ite h.coexDecide h

theorem coexArm {k : Nat} (h : Frame q s t) :
    Frame q s (Machine.coexArm k t) := by
  unfold Machine.coexArm
  extract_lets _ _ _ _ t5
  have h5 : Frame q s t5 := h.setCoex
  refine .ite ?_ ?_
  · exact h5.setCoex.coexRelease.coexSync
  · exact Frame.ite h5.setCoex.coexRelease.coexSync (Frame.ite h5.setCoex.coexRelease.coexSync.sticky.raise h5.setCoex.coexRelease.coexSync)

theorem execCoexWindowStart {k : Fin 2} (h : Frame true s t) :
    Gives (Machine.execCoexWindowStart k t) (Frame true s) := by
  unfold Machine.execCoexWindowStart
  extract_lets _ t2
  have h2 : Frame true s t2 := h.setCoex.coexSync
  split
  · exact .next h
  · exact .ite (.next h) (.next (Frame.ite h2.coexDenied h2))

theorem execCoexWindowEnd {k : Fin 2} (h : Frame true s t) :
    Gives (Machine.execCoexWindowEnd k t) (Frame true s) := by
  unfold Machine.execCoexWindowEnd
  extract_lets
  split
  · exact .next h
  · exact .ite (.next h) (.next h.setCoex.coexRelease.coexSync)

theorem coexCfgWrite {k : Nat} {v : Word} (h : Frame q s t) :
    Frame q s (Machine.coexCfgWrite k v t) :=
  Frame.ite h.setReg.coexRelease.coexSync (Frame.ite h.setReg.setCoex.coexSync (Frame.ite h.setReg.setCoex.coexDecide.coexSync
    h.setReg.setCoex.coexSync))

theorem coexAbsent {k : Nat} (h : Frame q s t) :
    Frame q s (Machine.coexAbsent k t) :=
  Frame.ite h.setCoex.coexSync h

theorem coexResume {k : Nat} (h : Frame q s t) :
    Frame q s (Machine.coexResume k t) :=
  Frame.ite h.coexDecide.coexSync h

/-! ## Synthesiser states -/

theorem smpPlan (h : Frame q s t) :
    Frame q s (Machine.smpPlan t) :=
  Frame.ite h.setReg.setReg.setReg h.setReg.setReg.setReg

theorem smpSetState {v : Nat} (h : Frame q s t) :
    Frame q s (Machine.smpSetState v t) :=
  (Frame.ite h.setF.suspendRuns h.setF).keepSync

theorem qualRestart (h : Frame q s t) :
    Frame q s (Machine.qualRestart t) :=
  h.setReg.setF.same rfl

theorem smpHold {code : Nat} (h : Frame q s t) :
    Frame q s (Machine.smpHold code t) :=
  h.setReg

theorem smpHoldBack (h : Frame q s t) :
    Frame q s (Machine.smpHoldBack t) :=
  h.smpHold

theorem smpClose {v : Nat} (h : Frame q s t) :
    Frame q s (Machine.smpClose v t) := by
  unfold Machine.smpClose
  extract_lets t1 t2
  have h1 : Frame q s t1 := h.smpPlan.pllRestart
  have h2 : Frame q s t2 := h1.setF
  exact h2.same.smpSetState

theorem episodeBegin {start : Dt} {startN : Nat} {refLost clkAbsent : Bool} (h : Frame q s t) :
    Frame q s (Machine.episodeBegin start startN refLost clkAbsent t) :=
  h.same.setDt.cnt.sticky

theorem smpEnableRefuse {st : Nat} (h : Frame q s t) :
    Frame q s (Machine.smpEnableRefuse st t) :=
  Frame.ite h.sticky (Frame.ite h.sticky.raise h)

theorem smpEnable (h : Frame q s t) :
    Frame q s (Machine.smpEnable t) :=
  Frame.ite h ((Frame.ite h.smpClose h.smpHold.smpSetState.qualRestart).coexResume.coexResume)

theorem smpReengageRefuse {st : Nat} (h : Frame q s t) :
    Frame q s (Machine.smpReengageRefuse st t) :=
  Frame.ite h.sticky.smpSetState.qualRestart h

theorem synSmpCtrl {v : Nat} (h : Frame q s t) :
    Frame q s (Machine.synSmpCtrl v t) := by
  unfold Machine.synSmpCtrl
  extract_lets t1
  have h1 : Frame q s t1 := Frame.ite (Frame.ite h.smpEnable h.smpEnableRefuse) h
  exact Frame.ite (Frame.ite h1.smpClose h1.smpReengageRefuse) h1

theorem episodeRefLost (h : Frame q s t) :
    Frame q s (Machine.episodeRefLost t) := by
  unfold Machine.episodeRefLost
  split
  · exact h.same
  · exact Frame.ite h.episodeBegin h

theorem execReferenceLost {gross : Bool} {est : BitVec 16} (h : Frame true s t) :
    Gives (Machine.execReferenceLost gross est t) (Frame true s) :=
  .ite (.next h) (.ite (.next (Frame.ite h.setReg h)) (.ite (.next
    h.setReg.setReg.cnt.sticky.setReg.smpHoldBack.episodeRefLost.smpSetState.qualRestart.raise) (.ite (.next
    h.setReg.setReg.cnt.sticky.setReg.episodeRefLost.smpSetState.qualRestart.raise) (.next h.setReg.setReg.cnt.sticky.setReg))))

theorem execQualWindowEnd {offset : BitVec 36} (h : Frame true s t) :
    Gives (Machine.execQualWindowEnd offset t) (Frame true s) :=
  .ite (.next h) (.ite (.next h.setReg.qualRestart) (.ite (.next h.setReg.setReg) (.ite (.next h.setReg.setReg.setF.raise.smpSetState)
    (.ite (.next h.setReg.setReg.setF.raise.smpClose) (.next h.setReg.setReg.setF.raise.sticky.qualRestart)))))

theorem stepFeed {step : Int} (h : Frame q s t) :
    Frame q s (Machine.stepFeed step t) :=
  h.same.tpFeed

theorem episodeEnd {eAfter slip : Int} (h : Frame q s t) :
    Frame q s (Machine.episodeEnd eAfter slip t) := by
  unfold Machine.episodeEnd
  split
  · exact h
  · extract_lets _ _ _ _ _ _ _ _ _ _ t11 t12 t13 t14 t15 _ t17 _ t19 t20
    have h11 : Frame q s t11 := h.same
    have h12 : Frame q s t12 := h11.setDt
    have h13 : Frame q s t13 := h12.setReg.setReg
    have h14 : Frame q s t14 := h13.setReg
    have h15 : Frame q s t15 := Frame.ite h14.setReg h14
    have h17 : Frame q s t17 := h15.same
    have h19 : Frame q s t19 := Frame.ite h17.same h17
    have h20 : Frame q s t20 := h19.raise
    exact h20.stepFeed

theorem smpLock (h : Frame q s t) :
    Frame q s (Machine.smpLock t) :=
  Frame.ite ((Frame.ite h.same.smpSetState.setDt h.same.smpSetState).raise) (Frame.ite h.same.smpSetState.setDt h.same.smpSetState)

theorem rampLeave {u : Nat} (h : Frame q s t) :
    Frame q s (Machine.rampLeave u t) :=
  Frame.ite h.rampClear.calRunBegin h.rampClear

theorem rampEnd {u : Nat} {d : Dt} (h : Frame q s t) :
    Frame q s (Machine.rampEnd u d t) :=
  h.rampLeave.raiseAt

theorem feTryStart {n : Nat} (h : Frame q s t) :
    Frame q s (Machine.feTryStart n t) :=
  Frame.ite h.calRunBegin.setFe h

theorem loLock {u : Nat} (h : Frame q s t) :
    Frame q s (Machine.loLock u t) :=
  Frame.ite h h.setF.setFe.feTryStart

theorem rampAbort {u : Nat} {e : Int} (h : Frame q s t) :
    Frame q s (Machine.rampAbort u e t) :=
  (Frame.ite h.sticky.raise.rampLeave h.sticky.raise.rampClear.sweepAbort).setF

theorem loLost {n : Nat} {e : Int} {ramp excused : Bool} (h : Frame q s t) :
    Frame q s (Machine.loLost n e ramp excused t) := by
  unfold Machine.loLost
  extract_lets t1 t2
  have h1 : Frame q s t1 := h.sticky.raise
  have h2 : Frame q s t2 := Frame.ite h1.rampAbort h1.setF
  exact Frame.ite h2.setFe (Frame.ite h2 (Frame.ite h2.feFault (Frame.ite h2.calRunAbort.feFault h2)))

theorem injLost {n : Nat} {e : Int} {ramp excused : Bool} (h : Frame q s t) :
    Frame q s (Machine.injLost n e ramp excused t) := by
  unfold Machine.injLost
  extract_lets t1 t2 t3
  have h1 : Frame q s t1 := h.raise
  have h2 : Frame q s t2 := Frame.ite h1.rampAbort h1.setF
  have h3 : Frame q s t3 := Frame.ite h2.calDisturb h2
  exact Frame.ite h3.setFe h3

theorem loLoss {u : Nat} (h : Frame q s t) :
    Frame q s (Machine.loLoss u t) :=
  Frame.ite h.cnt.sticky.pllRestart.loLost h.cnt.sticky.pllRestart.injLost

theorem execSynthLockLost {which : Fin 9} (h : Frame true s t) :
    Gives (Machine.execSynthLockLost which t) (Frame true s) :=
  .ite (.next h) (.ite (.ite (.next h.loLoss) (.next h)) (.ite (.next h) (.next h.episodeBegin.pllRestart.smpSetState.raise)))

theorem execLockTimeout (h : Frame true s t) :
    Gives (Machine.execLockTimeout t) (Frame true s) :=
  .ite (.next h) (.ite (.next h.smpHold.smpSetState.qualRestart.raise) (.next h.smpHoldBack.smpSetState.qualRestart))

theorem execDiscDeclared (h : Frame true s t) :
    Gives (Machine.execDiscDeclared t) (Frame true s) := by
  unfold Machine.execDiscDeclared
  split
  · exact .next h
  · exact .ite (.next h) (.next h.same.sticky.raise)

theorem rampArm {u : Nat} {d : Dt} (h : Frame q s t) :
    Frame q s (Machine.rampArm u d t) :=
  Frame.ite h.setRamp.setF.sticky h.setRamp.setF

theorem rampFracWrite {u : Nat} {v : Word} (h : Frame q s t) :
    Frame q s (Machine.rampFracWrite u v t).1 :=
  ite_fst h (ite_fst h (Frame.ite h.setReg.rampArm h.setReg))

theorem rampTick {u : Nat} (h : Frame q s t) :
    Frame q s (Machine.rampTick u t) := by
  unfold Machine.rampTick
  extract_lets
  refine .ite h ?_
  split
  · exact Frame.ite h.rampEnd (Frame.ite h.loSetAct h)
  · exact Frame.ite h.loSetAct h

theorem rampTicks (h : Frame q s t) :
    Frame q s (Machine.rampTicks t) :=
  h.foldl fun _ _ => (·.rampTick)

theorem execRampStart {u : Fin 8} (h : Frame true s t) :
    Gives (Machine.execRampStart u t) (Frame true s) := by
  unfold Machine.execRampStart
  extract_lets _ t2 t3 t4
  have h2 : Frame true s t2 := h.setRamp
  have h3 : Frame true s t3 := h2.setReg.setF
  have h4 : Frame true s t4 := h3.raise
  split
  · exact .next h
  · exact .ite (.next h) (.ite (.next h.setRamp.setF) (.next (Frame.ite h4.feSetState h4)))

theorem execRampSegmentEnd {u : Fin 8} (h : Frame true s t) :
    Gives (Machine.execRampSegmentEnd u t) (Frame true s) := by
  unfold Machine.execRampSegmentEnd
  extract_lets
  refine .ite (.next h.rampTick) ?_
  split
  · exact .ite (.next h) (.ite (.ite (.ite (.next h.setRamp.setF.setF) (.next h.setRamp.setF)) (.ite (.next h.setRamp.setF) (.next
    h.setRamp.setF))) (.ite (.next h.setRamp.setF) (.ite (.next h.setRamp.setF.setF) (.ite (.next h.setRamp.setF) (.next h.setF.rampEnd)))))

theorem loCtrl {u v : Nat} (h : Frame q s t) :
    Frame q s (Machine.loCtrl u v t) :=
  Frame.ite h.setRamp h

theorem synSmpSpec_framed : synSmpSpec.Framed where
  eff h := Frame.ite h.smpEnable (Frame.ite h.smpClose h)
  refuse h := Frame.ite h.smpEnableRefuse (Frame.ite h.smpReengageRefuse h)

theorem refFreqWrite {v : Word} (h : Frame q s t) :
    Frame q s (Machine.refFreqWrite v t) :=
  Frame.ite h h.setReg.qualRestart

theorem smpCfgWrite {v : Word} (h : Frame q s t) :
    Frame q s (Machine.smpCfgWrite v t) :=
  Frame.ite h.setReg.pllRestart h.setReg.qualRestart.pllRestart

theorem qualCfgWrite {v : Word} (h : Frame q s t) :
    Frame q s (Machine.qualCfgWrite v t) :=
  h.setReg.qualRestart

theorem synRefConfigSpec_framed : synRefConfigSpec.Framed where
  eff h := h.refFreqWrite.setReg.qualCfgWrite.setReg.smpCfgWrite.setReg.pllRestart
  refuse h := h

theorem synLoConfigSpec_framed : synLoConfigSpec.Framed where
  eff h := h.setReg.setReg.pllRestart
  refuse h := h

theorem segsWrite {u a : Nat} {a' : List Word} (h : Frame q s t) :
    Frame q s (Machine.segsWrite u a a' t) := by
  induction a' generalizing a t with
  | nil => exact h
  | cons x xs ih =>
    unfold Machine.segsWrite
    exact ih h.setReg

theorem synRampSegSpec_framed : synRampSegSpec.Framed where
  eff h := h.segsWrite
  refuse h := h

theorem synRampArmSpec_framed : synRampArmSpec.Framed where
  eff h := ite_snd h.loCtrl.takeFree.takeFree h.setReg.setReg.setReg.rampArm
  refuse h := h

end Frame

end Sys2Proof.Machine
end

section
/-! The frame through the front ends, the channelizers, sample time and calibration. -/

namespace Sys2Proof.Machine

set_option Elab.async false

namespace Frame

variable {q : Bool} {s t u : State}

/-! ## Front ends -/

theorem execSampleClockAbsent (h : Frame true s t) :
    Gives (Machine.execSampleClockAbsent t) (Frame true s) := by
  unfold Machine.execSampleClockAbsent
  extract_lets _ t2 _ t4 t5 _ t7 t8
  have h2 : Frame true s t2 := h.cnt.sticky
  have h4 : Frame true s t4 := h2.same.raise
  have h5 : Frame true s t5 := h4.coexAbsent.coexAbsent
  have h7 : Frame true s t7 := by
    unfold t7
    split
    · exact h5.same
    · exact h5
  have h8 : Frame true s t8 := h7.episodeBegin
  exact .ite (.next h) (.ite (.next h7) (.ite (.next h8.pllRestart.smpSetState.raise) (.next h8.smpSetState.qualRestart)))

theorem tpReturned {n : Nat} (h : Frame q s t) :
    Frame q s (Machine.tpReturned n t) :=
  h.setTp

theorem feOffOnly {o n : Nat} {v : Word} (h : Frame q s t) :
    Frame q s (Machine.feOffOnly o n v t) :=
  Frame.ite h.setReg h

theorem gainCfgWrite {n : Nat} {v : Word} (h : Frame q s t) :
    Frame q s (Machine.gainCfgWrite n v t) :=
  Frame.ite ((Frame.ite h.setReg h.setReg.setFe).gainCode) (Frame.ite h.setReg h.setReg.setFe)

theorem tunerDly {n : Nat} (h : Frame q s t) :
    Frame q s (Machine.tunerDly n t) :=
  h.setReg

theorem tunerWrite {n : Nat} {v : Word} (h : Frame q s t) :
    Frame q s (Machine.tunerWrite n v t) :=
  h.setReg.tunerDly

theorem biasOn {n : Nat} (h : Frame q s t) :
    Frame q s (Machine.biasOn n t) :=
  h.setFe.biasSync

theorem biasUnlatch {n : Nat} (h : Frame q s t) :
    Frame q s (Machine.biasUnlatch n t) :=
  Frame.ite h.setF.setFe h

theorem biasCfgWrite {n : Nat} {v : Word} {cmd : Bool} (h : Frame q s t) :
    Frame q s (Machine.biasCfgWrite n v cmd t) :=
  Frame.ite h.setReg.setFe.biasSync (Frame.ite ((Frame.ite h.setReg.biasUnlatch h.setReg).setFe.biasSync) ((Frame.ite h.setReg.biasUnlatch
    h.setReg).setFe.biasOn))

theorem feCtrl {n v : Nat} (h : Frame q s t) :
    Frame q s (Machine.feCtrl n v t) := by
  unfold Machine.feCtrl
  extract_lets t1 t2
  have h1 : Frame q s t1 := Frame.ite h.feEnable h
  have h2 : Frame q s t2 := Frame.ite h1.feDisable h1
  exact Frame.ite h2.calRunBegin h2

theorem histClear {base : Nat → Nat} {a : Nat} (h : Frame q s t) :
    Frame q s (Machine.histClear base a t) := by
  induction a generalizing t with
  | zero => exact h
  | succ n' ih =>
    unfold Machine.histClear
    exact ih h.setReg

theorem baseMove {n : Nat} {m : Int} (h : Frame q s t) :
    Frame q s (Machine.baseMove n m t) :=
  h.setReg

theorem matchReport {n lo mid hi : Nat} (h : Frame q s t) :
    Frame q s (Machine.matchReport n lo mid hi t) := by
  unfold Machine.matchReport
  extract_lets _ _ t3 _ _ _ _ _ _ t10 t11 t12
  have h3 : Frame q s t3 := h.setReg
  have h10 : Frame q s t10 := h3.setFe
  have h11 : Frame q s t11 := Frame.ite h10.sticky.raise h10
  have h12 : Frame q s t12 := Frame.ite h11.sticky.raise h11
  exact Frame.ite h12.raise h12

theorem tunerMatch {n : Nat} {ms : List Int} (h : Frame q s t) :
    Frame q s (Machine.tunerMatch n ms t) :=
  (Frame.ite h.setF h).setReg.tonesDrive.matchReport.tunerDly

theorem stepResult {n step : Nat} {ms : List Int} (h : Frame q s t) :
    Frame q s (Machine.stepResult n step ms t) := by
  unfold Machine.stepResult
  extract_lets
  split
  · exact h.setReg.setReg
  · exact h.setReg
  · exact h.setReg
  · exact h.setReg
  · exact h.setFe
  · exact h.tunerMatch
  · exact h.baseMove.raise

theorem matchIncomplete {n : Nat} {r : CalRun} (h : Frame q s t) :
    Frame q s (Machine.matchIncomplete n r t) :=
  Frame.ite h.setF.sticky.tunerDly.raise h

theorem calRunEnd {n : Nat} {r : CalRun} (h : Frame q s t) :
    Frame q s (Machine.calRunEnd n r t) :=
  h.setFe.setReg.setReg.setDt.loPlan.feSetState.raise

theorem execCalStepEnd {n : Fin 4} {ms : List Int} (h : Frame true s t) :
    Gives (Machine.execCalStepEnd n ms t) (Frame true s) := by
  unfold Machine.execCalStepEnd
  split
  · exact .next h
  · split
    · exact .next h
    · refine .ite (.next h) ?_
      extract_lets t1 t2 _ _ _ t6 t7 t8 t9 t10 t11
      have h1 : Frame true s t1 := h.stepResult
      have h2 : Frame true s t2 := Frame.ite h1.matchIncomplete h1
      have h6 : Frame true s t6 := h.setFe
      have h7 : Frame true s t7 := h6.setReg
      have h8 : Frame true s t8 := h7.setReg
      have h9 : Frame true s t9 := h8.cnt.sticky
      have h10 : Frame true s t10 := Frame.ite h9.raise h9
      have h11 : Frame true s t11 := h10.raise
      refine .ite ?_ (.ite (.next h.setFe) (.next h11.feFault))
      split
      · exact .next h2.calRunEnd
      · exact .next h2.setFe.stepAim

theorem execCalStepRestart {n : Fin 4} (h : Frame true s t) :
    Gives (Machine.execCalStepRestart n t) (Frame true s) := by
  unfold Machine.execCalStepRestart
  split
  · exact .next h
  · split
    · exact .next h
    · exact .ite (.next h) (.next h.setFe)

theorem execMismatchCheckEnd {n : Fin 4} {lo mid hi : Nat} {refl : BitVec 12} (h : Frame true s t) :
    Gives (Machine.execMismatchCheckEnd n lo mid hi refl t) (Frame true s) := by
  unfold Machine.execMismatchCheckEnd
  split
  · exact .next h
  · exact .ite (.next h) (.ite (.next (Frame.ite h.setFe.tonesDrive.loPlan h.setFe)) (.next ((Frame.ite h.setFe.tonesDrive.loPlan
    h.setFe).setReg.matchReport)))

theorem biasShort {n peak : Nat} (h : Frame q s t) :
    Frame q s (Machine.biasShort n peak t) :=
  Frame.ite h.cnt.sticky.setF.setFe.biasSync.raise h.cnt.sticky.setF.setFe.setF.biasSync.sticky.raise

theorem biasOpen {n cur : Nat} (h : Frame q s t) :
    Frame q s (Machine.biasOpen n cur t) :=
  Frame.ite (Frame.ite h.setFe.setF h.setFe) (Frame.ite h.setFe.setF.sticky.raise h.setFe)

theorem execBiasRetry {n : Fin 4} (h : Frame true s t) :
    Gives (Machine.execBiasRetry n t) (Frame true s) := by
  unfold Machine.execBiasRetry
  split
  · exact .next h
  · exact .ite (.next h) (.ite (.next h.biasOn) (.next h.setFe.biasSync))

theorem feReplayEnable {n : Nat} (h : Frame q s t) :
    Frame q s (Machine.feReplayEnable n t) :=
  h.gainCode.feSetState

theorem feStateSpec_framed : feStateSpec.Framed where
  eff {_ s _} h := by
    dsimp -zeta only [feStateSpec]
    extract_lets _ _ t3
    have h3 : Frame true s t3 := by
      unfold t3
      split
      · exact Frame.ite h.feEnable h
      · exact Frame.ite h.feReplayDisable h.feDisable
      · exact h.feReplayEnable
      · exact h.feReplayDisable
    exact h3
  refuse h := h

theorem feConfigSpec_framed : feConfigSpec.Framed where
  eff h := h.feOffOnly.feOffOnly.gainCfgWrite.tunerWrite.setReg.setReg.coexMapWrite.setReg
  refuse h := h

theorem feCalibrateSpec_framed : feCalibrateSpec.Framed where
  eff h := h.calRunBegin
  refuse h := h

theorem feBiasSpec_framed : feBiasSpec.Framed where
  eff h := h.biasCfgWrite
  refuse h := h

theorem feCoexSpec_framed : feCoexSpec.Framed where
  eff h := h.coexCfgWrite.setReg.setReg.setReg.setReg.setReg.coexArm
  refuse h := h

/-! ## Channelizers -/

theorem agcBlock {n k : Nat} {b : BlkSums} (h : Frame q s t) :
    Frame q s (Machine.agcBlock n k b t) := by
  unfold Machine.agcBlock
  extract_lets _ _ _ t4 t5 t6 _ _ _ t10 t11
  have h4 : Frame q s t4 := h.setF.setF
  have h5 : Frame q s t5 := h4.setReg.setReg
  have h6 : Frame q s t6 := h5.setReg.setReg
  have h10 : Frame q s t10 := Frame.ite h6.setFe h6
  have h11 : Frame q s t11 := h10.sticky
  exact Frame.ite h11.raiseIn h10

theorem levelTap {n k t' : Nat} (h : Frame q s t) :
    Frame q s (Machine.levelTap n k t' t) :=
  Frame.ite h (Frame.ite h.setF.setF h.setF.setF.setTap)

theorem levelBlock {n k : Nat} {ts : List Nat} (h : Frame q s t) :
    Frame q s (Machine.levelBlock n k ts t) :=
  h.foldl fun _ _ => (·.levelTap)

theorem setNf {n k : Nat} {x : NotchSt} (h : Frame q s t) :
    Frame q s (State.setNf t n k x) :=
  h.setFe

theorem notchBlock {n blk : Nat} {f : List Int} {k : Nat} (h : Frame q s t) :
    Frame q s (Machine.notchBlock n blk f k t) := by
  unfold Machine.notchBlock
  extract_lets _ _ _ _ x5 _ _ t8
  have h8 : Frame q s t8 := h.setF
  refine .ite ?_ (Frame.ite h8.setNf h)
  clear_value x5
  split
  · exact h
  · exact h.setNf

theorem execAgcBlockEnd {n : Fin 4} (h : Frame true s t) :
    Gives (Machine.execAgcBlockEnd n t) (Frame true s) := by
  unfold Machine.execAgcBlockEnd
  split
  · exact .next h
  · extract_lets _ t2 t3 t4 _ t6 t7 _ t9
    have h2 : Frame true s t2 := h.setFe
    have h3 : Frame true s t3 := Frame.ite h2 h2.agcBlock
    have h4 : Frame true s t4 := h3.levelBlock
    have h6 : Frame true s t6 := h4.setReg
    have h7 : Frame true s t7 := Frame.ite h6.sticky.raiseIn h6
    have h9 : Frame true s t9 := h7.setReg
    exact .next h9.notchBlock.notchBlock.notchBlock.notchBlock

theorem execAgcCodeApply {n : Fin 4} (h : Frame true s t) :
    Gives (Machine.execAgcCodeApply n t) (Frame true s) := by
  unfold Machine.execAgcCodeApply
  split
  · exact .next h
  · exact .ite (.next h) (.next h.setFe.gainCode)

theorem execLevelScaleApply {n : Fin 4} {t' : Fin 16} (h : Frame true s t) :
    Gives (Machine.execLevelScaleApply n t' t) (Frame true s) := by
  unfold Machine.execLevelScaleApply
  extract_lets
  split
  · exact .next h
  · exact .ite (.next h) (.next h.setTap.setF)

theorem execNotchEngage {n k : Fin 4} (h : Frame true s t) :
    Gives (Machine.execNotchEngage n k t) (Frame true s) := by
  unfold Machine.execNotchEngage
  split
  · exact .next h
  · exact .ite (.next h) (.next h.setNf.setReg.setReg.raise)

theorem execNotchRelease {n k : Fin 4} (h : Frame true s t) :
    Gives (Machine.execNotchRelease n k t) (Frame true s) := by
  unfold Machine.execNotchRelease
  extract_lets _ t2
  have h2 : Frame true s t2 := h.setNf.setReg
  split
  · exact .next h
  · exact .ite (.next h) (.next h2.raise)

theorem notchMode {n k : Nat} (h : Frame q s t) :
    Frame q s (Machine.notchMode n k t) :=
  Frame.ite h.setNf.setReg (Frame.ite h.setNf.setReg.setReg (Frame.ite h h.setNf.setReg))

theorem tapStream {n t' : Nat} (h : Frame q s t) :
    Frame q s (Machine.tapStream n t' t) :=
  Frame.ite h (Frame.ite h.setTap h.setTap)

theorem tapApply {n t' : Nat} {cfg fcw : Word} (h : Frame q s t) :
    Frame q s (Machine.tapApply n t' cfg fcw t) :=
  (Frame.ite h.setReg.setReg.tapEnable (Frame.ite h.setReg.setReg.tapDisable h.setReg.setReg)).tapStream.keepSync

theorem tapWrite {n t' : Nat} {cfg fcw : Word} (h : Frame q s t) :
    Frame q s (Machine.tapWrite n t' cfg fcw t) := by
  unfold Machine.tapWrite
  extract_lets x1
  refine .ite h ?_
  clear_value x1
  split
  · exact h.tapApply
  · exact h.sticky
  · exact h.sticky
  · exact Frame.ite h.sticky h

theorem tagRun {n c step bits : Nat} (h : Frame q s t) :
    Frame q s (Machine.tagRun n c step bits t) := by
  unfold Machine.tagRun
  extract_lets _ x2
  refine .ite (Frame.ite h h.setFe.setReg) ?_
  clear_value x2
  split
  · exact h.setFe.setReg
  · exact Frame.ite h.setFe.setReg (Frame.ite h.setFe.setReg h.setFe.setReg.cnt.sticky.raise)

theorem tapStore {n t' c : Nat} {i q' : Int} {x : Bool} (h : Frame q s t) :
    Frame q s (Machine.tapStore n t' c i q' x t) :=
  h.store.snapFeed.setTap

theorem tapStreamPut {n t' c : Nat} {i q' : Int} {tags : Nat} (h : Frame q s t) :
    Frame q s (Machine.tapStreamPut n t' c i q' tags t) :=
  Frame.ite h h.setTap

theorem tapSample {n t' c : Nat} {i q' : Int} {tags : Nat} (h : Frame q s t) :
    Frame q s (Machine.tapSample n t' c i q' tags t) :=
  h.tapStore.tapStreamPut

theorem tapProduce {n c t' : Nat} (h : Frame q s t) :
    Frame q s (Machine.tapProduce n c t' t) :=
  (Frame.ite h.setTap h).tapSample

theorem tapsProduce {n c : Nat} {ts : List Nat} (h : Frame q s t) :
    Frame q s (Machine.tapsProduce n c ts t) :=
  h.foldl fun _ _ k => Frame.ite k.tapProduce k

theorem tapRoll {n t' : Nat} (h : Frame q s t) :
    Frame q s (Machine.tapRoll n t' t) :=
  Frame.ite h h.setTap

theorem streamWrite {n t' : Nat} {st : StreamSt} (h : Frame q s t) :
    Frame q s (Machine.streamWrite n t' st t).1 := by
  unfold Machine.streamWrite
  extract_lets _ _ _ _ _ _ _ t8
  have h8 : Frame q s t8 := Frame.ite h.setReg h.setTap
  split
  · refine .ite_fst h ?_
    split
    · exact h
    · extract_lets
      split
      next e13 =>
        extract_lets t14 t15
        have h14 : Frame q s t14 := (of_fst e13 (ite_fst h8 h8.ringPutB)).raiseList
        have h15 : Frame q s t15 := (Frame.ite h14.cnt h14.cnt).sticky
        exact ite_fst h14 (Frame.ite h15.rateOkAt.raise h15.rateOkAt)

theorem execStreamBlockEnd {n : Fin 4} {t' : Fin 17} (h : Frame true s t) :
    Gives (Machine.execStreamBlockEnd n t' t) (Frame true s) := by
  unfold Machine.execStreamBlockEnd
  refine .ite ?_ ?_
  · split
    next e1 =>
      exact .next ((of_fst e1 h.streamWrite).setFe)
  · split
    next e2 =>
      exact .next ((of_fst e2 h.streamWrite).setTap)

theorem streamCfgWrite {n : Nat} {v : Word} (h : Frame q s t) :
    Frame q s (Machine.streamCfgWrite n v t) :=
  Frame.ite h.setReg (Frame.ite h.setReg.setFe.keepSync h.setReg.setFe.keepSync)

theorem replayStart {n : Nat} (h : Frame q s t) :
    Frame q s (Machine.replayStart n t) :=
  Frame.ite h h.setReg.setReg.setFe.keepSync

theorem chzCtrl {n v : Nat} (h : Frame q s t) :
    Frame q s (Machine.chzCtrl n v t) :=
  Frame.ite h.replayStop (Frame.ite h.replayStart h)

theorem replayCfgWrite {n : Nat} {v : Word} (h : Frame q s t) :
    Frame q s (Machine.replayCfgWrite n v t) :=
  Frame.ite h h.setReg

theorem replayReject {n cause key : Nat} {seq : Word} (h : Frame q s t) :
    Frame q s (Machine.replayReject n cause key seq t) :=
  Frame.ite h.cnt.sticky.setFe h.cnt.sticky.setFe.replayStop

theorem replayAccept {n : Nat} {h' : List Word} {bs : List Nat} (h : Frame q s t) :
    Frame q s (Machine.replayAccept n h' bs t) :=
  Frame.ite h.setFe.setF h.setFe.setF.cnt.raise

theorem tapConfigSpec_framed : tapConfigSpec.Framed where
  eff h := h.tapApply
  refuse h := h

theorem chzConfigSpec_framed : chzConfigSpec.Framed where
  eff h := h.setReg.setReg.setReg.setReg
  refuse h := h

theorem notchConfigSpec_framed : notchConfigSpec.Framed where
  eff h := h.setReg.setReg.notchMode
  refuse h := h

theorem streamConfigSpec_framed : streamConfigSpec.Framed where
  eff h := ite_snd h.streamCfgWrite h.streamCfgWrite.takeFree.takeFree
  refuse h := h

theorem replayCtrlSpec_framed : replayCtrlSpec.Framed where
  eff h := Frame.ite h.replayCfgWrite.replayStop (Frame.ite h.replayCfgWrite.replayStart h.replayCfgWrite)
  refuse h := h

/-! ## Sample time -/

theorem phCompare {u : Nat} {e : Int} (h : Frame q s t) :
    Frame q s (Machine.phCompare u e t) :=
  Frame.ite h (Frame.ite h.setPll.setReg (Frame.ite h.setPll.setReg.cnt h.setPll.setReg))

theorem phCompares {a : List (Fin 9 × Int)} (h : Frame q s t) :
    Frame q s (Machine.phCompares a t) := by
  induction a generalizing t with
  | nil => exact h
  | cons x xs ih =>
    unfold Machine.phCompares
    exact ih h.phCompare

theorem feHist {n : Nat} {x : Int} (h : Frame q s t) :
    Frame q s (Machine.feHist n x t) :=
  Frame.ite h h.cnt

theorem samplePush {n : Nat} {i q' : BitVec 9} (h : Frame q s t) :
    Frame q s (Machine.samplePush n i q' t) :=
  Frame.ite ((Frame.ite h h.cnt).feHist.feHist.setFe) ((Frame.ite h h.cnt).feHist.feHist.setFe)

theorem pulseBlank {n : Nat} {i q' : Int} {next : List (Int × Int)} (h : Frame q s t) :
    Frame q s (Machine.pulseBlank n i q' next t).2 :=
  Frame.ite ((Frame.ite h.setFe.cnt h.setFe).cnt) (Frame.ite h.setFe.cnt h.setFe)

theorem setCalBase {n k : Nat} {b : Int} (h : Frame q s t) :
    Frame q s (Machine.setCalBase n k b t) :=
  Frame.ite h.setReg h.setCal

theorem basesApply {n c : Nat} {a : List (Nat × Nat × Int)} (h : Frame q s t) :
    Frame q s (Machine.basesApply n c a t) := by
  induction a generalizing t with
  | nil => exact h
  | cons x xs ih =>
    unfold Machine.basesApply
    exact ih (Frame.ite h.setCalBase h)

theorem calTouch {n c : Nat} (h : Frame q s t) :
    Frame q s (Machine.calTouch n c t) :=
  h.setCal.basesApply

theorem calSecond {n k : Nat} (h : Frame q s t) :
    Frame q s (Machine.calSecond n k t) :=
  Frame.ite h.setCal.calTouch h.setCal

theorem ccSample {n c k : Nat} {used swept : Bool} {z : Int × Int} (h : Frame q s t) :
    Frame q s (Machine.ccSample n c k used swept z t) :=
  Frame.ite h (Frame.ite h.setCal h.setCal.setCal)

theorem calSample {n c tags : Nat} {own : Bool} {z : Int × Int} (h : Frame q s t) :
    Frame q s (Machine.calSample n c tags own z t) :=
  Frame.ite ((Frame.ite (h.setCal.foldl fun _ _ => (·.ccSample)) h.setCal).calSecond) (Frame.ite (h.setCal.foldl fun _ _ => (·.ccSample))
    h.setCal)

theorem blkSample {n c i q' tags clip : Nat} {ai aq : Int} (h : Frame q s t) :
    Frame q s (Machine.blkSample n c i q' tags clip ai aq t) :=
  Frame.ite h.setFe h.setFe

theorem fullStreamPut {n c : Nat} {i q' : Int} {kinds : Nat} (h : Frame q s t) :
    Frame q s (Machine.fullStreamPut n c i q' kinds t) :=
  Frame.ite h h.setFe

theorem specPut {n tags : Nat} {z : Int × Int} (h : Frame q s t) :
    Frame q s (Machine.specPut n tags z t) :=
  Frame.ite h h.setFe

theorem notchPass {n k : Nat} {zs : (Int × Int) × State} (h : Frame q s zs.2) :
    Frame q s (Machine.notchPass n k zs).2 := by
  unfold Machine.notchPass
  exact ite_snd h (Frame.ite h.setNf.setReg h.setNf)

theorem cleanPut {n c tags : Nat} {z : Int × Int} (h : Frame q s t) :
    Frame q s (Machine.cleanPut n c tags z t) :=
  h.notchPass.notchPass.notchPass.notchPass.setFe

theorem streamPoint {n : Nat} {x : PipeS} {next : List (Int × Int)} (h : Frame q s t) :
    Frame q s (Machine.streamPoint n x next t) := by
  unfold Machine.streamPoint
  extract_lets t1
  have h1 : Frame q s t1 := h.fullStreamPut
  split
  next e2 =>
    extract_lets _ t4 _ t6 t7 t8 t9 t10
    have h4 : Frame q s t4 := (of_snd e2 h1.pulseBlank).tagRun
    have h6 : Frame q s t6 := h4.setFe
    have h7 : Frame q s t7 := h6.specPut.cleanPut
    have h8 : Frame q s t8 := h7.blkSample
    have h9 : Frame q s t9 := h8.calSample
    have h10 : Frame q s t10 := h9.tapsProduce
    exact Frame.ite (h10.foldl fun _ _ => (·.tapRoll)) h10

theorem pipeExit {n : Nat} (h : Frame q s t) :
    Frame q s (Machine.pipeExit n t) := by
  unfold Machine.pipeExit
  extract_lets _ t2
  have h2 : Frame q s t2 := h.setFe
  refine .ite h ?_
  split
  · exact h
  · exact (Frame.ite h2.cnt h2).streamPoint

theorem replayTime {n c : Nat} (h : Frame q s t) :
    Frame q s (Machine.replayTime n c t) :=
  h.setDt

theorem replayPause {n : Nat} (h : Frame q s t) :
    Frame q s (Machine.replayPause n t) :=
  Frame.ite h h.setFe.setF.cnt.sticky.raise

theorem replayTap {n t' : Nat} (h : Frame q s t) :
    Frame q s (Machine.replayTap n t' t) := by
  unfold Machine.replayTap
  extract_lets
  refine .ite h ?_
  split
  · exact h
  · exact Frame.ite h (Frame.ite h.setFe.replayTime.tagRun.tapSample.calSecond h.setFe.replayTime.tagRun.tapSample)

theorem replayTaps {n : Nat} (h : Frame q s t) :
    Frame q s (Machine.replayTaps n t) :=
  (h.foldl fun _ _ => (·.replayTap)).setFe

theorem replayEnd {n : Nat} (h : Frame q s t) :
    Frame q s (Machine.replayEnd n t) := by
  unfold Machine.replayEnd
  split
  · exact Frame.ite h h.replayStop
  · exact h

theorem replayStall {n : Nat} (h : Frame q s t) :
    Frame q s (Machine.replayStall n t) := by
  unfold Machine.replayStall
  split
  · exact h.replayStop
  · exact h.replayPause

theorem replayCycle {n : Nat} (h : Frame q s t) :
    Frame q s (Machine.replayCycle n t) := by
  unfold Machine.replayCycle
  refine .ite h ?_
  refine .ite (Frame.ite h.replayTaps.replayEnd h.replayStall) ?_
  split
  · exact h.replayPause
  · exact h.setFe.replayTime.streamPoint.replayEnd

theorem feCycle {n : Nat} {iq : BitVec 9 × BitVec 9} (h : Frame q s t) :
    Frame q s (Machine.feCycle n iq t) :=
  Frame.ite ((Frame.ite h.calTouch h).replayCycle) (Frame.ite ((Frame.ite h.calTouch h).samplePush.pipeExit) (Frame.ite h.calTouch h))

theorem sampleTime {was : Nat} (h : Frame q s t) :
    Frame q s (Machine.sampleTime was t) := by
  unfold Machine.sampleTime
  extract_lets _ _ t3 _ t5
  have h3 : Frame q s t3 := Frame.ite h h.same
  have h5 : Frame q s t5 := Frame.ite h3.same h3
  exact Frame.ite h (Frame.ite h5.same h5)

theorem delegateStarved {b : Nat} (h : Frame q s t) :
    Frame q s (Machine.delegateStarved b t) :=
  Frame.ite h (Frame.ite h.setBh.cnt.sticky.sticky.raise h.setBh.cnt)

theorem delegatesStarved {a : List (Fin 16)} (h : Frame q s t) :
    Frame q s (Machine.delegatesStarved a t) := by
  induction a generalizing t with
  | nil => exact h
  | cons x xs ih =>
    unfold Machine.delegatesStarved
    exact ih h.delegateStarved

/-! ## Calibration -/

theorem rxDelay {n sig : Nat} {carrier at_ : Int} (h : Frame q s t) :
    Frame q s (Machine.rxDelay n sig carrier at_ t).2.2 :=
  ite_thd h (ite_thd h.sticky h.sticky.setCal.raise)

theorem injBegin {n n0 ms : Nat} (h : Frame q s t) :
    Frame q s (Machine.injBegin n n0 ms t) :=
  h.setCal.setDt.calSetState.raise

theorem execInjectionStart {n : Fin 4} (h : Frame true s t) :
    Gives (Machine.execInjectionStart n t) (Frame true s) := by
  unfold Machine.execInjectionStart
  split
  · exact .next h
  · exact .ite (.next h) (.next h.injBegin.reply)

theorem execInjectWaitTimeout {n : Fin 4} (h : Frame true s t) :
    Gives (Machine.execInjectWaitTimeout n t) (Frame true s) := by
  unfold Machine.execInjectWaitTimeout
  split
  · exact .next h
  · exact .ite (.next h) (.next h.setCal.injRefuse.calSetState)

theorem ccTake {n sec k : Nat} {x : CcEst} (h : Frame q s t) :
    Frame q s (Machine.ccTake n sec k x t) :=
  Frame.ite h (Frame.ite h.setReg.setCal.sticky.raise h.setReg)

theorem calNoEst {n : Nat} {valid : Bool} (h : Frame q s t) :
    Frame q s (Machine.calNoEst n valid t) :=
  Frame.ite h.setCal (Frame.ite h.setCal.sticky.raise h.setCal)

theorem calSecondEnd {n : Nat} (h : Frame q s t) :
    Frame q s (Machine.calSecondEnd n t) := by
  unfold Machine.calSecondEnd
  split
  · exact h
  · extract_lets _ t2
    have h2 : Frame q s t2 := h.setCal
    split
    next e3 =>
      extract_lets _ _ _ _ t8 t9 t10 _ _ t13
      have h8 : Frame q s t8 := (of_snd e3 h2.takeFree).calNoEst
      have h9 : Frame q s t9 := h8.foldl fun _ _ => (·.ccTake)
      have h10 : Frame q s t10 := h9.cnt.setReg.setReg
      have h13 : Frame q s t13 := Frame.ite h10.setCal (Frame.ite h9.cnt.sticky h9)
      exact Frame.ite h13.setCal h13

theorem calDrift {n : Nat} (h : Frame q s t) :
    Frame q s (Machine.calDrift n t) :=
  Frame.ite h (Frame.ite h (Frame.ite h.sticky.setCal.raise h.sticky))

theorem liveNote {n : Nat} {l : Int} (h : Frame q s t) :
    Frame q s (Machine.liveNote n l t) :=
  h.same rfl

theorem liveApply {n : Nat} (h : Frame q s t) :
    Frame q s (Machine.liveApply n t) := by
  unfold Machine.liveApply
  split
  · exact h
  · extract_lets _ t2 _ _ _ _ _ t8 t9 t10
    have h2 : Frame q s t2 := h.setCal
    have h8 : Frame q s t8 := h2.delayNote.setReg.setCal.liveNote
    have h9 : Frame q s t9 := Frame.ite h8 h8.raise
    have h10 : Frame q s t10 := Frame.ite h2 h9.calDrift
    exact Frame.ite h ((Frame.ite h10 h10.cnt).recordSeq)

theorem sweepSegs {n : Nat} {w : SweepSt} {a a' : Nat} (h : Frame q s t) :
    Frame q s (Machine.sweepSegs n w a a' t) := by
  induction a generalizing a' t with
  | zero => exact h
  | succ n' ih =>
    unfold Machine.sweepSegs
    exact Frame.ite h (ih h.setReg)

theorem sweepArm {n d : Nat} {w : SweepSt} (h : Frame q s t) :
    Frame q s (Machine.sweepArm n d w t) :=
  Frame.ite h.sweepSegs.setReg.setDt.rampArm h.sweepSegs.setReg.setDt

theorem sweepBegin {n startN : Nat} (h : Frame q s t) :
    Frame q s (Machine.sweepBegin n startN t) :=
  Frame.ite h.setCal.calSetState h.setCal.calSetState.sweepArm

theorem execSweepEnd {n : Fin 4} (h : Frame true s t) :
    Gives (Machine.execSweepEnd n t) (Frame true s) := by
  unfold Machine.execSweepEnd
  extract_lets
  split
  · exact .next h
  · exact .ite (.next h) (.next h.setCal.rampDrop.calSetState)

theorem execSweepTableApply {n : Fin 4} (h : Frame true s t) :
    Gives (Machine.execSweepTableApply n t) (Frame true s) := by
  unfold Machine.execSweepTableApply
  split
  · exact .next h
  · exact .ite (.next h) (.next ((Frame.ite h.delayNote.setCal.setReg.sticky.cnt
    h.delayNote.setCal.setReg.sticky.cnt.cnt).recordSeq.recordSeq.raise))

theorem calInjectSpec_framed : calInjectSpec.Framed where
  eff h := ite_snd h.calStop (ite_snd h (ite_snd h.injBegin h.setCal.calSetState))
  refuse h := ite_snd h.cnt.sticky.sticky.raise h

theorem calSweepSpec_framed : calSweepSpec.Framed where
  eff h := ite_snd h.sweepAbort.takeFree h.sweepBegin
  refuse h := h

theorem calConfigSpec_framed : calConfigSpec.Framed where
  eff h := Frame.ite h.delayNote.setReg.setReg.setReg.setReg.setReg.setReg h.delayNote.setReg.setReg.setReg.setReg.setReg.setReg.loPlan
  refuse h := h

theorem calCtrl {n v : Nat} (h : Frame true s t) :
    Frame true s (Machine.calCtrl n v t) := by
  unfold Machine.calCtrl
  extract_lets _ _ t3
  have h3 : Frame true s t3 := Frame.ite (Frame.ite (calSweepSpec_framed.eff h) h.queued) h
  exact Frame.ite (Frame.ite (calInjectSpec_framed.eff h3) h3.queued) h3

end Frame

end Sys2Proof.Machine
end

section
/-! The frame through the correlators, the wings, the loops and the epochs. -/

namespace Sys2Proof.Machine

set_option Elab.async false

namespace Frame

variable {q : Bool} {s t u : State}

/-! ## Correlators -/

theorem setChan {c : Nat} {x : Chan} (h : Frame q s t) :
    Frame q s (State.setChan t c x) :=
  h.same rfl

theorem tapRead {n t' c : Nat} (h : Frame q s t) :
    Frame q s (Machine.tapRead n t' c t).1 := by
  unfold Machine.tapRead
  extract_lets
  split
  · exact h
  · split
    next e6 =>
      exact of_fst e6 h.memRead
    next e7 =>
      exact of_fst e7 h.memRead

theorem corrRun {fe tap : Nat} {fcw : Int} {cfw l : Nat} {offs : List Int} {a a' a'' a''' : Nat} {a'''' : Chan} (h : Frame q s t) :
    Frame q s (Machine.corrRun fe tap fcw cfw l offs a a' a'' a''' a'''' t).2 := by
  induction a generalizing a' a'' a''' a'''' t with
  | zero => exact h
  | succ n' ih =>
    unfold Machine.corrRun
    exact ih h.tapRead

theorem corrTo {e : Nat} {x : Chan} (h : Frame q s t) :
    Frame q s (Machine.corrTo e x t).2 :=
  h.corrRun

theorem slotRead {c j : Nat} {a : List Nat} {a' : List Word} (h : Frame q s t) :
    Frame q s (Machine.slotRead c j a a' t).1 := by
  induction a generalizing a' t with
  | nil => exact h
  | cons x xs ih =>
    unfold Machine.slotRead
    split
    next e1 =>
      exact ih (of_fst e1 h.memRead)
    next e2 =>
      exact of_fst e2 h.memRead

/-! ## Searches -/

theorem resultCount {j : Job} (h : Frame q s t) :
    Frame q s (Machine.resultCount j t) := by
  unfold Machine.resultCount
  extract_lets _ _ t3 t4 t5
  have h3 : Frame q s t3 := h.cnt.cnt
  have h4 : Frame q s t4 := Frame.ite h3.cnt h3
  have h5 : Frame q s t5 := h4.cnt
  exact Frame.ite h4.cnt.cnt.setReg (Frame.ite h5 h5.same)

theorem setFb {f : FbSearch} (h : Frame q s t) :
    Frame q s (State.setFb t f) :=
  h.same rfl

theorem fbClose {f : FbSearch} {det : Bool} {o : SearchOut} (h : Frame q s t) :
    Frame q s (Machine.fbClose f det o t) := by
  unfold Machine.fbClose
  extract_lets _ _ _ t4
  have h4 : Frame q s t4 := h.setReg
  split
  extract_lets _ t5 _ t6
  have h5 : Frame q s t5 := h4.resultCount.record
  have h6 : Frame q s t6 := h5.same
  exact h6.cnt

/-! ## Wings -/

theorem wgSetState {w v : Nat} (h : Frame q s t) :
    Frame q s (Machine.wgSetState w v t) :=
  Frame.ite h h.setF.setDt.raise.keepSync

theorem loadImage {c k n : Nat} (h : Frame q s t) :
    Frame q s (Machine.loadImage c k n t) :=
  h.storeList

theorem wgEnable {w : Nat} (h : Frame q s t) :
    Frame q s (Machine.wgEnable w t) := by
  unfold Machine.wgEnable
  extract_lets t1 t2 _ t4
  have h1 : Frame q s t1 := h.zeroMem.zeroMem.zeroMem
  have h2 : Frame q s t2 := h1.loadImage
  have h4 : Frame q s t4 := h2.same
  exact Frame.ite h h4.startCore.wgSetState

theorem wgDisable {w : Nat} (h : Frame q s t) :
    Frame q s (Machine.wgDisable w t) :=
  Frame.ite h h.zeroMem.zeroMem.zeroMem.setCore.wgSetState

theorem wgCtrl {w v : Nat} (h : Frame q s t) :
    Frame q s (Machine.wgCtrl w v t) :=
  Frame.ite h.wgEnable (Frame.ite h.wgDisable h)

theorem asgRecord {c action : Nat} {x : Chan} {d : Dt} {pos : Nat} {dopp : Int} {from_ : Option Nat} (h : Frame q s t) :
    Frame q s (Machine.asgRecord c action x d pos dopp from_ t) :=
  Frame.ite h h.same.record

theorem chanTake {a : Assign} {c : Nat} (h : Frame q s t) :
    Frame q s (Machine.chanTake a c t) :=
  h.setChan

theorem doAssign {a : Assign} (h : Frame q s t) :
    Frame q s (Machine.doAssign a t) := by
  unfold Machine.doAssign
  extract_lets t1
  have h1 : Frame q s t1 := h.same
  split
  · exact h1.chanTake
  · exact h1

theorem loopCommit {c at_ : Nat} {nco : Int} (h : Frame q s t) :
    Frame q s (Machine.loopCommit c at_ nco t) :=
  h.storeList

theorem postSlot {c j : Nat} {ws : List Word} (h : Frame q s t) :
    Frame q s (Machine.postSlot c j ws t) :=
  h.storeList.storeList

theorem assignEnter {a : Assign} {c : Nat} (h : Frame q s t) :
    Frame q s (Machine.assignEnter a c t) := by
  unfold Machine.assignEnter
  extract_lets _ _ _ _ _ _ _ _ t9 t10 t11 _ _ _ t15 t16
  have h9 : Frame q s t9 := h.zeroMem
  have h10 : Frame q s t10 := h9.postSlot
  have h11 : Frame q s t11 := h10.postSlot
  have h15 : Frame q s t15 := h11.same
  have h16 : Frame q s t16 := h15.setChan.cnt.loopCommit
  exact Frame.ite h h16.asgRecord

theorem execChannelAssignmentEntry (h : Frame true s t) :
    Gives (Machine.execChannelAssignmentEntry t) (Frame true s) := by
  unfold Machine.execChannelAssignmentEntry
  split
  · exact .next h
  · extract_lets t1
    have h1 : Frame true s t1 := h.same
    split
    · exact .next h1.assignEnter
    · refine .ite (.next h) ?_
      refine .ite (.next h1.same) ?_
      split
      · exact .next h1.cnt
      · exact .next h1.chanTake.assignEnter

theorem ensureEntered {c : Nat} (h : Frame q s t) :
    Frame q s (Machine.ensureEntered c t) := by
  unfold Machine.ensureEntered
  split
  · exact h
  · exact h.same.assignEnter

theorem moveDrop {c st : Nat} (h : Frame q s t) :
    Frame q s (Machine.moveDrop c st t) := by
  unfold Machine.moveDrop
  extract_lets
  split
  · exact h
  · exact h.setChan.reply

theorem fbDrop {c : Nat} (h : Frame q s t) :
    Frame q s (Machine.fbDrop c t) := by
  unfold Machine.fbDrop
  split
  · exact h
  · exact h.fbClose

theorem chanRelease {c action n : Nat} (h : Frame q s t) :
    Frame q s (Machine.chanRelease c action n t) := by
  unfold Machine.chanRelease
  extract_lets t1 _ t3 _ t5
  have h1 : Frame q s t1 := h.moveDrop.fbDrop
  have h3 : Frame q s t3 := h1.asgRecord.cnt
  have h5 : Frame q s t5 := h3.same
  exact h5.setChan

theorem integBegin {c : Nat} {ws : List Word} {td : Bool} (h : Frame q s t) :
    Frame q s (Machine.integBegin c ws td t) :=
  Frame.ite h.storeList.store.setChan (Frame.ite h.storeList.store.setChan.cnt h.storeList.store.setChan.cnt.setChan.raise)

theorem integInvalid {c action : Nat} (h : Frame q s t) :
    Frame q s (Machine.integInvalid c action t) :=
  h.storeList.cnt.pendLine.chanRelease

theorem cfgTake {c : Nat} (h : Frame q s t) :
    Frame q s (Machine.cfgTake c t) :=
  Frame.ite h h.setChan

theorem slotFail {c k : Nat} (h : Frame q s t) :
    Frame q s (Machine.slotFail c k t) :=
  Frame.ite h h.sticky.raise.integInvalid

theorem tokenRead {c : Nat} {again : Bool} (h : Frame q s t) :
    Frame q s (Machine.tokenRead c again t) := by
  unfold Machine.tokenRead
  extract_lets t1
  have h1 : Frame q s t1 := h.cfgTake
  split
  next e5 =>
    exact (of_fst e5 h1.slotRead).slotFail
  next e6 =>
    have h6 := of_fst e6 h1.slotRead
    extract_lets
    refine .ite ?_ (Frame.ite h6.integBegin (Frame.ite h6 h6.setChan.cnt))
    split
    next e8 =>
      exact (of_fst e8 h6.slotRead).slotFail
    next e9 =>
      have h9 := of_fst e9 h6.slotRead
      refine .ite (Frame.ite h9 h9.sticky.raise.integInvalid) ?_
      refine .ite ?_ ?_
      · exact Frame.ite h9 h9.chanRelease
      · exact h9.integBegin

theorem fbBegin {c : Nat} {f : FbSearch} (h : Frame q s t) :
    Frame q s (Machine.fbBegin c f t) :=
  Frame.ite h h.integBegin.setChan

theorem execIntegrationStart {c : Fin 2048} (h : Frame true s t) :
    Gives (Machine.execIntegrationStart c t) (Frame true s) := by
  unfold Machine.execIntegrationStart
  extract_lets
  refine .ite (.next h) ?_
  split
  · exact .ite (.next h) (.next h.chanRelease)
  · refine .ite ?_ (.ite (.ite (.next h) (.next h.chanRelease)) (.next h))
    split
    · exact .next h.fbBegin
    · exact .next h.tokenRead

theorem lagNote {c : Nat} (h : Frame q s t) :
    Frame q s (Machine.lagNote c t) :=
  h.maxF

theorem integFinish {c e flags : Nat} (h : Frame q s t) :
    Frame q s (Machine.integFinish c e flags t) := by
  unfold Machine.integFinish
  extract_lets _ _ _ _ _ t6
  have h6 : Frame q s t6 := h.store
  split
  · extract_lets _ t10 t11 t12 _ _ t15 t16
    have h10 : Frame q s t10 := h6.storeList
    have h11 : Frame q s t11 := h10.store.pendLine
    have h12 : Frame q s t12 := Frame.ite h11.cnt h11
    have h15 : Frame q s t15 := h12.cnt
    have h16 : Frame q s t16 := by
      unfold t16
      split
      · exact Frame.ite h15.setFb h15
      · exact h15
    exact h16.setChan

theorem execIntegrationEnd {c : Fin 2048} (h : Frame true s t) :
    Gives (Machine.execIntegrationEnd c t) (Frame true s) := by
  unfold Machine.execIntegrationEnd
  extract_lets _ _ t3
  have h3 : Frame true s t3 := h.lagNote
  refine .ite (.next h) ?_
  split
  next e4 =>
    exact .next ((of_snd e4 h3.corrTo).setChan.integFinish)

theorem integSpoil {c : Nat} (h : Frame q s t) :
    Frame q s (Machine.integSpoil c t) :=
  Frame.ite h.setChan.integFinish h

theorem moveNow {c t' : Nat} {fault : Bool} (h : Frame q s t) :
    Frame q s (Machine.moveNow c t' fault t) := by
  unfold Machine.moveNow
  extract_lets _ t2 _ _ _ t6 t7 t8 _ _ t11 _ t13 t14 t15 _ t17 t18
  have h2 : Frame q s t2 := Frame.ite h.integSpoil h
  have h6 : Frame q s t6 := h2.storeList
  have h7 : Frame q s t7 := h6.storeList
  have h8 : Frame q s t8 := Frame.ite h7.storeList.pendLine h7
  have h11 : Frame q s t11 := h8.setChan.setChan
  have h13 : Frame q s t13 := by
    unfold t13
    split
    · exact h11.same
    · exact h11
  have h14 : Frame q s t14 := h13.cnt.sticky
  have h15 : Frame q s t15 := h14.cnt.sticky
  have h17 : Frame q s t17 := h15.same
  have h18 : Frame q s t18 := h17.raise
  exact h18.asgRecord

theorem noTarget {c : Nat} (h : Frame q s t) :
    Frame q s (Machine.noTarget c t) :=
  h.integSpoil.raise.chanRelease

theorem migrate {c : Nat} (h : Frame q s t) :
    Frame q s (Machine.migrate c t) := by
  unfold Machine.migrate
  extract_lets t1
  have h1 : Frame q s t1 := h.moveDrop
  refine .ite h1 ?_
  split
  · exact h1.moveNow
  · exact h1.noTarget

theorem chanRetire {c cause : Nat} (h : Frame q s t) :
    Frame q s (Machine.chanRetire c cause t) :=
  h.retireUnit.cnt.sticky.raise.migrate

theorem execChannelMove {c : Fin 2048} (h : Frame true s t) :
    Gives (Machine.execChannelMove c t) (Frame true s) := by
  unfold Machine.execChannelMove
  extract_lets
  split
  · exact .next h
  · extract_lets
    refine .ite (.next h) ?_
    split
    · exact .next h.cnt.moveDrop
    · exact .next h.moveNow.reply

theorem chanOverrun {c : Nat} (h : Frame q s t) :
    Frame q s (Machine.chanOverrun c t) :=
  (Frame.ite h.cnt.sticky.setChan.integFinish h.cnt.sticky.setChan).raise.chanRelease

theorem execResidueCheckpoint {c : Fin 2048} {mismatch retryOk : Bool} (h : Frame true s t) :
    Gives (Machine.execResidueCheckpoint c mismatch retryOk t) (Frame true s) := by
  unfold Machine.execResidueCheckpoint
  extract_lets _ _ t3 t4
  have h3 : Frame true s t3 := h.lagNote
  have h4 : Frame true s t4 := h3.sticky
  refine .ite (.next h) ?_
  refine .ite ?_ ?_
  · split
    next e5 =>
      exact .next ((of_snd e5 h3.corrTo).setChan)
  · split
    next e6 =>
      have h6 := of_snd e6 h4.faultJudge
      split
      · exact .next h6.chanRetire
      · split
        next e7 =>
          exact .next ((of_snd e7 h6.corrTo).setChan.cnt.raise)

theorem migrateAll {a : List Nat} {a' : Nat} (h : Frame q s t) :
    Frame q s (Machine.migrateAll a a' t).2 := by
  induction a generalizing a' t with
  | nil => exact h
  | cons x xs ih =>
    unfold Machine.migrateAll
    exact ih h.migrate

theorem wgRetire {w cause : Nat} (h : Frame q s t) :
    Frame q s (Machine.wgRetire w cause t) := by
  unfold Machine.wgRetire
  extract_lets t1 t2 t3
  have h1 : Frame q s t1 := h.wgSetState
  have h2 : Frame q s t2 := h1.setCore
  have h3 : Frame q s t3 := h2.retireUnit.handoverFrom
  split
  next e => exact (of_snd e h3.migrateAll).raise

theorem hookDetach {c j : Nat} (h : Frame q s t) :
    Frame q s (Machine.hookDetach c j t) :=
  Frame.ite h h.setChan.raise

theorem hooksDetach {a : List Nat} (h : Frame q s t) :
    Frame q s (Machine.hooksDetach a t) := by
  induction a generalizing t with
  | nil => exact h
  | cons x xs ih =>
    unfold Machine.hooksDetach
    exact ih h.hookDetach

theorem execWingCoreFault {w : Fin 16} {cause : BitVec 5} {pc : BitVec 24} {retryOk part : Bool} (h : Frame true s t) :
    Gives (Machine.execWingCoreFault w cause pc retryOk part t) (Frame true s) := by
  unfold Machine.execWingCoreFault
  refine .ite (.next h) ?_
  split
  next perm t0 e =>
    extract_lets t1 t2 t3 _ t5 _ t6 t7
    have h1 : Frame true s t1 := (of_snd e h.faultJudge).setReg
    have h2 : Frame true s t2 := h1.setDt
    have h3 : Frame true s t3 := h2.setReg
    have h5 : Frame true s t5 := h3.loadImage.startCore
    have h6 : Frame true s t6 := h5.same
    have h7 : Frame true s t7 := h6.cnt.raise
    split
    · exact .next h3.wgRetire
    · exact .next (Frame.ite h7.zeroMem.zeroMem.hooksDetach h7)

theorem chAssignSpec_framed : chAssignSpec.Framed where
  eff h := by
    simp only [chAssignSpec]
    exact h.doAssign
  refuse h := Frame.ite h.cnt h

theorem stopPost {c k : Nat} (h : Frame q s t) :
    Frame q s (Machine.stopPost c k t) :=
  h.postSlot

theorem chReleaseSpec_framed : chReleaseSpec.Framed where
  eff {_ s _} h := by
    dsimp -zeta only [chReleaseSpec]
    extract_lets _ _ t3 _ _ t6
    have h3 : Frame true s t3 := h.ensureEntered
    have h6 : Frame true s t6 := h3.setChan
    split
    · exact h3
    · exact Frame.ite h6.stopPost h6
  refuse h := h

theorem chConfigSpec_framed : chConfigSpec.Framed where
  eff h := h.ensureEntered.setChan
  refuse h := h

theorem chMoveSpec_framed : chMoveSpec.Framed where
  eff h := h.ensureEntered.setChan
  refuse h := h

theorem wgCtrlSpec_framed : wgCtrlSpec.Framed where
  eff h := h.wgCtrl
  refuse h := h

/-! ## Loops -/

theorem loopAdopt {g : LoopChg} (h : Frame q s t) :
    Frame q s (Machine.loopAdopt g t) := by
  unfold Machine.loopAdopt
  split
  · exact Frame.ite h h.setChan
  · exact h.same
  · exact h.same

theorem loopMergeGo {a : List LoopChg} (h : Frame q s t) :
    Frame q s (Machine.loopMergeGo a t) := by
  induction a generalizing t with
  | nil => exact h.same rfl
  | cons x xs ih =>
    unfold Machine.loopMergeGo
    exact Frame.ite (ih h.loopAdopt) h.same

theorem loopMerge (h : Frame q s t) :
    Frame q s (Machine.loopMerge t) :=
  h.loopMergeGo

theorem navFail {c : Nat} {x : Chan} {d : Dt} {m : NavMsg} (h : Frame q s t) :
    Frame q s (Machine.navFail c x d m t) := by
  unfold Machine.navFail
  extract_lets t1
  have h1 : Frame q s t1 := h.cnt
  exact Frame.ite h (Frame.ite h1 h1.same.raise)

theorem navFails {c : Nat} {x : Chan} {d : Dt} {a : List NavMsg} (h : Frame q s t) :
    Frame q s (Machine.navFails c x d a t) := by
  induction a generalizing t with
  | nil => exact h
  | cons x xs ih =>
    unfold Machine.navFails
    exact ih h.navFail

theorem loopPost {c : Nat} {ps : List Word} {dopp dll : Rat} {x : Chan} (h : Frame q s t) :
    Frame q s (Machine.loopPost c ps dopp dll x t).2 := by
  unfold Machine.loopPost
  extract_lets
  split
  · exact ite_snd h h.postSlot
  · exact h.postSlot

theorem hookEnter {c j entry : Nat} {ps : List Word} (h : Frame q s t) :
    Frame q s (Machine.hookEnter c j entry ps t) := by
  unfold Machine.hookEnter
  extract_lets w x r y t1
  have h1 : Frame q s t1 := h.setCore
  exact h1.same

theorem loopRaise {c : Nat} {a : List (Nat × Nat × List Word)} (h : Frame q s t) :
    Frame q s (Machine.loopRaise c a t) := by
  induction a generalizing t with
  | nil => exact h
  | cons x xs ih =>
    unfold Machine.loopRaise
    exact ih h.raise

theorem loopProcess {c : Nat} {budgetTrap : Bool} {k : Contrib} (h : Frame q s t) :
    Frame q s (Machine.loopProcess c budgetTrap k t) := by
  unfold Machine.loopProcess
  extract_lets
  split
  · split
    · extract_lets _ _ _ _ _ _ _ _ _ _ _ _ _ t24
      have h24 : Frame q s t24 := h.setChan.loopCommit
      split
      next e25 =>
        extract_lets _ _ _ t29 t30 t31
        have h29 : Frame q s t29 := (of_snd e25 h24.loopPost).setChan
        have h30 : Frame q s t30 := Frame.ite h29 h29.navFails
        have h31 : Frame q s t31 := h30.loopRaise
        exact (Frame.ite h31.hookEnter h31).loopMerge

theorem execLoopProcessIntegration {c : Fin 2048} {budgetTrap : Bool} (h : Frame true s t) :
    Gives (Machine.execLoopProcessIntegration c budgetTrap t) (Frame true s) := by
  unfold Machine.execLoopProcessIntegration
  split
  · exact .next h
  · exact .next h.loopProcess

theorem loopChange {g : LoopChg} (h : Frame q s t) :
    Frame q s (Machine.loopChange g t) :=
  h.same.loopMerge

theorem loopParamSetSpec_framed : loopParamSetSpec.Framed where
  eff h := h.loopChange
  refuse h := h

theorem loopSelectSpec_framed : loopSelectSpec.Framed where
  eff h := h.ensureEntered.loopChange
  refuse h := h

theorem loopParamGetSpec_framed : loopParamGetSpec.Framed where
  eff h := h
  refuse h := h

theorem loopDefaultSpec_framed : loopDefaultSpec.Framed where
  eff h := h.same rfl
  refuse h := h

theorem loopStatusSpec_framed : loopStatusSpec.Framed where
  eff h := h
  refuse h := h

theorem loopHookSpec_framed : loopHookSpec.Framed where
  eff h := h.loopChange
  refuse h := h

/-! ## Epochs -/

theorem setScale {k : Nat} {m : ScaleM} (h : Frame q s t) :
    Frame q s (State.setScale t k m) :=
  h.same rfl

theorem catSync {acc : Nat} (h : Frame q s t) :
    Frame q s (Machine.catSync acc t) :=
  h.setReg

theorem catReject {sig svk cause : Nat} (h : Frame q s t) :
    Frame q s (Machine.catReject sig svk cause t) :=
  h.cnt.sticky.raise

theorem catEnter {sig svk fcn : Nat} {force : Bool} {words : List Word} {len : Nat} (h : Frame q s t) :
    Frame q s (Machine.catEnter sig svk fcn force words len t).2 := by
  unfold Machine.catEnter
  extract_lets
  refine .ite_snd h.catReject ?_
  refine .ite_snd h ?_
  split
  · exact h.same.catSync
  · exact ite_snd h.same.catSync h.catReject

theorem obsRecord {e : EpochAt} {r : EpCh} {k : Option Contrib} {prof : Bool} (h : Frame q s t) :
    Frame q s (Machine.obsRecord e r k prof t).2 :=
  h.rxDelay

theorem navWrite {q' : Nat} {keep : Bool} {r : EpCh} {a : List NavMsg} (h : Frame q s t) :
    Frame q s (Machine.navWrite q' keep r a t) := by
  induction a generalizing t with
  | nil => exact h
  | cons x xs ih =>
    unfold Machine.navWrite
    extract_lets t1 t2 t3
    have h1 : Frame q s t1 := Frame.ite h.catEnter h
    have h2 : Frame q s t2 := Frame.ite h1.sticky h1
    have h3 : Frame q s t3 := Frame.ite h2 h2.cnt.recordSeq
    exact ih h3

theorem slotKey {e : EpochAt} {a : List EpCh} (h : Frame q s t) :
    Frame q s (Machine.slotKey e a t) := by
  induction a generalizing t with
  | nil => exact h
  | cons x xs ih =>
    unfold Machine.slotKey
    extract_lets _ t2
    have h2 : Frame q s t2 := by
      unfold t2
      split
      · exact Frame.ite h.setChan.asgRecord h
      · exact h
    exact ih h2

theorem obsWrite {e : EpochAt} {q' : Nat} {a : List EpPart} (h : Frame q s t) :
    Frame q s (Machine.obsWrite e q' a t).2 := by
  induction a generalizing t with
  | nil => exact h
  | cons x xs ih =>
    unfold Machine.obsWrite
    refine .ite_snd (ih h) ?_
    split
    next e1 =>
      have h1 := of_snd e1 h.obsRecord
      extract_lets t2 t3 t4 t5 t6 t7 t8 t9
      have h2 : Frame q s t2 := Frame.ite h1.sticky h1
      have h3 : Frame q s t3 := Frame.ite h2.sticky h2
      have h4 : Frame q s t4 := Frame.ite h3.sticky h3
      have h5 : Frame q s t5 := Frame.ite h4.sticky h4
      have h6 : Frame q s t6 := Frame.ite h5.sticky h5
      have h7 : Frame q s t7 := h6.cnt
      have h8 : Frame q s t8 := Frame.ite h7.cnt h7
      have h9 : Frame q s t9 := Frame.ite h6 h8.recordSeq
      exact ih h9

theorem profWrite {e : EpochAt} {q' : Nat} {a : List EpPart} (h : Frame q s t) :
    Frame q s (Machine.profWrite e q' a t) := by
  induction a generalizing t with
  | nil => exact h
  | cons x xs ih =>
    unfold Machine.profWrite
    extract_lets t1
    have h1 : Frame q s t1 := by
      unfold t1
      split
      · exact h.cnt.recordSeq
      · exact h
    exact ih h1

theorem navAll {e : EpochAt} {q' : Nat} {a : List EpPart} (h : Frame q s t) :
    Frame q s (Machine.navAll e q' a t) := by
  induction a generalizing t with
  | nil => exact h
  | cons x xs ih =>
    unfold Machine.navAll
    exact ih h.navWrite

theorem epochAfter {e : EpochAt} {a : List EpPart} (h : Frame q s t) :
    Frame q s (Machine.epochAfter e a t) := by
  induction a generalizing t with
  | nil => exact h
  | cons x xs ih =>
    unfold Machine.epochAfter
    extract_lets _ _ _ _ t5
    have h5 : Frame q s t5 := by
      unfold t5
      split
      · exact h.setChan
      · exact h.same
    exact ih h5

theorem epochSeries {e : EpochAt} (h : Frame q s t) :
    Frame q s (Machine.epochSeries e t) := by
  unfold Machine.epochSeries
  extract_lets _ t2 _ t4 t5
  have h2 : Frame q s t2 := by
    unfold t2
    split
    · exact h
    · exact h.raiseAt
  have h4 : Frame q s t4 := Frame.ite h2.raiseAt (Frame.ite h2.raiseAt h2)
  have h5 : Frame q s t5 := h4.setReg
  exact h5.same

theorem closeEpoch {e : EpochAt} (h : Frame q s t) :
    Frame q s (Machine.closeEpoch e t) := by
  unfold Machine.closeEpoch
  extract_lets _ _ _ _ t5 _ t7
  have h5 : Frame q s t5 := h.slotKey
  have h7 : Frame q s t7 := h5.epochSeries
  split
  next e11 =>
    extract_lets _ _ t14 t15 t16 t17 t18 t19 t20 _ t22
    have h14 : Frame q s t14 := (of_snd e11 h7.obsWrite).recordSeq
    have h15 : Frame q s t15 := h14.profWrite
    have h16 : Frame q s t16 := h15.navAll
    have h17 : Frame q s t17 := h16.epochAfter
    have h18 : Frame q s t18 := h17.setDt.pendLine.pendLine
    have h19 : Frame q s t19 := h18.setF
    have h20 : Frame q s t20 := Frame.ite h19.cnt h19
    have h22 : Frame q s t22 := Frame.ite h20.setF.sticky h20.maxF
    exact Frame.ite h22.same h22

theorem obsConfigSpec_framed : obsConfigSpec.Framed where
  eff h := h.same rfl
  refuse h := h

end Frame

end Sys2Proof.Machine
end

section
/-! The frame through the solution and the acquisition engine. -/

namespace Sys2Proof.Machine

set_option Elab.async false

namespace Frame

variable {q : Bool} {s t u : State}

/-! ## Settings -/

theorem settingsPut {code : Nat} {ws : List Word} (h : Frame q s t) :
    Frame q s (Machine.settingsPut code ws t) :=
  h.nvsQueue

/-! ## Solution -/

theorem exclEvents {te : Dt} {core : Nat} {a : List (Nat × Nat)} (h : Frame q s t) :
    Frame q s (Machine.exclEvents te core a t) := by
  induction a generalizing t with
  | nil => exact h
  | cons x xs ih =>
    unfold Machine.exclEvents
    extract_lets u
    split
    next e =>
      have h1 := of_snd e h.rateOkAt
      exact ih (Frame.ite h1.raise h1.same)

theorem betasMeasured {l : List SolClk} (h : Frame q s t) :
    Frame q s (Machine.betasMeasured l t) := by
  unfold Machine.betasMeasured
  split
  · exact h
  · exact h.same

theorem leapSettle {te : Dt} {k : Nat} (h : Frame q s t) :
    Frame q s (Machine.leapSettle te t k) := by
  unfold Machine.leapSettle
  extract_lets
  split
  · exact Frame.ite h.setScale h
  · exact Frame.ite h.setScale h
  · exact h

theorem solSystem {te : Dt} {l : List SolClk} {drift shift : Int} {isb : Bool} {k : Nat} (h : Frame q s t) :
    Frame q s (Machine.solSystem te l drift shift isb u t k) := by
  unfold Machine.solSystem
  split
  · exact h
  · exact h.setScale

theorem solUtc {te : Dt} {drift shift : Int} {k : Nat} (h : Frame q s t) :
    Frame q s (Machine.solUtc te drift shift u t k) := by
  unfold Machine.solUtc
  extract_lets
  split
  · exact Frame.ite h (Frame.ite h.setScale h.setScale)
  · exact Frame.ite h.setScale h

theorem solComposite {te : Dt} {l : List SolClk} {drift shift : Int} (h : Frame q s t) :
    Frame q s (Machine.solComposite te l drift shift u t) := by
  unfold Machine.solComposite
  extract_lets
  split
  · exact Frame.ite h.setScale h
  · split
    · exact h.same.setScale
    · exact h.same.setScale

theorem solPartial {core : Nat} {ep : SolEp} {l : List SolClk} {tacc : Nat} (h : Frame q s t) :
    Frame q s (Machine.solPartial core ep l tacc t).2 := by
  unfold Machine.solPartial
  extract_lets _ _ t3 _ _ _ _ _ x9
  have h3 : Frame q s t3 := h.same
  refine .ite_snd h ?_
  clear_value x9
  split
  · exact ite_snd h3.same.raise h3.raise
  · exact h3.takeFree.raise

theorem stepShift {d : Int} (h : Frame q s t) :
    Frame q s (Machine.stepShift d t) :=
  h.same rfl

theorem ossSync (h : Frame q s t) :
    Frame q s (Machine.ossSync t) :=
  h.setReg

theorem ossDue {te : Dt} {code : Nat} (h : Frame q s t) :
    Frame q s (Machine.ossDue te code t) :=
  h.same rfl

theorem steerStep {core : Nat} {te : Dt} (h : Frame q s t) :
    Frame q s (Machine.steerStep core te t) := by
  unfold Machine.steerStep
  extract_lets _ _ _ _ _ _ _ t8 _ _ _ _ _ _ t15
  have h8 : Frame q s t8 := h.setReg
  have h15 : Frame q s t15 := h8.same.sticky.sticky.cnt
  exact Frame.ite h (Frame.ite h8.same.sticky (Frame.ite h15.raise.ossDue h8.same.ossDue))

theorem ossFreeze {te : Dt} (h : Frame q s t) :
    Frame q s (Machine.ossFreeze te t) :=
  Frame.ite (Frame.ite h.same.ossSync.sticky h.same.ossSync) ((Frame.ite h.same.ossSync.sticky h.same.ossSync).ossDue)

theorem execOssGridPoint (h : Frame true s t) :
    Gives (Machine.execOssGridPoint t) (Frame true s) := by
  unfold Machine.execOssGridPoint
  extract_lets _ _ _ _ x5
  refine .ite (.next h) ?_
  clear_value x5
  split
  · exact .next h.same
  · exact .next h.same.emit.setReg.cnt.setReg

theorem holdEnter {core : Nat} {te : Dt} (h : Frame q s t) :
    Frame q s (Machine.holdEnter core te t) :=
  h.same.setDt.cnt.sticky.raise.ossFreeze

theorem solValid {core : Nat} {ep : SolEp} {t' : SolTest} (h : Frame q s t) :
    Frame q s (Machine.solValid core ep t' t) := by
  unfold Machine.solValid
  extract_lets
  split
  next e7 =>
    extract_lets _ _ t10 t11 t12 _ _ _ t16 t17
    have h10 : Frame q s t10 := (of_snd e7 h.betasMeasured.solPartial).foldl fun _ _ => (·.solSystem)
    have h11 : Frame q s t11 := h10.foldl fun _ _ => (·.solUtc)
    have h12 : Frame q s t12 := h11.solComposite
    have h16 : Frame q s t16 := h12.same
    have h17 : Frame q s t17 := Frame.ite h16.raise.ossSync h16
    exact h17.steerStep

theorem solSetMode {core v : Nat} (h : Frame q s t) :
    Frame q s (Machine.solSetMode core v t) :=
  Frame.ite h h.setF.raise

theorem solShowPos {p : List Word} (h : Frame q s t) :
    Frame q s (Machine.solShowPos p t) :=
  h.setReg.setReg.setReg

theorem solHold {p : List Word} (h : Frame q s t) :
    Frame q s (Machine.solHold p t) :=
  h.same.setF

theorem meanClear (h : Frame q s t) :
    Frame q s (Machine.meanClear t) :=
  h.same rfl

theorem meanAdd {f : SolFit} (h : Frame q s t) :
    Frame q s (Machine.meanAdd f t) :=
  h.same rfl

theorem surveyStep {core : Nat} {te : Dt} (h : Frame q s t) :
    Frame q s (Machine.surveyStep core te t) :=
  Frame.ite h (Frame.ite h.setReg ((Frame.ite h.setReg.solHold.solShowPos.settingsPut h.setReg.solHold.solShowPos).raise.solSetMode))

theorem sclRegs {te : Dt} {k : Nat} (h : Frame q s t) :
    Frame q s (Machine.sclRegs te t k) :=
  Frame.ite h h.setReg.setReg.setReg

theorem sclAll {te : Dt} (h : Frame q s t) :
    Frame q s (Machine.sclAll te t) :=
  h.foldl fun _ _ => (·.sclRegs)

theorem solFeed {te : Dt} {tacc fix hold : Nat} (h : Frame q s t) :
    Frame q s (Machine.solFeed te tacc fix hold t) :=
  h.same rfl

theorem solRecord {te : Dt} {core disc : Nat} {r : SolRec} (h : Frame q s t) :
    Frame q s (Machine.solRecord te core disc r t) := by
  unfold Machine.solRecord
  extract_lets t1 t2
  have h1 : Frame q s t1 := h.setDt.sclAll
  have h2 : Frame q s t2 := h1.setReg
  exact h2.recordSeq

theorem fdeNote {te : Dt} {core : Nat} {fde : Bool} {n u : Nat} (h : Frame q s t) :
    Frame q s (Machine.fdeNote te core fde n u t) := by
  unfold Machine.fdeNote
  extract_lets _ t2
  have h2 : Frame q s t2 := h.cnt.sticky.raiseIn
  exact Frame.ite h.same (Frame.ite h2 (Frame.ite h2.same h2.same.sticky.raise))

theorem solCompute {core : Nat} {ep : SolEp} (h : Frame q s t) :
    Frame q s (Machine.solCompute core ep t) := by
  unfold Machine.solCompute
  extract_lets _ _ t3 _ _ _ _ _ _ t10 _ t12 t13 t14 t15 t16 _ _ _ _ _ _ _ _ _ _ _ _ _ t30 t31 t32 t33
  have h3 : Frame q s t3 := h.stepShift.foldl fun _ _ => (·.leapSettle)
  have h10 : Frame q s t10 := h3.cnt
  have h12 : Frame q s t12 := Frame.ite h10.same h3
  have h13 : Frame q s t13 := Frame.ite h12 h12.cnt.sticky.exclEvents
  have h14 : Frame q s t14 := h13.fdeNote
  have h15 : Frame q s t15 := Frame.ite h14.meanAdd h14
  have h16 : Frame q s t16 := Frame.ite h15.solValid (Frame.ite h15.holdEnter h15)
  have h30 : Frame q s t30 := h16.setReg
  have h31 : Frame q s t31 := h30.setReg
  have h32 : Frame q s t32 := Frame.ite h31.solShowPos h31
  have h33 : Frame q s t33 := h32.solRecord.surveyStep.stepShift
  exact h33.solFeed

theorem solEpoch {ep : SolEp} (h : Frame q s t) :
    Frame q s (Machine.solEpoch ep t) :=
  Frame.ite h (Frame.ite h.same.stepShift.solRecord.stepShift (Frame.ite h.cnt.stepShift.solRecord.stepShift h.solCompute))

theorem solNext (h : Frame q s t) :
    Frame q s (Machine.solNext t) := by
  unfold Machine.solNext
  split
  · exact h
  · exact h.same.solEpoch

theorem solConfigSpec_framed : solConfigSpec.Framed where
  eff h := h.same rfl
  refuse h := h

theorem solModeSpec_framed : solModeSpec.Framed where
  eff h := h.same rfl
  refuse h := h

theorem solPositionSpec_framed : solPositionSpec.Framed where
  eff h := h.same rfl
  refuse h := h

theorem solOscSpec_framed : solOscSpec.Framed where
  eff h := h.same rfl
  refuse h := h

theorem solSteerSpec_framed : solSteerSpec.Framed where
  eff h := h.same rfl
  refuse h := h

theorem catLoadSpec_framed : catLoadSpec.Framed where
  eff h := h.same rfl
  refuse h := h

theorem catTimeSpec_framed : catTimeSpec.Framed where
  eff h := h.same rfl
  refuse h := h

theorem catReadSpec_framed : catReadSpec.Framed where
  eff h := h.same rfl
  refuse h := h

theorem catClearSpec_framed : catClearSpec.Framed where
  eff h := h.same rfl
  refuse h := h

theorem catLoad {n : Nat} {ws : List Word} {a r : Nat} (h : Frame q s t) :
    Frame q s (Machine.catLoad n ws a r t).2.2 := by
  induction n generalizing ws a r t with
  | zero => exact h
  | succ n ih =>
    cases ws with
    | nil => exact h
    | cons w ws =>
      unfold Machine.catLoad
      extract_lets sig svk fcn len k rest
      split
      · exact ih h.catReject
      · split
        · exact h.catReject
        · split
          next e =>
          have h1 := of_snd e h.catEnter
          split
          · exact ih h1.catSync
          · exact ih h1

theorem solModeApply {p : Packet} {te : Dt} (h : Frame q s t) :
    Frame q s (Machine.solModeApply p te t).2.2 := by
  unfold Machine.solModeApply
  extract_lets _ _ t3 t4 _ t6
  have h3 : Frame q s t3 := h.same
  have h4 : Frame q s t4 := Frame.ite h3.meanClear h3
  have h6 : Frame q s t6 := Frame.ite h4.same.setReg (Frame.ite h4.solShowPos h4)
  exact ite_thd h h6.solSetMode

theorem solPositionApply {p : Packet} {te : Dt} (h : Frame q s t) :
    Frame q s (Machine.solPositionApply p te t).2.2 :=
  ite_thd (Frame.ite h.solHold.solShowPos h.solHold) h.same

theorem solSteerApply {p : Packet} {te : Dt} (h : Frame q s t) :
    Frame q s (Machine.solSteerApply p te t).2.2 :=
  ite_thd h h.same.setF

theorem catLoadApply {p : Packet} (h : Frame q s t) :
    Frame q s (Machine.catLoadApply p t).2.2 :=
  h.catLoad

theorem epochApply {h' : HeldCmd} {te : Dt} (h : Frame q s t) :
    Frame q s (Machine.epochApply h' te t).2.2 := by
  unfold Machine.epochApply
  extract_lets
  refine .ite_thd h.setReg.setReg.setReg ?_
  refine .ite_thd h.solModeApply ?_
  refine .ite_thd ?_ ?_
  · exact h.solPositionApply
  · exact ite_thd h.same (ite_thd h.solSteerApply (ite_thd h.catLoadApply (ite_thd h.same (ite_thd h.bufPut h.same.catSync))))

theorem epochAnswer {te : Dt} {a : List HeldCmd} (h : Frame q s t) :
    Frame q s (Machine.epochAnswer te a t) := by
  induction a generalizing t with
  | nil => exact h
  | cons x xs ih =>
    unfold Machine.epochAnswer
    exact ih h.epochApply.reply

theorem epochCommands {cat : Bool} {te : Dt} (h : Frame q s t) :
    Frame q s (Machine.epochCommands cat te t) :=
  h.same.epochAnswer

theorem solStart {k : Nat} (h : Frame q s t) :
    Frame q s (Machine.solStart k t) :=
  h.loadImage.startCore

theorem solRetire {k : Nat} (h : Frame q s t) :
    Frame q s (Machine.solRetire k t) := by
  unfold Machine.solRetire
  extract_lets _ _ _ _ _ t6 t7 t8 t9 _ _ _ t13 t14
  have h6 : Frame q s t6 := h.setCore.retireUnit
  have h7 : Frame q s t7 := h6.sticky
  have h8 : Frame q s t8 := h7.handoverFrom
  have h9 : Frame q s t9 := h8.setF
  have h13 : Frame q s t13 := h9.same
  have h14 : Frame q s t14 := h13.sticky.raise
  exact Frame.ite h8.takeFree.raise h14.raise

theorem execSolutionCoreFault {k : Fin 2} {retryOk : Bool} (h : Frame true s t) :
    Gives (Machine.execSolutionCoreFault k retryOk t) (Frame true s) := by
  unfold Machine.execSolutionCoreFault
  refine .ite (.next h) ?_
  split
  next e1 =>
    have h1 := of_snd e1 h.faultJudge
    split
    · exact .next h1.solRetire
    · exact .next h1.solStart

/-! ## Acquisition -/

theorem setHalf {h' v : Nat} (h : Frame q s t) :
    Frame q s (Machine.setHalf h' v t) :=
  Frame.ite h h.setReg.raise

theorem fbSync (h : Frame q s t) :
    Frame q s (Machine.fbSync t) :=
  Frame.ite h (Frame.ite h.same.sticky.raise h.same.raise)

theorem halfEnable {h' : Nat} (h : Frame q s t) :
    Frame q s (Machine.halfEnable h' t) :=
  Frame.ite (Frame.ite h.setHalf h) (Frame.ite h.setHalf h)

theorem acqCfgSet {v : Word} (h : Frame q s t) :
    Frame q s (Machine.acqCfgSet v t) :=
  h.setReg.halfEnable.halfEnable.fbSync

theorem halfPause {h' : Nat} (h : Frame q s t) :
    Frame q s (Machine.halfPause t h') :=
  Frame.ite h.same.cnt.sticky.setHalf h

theorem acqPause {tj : Word} (h : Frame q s t) :
    Frame q s (Machine.acqPause tj t) :=
  Frame.ite ((h.foldl fun _ _ => (·.halfPause)).raise) (h.foldl fun _ _ => (·.halfPause))

theorem halfResume {h' : Nat} (h : Frame q s t) :
    Frame q s (Machine.halfResume t h') :=
  Frame.ite h.setHalf h

theorem acqResume (h : Frame q s t) :
    Frame q s (Machine.acqResume t) :=
  h.foldl fun _ _ => (·.halfResume)

theorem capCopy {n t' : Nat} {pages : List Nat} {a a' a'' : Nat} (h : Frame q s t) :
    Frame q s (Machine.capCopy n t' pages a a' a'' t) := by
  induction a generalizing a' a'' t with
  | zero => exact h
  | succ n' ih =>
    unfold Machine.capCopy
    extract_lets _ _ _ _ t5
    have h5 : Frame q s t5 := by
      unfold t5
      split
      · exact h
      · split
        next e6 =>
          exact (of_fst e6 h.memRead).snapSample
        next e7 =>
          exact (of_fst e7 h.memRead).putStored
    exact ih h5

theorem capEnter {i n t' len g : Nat} {auto : Bool} (h : Frame q s t) :
    Frame q s (Machine.capEnter i n t' len g auto t) := by
  unfold Machine.capEnter
  extract_lets _ _ _ _ t5 t6 t7 t8
  have h5 : Frame q s t5 := h.setSnap
  have h6 : Frame q s t6 := h5.setReg
  have h7 : Frame q s t7 := h6.setReg
  have h8 : Frame q s t8 := h7.foldl fun _ _ => (·.snapPut)
  split
  · exact h8
  · exact Frame.ite h8 h8.capCopy

theorem cellsAdd {key o n : Nat} (h : Frame q s t) :
    Frame q s (Machine.cellsAdd key o n t) :=
  Frame.ite h.same h.same.cnt

theorem jobAdmit {j : Job} (h : Frame q s t) :
    Frame q s (Machine.jobAdmit j t).2 :=
  Frame.ite h.same.setReg.setDt.cellsAdd.jobOverrun h.same.setReg.setDt.cellsAdd

theorem acqJobSpec_framed : acqJobSpec.Framed where
  eff h := h.snapsRelease.jobAdmit
  refuse h := Frame.ite h.cnt.sticky h

theorem acqSnapSpec_framed : acqSnapSpec.Framed where
  eff h := h.snapsRelease.capEnter
  refuse h := h

theorem acqReleaseSpec_framed : acqReleaseSpec.Framed where
  eff h := h.snapFree
  refuse h := h

theorem acqCancelSpec_framed : acqCancelSpec.Framed where
  eff h := h.foldl fun _ _ => (·.jobEnd.cnt)
  refuse h := h

theorem acqListSpec_framed : acqListSpec.Framed where
  eff h := h.same rfl
  refuse h := h

theorem acqReturnSpec_framed : acqReturnSpec.Framed where
  eff h := by
    simp only [acqReturnSpec]
    exact h.snapsRelease.bankOwnerWrite
  refuse h := h

theorem execJobStart {h' : Fin 2} {us : Word} (h : Frame true s t) :
    Gives (Machine.execJobStart h' us t) (Frame true s) := by
  unfold Machine.execJobStart
  refine .ite (.next h) ?_
  split
  · exact .next h
  · exact .ite (.next h.jobEnd) (.next h.setJob.setReg.cnt.setHalf)

theorem snapRead {pages : List Nat} {a a' : Nat} (h : Frame q s t) :
    Frame q s (Machine.snapRead pages a a' t).2 := by
  induction a generalizing a' t with
  | zero => exact h
  | succ n' ih =>
    unfold Machine.snapRead
    split
    next e1 =>
      have h1 := of_fst e1 h.acqServe.bankRead
      split
      next e2 =>
        exact (of_snd e2 (ih h1))
      next e3 =>
        exact (of_snd e3 (ih h1))
    next e4 =>
      exact of_fst e4 h.acqServe.bankRead

theorem jobSearch {h' : Nat} {j : Job} (h : Frame q s t) :
    Frame q s (Machine.jobSearch h' j t) := by
  unfold Machine.jobSearch
  split
  next e1 =>
    exact (of_snd e1 h.snapRead).cnt.sticky.cnt.jobEnd
  next e2 =>
    have h2 := of_snd e2 h.snapRead
    split
    · exact h2.jobEnd
    · split
      exact h2.setJob

theorem execJobComplete {h' : Fin 2} {us : Word} (h : Frame true s t) :
    Gives (Machine.execJobComplete h' us t) (Frame true s) := by
  unfold Machine.execJobComplete
  extract_lets _ t2 t3
  have h2 : Frame true s t2 := by
    unfold t2
    split
    · exact h
    · exact h.takeFree.jobSearch.cellsAdd.cnt.setReg
  have h3 : Frame true s t3 := h2.setReg.cnt.cnt
  exact .ite (.next h) (.next h3.setHalf.fbSync)

theorem halfRetire {h' cause : Nat} (h : Frame q s t) :
    Frame q s (Machine.halfRetire h' cause t) := by
  unfold Machine.halfRetire
  extract_lets _ _ t3 t4 t5
  have h3 : Frame q s t3 := h.sticky.setHalf
  have h4 : Frame q s t4 := h3.retireUnit.raise
  have h5 : Frame q s t5 := by
    unfold t5
    split
    · exact Frame.ite h4.jobEnd h4.setJob
    · exact h4
  exact (Frame.ite h5.handoverFrom h5).fbSync

theorem execAcqHalfFault {h' : Fin 2} {retryOk : Bool} (h : Frame true s t) :
    Gives (Machine.execAcqHalfFault h' retryOk t) (Frame true s) := by
  unfold Machine.execAcqHalfFault
  extract_lets
  refine .ite (.next h) ?_
  split
  next e2 =>
    extract_lets t3 t4
    have h3 : Frame true s t3 := (of_snd e2 h.faultJudge).cnt.sticky
    have h4 : Frame true s t4 := h3.setDt.setReg
    split
    · exact .next (Frame.ite h4.raise h4)
    · exact .next h4.halfRetire

theorem execResultRecordWrite (h : Frame true s t) :
    Gives (Machine.execResultRecordWrite t) (Frame true s) := by
  unfold Machine.execResultRecordWrite
  split
  · exact .next h
  · exact .ite (.next h) (.ite (.next (Frame.ite h.setJob.resultCount.record.setF.sticky h.setJob.resultCount.record.maxF)) (.next
    ((Frame.ite h.setJob.resultCount.record.setF.sticky h.setJob.resultCount.record.maxF).doAssign)))

theorem planStart {e : Nat} (h : Frame q s t) :
    Frame q s (Machine.planStart e t) :=
  h.same rfl

theorem execPlanRebuildStart (h : Frame true s t) :
    Gives (Machine.execPlanRebuildStart t) (Frame true s) := by
  unfold Machine.execPlanRebuildStart
  split
  · exact .next h
  · exact .ite (.next h) (.next h.same.planStart)

theorem planActivate {r : Rebuild} {from_ : Nat} (h : Frame q s t) :
    Frame q s (Machine.planActivate r from_ t) :=
  h.same.setReg.setDt.raise

theorem execPlanActivate (h : Frame true s t) :
    Gives (Machine.execPlanActivate t) (Frame true s) := by
  unfold Machine.execPlanActivate
  split
  · exact .next h
  · exact .ite (.next h) (.ite (.next h.planActivate) (.next h.same.cnt.sticky.raise))

theorem agedNote {j : Job} (h : Frame q s t) :
    Frame q s (Machine.agedNote j t) :=
  Frame.ite h h.same.sticky.raise

theorem directAssign {n t' tick : Nat} {x : Chan} {k : Contrib} {c : Cand} (h : Frame q s t) :
    Frame q s (Machine.directAssign n t' tick x k c t) := by
  unfold Machine.directAssign
  exact h.cnt.doAssign

theorem directAll {n tick : Nat} {a : List Cand} (h : Frame q s t) :
    Frame q s (Machine.directAll n tick a t).2 := by
  induction a generalizing t with
  | nil => exact h
  | cons x xs ih =>
    unfold Machine.directAll
    split
    · exact ih h.directAssign
    · exact ih h

theorem capAll {n tick : Nat} {a : List (Nat × Nat)} (h : Frame q s t) :
    Frame q s (Machine.capAll n tick a t).2 := by
  induction a generalizing t with
  | nil => exact h
  | cons x xs ih =>
    unfold Machine.capAll
    exact ih h.capEnter

theorem schedEngine {n tick : Nat} {js : List Job} (h : Frame q s t) :
    Frame q s (Machine.schedEngine n tick js t) :=
  h.snapsRelease.capAll.foldl fun _ _ => (·.agedNote.jobAdmit)

theorem fbStart {tick : Nat} {j : Job} (h : Frame q s t) :
    Frame q s (Machine.fbStart tick j t) := by
  unfold Machine.fbStart
  refine .ite h ?_
  split
  · exact h
  · exact h.setChan.agedNote.same

theorem schedFe {tick n : Nat} (h : Frame q s t) :
    Frame q s (Machine.schedFe tick t n) :=
  Frame.ite h (Frame.ite (h.directAll.foldl fun _ _ => (·.fbStart)) h.directAll.schedEngine)

theorem listApply {tick : Nat} (h : Frame q s t) :
    Frame q s (Machine.listApply tick t) :=
  h.same rfl

theorem planLate {tick : Nat} (h : Frame q s t) :
    Frame q s (Machine.planLate tick t) := by
  unfold Machine.planLate
  split
  · exact h.planActivate
  · exact h

theorem execSchedulerTick (h : Frame true s t) :
    Gives (Machine.execSchedulerTick t) (Frame true s) := by
  unfold Machine.execSchedulerTick
  split
  · exact .next h
  · extract_lets _ t2 _ t4
    have h2 : Frame true s t2 := h.same.listApply.planLate
    have h4 : Frame true s t4 := Frame.ite h2.same.planStart h2
    exact .ite (.next h) (.ite (.next h4) (.next (h4.cnt.foldl fun _ _ => (·.schedFe))))

theorem execFallbackDwellEnd {c : Fin 2048} (h : Frame true s t) :
    Gives (Machine.execFallbackDwellEnd c t) (Frame true s) := by
  unfold Machine.execFallbackDwellEnd
  split
  · exact .next h
  · exact .ite (.next h) (.ite (.next h.fbClose.doAssign) (.ite (.next h.fbClose.setChan) (.next h.setFb)))

end Frame

end Sys2Proof.Machine
end

section
/-! The frame through the shared store as commands use it, the rings and the accesses of the host links. -/

namespace Sys2Proof.Machine

set_option Elab.async false

namespace Frame

variable {q : Bool} {s t u : State}

/-! ## Memory -/

theorem repairSync (h : Frame q s t) :
    Frame q s (Machine.repairSync t) :=
  h.setF.setReg

theorem regionRetire {k : Nat} (h : Frame q s t) :
    Frame q s (Machine.regionRetire k t) := by
  unfold Machine.regionRetire
  extract_lets _ _ _ t4 t5 t6 t7
  have h4 : Frame q s t4 := h.retireUnit.raise
  have h5 : Frame q s t5 := h4.sticky.sticky
  have h6 : Frame q s t6 := h5.setF
  have h7 : Frame q s t7 := h.retireUnit.raise.setReg
  exact Frame.ite h6.setReg (Frame.ite (Frame.ite h h.wgRetire) (Frame.ite (Frame.ite h h.solRetire) (Frame.ite h7.sticky.tapRegionRetired
    h.raise)))

theorem columnEnter {k p : Nat} (h : Frame q s t) :
    Frame q s (Machine.columnEnter k p t) :=
  Frame.ite h (Frame.ite h.raise (Frame.ite h.nvsQueue.repairSync.regionRetire h.nvsQueue.repairSync))

theorem regionFault {k : Nat} {bits : List Nat} {retryOk : Bool} (h : Frame q s t) :
    Frame q s (Machine.regionFault k bits retryOk t).2 := by
  unfold Machine.regionFault
  split
  next e1 =>
    exact of_snd e1 h.faultJudge
  next e2 =>
    exact (of_snd e2 h.faultJudge).foldl fun _ _ => (·.columnEnter)

theorem repairBootGo {a a' : List (Word × Word)} (h : Frame q s t) :
    Frame q s (Machine.repairBootGo a a' t).2 := by
  induction a generalizing a' t with
  | nil => exact h
  | cons x xs ih =>
    unfold Machine.repairBootGo
    exact ite_snd (ih h) (ite_snd (ih h.setF.raise) (ih h))

theorem repairBoot (h : Frame q s t) :
    Frame q s (Machine.repairBoot t) := by
  unfold Machine.repairBoot
  extract_lets t1
  have h1 : Frame q s t1 := h.setReg
  exact (((Frame.ite h1.repairBootGo h1.repairBootGo.nvsQueue).repairSync.foldl fun _ _ => (·.setF)).foldl fun _ _ => (·.regionRetire)).same

theorem filtDrop {k : Nat} (h : Frame q s t) :
    Frame q s (Machine.filtDrop k t) :=
  h.setMerr

theorem filtHard {k : Nat} (h : Frame q s t) :
    Frame q s (Machine.filtHard k t) :=
  h.setMerr

theorem scrubPoison {k : Nat} (h : Frame q s t) :
    Frame q s (Machine.scrubPoison k t) :=
  (Frame.ite h.storeBits.cnt.sticky.cnt.sticky h.storeBits.cnt.sticky).raise

theorem execPriorityScrub {persists retryOk : Bool} (h : Frame true s t) :
    Gives (Machine.execPriorityScrub persists retryOk t) (Frame true s) := by
  unfold Machine.execPriorityScrub
  split
  · exact .next h
  · extract_lets _ t2
    have h2 : Frame true s t2 := h.same
    refine .ite (.next h2.filtDrop) ?_
    split
    · exact .next h2.filtDrop
    · exact .next h2.filtDrop
    · exact .next h2.filtDrop.scrubPoison
    · extract_lets t4 t5 t6 t7
      have h4 : Frame true s t4 := h2.store
      have h5 : Frame true s t5 := h4.filtHard.cnt.sticky
      have h6 : Frame true s t6 := Frame.ite h5.sticky h5
      have h7 : Frame true s t7 := h6.raise
      refine .ite (.next h4.filtDrop) ?_
      split
      next e8 =>
        have h8 := of_snd e8 h7.regionFault
        exact .next (Frame.ite h8 h8.filtDrop)

theorem scrubWake {k : Nat} (h : Frame q s t) :
    Frame q s (Machine.scrubWake k t) :=
  Frame.ite h.setBankPower.setBh h

theorem scrubRest {k : Nat} (h : Frame q s t) :
    Frame q s (Machine.scrubRest k t) :=
  Frame.ite (Frame.ite h.setBh.setBankPower h.setBh) h

theorem scrubOne {k : Nat} (h : Frame q s t) :
    Frame q s (Machine.scrubOne k t) := by
  unfold Machine.scrubOne
  refine .ite h ?_
  split
  · exact h
  · exact h
  · exact h.store.ceCount
  · exact h.scrubPoison

theorem scrubOn {k : Nat} (h : Frame q s t) :
    Frame q s (Machine.scrubOn k t) :=
  Frame.ite h.same.setReg.cnt h.same.setReg

theorem bucketLeak {p : Nat × MemErr} (h : Frame q s t) :
    Frame q s (Machine.bucketLeak t p) :=
  h.setMerr

theorem shadowWord {k : Nat} (h : Frame q s t) :
    Frame q s (Machine.shadowWord t k) := by
  unfold Machine.shadowWord
  split
  · exact h.putStored.ceFound
  · exact h

theorem execRegionBorrow (h : Frame true s t) :
    Gives (Machine.execRegionBorrow t) (Frame true s) := by
  unfold Machine.execRegionBorrow
  refine .ite (.next h) ?_
  split
  · exact .next h
  · extract_lets t1 t2
    have h1 : Frame true s t1 := Frame.ite h.cnt h
    have h2 : Frame true s t2 := h1.foldl fun _ _ => (·.shadowWord)
    exact .next h2.same.setReg

theorem execMarchTestComplete {a : Fin 64} {mask : Stored} {retryOk : Bool} (h : Frame true s t) :
    Gives (Machine.execMarchTestComplete a mask retryOk t) (Frame true s) := by
  unfold Machine.execMarchTestComplete
  split
  · exact .next h
  · exact .ite (.next h.shadowBack) (.next h.shadowBack.cnt.sticky.raise.regionFault)

theorem memCtrl {v : Nat} (h : Frame q s t) :
    Frame q s (Machine.memCtrl v t) := by
  unfold Machine.memCtrl
  extract_lets _ t2
  have h2 : Frame q s t2 := Frame.ite h.same.setReg h
  exact Frame.ite h2.same h2

/-! ## Rings -/

theorem ringEnable {q' : Nat} (h : Frame q s t) :
    Frame q s (Machine.ringEnable q' t) :=
  h.setReg.setReg.setRh.setRingState.syncFull.raise

theorem ringDisable {q' : Nat} (h : Frame q s t) :
    Frame q s (Machine.ringDisable q' t) := by
  unfold Machine.ringDisable
  split
  · exact h.setRingState.setRh.raise
  · exact h.setRingState.setRh
  · exact h

theorem ringCtrl {q' v : Nat} (h : Frame q s t) :
    Frame q s (Machine.ringCtrl q' v t) :=
  Frame.ite h.ringDisable (Frame.ite h.ringEnable h)

theorem ringBaseLo {q' : Nat} {v : Word} (h : Frame q s t) :
    Frame q s (Machine.ringBaseLo q' v t) :=
  Frame.ite h.setReg.ringEnable h.setReg

theorem ringIndex {prod : Bool} {q' v : Nat} (h : Frame q s t) :
    Frame q s (Machine.ringIndex prod q' v t) := by
  unfold Machine.ringIndex
  extract_lets _ _ _ _ _ _ t7 _ t9 t10 _ t12
  have h7 : Frame q s t7 := h.setF.syncFull
  have h9 : Frame q s t9 := h7.maxF
  have h10 : Frame q s t10 := Frame.ite h9.pendLine h9
  have h12 : Frame q s t12 := h.sticky.sticky
  exact Frame.ite (Frame.ite (Frame.ite h10.sticky h10) (Frame.ite h7.setRh h7)) h12.raise

theorem ringMod {q' : Nat} {v : Word} (h : Frame q s t) :
    Frame q s (Machine.ringMod q' v t) :=
  Frame.ite h.setReg.ringMessage h.setReg

theorem linkDown (h : Frame q s t) :
    Frame q s (Machine.linkDown t) :=
  Frame.ite h h.setReg.cnt.sticky.alertSet.raise

theorem msixFlush {a : List Nat} (h : Frame q s t) :
    Frame q s (Machine.msixFlush a t) := by
  induction a generalizing t with
  | nil => exact h
  | cons x xs ih =>
    unfold Machine.msixFlush
    exact ih (Frame.ite h.same.emit h)

theorem dmaFail {q' cause addr : Nat} (h : Frame q s t) :
    Frame q s (Machine.dmaFail q' cause addr t) :=
  h.cnt.dmaCapture.raise.ringHalt

theorem hifReset {kind : Nat} (h : Frame q s t) :
    Frame q s (Machine.hifReset kind t) := by
  unfold Machine.hifReset
  extract_lets _ _ t3 t4
  have h3 : Frame q s t3 := h.filterRegs.same
  have h4 : Frame q s t4 := h3.dropSnaps
  exact h4.incr.raise

/-! ## Accesses -/

theorem undefAccess {src : Src} {write : Bool} {o : Nat} {v : Word} (h : Frame q s t) :
    Frame q s (Machine.undefAccess src write o v t) :=
  Frame.ite h.cnt h.cnt.setReg.setReg.setReg

theorem resVal {src : Src} {o : Nat} {v : Word} (h : Frame q s t) :
    Frame q s (Machine.resVal src o v t) :=
  Frame.ite h.cnt h.cnt.setReg.setReg.setReg

theorem takeDt {src : Src} (h : Frame q s t) :
    Frame q s (Machine.takeDt src t) :=
  h.same rfl

theorem takeEvt {src : Src} (h : Frame q s t) :
    Frame q s (Machine.takeEvt src t) :=
  h.same rfl

theorem regRead {src : Src} {o : Nat} (h : Frame q s t) :
    Frame q s (Machine.regRead src o t).2 := by
  unfold Machine.regRead
  split
  · exact h.undefAccess
  · exact ite_snd h.takeDt (ite_snd h.takeEvt (ite_snd (Frame.ite h.setReg.same h.setReg) h))

theorem plainWrite {o : Nat} {row : RegRow} {v : Word} (h : Frame q s t) :
    Frame q s (Machine.plainWrite o row v t) :=
  h.setReg

theorem obsRingsWrite {v : Word} (h : Frame q s t) :
    Frame q s (Machine.obsRingsWrite v t) :=
  h.same.setReg

theorem bankRegWrite {src : Src} {o b : Nat} {row : RegRow} {v : Word} (h : Frame q s t) :
    Frame q s (Machine.bankRegWrite src o b row v t) :=
  Frame.ite h.bankOwnerWrite (Frame.ite h.bankPowerWrite (Frame.ite (Frame.ite h.bankDenied h.bankCfgSet) (Frame.ite (Frame.ite
    h.bankDenied h.plainWrite) h.plainWrite)))

theorem feRegWrite {o : Nat} {l : RegLoc} {v : Word} (h : Frame q s t) :
    Frame q s (Machine.feRegWrite o l v t) := by
  unfold Machine.feRegWrite
  extract_lets _ _ _ t4
  have h4 : Frame q s t4 := Frame.ite h.histClear h
  refine .ite h.feCtrl ?_
  refine .ite h.feOffOnly ?_
  refine .ite ?_ ?_
  · exact h.gainCfgWrite
  · exact Frame.ite h.tunerWrite (Frame.ite h.biasCfgWrite (Frame.ite h.coexMapWrite (Frame.ite h.coexCfgWrite (Frame.ite h.setReg.coexArm
    (Frame.ite h4.setReg h.setReg)))))

theorem chzRegWrite {o : Nat} {l : RegLoc} {v : Word} (h : Frame q s t) :
    Frame q s (Machine.chzRegWrite o l v t) :=
  Frame.ite h.chzCtrl (Frame.ite h.streamCfgWrite (Frame.ite h.replayCfgWrite (Frame.ite h.tapWrite (Frame.ite h.tapWrite (Frame.ite
    h.setReg.notchMode h.setReg)))))

theorem synRegWrite {o : Nat} {l : RegLoc} {v : Word} (h : Frame q s t) :
    Frame q s (Machine.synRegWrite o l v t) := by
  unfold Machine.synRegWrite
  extract_lets
  refine .ite ?_ ?_
  · exact Frame.ite h.synSmpCtrl (Frame.ite h.refFreqWrite (Frame.ite h.smpCfgWrite (Frame.ite h.qualCfgWrite (Frame.ite
    h.setReg.pllRestart h.setReg))))
  · exact Frame.ite h.loCtrl (Frame.ite h.setReg.pllRestart (Frame.ite h.setReg.pllRestart (Frame.ite h (Frame.ite h.rampFracWrite
    h.setReg))))

theorem ringRegWrite {o q' : Nat} {row : RegRow} {v : Word} (h : Frame q s t) :
    Frame q s (Machine.ringRegWrite o q' row v t) := by
  unfold Machine.ringRegWrite
  extract_lets _ t2
  have h2 : Frame q s t2 := h.setReg
  refine .ite ?_ ?_
  · exact h.ringBaseLo
  · exact Frame.ite h.ringCtrl (Frame.ite h.ringIndex (Frame.ite h.ringIndex (Frame.ite h.ringMod (Frame.ite h.setReg.syncFull (Frame.ite
    (Frame.ite h2.setRh h2) h.setReg)))))

theorem actWrite {src : Src} {o : Nat} {l : RegLoc} {v : Word} (h : Frame true s t) :
    Frame true s (Machine.actWrite src o l v t) := by
  unfold Machine.actWrite
  extract_lets
  split
  · exact Frame.ite h.setReg.syncRingBit h.setReg
  · exact Frame.ite h.setReg h
  · exact h.synRegWrite
  · exact h.synRegWrite
  · exact h.feRegWrite
  · exact h.chzRegWrite
  · exact Frame.ite (Frame.ite h.same h) (Frame.ite h.acqCfgSet (Frame.ite ((Frame.ite h.histClear h).setReg) h.setReg))
  · exact Frame.ite h.memCtrl (Frame.ite h h.setReg)
  · exact h.bankRegWrite
  · exact h.ringRegWrite
  · exact Frame.ite h.tpCtrl h.setReg
  · exact Frame.ite h.capCfgSet h.setReg
  · exact Frame.ite h.setReg.ossSync h.setReg
  · exact Frame.ite h.calCtrl h.setReg
  · exact Frame.ite h.obsRingsWrite h.setReg
  · exact Frame.ite h.wgCtrl h.setReg
  · exact h.setReg

theorem regWrite {src : Src} {o : Nat} {v : Word} (h : Frame true s t) :
    Frame true s (Machine.regWrite src o v t) := by
  unfold Machine.regWrite
  split
  · exact h.undefAccess
  · exact Frame.ite h.resVal (Frame.ite h h.actWrite)

theorem msixWrite {o : Nat} {v : BitVec 32} (h : Frame q s t) :
    Frame q s (Machine.msixWrite o v t) :=
  Frame.ite h h.same.msixFlush

theorem linkClear (h : Frame q s t) :
    Frame q s (Machine.linkClear t) :=
  h.same rfl

theorem holdHigh {key : Nat} {v : BitVec 32} (h : Frame q s t) :
    Frame q s (Machine.holdHigh key v t) :=
  h.linkClear.same rfl

theorem linkRead {src : Src} {key : Nat} {wid : Width} {full : State → Option Word × State} {cur : Word} (h : Frame true s t) (hf : ∀ {u},
    Frame true s u → Frame true s (full u).2) :
    Frame true s (Machine.linkRead src key wid full cur t) := by
  have hc : Frame true s (full (Machine.linkClear t)).2 := hf h.linkClear
  unfold Machine.linkRead
  split
  · exact h.linkClear.emit
  · split
    next e =>
      exact (of_snd e hc).same.emit
    next e =>
      exact (of_snd e hc).same.emit
  · split
    next e => exact (of_snd e hc).emit
    next e => exact (of_snd e hc).emit
  · split
    next e => exact (of_snd e (hf h)).emit
    next e => exact of_snd e (hf h)

theorem busWrite {src : Src} {slot : BitVec 14} {wid : Width} {v : BitVec 64} (h : Frame true s t) :
    Frame true s (Machine.busWrite src slot wid v t) := by
  unfold Machine.busWrite
  extract_lets
  refine .ite ?_ (Frame.ite h.holdHigh (Frame.ite h ((Frame.ite h.linkClear h).regWrite)))
  split
  · exact h.linkClear.msixWrite.msixWrite
  · exact h.linkClear.msixWrite
  · exact h.linkClear.msixWrite

theorem busRead {src : Src} {slot : BitVec 14} {wid : Width} (h : Frame true s t) :
    Frame true s (Machine.busRead src slot wid t) := by
  unfold Machine.busRead
  extract_lets _ t2
  have h2 : Frame true s t2 := h.linkClear
  refine .ite ?_ (h.linkRead fun k => k.regRead)
  split
  · split
    · exact h2.emit
    · exact h2.emit
    · exact h2.emit
  · exact h.takeFree.emit

theorem hostWordRead {a requester : Nat} (h : Frame q s t) :
    Frame q s (Machine.hostWordRead a requester t).2 := by
  unfold Machine.hostWordRead
  split
  next e1 =>
    exact of_fst e1 h.serveFor.bankRead
  next e2 =>
    exact of_fst e2 h.serveFor.bankRead

theorem bar2Put {a : Nat} {d : Word} (h : Frame q s t) :
    Frame q s (Machine.bar2Put a d t) := by
  unfold Machine.bar2Put
  split
  next e1 =>
    exact of_fst e1 h.serveFor.bankWrite
  next e2 =>
    exact (of_fst e2 h.serveFor.bankWrite).cnt.sticky.cnt.emit.raise

theorem takeDword (h : Frame q s t) :
    Frame q s (Machine.takeDword t).2 := by
  unfold Machine.takeDword
  split
  · exact h.same
  · exact h

theorem execPartialAccess {bar2 : Bool} {slot : BitVec 22} {hi : Bool} {be : BitVec 4} {write : Bool} (h : Frame true s t) :
    Gives (Machine.execPartialAccess bar2 slot hi be write t) (Frame true s) := by
  unfold Machine.execPartialAccess
  extract_lets _ _ t3 t4 t7
  have h3 : Frame true s t3 := Frame.ite (h.linkRead fun k => k.hostWordRead) h.busRead
  have h4 : Frame true s t4 := by
    unfold t4
    refine .ite h.linkClear ?_
    split
    next e5 =>
      exact (of_snd e5 h3.takeDword).emit
    next e6 =>
      exact of_snd e6 h3.takeDword
  have h7 : Frame true s t7 := h4.cnt.sticky
  exact .ite (.next h) (.next h7.raise)

theorem spiRefuse {cmd addr : Nat} (h : Frame q s t) :
    Frame q s (Machine.spiRefuse cmd addr t) :=
  h.cnt.setReg.sticky.emit.raise

theorem spiRegRead {cmd a a' : Nat} (h : Frame q s t) :
    Frame q s (Machine.spiRegRead cmd a a' t) := by
  induction a generalizing a' t with
  | zero => exact h
  | succ n' ih =>
    unfold Machine.spiRegRead
    exact Frame.ite h.spiRefuse (Frame.ite (ih h.takeFree.emit) (ih h.regRead.emit))

theorem spiRegWrite {a : List (BitVec 40)} {a' : Nat} (h : Frame true s t) :
    Frame true s (Machine.spiRegWrite a a' t) := by
  induction a generalizing a' t with
  | nil => exact h
  | cons x xs ih =>
    unfold Machine.spiRegWrite
    exact Frame.ite h.spiRefuse (Frame.ite (ih h.cnt.resVal) (ih (Frame.ite h h.regWrite)))

theorem spiWordRead {a : List Bool} {a' : Nat} (h : Frame q s t) :
    Frame q s (Machine.spiWordRead a a' t) := by
  induction a generalizing a' t with
  | nil => exact h
  | cons x xs ih =>
    unfold Machine.spiWordRead
    refine .ite h.spiRefuse ?_
    refine .ite (ih h.emit) ?_
    split
    next e1 =>
      exact ih ((of_fst e1 h.bankRead).emit)
    next e2 =>
      exact ih ((of_fst e2 h.bankRead).emit)
    next e3 =>
      exact ih ((of_fst e3 h.bankRead).emit)

theorem spiWordWrite {a : List (BitVec 40)} {a' : Nat} (h : Frame q s t) :
    Frame q s (Machine.spiWordWrite a a' t) := by
  induction a generalizing a' t with
  | nil => exact h
  | cons x xs ih =>
    unfold Machine.spiWordWrite
    refine .ite h.spiRefuse ?_
    refine .ite (ih h.cnt) ?_
    split
    next e1 =>
      exact ih ((of_fst e1 h.serveFor.bankWrite).same)
    next e2 =>
      exact ih (of_fst e2 h.serveFor.bankWrite)

theorem actRow {src : Src} {o : Nat} {v : Word} (h : Frame true s t) :
    Gives (Machine.actRow src o v t) (Frame true s) :=
  .ite (.next ((Frame.ite h.linkClear h).regWrite)) (.next h)

end Frame

end Sys2Proof.Machine
end

section
/-! The frame through what an instruction of an Apone core does. -/

namespace Sys2Proof.Machine

set_option Elab.async false

/-- The state an instruction leaves, whether it goes on, traps or stalls. -/
def ApRes.state : ApRes → State
  | .go _ s => s
  | .trap _ _ _ _ s => s
  | .stall s => s

namespace Frame

variable {q : Bool} {s t u : State}

/-! ## Cores -/

theorem apLoad {c : Fin 19} {a : Nat} (h : Frame q s t) :
    Frame q s (Machine.apLoad c a t).1 := by
  unfold Machine.apLoad
  refine .ite_fst h.bankRead ?_
  extract_lets o
  clear_value o
  refine .ite_fst (.ite_fst h.takeFree ?_) (.ite_fst h ?_)
  · split
    next e => exact of_snd e h.regRead
  · split
    · exact h.memRead
    · exact h

theorem apStore {c : Fin 19} {a : Nat} {d : Word} (h : Frame true s t) :
    Frame true s (Machine.apStore c a d t).1 := by
  unfold Machine.apStore
  split
  · exact h.bankWrite
  · split
    · extract_lets o
      clear_value o
      exact Frame.ite h h.regWrite
    · split
      · exact h
      · split
        · exact ite_fst h.cnt.sticky h.store
        · exact h

theorem apFetch {c : Fin 19} {x : ApCore} {pc : Addr24} (h : Frame q s t) :
    Frame q s (Machine.apFetch c x pc t).1 := by
  unfold Machine.apFetch
  extract_lets
  refine .ite_fst h ?_
  refine .ite_fst h ?_
  refine .ite_fst h ?_
  split
  · exact h
  · split
    next e2 =>
      exact of_fst e2 h.memRead
    next e3 =>
      exact of_fst e3 h.memRead
    next e4 =>
      exact of_fst e4 h.memRead

theorem hookTrap {w cause addr : Nat} (h : Frame q s t) :
    Frame q s (Machine.hookTrap w cause addr t) := by
  unfold Machine.hookTrap
  split
  · exact h
  · exact Frame.ite h.same h.same.hookDetach

theorem apTrap {c : Fin 19} {x : ApCore} {sync : Bool} {cause sub addr : Nat} {tpc : Addr24} (h : Frame q s t) :
    Frame q s (Machine.apTrap c x sync cause sub addr tpc t) :=
  Frame.ite ((Frame.ite h.setReg h).setCore) (Frame.ite ((Frame.ite h.setReg h).setCore.hookTrap) ((Frame.ite h.setReg h).setCore))

theorem apPut {c : Nat} {y : ApCore} (h : Frame q s t) :
    Frame q s (Machine.apPut c u y t) :=
  Frame.ite h h.setCore

theorem apRes_ite {c : Prop} {_ : Decidable c} {x y : ApRes} (hx : Frame q s x.state) (hy : Frame q s y.state) :
    Frame q s (if c then x else y).state := by
  split
  · exact hx
  · exact hy

theorem apIssue {c : Fin 19} {w : Word} {legal : Bool} {fx : ApCore → State → ApRes} (h : Frame q s t)
    (hfx : ∀ x u, Frame q s u → Frame q s (fx x u).state) :
    Frame q s (Machine.apIssue c w legal fx t) := by
  unfold Machine.apIssue
  refine Frame.ite h ?_
  split
  next t1 v e =>
    have h1 := of_fst e h.apFetch
    refine Frame.ite h (Frame.ite h.apTrap (Frame.ite h1.apTrap ?_))
    have h2 := hfx (landDue (t.core c)) t1 h1
    split
    next e2 =>
      rw [e2] at h2
      exact h2.apPut
    next e2 =>
      rw [e2] at h2
      exact h2.apTrap
    next e2 =>
      rw [e2] at h2
      exact h2
  · exact h

theorem apRow {c : Fin 19} {w : Word} {legal : Bool} {fx : ApCore → State → ApRes} (h : Frame true s t)
    (hfx : ∀ x u, Frame true s u → Frame true s (fx x u).state) :
    Gives (Machine.apRow c w legal fx t) (Frame true s) := .next (h.apIssue hfx)

theorem apPriv {fx : ApCore → State → ApRes} {x : ApCore} (h : Frame q s t) (hfx : Frame q s (fx x t).state) :
    Frame q s (Machine.apPriv fx x t).state := apRes_ite h hfx

theorem apLd {c : Fin 19} {f : FmtI} {x : ApCore} (h : Frame q s t) : Frame q s (Machine.apLd c f x t).state := by
  unfold Machine.apLd
  refine apRes_ite h ?_
  split
  next e => exact of_fst e h.apLoad
  next e => exact of_fst e h.apLoad
  next e => exact of_fst e h.apLoad

theorem apSt {c : Fin 19} {f : FmtI} {x : ApCore} (h : Frame true s t) : Frame true s (Machine.apSt c f x t).state := by
  unfold Machine.apSt
  refine apRes_ite h ?_
  split
  next e => exact of_fst e h.apStore
  next e => exact of_fst e h.apStore
  next e => exact of_fst e h.apStore

theorem apLdd {c : Fin 19} {f : FmtI} {x : ApCore} (h : Frame q s t) : Frame q s (Machine.apLdd c f x t).state := by
  unfold Machine.apLdd
  refine apRes_ite h (apRes_ite h ?_)
  split
  next e => exact of_fst e h.apLoad
  next e => exact of_fst e h.apLoad
  next e =>
    have h1 := of_fst e h.apLoad
    split
    next e' => exact of_fst e' h1.apLoad
    next e' => exact of_fst e' h1.apLoad
    next e' => exact of_fst e' h1.apLoad

theorem apStd {c : Fin 19} {f : FmtI} {x : ApCore} (h : Frame true s t) : Frame true s (Machine.apStd c f x t).state := by
  unfold Machine.apStd
  refine apRes_ite h (apRes_ite h ?_)
  split
  next e => exact of_fst e h.apStore
  next e => exact of_fst e h.apStore
  next e =>
    split
    next e' => exact of_fst e' (of_fst e h.apStore).apStore
    · exact h
    · exact h.apStore

theorem apCall {a : Addr24} {x : ApCore} (h : Frame q s t) : Frame q s (Machine.apCall a x t).state := by
  unfold Machine.apCall
  exact apRes_ite h (apRes_ite h h)

theorem apRet {x : ApCore} (h : Frame q s t) : Frame q s (Machine.apRet x t).state := by
  unfold Machine.apRet
  exact apRes_ite h h

theorem apRep {c : Fin 19} {x : ApCore} (h : Frame q s t) : Frame q s (Machine.apRep c x t).state := by
  unfold Machine.apRep
  split
  next e =>
    have h1 := of_fst e h.apFetch
    exact apRes_ite h1 (apRes_ite h1 (apRes_ite h1 h1))
  · exact apRes_ite h h

theorem apRett {c : Fin 19} {x : ApCore} (h : Frame q s t) : Frame q s (Machine.apRett c x t).state := by
  unfold Machine.apRett
  refine apRes_ite h ?_
  split
  next e =>
    have h1 := of_fst e h.apFetch
    exact apRes_ite h1 (apRes_ite h1 h1)
  · exact apRes_ite h h

/-! ## Instructions -/

theorem execInterrupt {c : Fin 19} (h : Frame true s t) :
    Gives (Machine.execInterrupt c t) (Frame true s) := by
  unfold Machine.execInterrupt
  extract_lets
  split
  · exact .next h
  · exact .ite (.next h) (.next h.apTrap)

theorem execIllegalInstruction {c : Fin 19} (h : Frame true s t) :
    Gives (Machine.execIllegalInstruction c t) (Frame true s) := by
  unfold Machine.execIllegalInstruction
  extract_lets
  split
  · exact .ite (.ite (.next h) (.ite (.next h.apTrap) (.next h.apFetch.apTrap))) (.ite (.next (h.apIssue fun _ _ k => k)) (.next h))
  · exact .next h

theorem execInstructionFetchFault {c : Fin 19} (h : Frame true s t) :
    Gives (Machine.execInstructionFetchFault c t) (Frame true s) := by
  unfold Machine.execInstructionFetchFault
  extract_lets
  refine .ite (.next h) ?_
  refine .ite ?_ ?_
  · split
    · exact .next h
    · exact .next h.apTrap
  · split
    · exact .next h
    next e5 =>
      exact .next ((of_fst e5 h.apFetch).apTrap)
    next e6 =>
      exact .next ((of_fst e6 h.apFetch).apTrap)

end Frame

end Sys2Proof.Machine
end

section
/-! The frame through the non-volatile store, the Curator, the test port, and resets and boot. -/

namespace Sys2Proof.Machine

set_option Elab.async false

namespace Frame

variable {q : Bool} {s t u : State}

/-! ## The non-volatile store -/

theorem nvsCommit {kind : Nat} {body : List Word} (h : Frame q s t) :
    Frame q s (Machine.nvsCommit kind body t) :=
  h.same.cnt.nvsSync

theorem nvsAbort (h : Frame q s t) :
    Frame q s (Machine.nvsAbort t) := by
  unfold Machine.nvsAbort
  split
  · exact h.same
  · exact h

theorem bootQueue (h : Frame q s t) :
    Frame q s (Machine.bootQueue t) :=
  h.nvsQueue

theorem poweredKeep (h : Frame q s t) :
    Frame q s (Machine.poweredKeep t) :=
  Frame.ite h h.same

theorem setAttempts {x v : Nat} (h : Frame q s t) :
    Frame q s (Machine.setAttempts x v t) :=
  Frame.ite h.setF h.setF

theorem setSel {x : Nat} (h : Frame q s t) :
    Frame q s (Machine.setSel x t) :=
  h.setF

theorem setSlot {x : Nat} {f : FwSlot} (h : Frame q s t) :
    Frame q s (State.setSlot t x f) :=
  Frame.ite h.same h.same

theorem fwStat (h : Frame q s t) :
    Frame q s (Machine.fwStat t) :=
  h.setReg

theorem provStore {e : ProvEntry} (h : Frame q s t) :
    Frame q s (Machine.provStore e t) :=
  h.same.incr

/-! ## Commands of group 0x0 -/

theorem devNopSpec_framed : devNopSpec.Framed where
  eff h := h
  refuse h := h

theorem devCancelSpec_framed : devCancelSpec.Framed where
  eff h := h.queued rfl
  refuse h := h

theorem devFaultPolicySpec_framed : devFaultPolicySpec.Framed where
  eff h := h.same.settingsPut
  refuse h := h

theorem devResetSpec_framed : devResetSpec.Framed where
  eff h := h.same rfl
  refuse h := h

theorem devCmdCfgSpec_framed : devCmdCfgSpec.Framed where
  eff h := h.same rfl
  refuse h := h

theorem codeLoad {ws : List Word} (h : Frame q s t) :
    Frame q s (Machine.codeLoad ws t) :=
  h.zeroMem.storeList

theorem codeRamLoadSpec_framed : codeRamLoadSpec.Framed where
  eff h := h.codeLoad
  refuse h := h

theorem codeRamReadSpec_framed : codeRamReadSpec.Framed where
  eff h := h.bufPut
  refuse h := h

theorem logDrain {q' : Nat} {a : List Word} {a' : Nat} {a'' : Word} (h : Frame q s t) :
    Frame q s (Machine.logDrain q' a a' a'' t).2.2 := by
  induction a generalizing a' a'' t with
  | nil => exact h
  | cons x xs ih =>
    unfold Machine.logDrain
    exact ih h.ringPut.raiseList

theorem logDrainSpec_framed : logDrainSpec.Framed where
  eff h := h.logDrain
  refuse h := h

theorem provReadSpec_framed : provReadSpec.Framed where
  eff h := by
    simp only [provReadSpec]
    exact h.bufPut
  refuse h := h

theorem retiredReadSpec_framed : retiredReadSpec.Framed where
  eff h := h.bufPut
  refuse h := h

theorem retiredRemoveSpec_framed : retiredRemoveSpec.Framed where
  eff h := h.nvsQueue.same rfl
  refuse h := h

theorem settingsWriteSpec_framed : settingsWriteSpec.Framed where
  eff h := h.nvsQueue.same rfl
  refuse h := h

theorem settingsReadSpec_framed : settingsReadSpec.Framed where
  eff h := h.bufPut
  refuse h := h

theorem sensorReadSpec_framed : sensorReadSpec.Framed where
  eff h := h
  refuse h := h

theorem lifeCycle {t' : Nat} (h : Frame q s t) :
    Frame q s (Machine.lifeCycle t' t) :=
  h.same.setF.vaultWipeAll.raise

theorem lifecycleSpec_framed : lifecycleSpec.Framed where
  eff h := h.lifeCycle
  refuse h := h

theorem fwWriteSpec_framed : fwWriteSpec.Framed where
  eff {_ s _} h := by
    dsimp -zeta only [fwWriteSpec]
    extract_lets _ _ t3 t4
    have h3 : Frame true s t3 := h.setSlot
    have h4 : Frame true s t4 := by
      unfold t4
      split
      · exact Frame.ite h3.setSel.bootQueue h3
      · exact h3
    exact h4.fwStat.raise
  refuse h := h

theorem fwVerifySpec_framed : fwVerifySpec.Framed where
  eff h := h.setSlot.fwStat
  refuse h := h

theorem fwActivateSpec_framed : fwActivateSpec.Framed where
  eff h := ite_snd h.setSlot.setSel.setAttempts.setF.fwStat.raise.nvsCommit.same
    h.setSlot.setSel.setAttempts.setF.fwStat.raise.bootQueue.same
  refuse h := h

theorem fwInfoSpec_framed : fwInfoSpec.Framed where
  eff h := h.takeFree.takeFree.takeFree.takeFree
  refuse h := h

theorem fwCosignKeySpec_framed : fwCosignKeySpec.Framed where
  eff h := h.same.setF.fwStat
  refuse h := h

theorem userZero {w : Nat} (h : Frame q s t) :
    Frame q s (Machine.userZero w t) :=
  h.zeroMem.zeroMem

theorem userPut {ws : List Word} {w : Nat} (h : Frame q s t) :
    Frame q s (Machine.userPut ws w t) :=
  h.userZero.storeList.storeList.same rfl

theorem userLoadSpec_framed : userLoadSpec.Framed where
  eff h := h.foldl fun _ _ => (·.userPut)
  refuse h := h

theorem userClearSpec_framed : userClearSpec.Framed where
  eff h := h.foldl fun _ _ => (·.userZero.same)
  refuse h := h

theorem userInfoSpec_framed : userInfoSpec.Framed where
  eff h := h
  refuse h := h

theorem framed_of_mem_cmdSpecs : ∀ c ∈ cmdSpecs, c.Framed := by
  simp only [cmdSpecs, List.forall_mem_append, List.forall_mem_cons, List.not_mem_nil, false_imp_iff, implies_true, and_true,
    tpJumpSpec_framed, calSweepSpec_framed, calInjectSpec_framed, devNopSpec_framed, devCancelSpec_framed, devFaultPolicySpec_framed,
    devResetSpec_framed, devCmdCfgSpec_framed, feStateSpec_framed, feConfigSpec_framed, feCalibrateSpec_framed, feBiasSpec_framed,
    feCoexSpec_framed, synSmpSpec_framed, synRefConfigSpec_framed, synLoConfigSpec_framed, synRampSegSpec_framed, synRampArmSpec_framed,
    tapConfigSpec_framed, chzConfigSpec_framed, notchConfigSpec_framed, streamConfigSpec_framed, replayCtrlSpec_framed,
    codeRamLoadSpec_framed, codeRamReadSpec_framed, acqJobSpec_framed, acqSnapSpec_framed, acqReleaseSpec_framed, acqCancelSpec_framed,
    acqListSpec_framed, acqReturnSpec_framed, chAssignSpec_framed, chReleaseSpec_framed, chConfigSpec_framed, chMoveSpec_framed,
    wgCtrlSpec_framed, loopParamSetSpec_framed, loopSelectSpec_framed, loopParamGetSpec_framed, loopDefaultSpec_framed,
    loopStatusSpec_framed, loopHookSpec_framed, obsConfigSpec_framed, solConfigSpec_framed, solModeSpec_framed, solPositionSpec_framed,
    solOscSpec_framed, solSteerSpec_framed, catLoadSpec_framed, catTimeSpec_framed, catReadSpec_framed, catClearSpec_framed,
    tpConfigSpec_framed, capConfigSpec_framed, calConfigSpec_framed, bankHandoverSpec_framed, bankConfigSpec_framed, bankPowerSpec_framed,
    memRepairReadSpec_framed, logDrainSpec_framed, provReadSpec_framed, retiredReadSpec_framed, retiredRemoveSpec_framed,
    settingsWriteSpec_framed, settingsReadSpec_framed, sensorReadSpec_framed, lifecycleSpec_framed, fwWriteSpec_framed,
    fwVerifySpec_framed, fwActivateSpec_framed, fwInfoSpec_framed, fwCosignKeySpec_framed, userLoadSpec_framed, userClearSpec_framed,
    userInfoSpec_framed]

theorem framed_of_cmdSpecOf {op : Nat} {c : CmdSpec} (e : cmdSpecOf op = some c) : c.Framed :=
  framed_of_mem_cmdSpecs c (List.mem_of_find?_eq_some e)

theorem execCommandUnknownOpcode {op : BitVec 12} {p : Packet} (h : Frame true s t) :
    Gives (Machine.execCommandUnknownOpcode op p t) (Frame true s) := by
  unfold Machine.execCommandUnknownOpcode
  refine .ite (.next h) ?_
  split
  next e1 =>
    have h1 := of_snd e1 (ite_snd h.spiEntry h)
    exact .ite (.next h1) (.next h1.ringConsume.cnt.reply)

/-! ## The Curator -/

theorem sensorExt {i : Nat} {first : Bool} {v : Int} (h : Frame q s t) :
    Frame q s (Machine.sensorExt i first v t) :=
  Frame.ite h.setReg.same h.setReg

theorem sensorPut {i level : Nat} {lo hi v : Int} (h : Frame q s t) :
    Frame q s (Machine.sensorPut i level lo hi v t) := by
  unfold Machine.sensorPut
  extract_lets _ _ _ t4 t5 _ t7
  have h4 : Frame q s t4 := h.setReg
  have h5 : Frame q s t5 := h4.sensorExt
  have h7 : Frame q s t7 := h5.same
  exact Frame.ite h7 h7.raise

theorem tempPut {a : Nat} {a' : List Int} (h : Frame q s t) :
    Frame q s (Machine.tempPut a a' t) := by
  induction a' generalizing a t with
  | nil => exact h
  | cons x xs ih =>
    unfold Machine.tempPut
    exact Frame.ite h (ih h.sensorPut)

theorem supplyPut {a : Nat} {a' : List Nat} (h : Frame q s t) :
    Frame q s (Machine.supplyPut a a' t) := by
  induction a' generalizing a t with
  | nil => exact h
  | cons x xs ih =>
    unfold Machine.supplyPut
    exact Frame.ite h (ih h.sensorPut)

theorem setTherm {x : ThermSt} (h : Frame q s t) :
    Frame q s (State.setTherm t x) :=
  h.same rfl

theorem thermWarn {i : Nat} {t' : Int} (h : Frame q s t) :
    Frame q s (Machine.thermWarn i t' t) :=
  Frame.ite h.sticky.sticky.pendLine.raise (Frame.ite h.setF.raise h)

theorem thermTimes {t' : Int} (h : Frame q s t) :
    Frame q s (Machine.thermTimes t' t) :=
  h.setTherm

theorem shedTake {t' : Int} (h : Frame q s t) :
    Frame q s (Machine.shedTake t' t) :=
  Frame.ite h ((Frame.ite h.setF.sticky.setTherm.acqPause h.setF.sticky.setTherm).raise)

theorem shedLift {t' : Int} (h : Frame q s t) :
    Frame q s (Machine.shedLift t' t) :=
  Frame.ite h ((Frame.ite h.setF.setTherm.acqResume h.setF.setTherm).raise)

theorem thermShut (h : Frame q s t) :
    Frame q s (Machine.thermShut t) := by
  unfold Machine.thermShut
  split
  · exact h
  · extract_lets _ t2 t3 _ t5
    have h2 : Frame q s t2 := h.sticky.sticky
    have h3 : Frame q s t3 := h2.feThermal.feThermal.feThermal.feThermal.tpShut
    have h5 : Frame q s t5 := h.setTherm
    refine .ite (Frame.ite h h3.setTherm.pendLine.raise) ?_
    split
    · exact h5
    · exact Frame.ite h5.setF.setTherm.raise h5

theorem thermTj (h : Frame q s t) :
    Frame q s (Machine.thermTj t) := by
  unfold Machine.thermTj
  split
  · exact h
  · extract_lets t1 _ t3 t4
    have h1 : Frame q s t1 := h.setF
    have h3 : Frame q s t3 := h1.same
    have h4 : Frame q s t4 := h3.thermWarn.thermTimes
    exact h4.shedTake.shedTake.shedTake.shedLift

theorem tempRecal {n : Nat} (h : Frame q s t) :
    Frame q s (Machine.tempRecal n t) :=
  Frame.ite h.calRunBegin h

theorem poweredTick (h : Frame q s t) :
    Frame q s (Machine.poweredTick t) :=
  Frame.ite h.same h.same.incr

theorem execSensorSample {temps : List Int} {mv : List Nat} (h : Frame true s t) :
    Gives (Machine.execSensorSample temps mv t) (Frame true s) :=
  .ite (.next h) (.next ((h.poweredTick.tempPut.supplyPut.foldl fun _ _ => (·.sensorPut)).sensorPut.thermTj.thermShut.foldl fun _ _ =>
    (·.tempRecal)))

theorem ageingPut {a : Nat} {a' : List Nat} (h : Frame q s t) :
    Frame q s (Machine.ageingPut a a' t) := by
  induction a' generalizing a t with
  | nil => exact h
  | cons x xs ih =>
    unfold Machine.ageingPut
    exact Frame.ite h (ih h.sensorPut)

theorem execProvenanceWrite (h : Frame true s t) :
    Gives (Machine.execProvenanceWrite t) (Frame true s) := by
  unfold Machine.execProvenanceWrite
  split
  · exact .next h
  · extract_lets _ t2
    have h2 : Frame true s t2 := h.same.provStore
    exact .ite (.next h) (.ite (.next h2) (.next h2.same.raise))

theorem nvsBegin (h : Frame q s t) :
    Frame q s (Machine.nvsBegin t) := by
  unfold Machine.nvsBegin
  split
  · exact h.nvsSync
  · exact Frame.ite h.same.nvsSync.raise h.same.nvsSync

theorem storeReply {kind : Nat} (h : Frame q s t) :
    Frame q s (Machine.storeReply kind t) := by
  unfold Machine.storeReply
  split
  next e1 =>
    exact of_snd e1 h.takeReply
  next e2 =>
    have h2 := of_snd e2 h.takeReply
    exact (Frame.ite h2.raise h2).reply

theorem execNvsWriteComplete (h : Frame true s t) :
    Gives (Machine.execNvsWriteComplete t) (Frame true s) := by
  unfold Machine.execNvsWriteComplete
  split
  · exact .next h
  · exact .ite (.next h) (.next ((Frame.ite h.same.nvsCommit.nvsBegin.raise h.same.nvsCommit.nvsBegin).storeReply))

theorem execNvsSectorRefresh {bad : Option Nat} (h : Frame true s t) :
    Gives (Machine.execNvsSectorRefresh bad t) (Frame true s) := by
  unfold Machine.execNvsSectorRefresh
  extract_lets _ _ t3 t4 _ t10
  have h3 : Frame true s t3 := h.same
  have h4 : Frame true s t4 := by
    unfold t4
    split
    · exact h3
    · exact Frame.ite h3.sticky.raise h3
  have h10 : Frame true s t10 := h4.foldl fun _ _ => (·.setReg)
  exact .ite (.next h) (.ite (.next h4.sticky.setF.bootQueue) (.next h10.setReg.bootQueue.raise))

theorem histPut {ws : List Word} (h : Frame q s t) :
    Frame q s (Machine.histPut ws t) :=
  h.same rfl

theorem execHistoryEntry (h : Frame true s t) :
    Gives (Machine.execHistoryEntry t) (Frame true s) := by
  unfold Machine.execHistoryEntry
  extract_lets _ _ t3 _ _ _ t7
  have h3 : Frame true s t3 := h.histPut
  have h7 : Frame true s t7 := h.histPut
  exact .ite (.next h) (.ite (.next h3.same.raise) (.ite (.next h7.same) (.next h)))

theorem execBootConfirm (h : Frame true s t) :
    Gives (Machine.execBootConfirm t) (Frame true s) := by
  unfold Machine.execBootConfirm
  split
  · exact .next h
  · extract_lets _ _ t3 t4 t5 _ _ t8 t9
    have h3 : Frame true s t3 := h.same
    have h4 : Frame true s t4 := (Frame.ite h3.setAttempts h3).setF
    have h5 : Frame true s t5 := h4.raise
    have h8 : Frame true s t8 := h5.same.setF
    have h9 : Frame true s t9 := Frame.ite h8.raise h5
    exact .ite (.next h) (.next h9.fwStat.bootQueue)

theorem execTamperFilterPass {level : Bool} (h : Frame true s t) :
    Gives (Machine.execTamperFilterPass level t) (Frame true s) := by
  unfold Machine.execTamperFilterPass
  extract_lets t1 _ t3 t4
  have h1 : Frame true s t1 := h.setF
  have h3 : Frame true s t3 := h1.same
  have h4 : Frame true s t4 := h3.setF.sticky
  exact .ite (.next h) (.ite (.next h1.same) (.ite (.next h1) (.next h4.vaultWipeAll.raise)))

theorem execConsoleLine (h : Frame true s t) :
    Gives (Machine.execConsoleLine t) (Frame true s) := by
  unfold Machine.execConsoleLine
  split
  · exact .next h
  · exact .next h.same.emit

theorem supplyWarn {i mv : Nat} (h : Frame q s t) :
    Frame q s (Machine.supplyWarn i mv t) :=
  Frame.ite h (Frame.ite h.same h.same.pendLine.raise.nvsSync)

/-! ## The test port -/

theorem jtagReset (h : Frame q s t) :
    Frame q s (Machine.jtagReset t) :=
  h.same rfl

theorem tckRise {tms tdi : Bool} {pins : List Bool} (h : Frame q s t) :
    Frame q s (Machine.tckRise tms tdi pins t) :=
  h.same rfl

theorem updateDr (h : Frame q s t) :
    Frame q s (Machine.updateDr t) :=
  Frame.ite h.same h

theorem execTckEdge {rising tms tdi trst : Bool} {pins : List Bool} (h : Frame true s t) :
    Gives (Machine.execTckEdge rising tms tdi trst pins t) (Frame true s) := by
  unfold Machine.execTckEdge
  refine .ite (.next h.jtagReset) ?_
  refine .ite (.next h.tckRise) ?_
  split
  · exact .next h.emit
  · exact .next h.emit
  · exact .next h.updateDr
  · exact .ite (.ite .refused (.next h.same)) (.next h.same)
  · exact .next h

/-! ## Resets and boot -/

theorem bankWarm {b : Nat} (h : Frame q s t) :
    Frame q s (Machine.bankWarm t b) :=
  h.setReg.setReg

theorem synthWarm {u : Nat} (h : Frame q s t) :
    Frame q s (Machine.synthWarm t u) :=
  Frame.ite h.setF.setReg.setReg h.setF.setReg

theorem enterWarm {cause : Nat} (h : Frame true s t) :
    Frame true s (Machine.enterWarm cause t) := by
  unfold Machine.enterWarm
  extract_lets t1 _ _ _ _ _ _ t8 _ t10 t11
  have h1 : Frame true s t1 := h.nvsAbort.poweredKeep
  have h8 : Frame true s t8 := h1.filterRegs.queued
  have h10 : Frame true s t10 := h8.same
  have h11 : Frame true s t11 := h10.same
  exact ((h11.foldl fun _ _ => (·.bankWarm)).foldl fun _ _ => (·.synthWarm)).hifReset

theorem recordRead {kind : Nat} (h : Frame q s t) :
    Frame q s (Machine.recordRead kind t) :=
  Frame.ite (Frame.ite h h.sticky.raise) (Frame.ite h.sticky.raise h.sticky.raise)

theorem slotChoose (h : Frame q s t) :
    Frame q s (Machine.slotChoose t).2 :=
  ite_snd h (ite_snd h.setF.setSel.sticky.raise h.raise)

theorem bootRecord {cause : Nat} {warm : Bool} (h : Frame q s t) :
    Frame q s (Machine.bootRecord cause warm t) := by
  unfold Machine.bootRecord
  extract_lets t1 _ t3 t4 t5 t6 _ t8
  have h1 : Frame q s t1 := h.recordRead
  have h3 : Frame q s t3 := h1.setReg
  have h4 : Frame q s t4 := h3.setReg
  have h5 : Frame q s t5 := h4.setReg
  have h6 : Frame q s t6 := h5.setReg.setReg.setReg
  have h8 : Frame q s t8 := h6.foldl fun _ _ => (·.setReg)
  split
  next e9 =>
    extract_lets t10 _ t12
    have h10 : Frame q s t10 := (of_snd e9 h8.slotChoose).setAttempts
    have h12 : Frame q s t12 := h10.same.nvsCommit
    exact h12.setF.setReg.fwStat
  next e13 =>
    split
    next e14 =>
      extract_lets _ t15
      have h14 := of_snd e14 (of_snd e13 h8.slotChoose).takeFree
      have h15 : Frame q s t15 := h14.same.nvsCommit
      exact h15.setF.setReg.fwStat

theorem retireMark {us : List Nat} (h : Frame q s t) :
    Frame q s (Machine.retireMark us t) :=
  h.same rfl

theorem retireShow {us : List Nat} (h : Frame q s t) :
    Frame q s (Machine.retireShow us t) := by
  unfold Machine.retireShow
  extract_lets t1 t2 t3 _ _ t6 t7 t8 t9
  have h1 : Frame q s t1 := h.foldl fun _ _ k => Frame.ite k.setF k
  have h2 : Frame q s t2 := h1.foldl fun _ _ k => Frame.ite k.setF k
  have h3 : Frame q s t3 := h2.foldl fun _ _ k => Frame.ite k.setReg k
  have h6 : Frame q s t6 := h3.setReg
  have h7 : Frame q s t7 := h6.setReg
  have h8 : Frame q s t8 := h7.foldl fun _ _ => (·.setReg.chzSync)
  have h9 : Frame q s t9 := h8.fbSync
  exact h9.foldl fun _ _ => (·.setF)

theorem retireEvent {u : Nat} (h : Frame q s t) :
    Frame q s (Machine.retireEvent u t) :=
  Frame.ite h.raise (Frame.ite (Frame.ite h.raise h.raise) (Frame.ite h.raise (Frame.ite h.raise h.raise)))

theorem bootRetired {bad : List Nat} (h : Frame q s t) :
    Frame q s (Machine.bootRetired bad t) := by
  unfold Machine.bootRetired
  extract_lets t1 map vol was failed t2 t3
  have h1 : Frame q s t1 := h.recordRead
  have h2 : Frame q s t2 := h1.retireMark
  have h3 : Frame q s t3 := h2.foldl fun _ _ => (·.retireUnit.retireEvent)
  exact h3.retireShow

theorem vaultItem {v : Word} {b : Nat} (h : Frame q s t) :
    Frame q s (Machine.vaultItem v t b) :=
  Frame.ite ((Frame.ite h h.setF).setF) (Frame.ite h h.setF)

theorem itemApply {warm auto : Bool} {e : Nat × List Word} (h : Frame q s t) :
    Frame q s (Machine.itemApply warm auto t e) := by
  unfold Machine.itemApply
  extract_lets
  split
  · exact h.same
  · exact h.same
  · exact h.foldl fun _ _ => (·.vaultItem)
  · exact h.same
  · exact h.same
  · exact h.codeLoad
  · exact Frame.ite h h.solHold.solShowPos.setF
  · exact h

theorem bootCal (h : Frame q s t) :
    Frame q s (Machine.bootCal t) :=
  Frame.ite (h.recordRead.setReg.foldl fun _ _ => (·.setReg.setReg.setReg)) (h.recordRead.setReg.setReg.setReg.setReg.foldl fun _ _ =>
    (·.raise))

theorem startup {n i : Nat} {ws : List Word} (h : Frame true s t) :
    Frame true s (Machine.startup n i ws t) := by
  induction n generalizing i ws t with
  | zero => exact h
  | succ n ih =>
    cases ws with
    | nil => exact h
    | cons w ws =>
      refine (fun h1 => Frame.ite h1 (ih h1)) ?_
      cases e : cmdSpecOf (fld w 35 24) with
      | none => exact h.reply
      | some c => exact Frame.ite h.reply (h.admitCmd (framed_of_cmdSpecOf e))

theorem bootStartup (h : Frame true s t) :
    Frame true s (Machine.bootStartup t) := by
  unfold Machine.bootStartup
  split
  · exact Frame.ite h.startup h
  · exact h

theorem resetCheck (h : Frame true s t) :
    Frame true s (Machine.resetCheck t) := by
  unfold Machine.resetCheck
  split
  · exact Frame.ite h h.enterWarm
  · exact h

theorem bootFuses (h : Frame q s t) :
    Frame q s (Machine.bootFuses t) :=
  h.setReg.setReg.setReg.setReg.setReg.foldl fun _ _ => (·.setReg)

theorem bootFrom4 {cause : Nat} {rail : Option Nat} {bad : List Nat} {warm : Bool} (h : Frame true s t) :
    Frame true s (Machine.bootFrom4 cause rail bad warm t) := by
  unfold Machine.bootFrom4
  extract_lets t1 t2 t3 t4 t5 _ t7 t8 t9 t10 t11 t12 _ t14
  have h1 : Frame true s t1 := h.bootFuses.startCore
  have h2 : Frame true s t2 := h1.bootRecord
  have h3 : Frame true s t3 := Frame.ite h2 h2.loadImage
  have h4 : Frame true s t4 := h3.recordRead.bootCal.bootRetired
  have h5 : Frame true s t5 := h4.setReg.nvsSync
  have h7 : Frame true s t7 := h5.foldl fun _ _ => (·.itemApply)
  have h8 : Frame true s t8 := Frame.ite h7 (h7.foldl fun _ _ k => Frame.ite k k.solStart)
  have h9 : Frame true s t9 := h8.setF
  have h10 : Frame true s t10 := h9.raise
  have h11 : Frame true s t11 := h10.raise
  have h12 : Frame true s t12 := h11.setReg
  have h14 : Frame true s t14 := h12.same
  exact h14.bootStartup.keepSync.resetCheck

theorem bootPower {bad : List Nat} (h : Frame true s t) :
    Frame true s (Machine.bootPower bad t) := by
  unfold Machine.bootPower
  extract_lets t1
  have h1 : Frame true s t1 := h.clearMem.same
  exact h1.takeFree.setReg.recordRead.repairBoot.bootFrom4

theorem bootWarm {cause : Nat} {bad : List Nat} {catOk : Bool} (h : Frame true s t) :
    Frame true s (Machine.bootWarm cause bad catOk t) := by
  unfold Machine.bootWarm
  extract_lets _ t2 _ t4
  have h2 : Frame true s t2 := h.same
  have h4 : Frame true s t4 := Frame.ite h2 h2.same
  exact h4.vaultReset.repairSync.bootFrom4

theorem supplyEntry {rail : Nat} (h : Frame q s t) :
    Frame q s (Machine.supplyEntry rail t) :=
  h.takeFree.provStore

theorem execWarmReset {bad : List Nat} {catOk : Bool} (h : Frame true s t) :
    Gives (Machine.execWarmReset bad catOk t) (Frame true s) := by
  unfold Machine.execWarmReset
  split
  · exact .next h
  · exact .ite (.next h) (.next h.bootWarm)

theorem heldAfter {h' : HeldCmd} {n : Nat} (h : Frame true s t) :
    Frame true s (Machine.heldAfter h' n t) :=
  h.queued rfl

theorem execPendingCommandDue (h : Frame true s t) :
    Gives (Machine.execPendingCommandDue t) (Frame true s) := by
  unfold Machine.execPendingCommandDue
  refine .ite (.next h) ?_
  split
  · exact .next h
  · split
    · exact .next h
    next e => exact .next (h.queued.applyCmd (framed_of_cmdSpecOf e)).heldAfter.resetCheck

theorem execParkedCommandRetry (h : Frame true s t) :
    Gives (Machine.execParkedCommandRetry t) (Frame true s) := by
  unfold Machine.execParkedCommandRetry
  refine .ite (.next h) ?_
  split
  · exact .next h
  · split
    · exact .next h
    next e => exact .next (h.queued.applyCmd (framed_of_cmdSpecOf e)).heldAfter.resetCheck

theorem execParkedCommandTimeout (h : Frame true s t) :
    Gives (Machine.execParkedCommandTimeout t) (Frame true s) := by
  unfold Machine.execParkedCommandTimeout
  refine .ite (.next h) ?_
  split
  · exact .next h
  · exact .next h.queued.reply.heldAfter

end Frame

end Sys2Proof.Machine
end

section
/-! Every row of the model but the sample cycle and a supply reset keeps the frame. -/

namespace Sys2Proof.Machine

set_option Elab.async false

/-- The two rows that move device time: a sample cycle counts it on, and a supply reset begins it again. -/
def movesTime : Instr → Bool
  | .sampleCycle .. => true
  | .supplyReset _ => true
  | _ => false

/-- Every row but those two keeps the frame. -/
theorem Frame.exec {s t : State} {i : Instr} (hi : movesTime i = false) (h : Frame true s t) : Gives (Machine.exec i t) (Frame true s) := by
  cases i with
  | registerWrite => exact .ite (.next h.busWrite) (.next h)
  | registerReadClear => exact .ite (.next h.busRead) (.next h)
  | highDwordWrite => exact .ite (.next h) (.ite (.next h.holdHigh) (.next h.busWrite))
  | partialAccess => exact h.execPartialAccess
  | undefinedOffsetAccess => exact .ite (.next h) (.ite (.next h.busWrite) (.next h.busRead))
  | glbDtSecRead => exact .ite (.next h.busRead) (.next h)
  | glbLastevt0Read => exact .ite (.next h.busRead) (.next h)
  | msixVectorUnmask => exact .ite (.next h) (.next h.same.msixFlush)
  | bar2Read => exact .ite (.next h) (.next (h.linkRead fun k => k.hostWordRead))
  | bar2Write => exact .ite (.next h) (.ite (.next h.holdHigh) (.next h.linkClear.bar2Put))
  | spiRegisterRead => exact .ite (.next h) (.ite (.next h.spiRefuse) (.next h.spiRegRead))
  | spiRegisterWrite => exact .ite (.next h) (.ite (.next h.spiRefuse) (.next h.spiRegWrite))
  | spiWordRead => exact .ite (.next h) (.ite (.next h.spiRefuse) (.next h.spiWordRead))
  | spiWordWrite => exact .ite (.next h) (.ite (.next h.spiRefuse) (.next h.spiWordWrite))
  | spiStatusRead => exact .ite (.next h) (.next h.same.emit)
  | spiFrameRefused => exact .ite (.next h) (.next h.spiRefuse)
  | powerOnResetRelease => exact .ite (.next h) (.next h.same.setReg.bootPower)
  | supplyReset => cases hi
  | resetNAssert => exact .ite (.next h) (.ite (.next h.same) (.next h.enterWarm))
  | warmReset => exact h.execWarmReset
  | watchdogExpiry => exact .ite (.next h) (.next h.enterWarm)
  | bootConfirm => exact h.execBootConfirm
  | functionLevelReset => exact .ite (.next h) (.next h.hifReset)
  | perstN => exact .ite (.next h) (.next h.linkDown.hifReset)
  | linkDown => exact .ite (.next h) (.next h.linkDown)
  | linkUp => exact .ite (.next h) (.next h.setReg.raise.msixFlush)
  | dmaReadFailure => exact .ite (.next h) (.ite (.next h.dmaFail) (.next h.setRh))
  | dmaCompletionTimeout => exact .ite (.next h) (.ite (.next h.dmaFail) (.next h.setRh))
  | supplyWarning => exact .ite (.next h) (.ite .fault (.next h.supplyWarn))
  | supplyRecovery => exact .ite (.next h) (.next (Frame.ite h.same.raiseAt.nvsSync h.same.raiseAt.nvsBegin))
  | tamperFilterPass => exact h.execTamperFilterPass
  | sensorSample => exact h.execSensorSample
  | ageingMeasure => exact .ite (.next h) (.next h.ageingPut.same)
  | tpcDelayRefresh => exact .ite (.next h) (.ite (.next h.setReg.setReg) (.next h.setReg.setReg))
  | provenanceWrite => exact h.execProvenanceWrite
  | nvsWriteComplete => exact h.execNvsWriteComplete
  | nvsSectorRefresh => exact h.execNvsSectorRefresh
  | historyEntry => exact h.execHistoryEntry
  | consoleLine => exact h.execConsoleLine
  | sampleClockAbsent => exact h.execSampleClockAbsent
  | sampleClockReturned => exact .ite (.next h) (.next h.same.tpReturned.tpReturned.tpReturned.tpReturned.coexResume.coexResume.raise)
  | referenceLost => exact h.execReferenceLost
  | qualWindowEnd => exact h.execQualWindowEnd
  | synthLocked => exact .ite (.next h) (.ite (.next h.loLock) (.ite (.next h.smpLock.episodeEnd) (.next h)))
  | synthLockLost => exact h.execSynthLockLost
  | lockTimeout => exact h.execLockTimeout
  | discDeclared => exact h.execDiscDeclared
  | synSmpCtrlEnable => exact h.actRow
  | synSmpCtrlReengage => exact h.actRow
  | rampFracWrite => exact h.actRow
  | rampStart => exact h.execRampStart
  | rampSegmentEnd => exact h.execRampSegmentEnd
  | rampStop => exact h.actRow
  | feCtrlEnable => exact h.actRow
  | feCtrlDisable => exact h.actRow
  | feCtrlRecal => exact h.actRow
  | feLockTimeout => exact .ite (.next h) (.next h.feFault)
  | calStepEnd => exact h.execCalStepEnd
  | calStepRestart => exact h.execCalStepRestart
  | agcBlockEnd => exact h.execAgcBlockEnd
  | agcCodeApply => exact h.execAgcCodeApply
  | levelScaleApply => exact h.execLevelScaleApply
  | notchEngage => exact h.execNotchEngage
  | notchRelease => exact h.execNotchRelease
  | mismatchCheckStart => exact .ite (.next h) (.next h.setFe.loPlan)
  | mismatchCheckEnd => exact h.execMismatchCheckEnd
  | biasSample => exact .next (Frame.ite h.setF.setF.minF.maxF.biasOpen.setFe.biasShort h.setF.setF.minF.maxF.biasOpen.setFe)
  | biasRetry => exact h.execBiasRetry
  | biasCfgWrite => exact h.actRow
  | coexReqEdge => exact h.execCoexReqEdge
  | coexGntEdge => exact h.execCoexGntEdge
  | coexWinFracWrite => exact h.actRow
  | coexWindowStart => exact h.execCoexWindowStart
  | coexWindowEnd => exact h.execCoexWindowEnd
  | tapCfgWrite => exact h.actRow
  | tapStart => exact .ite (.next h) (.next h.setTap.tapSetState)
  | streamBlockEnd => exact h.execStreamBlockEnd
  | chzCtrlReplayStart => exact h.actRow
  | chzCtrlReplayStop => exact h.actRow
  | replayBlock => exact .ite (.next h) (.ite (.next h.ringConsume.replayReject) (.next h.ringConsume.replayAccept))
  | captureComplete => exact .ite (.next h) (.ite (.next (h.setF.foldl fun _ _ => (·.jobOverrun))) (.ite (.next h.setF) (.next h)))
  | jobStart => exact h.execJobStart
  | jobComplete => exact h.execJobComplete
  | acqHalfFault => exact h.execAcqHalfFault
  | resultRecordWrite => exact h.execResultRecordWrite
  | jobNominalEnd => exact .ite (.next h) (.next h.snapsRelease.same)
  | acqCfgWrite => exact h.actRow
  | acqCtrlPlanNow => exact h.actRow
  | planRebuildStart => exact h.execPlanRebuildStart
  | planRebuildComplete => exact .next h.same
  | planActivate => exact h.execPlanActivate
  | schedulerTick => exact h.execSchedulerTick
  | fallbackDwellEnd => exact h.execFallbackDwellEnd
  | wgCtrlEnable => exact h.actRow
  | wgCtrlDisable => exact h.actRow
  | wingCoreReady => exact .ite (.next h.wgSetState) (.next h)
  | channelAssignmentEntry => exact h.execChannelAssignmentEntry
  | integrationStart => exact h.execIntegrationStart
  | tokenLatch => exact .ite (.next h.tokenRead) (.next h)
  | integrationEnd => exact h.execIntegrationEnd
  | residueCheckpoint => exact h.execResidueCheckpoint
  | channelOverrun => exact .ite (.next h) (.next h.chanOverrun)
  | channelMove => exact h.execChannelMove
  | loopProcessIntegration => exact h.execLoopProcessIntegration
  | wingCoreFault => exact h.execWingCoreFault
  | epochRecords => exact .ite (.next h) (.next ((h.foldl fun _ _ => (·.solNext)).epochCommands.closeEpoch.epochCommands))
  | solutionEpoch => exact .next h.solNext
  | solutionCoreFault => exact h.execSolutionCoreFault
  | ossGridPoint => exact h.execOssGridPoint
  | tpModelUpdate => exact h.execTpModelUpdate
  | tpFirstAlignment => exact .ite (.next h) (.next h.tpSetState.setTp.tpAlign.setF.raise)
  | tpEdgeCommit => exact h.execTpEdgeCommit
  | tpLeadingEdge => exact h.execTpLeadingEdge
  | tpTrailingEdge => exact h.execTpTrailingEdge
  | slewComplete => exact .ite (.next h) (.next h.setTp.setF.setReg.raise)
  | tpCtrlJump => exact h.actRow
  | captureEdge => exact h.execCaptureEdge
  | captureRecordWrite => exact h.execCaptureRecordWrite
  | injectionStart => exact h.execInjectionStart
  | injectWaitTimeout => exact h.execInjectWaitTimeout
  | calSecondEnd => exact .next h.calSecondEnd.calSecondEnd.calSecondEnd.calSecondEnd
  | liveDelayApply => exact .next h.liveApply.liveApply.liveApply.liveApply
  | calCtrlInjStop => exact h.actRow
  | calCtrlSweepAbort => exact h.actRow
  | sweepDue => exact .ite (.next h) (.ite (.next h.setCal.sweepBegin) (.next h.setCal.raise))
  | sweepEnd => exact h.execSweepEnd
  | sweepTableApply => exact h.execSweepTableApply
  | bankOwnerWrite => exact h.actRow
  | handoverDrainComplete => exact .ite (.next h) (.next (Frame.ite h.drainBorrowed.setF.setBh h.drainBorrowed))
  | handoverActivate => exact h.execHandoverActivate
  | bankPowerWrite => exact h.actRow
  | bankWakeComplete => exact .ite (.next h.setBankPower.replyNow) (.next h)
  | bankRefillComplete => exact .ite (.next h) (.next h.zeroMem.setBankPower.replyNow)
  | bankIdleTimeout => exact .ite (.next h.setBh.setBankPower) (.next h)
  | vaultWipeComplete => exact h.execVaultWipeComplete
  | priorityScrub => exact h.execPriorityScrub
  | scrubWord => exact .ite (.next h) (.ite (.next h.scrubWake) (.next h.scrubOne.scrubRest.scrubOn))
  | bucketLeak => exact .ite (.next h) (.next (h.same.foldl fun _ _ => (·.bucketLeak)))
  | regionBorrow => exact h.execRegionBorrow
  | marchTestComplete => exact h.execMarchTestComplete
  | memCtrlScrubNow => exact h.actRow
  | memCtrlTestRestart => exact h.actRow
  | feHistCtrlClear => exact h.actRow
  | acqHistCtrlClear => exact h.actRow
  | ringCtrlEnable => exact h.actRow
  | ringCtrlDisable => exact h.actRow
  | ringBaseLoWrite => exact h.actRow
  | ringProdWrite => exact h.actRow
  | ringConsWrite => exact h.actRow
  | ringModTimeout => exact .ite (.next h.ringMessage) (.next h)
  | commandUnknownOpcode => exact h.execCommandUnknownOpcode
  | pendingCommandDue => exact h.execPendingCommandDue
  | parkedCommandRetry => exact h.execParkedCommandRetry
  | parkedCommandTimeout => exact h.execParkedCommandTimeout
  | productLanding => exact .ite (.next h.setCore) (.next h)
  | interrupt => exact h.execInterrupt
  | waitResume => exact .ite (.next h.setCore) (.next h)
  | add => exact h.apRow fun _ _ k => k
  | sub => exact h.apRow fun _ _ k => k
  | and => exact h.apRow fun _ _ k => k
  | or => exact h.apRow fun _ _ k => k
  | xor => exact h.apRow fun _ _ k => k
  | andn => exact h.apRow fun _ _ k => k
  | sll => exact h.apRow fun _ _ k => k
  | srl => exact h.apRow fun _ _ k => k
  | sra => exact h.apRow fun _ _ k => k
  | seq => exact h.apRow fun _ _ k => k
  | sne => exact h.apRow fun _ _ k => k
  | slt => exact h.apRow fun _ _ k => k
  | sltu => exact h.apRow fun _ _ k => k
  | sge => exact h.apRow fun _ _ k => k
  | sgeu => exact h.apRow fun _ _ k => k
  | addi => exact h.apRow fun _ _ k => k
  | andi => exact h.apRow fun _ _ k => k
  | ori => exact h.apRow fun _ _ k => k
  | xori => exact h.apRow fun _ _ k => k
  | lui => exact h.apRow fun _ _ k => k
  | slli => exact h.apRow fun _ _ k => k
  | srli => exact h.apRow fun _ _ k => k
  | srai => exact h.apRow fun _ _ k => k
  | seqi => exact h.apRow fun _ _ k => k
  | snei => exact h.apRow fun _ _ k => k
  | slti => exact h.apRow fun _ _ k => k
  | sltui => exact h.apRow fun _ _ k => k
  | sgei => exact h.apRow fun _ _ k => k
  | sgeui => exact h.apRow fun _ _ k => k
  | ext => exact h.apRow fun _ _ k => k
  | exts => exact h.apRow fun _ _ k => k
  | ins => exact h.apRow fun _ _ k => k
  | ld => exact h.apRow fun _ _ => apLd
  | st => exact h.apRow fun _ _ => apSt
  | ldd => exact h.apRow fun _ _ => apLdd
  | std => exact h.apRow fun _ _ => apStd
  | mul => exact h.apRow fun _ _ k => k
  | mulu => exact h.apRow fun _ _ k => k
  | mac => exact h.apRow fun _ _ k => k
  | dstep => exact h.apRow fun _ _ k => k
  | mfp => exact h.apRow fun _ _ k => k
  | mtp => exact h.apRow fun _ _ k => k
  | rep => exact h.apRow fun _ _ => apRep
  | bz => exact h.apRow fun _ _ k => k
  | bnz => exact h.apRow fun _ _ k => k
  | jmp => exact h.apRow fun _ _ k => k
  | jr => exact h.apRow fun _ _ k => k
  | call => exact h.apRow fun _ _ => apCall
  | callr => exact h.apRow fun _ _ => apCall
  | ret => exact h.apRow fun _ _ => apRet
  | rett => exact h.apRow fun _ _ k => apPriv k k.apRett
  | sys => exact h.apRow fun _ _ k => k
  | brk => exact h.apRow fun _ _ k => k
  | wait => exact h.apRow fun _ _ k => apPriv k k
  | mfc => exact h.apRow fun _ _ k => apRes_ite k k
  | mtc => exact h.apRow fun _ _ k => apPriv k k
  | devNop => exact .next (h.consumeCmd devNopSpec_framed)
  | devCancel => exact .next (h.consumeCmd devCancelSpec_framed)
  | devFaultPolicy => exact .next (h.consumeCmd devFaultPolicySpec_framed)
  | devReset => exact .next ((h.consumeCmd devResetSpec_framed).resetCheck)
  | devCmdCfg => exact .next (h.consumeCmd devCmdCfgSpec_framed)
  | feState => exact .next (h.consumeCmd feStateSpec_framed)
  | feConfig => exact .next (h.consumeCmd feConfigSpec_framed)
  | feCalibrate => exact .next (h.consumeCmd feCalibrateSpec_framed)
  | feBias => exact .next (h.consumeCmd feBiasSpec_framed)
  | feCoex => exact .next (h.consumeCmd feCoexSpec_framed)
  | synSmp => exact .next (h.consumeCmd synSmpSpec_framed)
  | synRefConfig => exact .next (h.consumeCmd synRefConfigSpec_framed)
  | synLoConfig => exact .next (h.consumeCmd synLoConfigSpec_framed)
  | synRampSeg => exact .next (h.consumeCmd synRampSegSpec_framed)
  | synRampArm => exact .next (h.consumeCmd synRampArmSpec_framed)
  | tapConfig => exact .next (h.consumeCmd tapConfigSpec_framed)
  | chzConfig => exact .next (h.consumeCmd chzConfigSpec_framed)
  | notchConfig => exact .next (h.consumeCmd notchConfigSpec_framed)
  | streamConfig => exact .next (h.consumeCmd streamConfigSpec_framed)
  | replayCtrl => exact .next (h.consumeCmd replayCtrlSpec_framed)
  | codeRamLoad => exact .next (h.consumeCmd codeRamLoadSpec_framed)
  | codeRamRead => exact .next (h.consumeCmd codeRamReadSpec_framed)
  | acqJob => exact .next (h.consumeCmd acqJobSpec_framed)
  | acqSnap => exact .next (h.consumeCmd acqSnapSpec_framed)
  | acqSnapRelease => exact .next (h.consumeCmd acqReleaseSpec_framed)
  | acqCancel => exact .next (h.consumeCmd acqCancelSpec_framed)
  | acqSchedList => exact .next (h.consumeCmd acqListSpec_framed)
  | acqBankReturn => exact .next (h.consumeCmd acqReturnSpec_framed)
  | chAssign => exact .next (h.consumeCmd chAssignSpec_framed)
  | chRelease => exact .next (h.consumeCmd chReleaseSpec_framed)
  | chConfig => exact .next (h.consumeCmd chConfigSpec_framed)
  | chMove => exact .next (h.consumeCmd chMoveSpec_framed)
  | wgCtrl => exact .next (h.consumeCmd wgCtrlSpec_framed)
  | loopParamSet => exact .next (h.consumeCmd loopParamSetSpec_framed)
  | loopSelect => exact .next (h.consumeCmd loopSelectSpec_framed)
  | loopParamGet => exact .next (h.consumeCmd loopParamGetSpec_framed)
  | loopDefault => exact .next (h.consumeCmd loopDefaultSpec_framed)
  | loopStatus => exact .next (h.consumeCmd loopStatusSpec_framed)
  | loopHook => exact .next (h.consumeCmd loopHookSpec_framed)
  | obsConfig => exact .next (h.consumeCmd obsConfigSpec_framed)
  | solConfig => exact .next (h.consumeCmd solConfigSpec_framed)
  | solModeSet => exact .next (h.consumeCmd solModeSpec_framed)
  | solPosition => exact .next (h.consumeCmd solPositionSpec_framed)
  | solOscModel => exact .next (h.consumeCmd solOscSpec_framed)
  | solSteer => exact .next (h.consumeCmd solSteerSpec_framed)
  | catLoad => exact .next (h.consumeCmd catLoadSpec_framed)
  | catTime => exact .next (h.consumeCmd catTimeSpec_framed)
  | catRead => exact .next (h.consumeCmd catReadSpec_framed)
  | catClear => exact .next (h.consumeCmd catClearSpec_framed)
  | tpConfig => exact .next (h.consumeCmd tpConfigSpec_framed)
  | tpJump => exact .next (h.consumeCmd tpJumpSpec_framed)
  | capConfig => exact .next (h.consumeCmd capConfigSpec_framed)
  | calInject => exact .next (h.consumeCmd calInjectSpec_framed)
  | calSweep => exact .next (h.consumeCmd calSweepSpec_framed)
  | calConfig => exact .next (h.consumeCmd calConfigSpec_framed)
  | bankHandover => exact .next (h.consumeCmd bankHandoverSpec_framed)
  | bankConfig => exact .next (h.consumeCmd bankConfigSpec_framed)
  | bankPower => exact .next (h.consumeCmd bankPowerSpec_framed)
  | memRepairRead => exact .next (h.consumeCmd memRepairReadSpec_framed)
  | logDrain => exact .next (h.consumeCmd logDrainSpec_framed)
  | provRead => exact .next (h.consumeCmd provReadSpec_framed)
  | retiredRead => exact .next (h.consumeCmd retiredReadSpec_framed)
  | retiredRemove => exact .next (h.consumeCmd retiredRemoveSpec_framed)
  | settingsWrite => exact .next (h.consumeCmd settingsWriteSpec_framed)
  | settingsRead => exact .next (h.consumeCmd settingsReadSpec_framed)
  | sensorRead => exact .next (h.consumeCmd sensorReadSpec_framed)
  | lifecycle => exact .next (h.consumeCmd lifecycleSpec_framed)
  | fwWrite => exact .next (h.consumeCmd fwWriteSpec_framed)
  | fwVerify => exact .next (h.consumeCmd fwVerifySpec_framed)
  | fwActivate => exact .next ((h.consumeCmd fwActivateSpec_framed).resetCheck)
  | fwInfo => exact .next (h.consumeCmd fwInfoSpec_framed)
  | fwCosignKey => exact .next (h.consumeCmd fwCosignKeySpec_framed)
  | userLoad => exact .next (h.consumeCmd userLoadSpec_framed)
  | userClear => exact .next (h.consumeCmd userClearSpec_framed)
  | userInfo => exact .next (h.consumeCmd userInfoSpec_framed)
  | sampleCycle => cases hi
  | resetNRelease => exact .ite (.next h) (.next h.bootWarm)
  | referenceReturn => exact .ite (.next h.setReg) (.next h.setReg.setReg.qualRestart)
  | illegalInstruction => exact h.execIllegalInstruction
  | instructionFetchFault => exact h.execInstructionFetchFault
  | tckEdge => exact h.execTckEdge
  | trstNAssert => exact .next h.jtagReset

end Sys2Proof.Machine
end

section
/-! Device time as the floor of R41, what a supply reset leaves of it, and with the frame the invariant of every step. -/

namespace Sys2Proof.Machine

set_option Elab.async false

/-! ## Device time (R41) -/

/-- One cycle more is 2^28 more to divide: 419 times the divisor and 537,331 over. -/
theorem floor_succ (n : Nat) :
    (n + 1) * 268435456 / 639375
        = n * 268435456 / 639375 + (if 639375 ≤ n * 268435456 % 639375 + 537331 then 420 else 419)
      ∧ (n + 1) * 268435456 % 639375
        = (if 639375 ≤ n * 268435456 % 639375 + 537331 then n * 268435456 % 639375 + 537331 - 639375
          else n * 268435456 % 639375 + 537331) := by
  have hdiv := Nat.div_add_mod (n * 268435456) 639375
  have hlt := Nat.mod_lt (n * 268435456) (show 0 < 639375 by decide)
  split <;> omega

theorem tickDt_clock (s : State) :
    (tickDt s).cycle = s.cycle + 1
      ∧ (tickDt s).acc = (if 639375 ≤ s.acc + 537331 then s.acc + 537331 - 639375 else s.acc + 537331)
      ∧ (tickDt s).dt = s.dt + (if 639375 ≤ s.acc + 537331 then 420 else 419) := by
  unfold tickDt
  split <;> exact ⟨rfl, rfl, rfl⟩

theorem tickDt_eq (s : State) : tickDt s = { s with acc := (tickDt s).acc, dt := (tickDt s).dt, cycle := (tickDt s).cycle } := by
  unfold tickDt
  split <;> rfl

theorem tickDt_inv {s : State} (hs : s.Inv) : (tickDt s).Inv := by
  obtain ⟨hmem, hregs, hacc, hdt⟩ := hs
  obtain ⟨hc, ha, hd⟩ := tickDt_clock s
  obtain ⟨hq, hr⟩ := floor_succ s.cycle
  refine ⟨by rw [tickDt_eq]; exact hmem, by rw [tickDt_eq]; exact hregs, ?_, ?_⟩
  · rw [ha, hc, hr, hacc]
  · rw [hd, hc, dtOfCycle, hq, hdt, hacc, dtOfCycle, BitVec.ofNat_add]
    split <;> rfl

/-! ## What keeps the invariant -/

theorem Frame.inv {q : Bool} {s t : State} (h : Frame q s t) (hs : s.Inv) : t.Inv := by
  obtain ⟨hmem, hregs, hacc, hdt⟩ := hs
  obtain ⟨ha, hc, hd⟩ := h.clock
  exact ⟨h.mem hmem, h.regs hregs, by rw [ha, hc, hacc], by rw [hd, hc, hdt]⟩

theorem reset_inv : State.reset.Inv := ⟨rfl, rfl, rfl, rfl⟩

/-- A supply reset leaves the registers, the SRAM and device time as `State.reset` has them. -/
theorem enterPower_inv (s : State) (cause : Nat) (rail : Option Nat) : (enterPower s cause rail).Inv := reset_inv

theorem execSupplyReset_inv {rail : Fin 9} {s : State} (hs : s.Inv) : Gives (execSupplyReset rail s) State.Inv :=
  .ite (.next hs) (.ite (.next (enterPower_inv ..)) (.next (enterPower_inv ..)))

/-- What a sample cycle does before device time moves on, in a block of its own: the delegates, the ramps, the comparisons, the front ends. -/
def beforeTick (a b c d : BitVec 9 × BitVec 9) (cmps : List (Fin 9 × Int)) (starved : List (Fin 16)) (s : State) : State :=
  feCycle 3 d (feCycle 2 c (feCycle 1 b (feCycle 0 a (phCompares cmps (rampTicks (delegatesStarved starved s))))))

theorem Frame.beforeTick {a b c d : BitVec 9 × BitVec 9} {cmps : List (Fin 9 × Int)} {starved : List (Fin 16)} {q : Bool} {s t : State}
    (h : Frame q s t) : Frame q s (Machine.beforeTick a b c d cmps starved t) :=
  h.delegatesStarved.rampTicks.phCompares.feCycle.feCycle.feCycle.feCycle

theorem execSampleCycle_fsOn {s : State} (hs : s.fsOn = true) (a b c d : BitVec 9 × BitVec 9) (cmps : List (Fin 9 × Int))
    (starved : List (Fin 16)) :
    exec (.sampleCycle a b c d cmps starved) s = .next (sampleTime s.smpNow (tickDt (beforeTick a b c d cmps starved s))) := by
  change execSampleCycle a b c d cmps starved s = _
  rw [execSampleCycle, if_neg (by simp [hs])]
  rfl

theorem execSampleCycle_fsOff {s : State} (hs : s.fsOn = false) (a b c d : BitVec 9 × BitVec 9) (cmps : List (Fin 9 × Int))
    (starved : List (Fin 16)) :
    exec (.sampleCycle a b c d cmps starved) s = .next s := by
  change execSampleCycle a b c d cmps starved s = _
  rw [execSampleCycle, if_pos (by simp [hs])]

theorem sampleCycle_inv {a b c d : BitVec 9 × BitVec 9} {cmps : List (Fin 9 × Int)} {starved : List (Fin 16)} {s : State} (hs : s.Inv) :
    Gives (exec (.sampleCycle a b c d cmps starved) s) State.Inv := by
  cases hf : s.fsOn with
  | false =>
    rw [execSampleCycle_fsOff hf]
    exact .next hs
  | true =>
    rw [execSampleCycle_fsOn hf]
    have hb : (beforeTick a b c d cmps starved s).Inv := (Frame.refl (q := true) s).beforeTick.inv hs
    exact .next ((Frame.refl (q := true) _).sampleTime.inv (tickDt_inv hb))

theorem exec_inv {i : Instr} {s : State} (hs : s.Inv) : Gives (exec i s) State.Inv := by
  cases hi : movesTime i with
  | false => exact fun t e => ((Frame.refl s).exec hi t e).inv hs
  | true =>
    cases i with
    | sampleCycle a b c d cmps starved => exact sampleCycle_inv hs
    | supplyReset rail => exact execSupplyReset_inv hs
    | _ => cases hi

/-- Settles O3: at reset every table is empty and device time is zero. -/
theorem invariantHoldsAtReset : Obligations.InvariantHoldsAtReset := reset_inv

/-- Settles O4: a step runs the front command on the state with the rest of the queue, of which the invariant does not speak; every row keeps
the frame, but for the sample cycle, which moves device time by the rule of R41, and a supply reset, which begins it again. -/
theorem everyStepKeepsInvariant : Obligations.EveryStepKeepsInvariant := by
  intro s t hs ht
  unfold step at ht
  split at ht
  · cases ht
    exact hs
  next i rest _ =>
    have hrest : State.Inv { s with pending := rest } := hs
    exact exec_inv hrest t ht

/-- Settles O2: the tables of the reset state are empty, so each register reads its reset value and each word the encoding of zero. -/
theorem resetLeavesStatedValues : Obligations.ResetLeavesStatedValues := by
  refine ⟨rfl, rfl, rfl, rfl, rfl, rfl, rfl, fun _ => rfl, by decide, fun _ => ⟨rfl, peek_of_stored rfl⟩, by decide, by decide⟩

end Sys2Proof.Machine
end

section
/-! A sample cycle (R41, R105): device time through it, the cycle in which nothing else happens, and a comparison of the sample synthesiser. -/

namespace Sys2Proof.Machine

set_option Elab.async false

/-! ## What a comparison writes lies below the front ends' registers -/

theorem phBin_le (e : Int) : phBin e ≤ 31 := by
  unfold phBin
  omega

theorem phCompare_reg (u : Fin 9) (e : Int) (s : State) {o : Nat} (ho : 0x3000 ≤ o) : (phCompare u e s).reg o = s.reg o := by
  have hlo : o ≠ R.LO_PHERR u := by have := u.isLt; unfold R.LO_PHERR; omega
  have herr : o ≠ R.SYN_SMP_PHERR := by unfold R.SYN_SMP_PHERR; omega
  have hhist : o ≠ R.SYN_PHHIST (phBin e) := by have := phBin_le e; unfold R.SYN_PHHIST; omega
  unfold phCompare
  split
  · rfl
  · split
    · rw [reg_setReg_ne _ _ hlo, State.setPll_reg]
    · extract_lets x t
      have ht : t.reg o = s.reg o := by rw [reg_setReg_ne _ _ herr, State.setPll_reg]
      clear_value t
      split
      · exact (reg_setReg_ne _ _ hhist).trans ht
      · exact ht

theorem phCompares_reg (cmps : List (Fin 9 × Int)) (s : State) {o : Nat} (ho : 0x3000 ≤ o) : (phCompares cmps s).reg o = s.reg o := by
  induction cmps generalizing s with
  | nil => rfl
  | cons x xs ih => exact (ih _).trans (phCompare_reg x.1 x.2 s ho)

theorem phCompares_feState (cmps : List (Fin 9 × Int)) (s : State) (n : Nat) : (phCompares cmps s).feState n = s.feState n :=
  congrArg (fld · 3 0) (phCompares_reg cmps s (by unfold R.FE_STATE; omega))

theorem tickDt_feState (s : State) (n : Nat) : (tickDt s).feState n = s.feState n := by
  unfold tickDt
  split <;> rfl

/-! ## What does nothing -/

theorem rampTick_inactive {u : Nat} {s : State} (h : (s.rampOf u).active = false) : rampTick u s = s := by
  simp [rampTick, h]

theorem rampTicks_inactive {s : State} (h : ∀ u : Fin 8, (s.rampOf u).active = false) : rampTicks s = s := by
  suffices ∀ us : List Nat, (∀ u ∈ us, u < 8) → us.foldl (fun a u => rampTick u a) s = s from
    this (List.range 8) fun _ hu => List.mem_range.mp hu
  intro us
  induction us with
  | nil => exact fun _ => rfl
  | cons u us ih =>
    intro hus
    rw [List.foldl_cons, rampTick_inactive (h ⟨u, hus u List.mem_cons_self⟩)]
    exact ih fun v hv => hus v (List.mem_cons_of_mem u hv)

theorem ne_feReplay_of_not_produces {st : Nat} (h : feProduces st = false) : st ≠ feReplay := by
  rintro rfl
  cases h

theorem feCycle_idle {n : Nat} {iq : BitVec 9 × BitVec 9} {s : State} (hn : feProduces (s.feState n) = false)
    (hsec : s.cycle % 163680000 ≠ 0) : feCycle n iq s = s := by
  simp only [feCycle, hsec, false_and, if_false, ne_feReplay_of_not_produces hn, hn, Bool.false_eq_true]

theorem smpNow_of_no_replay {s : State} (h : ∀ n : Fin 4, s.feState n ≠ feReplay) : s.smpNow = s.cycle := by
  have hnone : ([0, 1, 2, 3] : List Nat).find? (fun n => s.replays n) = none := by
    simpa [State.replays] using ⟨fun e => absurd e (h 0), fun e => absurd e (h 1), fun e => absurd e (h 2), fun e => absurd e (h 3)⟩
  simp only [State.smpNow, hnone]

/-- The next sample time begins no 100 ms step of the acquisition's clock and no period of its plan. -/
theorem sampleTime_succ {was : Nat} {s : State} (hnow : s.smpNow = was + 1) (h : (was + 1) % 16368000 ≠ 0) : sampleTime was s = s := by
  have hplan : (was + 1) % (s.rf R.ACQ_PLAN_CFG 35 24 * 163680000) ≠ 0 := by
    intro he
    obtain ⟨k, hk⟩ := Nat.dvd_of_mod_eq_zero he
    exact h (Nat.mod_eq_zero_of_dvd ⟨s.rf R.ACQ_PLAN_CFG 35 24 * 10 * k, by rw [hk]; ring⟩)
  simp only [sampleTime, hnow, Nat.succ_ne_self, if_true, if_false, h, hplan]

theorem sampleCycle_idle {a b c d : BitVec 9 × BitVec 9} {cmps : List (Fin 9 × Int)} {s : State} (hf : s.fsOn = true)
    (hfe : ∀ n : Fin 4, feProduces (s.feState n) = false) (hramp : ∀ u : Fin 8, (s.rampOf u).active = false)
    (hsec : s.cycle % 163680000 ≠ 0) (hstep : (s.cycle + 1) % 16368000 ≠ 0) :
    exec (.sampleCycle a b c d cmps []) s = .next (tickDt (phCompares cmps s)) := by
  obtain ⟨v, hv⟩ : ∃ v, v = phCompares cmps s := ⟨_, rfl⟩
  have hvfe (n : Fin 4) : feProduces (v.feState n) = false := by rw [hv, phCompares_feState]; exact hfe n
  have hvcycle : v.cycle = s.cycle := hv ▸ (Frame.refl (q := true) s).phCompares.clock.2.1
  have hvsec : v.cycle % 163680000 ≠ 0 := hvcycle ▸ hsec
  have hbefore : beforeTick a b c d cmps [] s = v := by
    have h0 : feCycle 0 a v = v := feCycle_idle (hvfe 0) hvsec
    have h1 : feCycle 1 b v = v := feCycle_idle (hvfe 1) hvsec
    have h2 : feCycle 2 c v = v := feCycle_idle (hvfe 2) hvsec
    have h3 : feCycle 3 d v = v := feCycle_idle (hvfe 3) hvsec
    rw [beforeTick, delegatesStarved, rampTicks_inactive hramp, ← hv, h0, h1, h2, h3]
  have hwas : s.smpNow = s.cycle := smpNow_of_no_replay fun n => ne_feReplay_of_not_produces (hfe n)
  have hnow : (tickDt v).smpNow = s.cycle + 1 := by
    have hno (n : Fin 4) : (tickDt v).feState n ≠ feReplay := by
      rw [tickDt_feState]
      exact ne_feReplay_of_not_produces (hvfe n)
    rw [smpNow_of_no_replay hno, (tickDt_clock v).1, hvcycle]
  rw [execSampleCycle_fsOn hf, hbefore, hwas, sampleTime_succ hnow hstep, hv]

/-! ## Device time through a sample cycle -/

theorem sampleCycle_clock {a b c d : BitVec 9 × BitVec 9} {cmps : List (Fin 9 × Int)} {starved : List (Fin 16)} {s : State} (hf : s.fsOn = true) :
    ∃ t, exec (.sampleCycle a b c d cmps starved) s = .next t ∧ t.cycle = s.cycle + 1
      ∧ t.acc = (if 639375 ≤ s.acc + 537331 then s.acc + 537331 - 639375 else s.acc + 537331)
      ∧ t.dt = s.dt + (if 639375 ≤ s.acc + 537331 then 420 else 419)
      ∧ (s.Inv → t.dt = BitVec.ofNat 72 (t.cycle * 2 ^ 28 / 639375))
      ∧ t.pending = s.pending ∧ t.cmdPend = s.cmdPend ∧ t.cmdPark = s.cmdPark := by
  have hb : Frame false s (beforeTick a b c d cmps starved s) := (Frame.refl s).beforeTick
  obtain ⟨u, hu⟩ : ∃ u, u = beforeTick a b c d cmps starved s := ⟨_, rfl⟩
  rw [← hu] at hb
  have ht : Frame false (tickDt u) (sampleTime s.smpNow (tickDt u)) := (Frame.refl _).sampleTime
  obtain ⟨hcycle, hacc, hdt⟩ := tickDt_clock u
  have hrest := tickDt_eq u
  refine ⟨sampleTime s.smpNow (tickDt u), by rw [execSampleCycle_fsOn hf, hu], ?_, ?_, ?_, fun hs => ?_, ?_, ?_, ?_⟩
  · rw [ht.clock.2.1, hcycle, hb.clock.2.1]
  · rw [ht.clock.1, hacc, hb.clock.1]
  · rw [ht.clock.2.2, hdt, hb.clock.2.2, hb.clock.1]
  · obtain ⟨-, -, -, hfloor⟩ := ht.inv (tickDt_inv (hb.inv hs))
    exact hfloor
  · rw [ht.pending, hrest, ← hb.pending]
  · rw [(ht.held rfl).1, hrest, ← (hb.held rfl).1]
  · rw [(ht.held rfl).2, hrest, ← (hb.held rfl).2]

/-! ## A comparison of the sample synthesiser in LOCKED (R105) -/

theorem phCompare_smp_locked {e : Int} {s : State} (h : s.smpState = 2) :
    phCompare 8 e s = ((s.setPll 8 ((s.pllOf 8).take e (phWithin 8 e s) false)).setReg R.SYN_SMP_PHERR (wdI (divRound e 256))).cnt
      (R.SYN_PHHIST (phBin e)) := by
  have hcmp : s.compares 8 = true := by simp [State.compares, h]
  have hlocked (x : PllSt) (v : Word) : ((s.setPll 8 x).setReg R.SYN_SMP_PHERR v).smpState = 2 := by
    rw [← h, State.smpState, State.rf, reg_setReg_ne _ _ (by decide)]
    rfl
  simp only [phCompare, hcmp, hlocked, Bool.not_true, Bool.false_eq_true, if_false, if_true, show ¬ 8 < 8 by decide, decide_false, Bool.false_and]

/-- Settles O36: the functions of a sample cycle keep the frame around `tickDt`, which is the rule of R41; and where no front end, ramp or
boundary is met each of them is the identity but for the comparisons. -/
theorem sampleCycleAdvancesDeviceTime : Obligations.SampleCycleAdvancesDeviceTime := by
  refine ⟨rfl, fun a b c d cmps starved s => ⟨sampleCycle_clock, sampleCycle_idle, fun e h => ?_, fun hf => execSampleCycle_fsOff hf ..⟩⟩
  exact phCompare_smp_locked h

end Sys2Proof.Machine
end

section
/-! Commands of group 0x9, of the code RAM and of the log (R63, R64, R407, R456, R473): what a list of words stored reads as, the
configuration of a bank, and the commands. -/

namespace Sys2Proof.Machine

set_option Elab.async false

/-! ## Words stored one after another, and words removed -/

/-- A table without the entries of a key reads the default there. -/
theorem tget_filter_removed {α : Type} (d : Nat → α) (t : List (Nat × α)) {f : Nat × α → Bool} {k : Nat} (h : ∀ v, f (k, v) = false) :
    tget d (t.filter f) k = d k := by
  induction t with
  | nil => rfl
  | cons p t ih =>
    obtain ⟨j, v⟩ := p
    rw [List.filter_cons]
    split
    next hf =>
      have hj : j ≠ k := by
        rintro rfl
        rw [h v] at hf
        cases hf
      simpa [tget, hj] using ih
    · exact ih

/-- Words removed read zero (R401). -/
theorem peek_zeroMem (s : State) {k n j : Nat} (hk : k ≤ j) (hj : j < k + n) : (s.zeroMem k n).peek j = 0 :=
  peek_of_stored (tget_filter_removed _ _ fun _ => by simp; omega)

/-- An index of the SRAM above the banks is never in an armed bank. -/
theorem stored_store_above (s : State) {k : Nat} (w : Word) (hk : 4194304 ≤ k) : (s.store k w).stored k = eccEnc w := by
  rw [store_unarmed w fun h => absurd h (by omega), stored_putStored_same]

theorem stored_store_above_ne (s : State) {k j : Nat} (w : Word) (hk : 4194304 ≤ k) (hj : j ≠ k) : (s.store k w).stored j = s.stored j := by
  rw [store_unarmed w fun h => absurd h (by omega), stored_putStored_ne _ _ hj]

theorem stored_storeList_before {ws : List Word} {k j : Nat} (s : State) (hk : 4194304 ≤ k) (hj : j < k) :
    (storeList k ws s).stored j = s.stored j := by
  induction ws generalizing k s with
  | nil => rfl
  | cons w ws ih => exact (ih _ (by omega) (by omega)).trans (stored_store_above_ne s w hk (by omega))

/-- A list of words stored above the banks reads back in its order, and past its end the words are as they were. -/
theorem peek_storeList (ws : List Word) {k : Nat} (s : State) (i : Nat) (hk : 4194304 ≤ k) :
    (storeList k ws s).peek (k + i) = ws.getD i (s.peek (k + i)) := by
  induction ws generalizing k s i with
  | nil => rfl
  | cons w ws ih =>
    cases i with
    | zero =>
      have hfirst : (storeList (k + 1) ws (s.store k w)).stored k = eccEnc w :=
        (stored_storeList_before _ (by omega) (by omega)).trans (stored_store_above s w hk)
      exact peek_of_stored hfirst
    | succ i =>
      have hrest : (s.store k w).peek (k + 1 + i) = s.peek (k + 1 + i) := by
        unfold State.peek
        rw [stored_store_above_ne s w hk (by omega)]
      rw [show k + (i + 1) = k + 1 + i by omega, List.getD_cons_succ, ← hrest]
      exact ih _ _ (by omega)

theorem peek_codeLoad {ws : List Word} (s : State) {i : Nat} (hws : ws.length ≤ 65536) (hi : i < 65536) :
    (codeLoad ws s).peek (kCode i) = ws.getD i 0 := by
  have hzero : (s.zeroMem (kCode 0) 65536).peek (kCode 0 + i) = 0 := peek_zeroMem s (by omega) (by omega)
  have hidx : kCode i = kCode 0 + i := by unfold kCode; omega
  rw [codeLoad, List.take_of_length_le hws, hidx, peek_storeList ws _ i (by unfold kCode; omega), hzero]

/-! ## The configuration of a bank (R384) -/

theorem reg_bankCfgSet (b v : Nat) (s : State) : (bankCfgSet b v s).reg (R.BANK_CFG b)
    = wd (b2n (bit (s.reg (R.BANK_CFG b)) 2 || v / 4 % 2 == 1) * 4
        + (if bit (s.reg (R.BANK_CFG b)) 2 then s.rf (R.BANK_CFG b) 1 1 else v / 2 % 2) * 2 + v % 2) :=
  reg_setReg_same _ _ _

/-- With VLOCK 0 the three bits are set as asked. -/
theorem reg_bankCfgSet_unlocked {b v : Nat} {s : State} (hv : v < 8) (h : bit (s.reg (R.BANK_CFG b)) 2 = false) :
    (bankCfgSet b v s).reg (R.BANK_CFG b) = wd v := by
  have hbits : ∀ v < 8, b2n (v / 4 % 2 == 1) * 4 + v / 2 % 2 * 2 + v % 2 = v := by decide
  rw [reg_bankCfgSet, h, Bool.false_or, if_neg Bool.false_ne_true, hbits v hv]

/-- With VLOCK 1 it stays 1 and VAULT stays. -/
theorem reg_bankCfgSet_locked {b v : Nat} {s : State} (h : bit (s.reg (R.BANK_CFG b)) 2 = true) :
    (bankCfgSet b v s).reg (R.BANK_CFG b) = wd (4 + s.rf (R.BANK_CFG b) 1 1 * 2 + v % 2) := by
  rw [reg_bankCfgSet, h, Bool.true_or, if_pos rfl]
  rfl

/-- Settles O51: each row takes its command's effect, which the specification of the command gives; an image loaded lies above the banks, so
it reads back word for word over words removed before. -/
theorem memoryCommands : Obligations.MemoryCommands := by
  refine fun h u => ⟨?handover, ?config, ?unlocked, ?locked, ?power, ?repair, ?load, ?image, ?read, ?drain⟩
  case handover =>
    rintro b rfl
    exact takes_of (fun _ _ => rfl) rfl
  case config =>
    rintro b rfl
    exact takes_of (fun _ _ => rfl) rfl
  case unlocked => exact fun b v hv hbit => reg_bankCfgSet_unlocked hv hbit
  case locked => exact fun b v _ hbit => reg_bankCfgSet_locked hbit
  case power =>
    rintro b rfl
    exact takes_of (fun _ _ => rfl) rfl
  case repair =>
    rintro n rfl
    exact takes_of (fun _ _ => rfl) rfl
  case load => exact takes_of (fun _ _ => rfl) rfl
  case image => exact fun ws _ hws i hi => peek_codeLoad u hws hi
  case read => exact takes_of (fun _ _ => rfl) rfl
  case drain =>
    rintro r rfl
    exact takes_of (fun _ _ => rfl) rfl

end Sys2Proof.Machine
end

section
/-! Fields and bits of a word (R7), what a write leaves of a register (R9, R514), and a whole write by a source to a register that acts. -/

namespace Sys2Proof.Machine

set_option Elab.async false

/-! ## Fields and bits after a field is replaced (R7) -/

theorem toNat_setFld (w : Word) {hi lo : Nat} (v : Nat) (hlo : lo ≤ hi + 1) (hhi : hi < 36) :
    (setFld w hi lo v).toNat = 2 ^ (hi + 1) * (w.toNat / 2 ^ (hi + 1)) + (2 ^ lo * (v % 2 ^ (hi + 1 - lo)) + w.toNat % 2 ^ lo) := by
  obtain ⟨a, ha⟩ : ∃ a, a = 2 ^ lo := ⟨_, rfl⟩
  obtain ⟨b, hb⟩ : ∃ b, b = 2 ^ (hi + 1 - lo) := ⟨_, rfl⟩
  have hab : 2 ^ (hi + 1) = a * b := by rw [ha, hb, ← Nat.pow_add, Nat.add_sub_cancel' hlo]
  have hword : w.toNat = a * b * (w.toNat / (a * b)) + (a * (w.toNat / a % b) + w.toNat % a) := by
    conv_lhs => rw [← Nat.div_add_mod w.toNat a, ← Nat.div_add_mod (w.toNat / a) b, Nat.div_div_eq_div_mul]
    ring
  have hsize : 2 ^ 36 = a * b * 2 ^ (35 - hi) := by rw [← hab, ← Nat.pow_add]; congr 1; omega
  have hfield : a * (v % b) + w.toNat % a < a * b := by
    have hv : v % b + 1 ≤ b := Nat.mod_lt _ (hb ▸ Nat.two_pow_pos _)
    have hr : w.toNat % a < a := Nat.mod_lt _ (ha ▸ Nat.two_pow_pos _)
    calc a * (v % b) + w.toNat % a < a * (v % b + 1) := by rw [Nat.mul_add]; omega
      _ ≤ a * b := Nat.mul_le_mul_left a hv
  have hupper : w.toNat / (a * b) + 1 ≤ 2 ^ (35 - hi) :=
    Nat.div_lt_of_lt_mul (hsize ▸ w.isLt)
  have hlt : a * b * (w.toNat / (a * b)) + (a * (v % b) + w.toNat % a) < 2 ^ 36 := by
    calc a * b * (w.toNat / (a * b)) + (a * (v % b) + w.toNat % a) < a * b * (w.toNat / (a * b) + 1) := by
          rw [Nat.mul_add _ _ 1]; omega
      _ ≤ 2 ^ 36 := hsize ▸ Nat.mul_le_mul_left _ hupper
  have hsum : w.toNat - w.toNat / a % b * a + v % b * a = a * b * (w.toNat / (a * b)) + (a * (v % b) + w.toNat % a) := by
    have h1 : w.toNat / a % b * a = a * (w.toNat / a % b) := Nat.mul_comm _ _
    have h2 : v % b * a = a * (v % b) := Nat.mul_comm _ _
    omega
  simp only [setFld, fld, BitVec.toNat_ofNat, Nat.shiftRight_eq_div_pow, Nat.shiftLeft_eq, ← hb, ← ha, hab]
  rw [hsum, Nat.mod_eq_of_lt hlt]

theorem bit_eq_testBit (w : Word) (i : Nat) : bit w i = w.toNat.testBit i := rfl

theorem bit_setFld (w : Word) {hi lo i : Nat} (v : Nat) (hlo : lo ≤ hi + 1) (hhi : hi < 36) :
    bit (setFld w hi lo v) i = if i < lo ∨ hi < i then bit w i else v.testBit (i - lo) := by
  have hlow : w.toNat % 2 ^ lo < 2 ^ lo := Nat.mod_lt _ (Nat.two_pow_pos _)
  have hmid : 2 ^ lo * (v % 2 ^ (hi + 1 - lo)) + w.toNat % 2 ^ lo < 2 ^ (hi + 1) := by
    have hv : v % 2 ^ (hi + 1 - lo) + 1 ≤ 2 ^ (hi + 1 - lo) := Nat.mod_lt _ (Nat.two_pow_pos _)
    calc _ < 2 ^ lo * (v % 2 ^ (hi + 1 - lo) + 1) := by rw [Nat.mul_add]; omega
      _ ≤ 2 ^ lo * 2 ^ (hi + 1 - lo) := Nat.mul_le_mul_left _ hv
      _ = 2 ^ (hi + 1) := by rw [← Nat.pow_add, Nat.add_sub_cancel' hlo]
  rw [bit_eq_testBit, toNat_setFld w v hlo hhi, Nat.testBit_two_pow_mul_add _ hmid, Nat.testBit_two_pow_mul_add _ hlow, bit_eq_testBit]
  by_cases h1 : i < lo
  · simp [h1, show i < hi + 1 by omega, Nat.testBit_mod_two_pow]
  · by_cases h2 : hi < i
    · simp [h2, show ¬ i < hi + 1 by omega, Nat.testBit_div_two_pow, show i - (hi + 1) + (hi + 1) = i by omega]
    · simp [h1, h2, show i < hi + 1 by omega, Nat.testBit_mod_two_pow, show i - lo < hi + 1 - lo by omega]

theorem testBit_fld (w : Word) (hi lo i : Nat) : (fld w hi lo).testBit i = (decide (i < hi + 1 - lo) && bit w (lo + i)) := by
  rw [fld, Nat.testBit_mod_two_pow, Nat.testBit_shiftRight, bit_eq_testBit]

theorem fld_setFld_same (w : Word) {hi lo : Nat} (v : Nat) (hlo : lo ≤ hi + 1) (hhi : hi < 36) :
    fld (setFld w hi lo v) hi lo = v % 2 ^ (hi + 1 - lo) := by
  refine Nat.eq_of_testBit_eq fun i => ?_
  rw [testBit_fld, bit_setFld w v hlo hhi, Nat.testBit_mod_two_pow]
  by_cases h : i < hi + 1 - lo
  · simp [h, show ¬ hi < lo + i by omega]
  · simp [h]

/-- A field apart from the one replaced. -/
theorem fld_setFld_ne (w : Word) {hi lo hi' lo' : Nat} (v : Nat) (hlo : lo ≤ hi + 1) (hhi : hi < 36) (hne : hi' < lo ∨ hi < lo') :
    fld (setFld w hi lo v) hi' lo' = fld w hi' lo' := by
  refine Nat.eq_of_testBit_eq fun i => ?_
  rw [testBit_fld, testBit_fld, bit_setFld w v hlo hhi]
  by_cases h : i < hi' + 1 - lo'
  · rw [if_pos (by omega)]
  · simp [h]

theorem bit_setBit_same (w : Word) {i : Nat} (b : Bool) (hi : i < 36) : bit (setBit w i b) i = b := by
  rw [setBit, bit_setFld w _ (by omega) hi]
  cases b <;> simp

theorem bit_setBit_ne (w : Word) {i j : Nat} (b : Bool) (hi : i < 36) (hj : j ≠ i) : bit (setBit w i b) j = bit w j := by
  rw [setBit, bit_setFld w _ (by omega) hi, if_pos (by omega)]

theorem bit_sticky (s : State) (o : Nat) {i : Nat} (hi : i < 36) : bit ((s.sticky o i).reg o) i = true := by
  rw [State.sticky_eq, reg_setReg_same, bit_setBit_same _ _ hi]

theorem rf_setF_same (s : State) (o : Nat) {hi lo : Nat} (v : Nat) (hlo : lo ≤ hi + 1) (hhi : hi < 36) :
    (s.setF o hi lo v).rf o hi lo = v % 2 ^ (hi + 1 - lo) := by
  rw [State.rf, State.setF_eq, reg_setReg_same, fld_setFld_same _ _ hlo hhi]

theorem word_ext {a b : Word} (h : ∀ i < 36, bit a i = bit b i) : a = b := BitVec.eq_of_getLsbD_eq h

/-! ## What a write leaves of a register without W1C bits (R9, R514) -/

theorem bit_wMerge {row : RegRow} (old v : Word) {i : Nat} (h1c : row.w1c = 0) (hrw : row.rw < 2 ^ 36) (hi : i < 36) :
    bit (wMerge row old v) i = if row.rw.testBit i then bit v i else bit old i := by
  have hkeep : (BitVec.ofNat 36 (68719476735 - row.rw)).getLsbD i = !row.rw.testBit i := by
    rw [BitVec.getLsbD_ofNat, show 68719476735 - row.rw = 2 ^ 36 - (row.rw + 1) by omega, Nat.testBit_two_pow_sub_succ hrw]
    simp [hi]
  simp only [bit, wMerge, h1c, Nat.or_zero, BitVec.getLsbD_or, BitVec.getLsbD_and, BitVec.getLsbD_not, hkeep, BitVec.getLsbD_ofNat,
    Nat.zero_testBit, hi, decide_true, Bool.true_and, Bool.and_false, Bool.or_false]
  cases row.rw.testBit i <;> simp

theorem wMerge_all {row : RegRow} (old v : Word) (h1c : row.w1c = 0) (hrw : row.rw = 68719476735) : wMerge row old v = v := by
  refine word_ext fun i hi => ?_
  have hbit : Nat.testBit 68719476735 i = true := by
    rw [show 68719476735 = 2 ^ 36 - 1 by rfl, Nat.testBit_two_pow_sub_one, decide_eq_true hi]
  rw [bit_wMerge old v h1c (by omega) hi, hrw, hbit, if_pos rfl]

/-- A write of what the RW bits hold changes nothing. -/
theorem wMerge_eq_old {row : RegRow} {old v : Word} (h1c : row.w1c = 0) (hrw : row.rw < 2 ^ 36)
    (h : ∀ i < 36, row.rw.testBit i = true → bit v i = bit old i) : wMerge row old v = old := by
  refine word_ext fun i hi => ?_
  rw [bit_wMerge old v h1c hrw hi]
  split
  next hbit => exact h i hi hbit
  · rfl

/-! ## A whole write by a live source -/

@[simp] theorem onBus_rf (s : State) (src : Src) (o hi lo : Nat) : (s.onBus src).rf o hi lo = s.rf o hi lo := by simp [State.rf]
@[simp] theorem onBus_fe (s : State) (src : Src) (n : Nat) : (s.onBus src).fe n = s.fe n := by rw [onBus_eq]; rfl
@[simp] theorem onBus_feState (s : State) (src : Src) (n : Nat) : (s.onBus src).feState n = s.feState n := by simp [State.feState]

theorem writeBad_onBus (src : Src) (o : Nat) (l : RegLoc) (v : Word) (s : State) : writeBad o l v (s.onBus src) = writeBad o l v s := by
  rw [onBus_eq]
  rfl

/-- After boot a register without stated ranges refuses only the combinations of its chapter. -/
theorem writeBad_of_no_rules {o : Nat} {l : RegLoc} {v : Word} {s : State} (hboot : s.booted = true) (hrules : l.row.rules = [])
    (hcombo : comboBad o l v s = false) : writeBad o l v s = false := by
  simp [writeBad, hboot, hrules, rulesOk, hcombo]

/-- A write that R515 lets pass has the action of its register. -/
theorem actRow_acts {src : Src} {o : Nat} {v : Word} {l : RegLoc} {s : State} (hlive : s.srcLive src = true) (hl : regAt o = some l)
    (hok : writeBad o l v s = false) (hw : l.row.rw ||| l.row.w1c ||| l.row.wo ≠ 0) :
    actRow src o v s = .next (actWrite src o l v (s.onBus src)) := by
  have hwrite : regWrite src o v (s.onBus src) = actWrite src o l v (s.onBus src) := by
    simp only [regWrite, hl, writeBad_onBus, hok, Bool.false_eq_true, hw, if_false]
  rw [← hwrite, actRow, if_pos hlive]
  rfl

end Sys2Proof.Machine
end

section
/-! What an operation leaves alone outside a list of registers: one relation, and a rule for each way to change a state. -/

namespace Sys2Proof.Machine

set_option Elab.async false

/-- Of its registers and its SRAM, `t` differs from `s` in the registers of `L` only. -/
structure Confined (L : List Nat) (s t : State) : Prop where
  regs : ∀ o, o ∉ L → t.reg o = s.reg o
  mem : t.mem = s.mem

namespace Confined

variable {L : List Nat} {s t u : State} {o : Nat}

theorem refl (L : List Nat) (s : State) : Confined L s s := ⟨fun _ _ => rfl, rfl⟩

/-- Neither a register nor a stored word changed. -/
theorem same (h : Confined L s t) (e : (u.regs, u.mem) = (t.regs, t.mem) := by with_reducible exact rfl) : Confined L s u := by
  obtain ⟨hr, hm⟩ : u.regs = t.regs ∧ u.mem = t.mem := by simpa using e
  exact ⟨fun o ho => (congrArg (tget regReset · o) hr).trans (h.regs o ho), hm.trans h.mem⟩

theorem trans (h : Confined L s t) (k : Confined L t u) : Confined L s u :=
  ⟨fun o ho => (k.regs o ho).trans (h.regs o ho), k.mem.trans h.mem⟩

theorem mono {M : List Nat} (h : Confined L s t) (hsub : ∀ o ∈ L, o ∈ M) : Confined M s t :=
  ⟨fun o ho => h.regs o fun hin => ho (hsub o hin), h.mem⟩

theorem ite {c : Prop} {_ : Decidable c} (ht : Confined L s t) (hu : Confined L s u) : Confined L s (if c then t else u) := by
  split
  · exact ht
  · exact hu

theorem setReg (h : Confined L s t) (ho : o ∈ L) (v : Word) : Confined L s (t.setReg o v) :=
  ⟨fun o' ho' => (reg_setReg_ne t v (ne_of_mem_of_not_mem ho ho').symm).trans (h.regs o' ho'), h.mem⟩

theorem setF (h : Confined L s t) (ho : o ∈ L) (hi lo v : Nat) : Confined L s (t.setF o hi lo v) := h.setReg ho _
theorem cnt (h : Confined L s t) (ho : o ∈ L) (n : Nat) : Confined L s (t.cnt o n) := h.setReg ho _
theorem sticky (h : Confined L s t) (ho : o ∈ L) (i : Nat) : Confined L s (t.sticky o i) := h.setReg ho _
theorem maxF (h : Confined L s t) (ho : o ∈ L) (hi lo v : Nat) : Confined L s (t.maxF o hi lo v) := ite (h.setF ho _ _ _) h

theorem minF (h : Confined L s t) (ho : o ∈ L) (hi lo v : Nat) : Confined L s (t.minF o hi lo v) :=
  ite ((h.setF ho hi lo v).same rfl) (ite (h.setF ho _ _ _) h)

theorem setFe (h : Confined L s t) (n : Nat) (x : RfSt) : Confined L s (t.setFe n x) := h.same rfl
theorem setCoex (h : Confined L s t) (k : Nat) (x : CoexSt) : Confined L s (t.setCoex k x) := h.same rfl
theorem setPll (h : Confined L s t) (i : Nat) (x : PllSt) : Confined L s (t.setPll i x) := h.same rfl

theorem rf (h : Confined L s t) (ho : o ∉ L) (hi lo : Nat) : t.rf o hi lo = s.rf o hi lo := congrArg (fld · hi lo) (h.regs o ho)

theorem feState {n : Nat} (h : Confined L s t) (ho : R.FE_STATE n ∉ L) : t.feState n = s.feState n := h.rf ho 3 0

end Confined

/-! ## The registers of a front end in a list -/

theorem feReg_ne {a b n : Nat} (h : a ≠ b) : a + 0x400 * n ≠ b + 0x400 * n := fun e => h (Nat.add_right_cancel e)

end Sys2Proof.Machine
end

section
/-! Aerial bias (R79 to R81): what showing it, switching it on, a write of BIAS_CFG and a sample leave of its record and its registers. -/

namespace Sys2Proof.Machine

set_option Elab.async false

/-! ## Showing the bias, and its latch -/

@[simp] theorem setReg_fe (s : State) (o : Nat) (v : Word) (n : Nat) : (s.setReg o v).fe n = s.fe n := rfl

theorem biasSync_fe (n m : Nat) (s : State) : (biasSync n s).fe m = s.fe m := by
  simp only [biasSync, setReg_fe]

theorem Confined.biasSync {L : List Nat} {n : Nat} {s t : State} (h : Confined L s t) (hstat : R.FE_BIAS_STAT n ∈ L)
    (hretry : R.FE_BIAS_RETRY n ∈ L) : Confined L s (biasSync n t) := (h.setReg hstat _).setReg hretry _

/-- BIAS_STAT.LATCH (bit 18) stays as it is. -/
theorem biasSync_latch (n : Nat) (s : State) : bit ((biasSync n s).reg (R.FE_BIAS_STAT n)) 18 = bit (s.reg (R.FE_BIAS_STAT n)) 18 := by
  have hlatch : (b2n (s.rf (R.FE_BIAS_STAT n) 18 18 == 1)).testBit 0 = bit (s.reg (R.FE_BIAS_STAT n)) 18 := by
    have hfld := testBit_fld (s.reg (R.FE_BIAS_STAT n)) 18 18 0
    have hlt := fld_lt (s.reg (R.FE_BIAS_STAT n)) 18 18
    obtain h | h : fld (s.reg (R.FE_BIAS_STAT n)) 18 18 = 0 ∨ fld (s.reg (R.FE_BIAS_STAT n)) 18 18 = 1 := by omega
    all_goals
      rw [h] at hfld
      simpa [State.rf, h, b2n] using hfld
  unfold biasSync
  rw [reg_setReg_ne _ _ (feReg_ne (by decide)), reg_setReg_same, bit_setFld _ _ (by decide) (by decide), if_pos (by decide),
    bit_setFld _ _ (by decide) (by decide), if_neg (by decide), Nat.sub_self, hlatch]

theorem biasOn_bias (n : Nat) (s : State) : ((biasOn n s).fe n).bias
    = { (s.fe n).bias with on := true, onCnt := 0, overCnt := 0, lowCnt := 0, okCnt := 0, retryAt := none } := by
  rw [biasOn, biasSync_fe, State.setFe_fe_same]

theorem biasOn_latch (n : Nat) (s : State) : bit ((biasOn n s).reg (R.FE_BIAS_STAT n)) 18 = bit (s.reg (R.FE_BIAS_STAT n)) 18 :=
  biasSync_latch n _

theorem Confined.biasOn {L : List Nat} {n : Nat} {s t : State} (h : Confined L s t) (hstat : R.FE_BIAS_STAT n ∈ L)
    (hretry : R.FE_BIAS_RETRY n ∈ L) : Confined L s (biasOn n t) := (h.setFe n _).biasSync hstat hretry

/-- Clearing the latch changes nothing else of the bias but the short history. -/
theorem biasUnlatch_bias (n : Nat) (s : State) : ∃ l, ((biasUnlatch n s).fe n).bias = { (s.fe n).bias with shorts := l } := by
  unfold biasUnlatch
  split
  · exact ⟨[], by rw [State.setFe_fe_same]⟩
  · exact ⟨_, rfl⟩

theorem biasUnlatch_latch (n : Nat) (s : State) : bit ((biasUnlatch n s).reg (R.FE_BIAS_STAT n)) 18 = false := by
  unfold biasUnlatch
  split
  · rw [State.setFe_reg, State.setF_eq, reg_setReg_same, bit_setFld _ _ (by decide) (by decide), if_neg (by decide), Nat.zero_testBit]
  next h => exact Bool.eq_false_iff.mpr h

theorem Confined.biasUnlatch {L : List Nat} {n : Nat} {s t : State} (h : Confined L s t) (hstat : R.FE_BIAS_STAT n ∈ L) :
    Confined L s (biasUnlatch n t) := Confined.ite ((h.setF hstat _ _ _).setFe n _) h

/-! ## A write of BIAS_CFG (R79, R81) -/

/-- The state in which a write of BIAS_CFG with EN set finds the switch: XRES and LIMIT taken, a latch cleared, no longer forced low. -/
def biasArmed (n : Nat) (v : Word) (cmd : Bool) (s : State) : State :=
  let u := if cmd || !bit (s.reg (R.FE_BIAS_CFG n)) 0 then biasUnlatch n (s.setReg (R.FE_BIAS_CFG n) v) else s.setReg (R.FE_BIAS_CFG n) v
  u.setFe n { u.fe n with bias := { (u.fe n).bias with forced := false } }

theorem biasCfgWrite_off {n : Nat} {v : Word} (cmd : Bool) (s : State) (hv : bit v 0 = false) :
    biasCfgWrite n v cmd s = biasSync n ((s.setReg (R.FE_BIAS_CFG n) v).setFe n
      { s.fe n with bias := { (s.fe n).bias with on := false, overCnt := 0, lowCnt := 0 } }) := by
  unfold biasCfgWrite
  rw [hv]
  rfl

theorem biasCfgWrite_en {n : Nat} {v : Word} (cmd : Bool) (s : State) (hv : bit v 0 = true) :
    biasCfgWrite n v cmd s = (let u := biasArmed n v cmd s
      if (u.fe n).bias.on || u.feState n == feRetired || bit (u.reg (R.FE_BIAS_STAT n)) 18 || (u.fe n).bias.retryAt.isSome then biasSync n u
      else biasOn n u) := by
  unfold biasCfgWrite
  rw [hv]
  rfl

theorem biasArmed_bias (n : Nat) (v : Word) (cmd : Bool) (s : State) :
    ∃ l, ((biasArmed n v cmd s).fe n).bias = { (s.fe n).bias with forced := false, shorts := l } := by
  unfold biasArmed
  split
  · obtain ⟨l, hl⟩ := biasUnlatch_bias n (s.setReg (R.FE_BIAS_CFG n) v)
    exact ⟨l, by rw [State.setFe_fe_same, hl]; rfl⟩
  · exact ⟨_, by rw [State.setFe_fe_same]; rfl⟩

theorem biasArmed_latch {n : Nat} {s : State} (v : Word) (cmd : Bool) (h : bit (s.reg (R.FE_BIAS_CFG n)) 0 = false) :
    bit ((biasArmed n v cmd s).reg (R.FE_BIAS_STAT n)) 18 = false := by
  unfold biasArmed
  rw [State.setFe_reg, h, Bool.not_false, Bool.or_true, if_pos rfl]
  exact biasUnlatch_latch n _

theorem biasArmed_confined (n : Nat) (v : Word) (cmd : Bool) (s : State) :
    Confined [R.FE_BIAS_STAT n] (s.setReg (R.FE_BIAS_CFG n) v) (biasArmed n v cmd s) :=
  (Confined.ite ((Confined.refl _ _).biasUnlatch List.mem_cons_self) (Confined.refl _ _)).setFe n _

theorem biasArmed_feState (n : Nat) (v : Word) (cmd : Bool) (s : State) : (biasArmed n v cmd s).feState n = s.feState n := by
  rw [(biasArmed_confined n v cmd s).feState (by simp), State.feState, State.rf, reg_setReg_ne _ _ (feReg_ne (by decide))]
  rfl

/-- Beyond BIAS_CFG a write changes BIAS_STAT and BIAS_RETRY. -/
theorem biasCfgWrite_confined (n : Nat) (v : Word) (cmd : Bool) (s : State) :
    Confined [R.FE_BIAS_STAT n, R.FE_BIAS_RETRY n] (s.setReg (R.FE_BIAS_CFG n) v) (biasCfgWrite n v cmd s) := by
  cases hv : bit v 0 with
  | false =>
    rw [biasCfgWrite_off cmd s hv]
    exact ((Confined.refl _ _).setFe n _).biasSync (by simp) (by simp)
  | true =>
    rw [biasCfgWrite_en cmd s hv]
    have h := (biasArmed_confined n v cmd s).mono (M := [R.FE_BIAS_STAT n, R.FE_BIAS_RETRY n]) (by simp)
    exact Confined.ite (h.biasSync (by simp) (by simp)) (h.biasOn (by simp) (by simp))

/-- EN newly set switches the bias on, where the front end is in service and no retry is awaited. -/
theorem biasCfgWrite_on {n : Nat} {v : Word} {cmd : Bool} {s : State} (hv : bit v 0 = true) (hwas : bit (s.reg (R.FE_BIAS_CFG n)) 0 = false)
    (hst : s.feState n ≠ feRetired) (hon : (s.fe n).bias.on = false) (hno : (s.fe n).bias.retryAt = none) :
    biasCfgWrite n v cmd s = biasOn n (biasArmed n v cmd s) := by
  obtain ⟨l, hl⟩ := biasArmed_bias n v cmd s
  simp [biasCfgWrite_en cmd s hv, hl, hon, hno, biasArmed_latch v cmd hwas, biasArmed_feState, hst]

/-- A retry that is awaited stays so, and keeps a low switch low. -/
theorem biasCfgWrite_retry {n : Nat} {d : Dt} {s : State} (v : Word) (cmd : Bool) (hd : (s.fe n).bias.retryAt = some d) :
    ((biasCfgWrite n v cmd s).fe n).bias.retryAt = some d
      ∧ ((s.fe n).bias.on = false → ((biasCfgWrite n v cmd s).fe n).bias.on = false) := by
  cases hv : bit v 0 with
  | false =>
    rw [biasCfgWrite_off cmd s hv, biasSync_fe, State.setFe_fe_same]
    exact ⟨hd, fun _ => rfl⟩
  | true =>
    obtain ⟨l, hl⟩ := biasArmed_bias n v cmd s
    have hsync : biasCfgWrite n v cmd s = biasSync n (biasArmed n v cmd s) := by simp [biasCfgWrite_en cmd s hv, hl, hd]
    rw [hsync, biasSync_fe, hl]
    exact ⟨hd, id⟩

/-! ## A whole write of BIAS_CFG by a source -/

/-- The row of BIAS_CFG. -/
theorem regAt_feBiasCfg : ∀ n : Fin 4, regAt (R.FE_BIAS_CFG n) = some ⟨.fe, n, ⟨0x60, 0x0, 1, 0x3ffffffff, 0x0, false, 0x0, 0x7d0c80f0,
    [.range 33 21 100 5000, .range 20 13 10 200, .range 12 1 32 3600]⟩, 0⟩ := by decide

theorem canonOff_feBiasCfg : ∀ n : Fin 4, canonOff (R.FE_BIAS_CFG n) = R.FE_BIAS_CFG n := by decide

theorem exec_biasCfgWrite {src : Src} {n : Fin 4} {v : Word} {l : RegLoc} {s : State} (hlive : s.srcLive src = true)
    (hl : regAt (R.FE_BIAS_CFG n) = some l) (hok : writeBad (R.FE_BIAS_CFG n) l v s = false) :
    exec (.biasCfgWrite src n v) s
      = .next (biasCfgWrite n (wMerge l.row (s.reg (R.FE_BIAS_CFG n)) v) false (s.onBus src)) := by
  have hexec : exec (.biasCfgWrite src n v) s = actRow src (R.FE_BIAS_CFG n) v s := rfl
  obtain rfl := Option.some.inj ((regAt_feBiasCfg n).symm.trans hl)
  rw [hexec, actRow_acts hlive hl hok (by simp)]
  simp [actWrite, feRegWrite, canonOff_feBiasCfg, R.FE_BIAS_CFG, R.FE_CTRL, R.FE_CFG, R.FE_CENTRE, R.FE_GAIN_CFG, R.FE_TUNER]

theorem bit_wMerge_feBiasCfg_en {n : Fin 4} {l : RegLoc} (hl : regAt (R.FE_BIAS_CFG n) = some l) (old v : Word) :
    bit (wMerge l.row old v) 0 = bit v 0 := by
  obtain rfl := Option.some.inj ((regAt_feBiasCfg n).symm.trans hl)
  rw [bit_wMerge old v rfl (by simp) (by simp), if_pos (by simp)]

/-! ## Samples (R80, R81) -/

/-- The state after the current of a sample is recorded: in BIAS_STAT with its RANGE, and in the least and the greatest value. -/
def biasRecorded (n cur : Nat) (range : Bool) (s : State) : State :=
  (((s.setF (R.FE_BIAS_STAT n) 15 0 cur).setF (R.FE_BIAS_STAT n) 22 22 (b2n range)).minF (R.FE_BIAS_I_MIN n) 15 0 cur).maxF (R.FE_BIAS_I_MAX n) 15 0 cur

theorem minF_keeps (s : State) (o hi lo v : Nat) : (s.minF o hi lo v).fes = s.fes ∧ (s.minF o hi lo v).dt = s.dt := by
  unfold State.minF
  split
  · exact ⟨rfl, rfl⟩
  · split <;> exact ⟨rfl, rfl⟩

theorem maxF_keeps (s : State) (o hi lo v : Nat) : (s.maxF o hi lo v).fes = s.fes ∧ (s.maxF o hi lo v).dt = s.dt := by
  unfold State.maxF
  split <;> exact ⟨rfl, rfl⟩

theorem biasRecorded_keeps (n cur : Nat) (range : Bool) (s : State) :
    (biasRecorded n cur range s).fes = s.fes ∧ (biasRecorded n cur range s).dt = s.dt := by
  obtain ⟨hmaxfe, hmaxdt⟩ := maxF_keeps
    (((s.setF (R.FE_BIAS_STAT n) 15 0 cur).setF (R.FE_BIAS_STAT n) 22 22 (b2n range)).minF (R.FE_BIAS_I_MIN n) 15 0 cur) (R.FE_BIAS_I_MAX n) 15 0 cur
  obtain ⟨hminfe, hmindt⟩ := minF_keeps ((s.setF (R.FE_BIAS_STAT n) 15 0 cur).setF (R.FE_BIAS_STAT n) 22 22 (b2n range)) (R.FE_BIAS_I_MIN n) 15 0 cur
  unfold biasRecorded
  rw [hmaxfe, hminfe, hmaxdt, hmindt]
  simp only [State.setF_eq, State.setReg_fes, State.setReg_dt, and_self]

theorem biasRecorded_confined (n cur : Nat) (range : Bool) (s : State) :
    Confined [R.FE_BIAS_STAT n, R.FE_BIAS_I_MIN n, R.FE_BIAS_I_MAX n] s (biasRecorded n cur range s) :=
  ((((Confined.refl _ s).setF (by simp) _ _ _).setF (by simp) _ _ _).minF (by simp) _ _ _).maxF (by simp) _ _ _

theorem biasRecorded_current {n cur : Nat} (range : Bool) (s : State) (hcur : cur < 65536) :
    (biasRecorded n cur range s).rf (R.FE_BIAS_STAT n) 15 0 = cur := by
  have hstat : Confined [R.FE_BIAS_I_MIN n, R.FE_BIAS_I_MAX n] ((s.setF (R.FE_BIAS_STAT n) 15 0 cur).setF (R.FE_BIAS_STAT n) 22 22 (b2n range))
      (biasRecorded n cur range s) := ((Confined.refl _ _).minF (by simp) _ _ _).maxF (by simp) _ _ _
  rw [hstat.rf (by simp), State.rf, State.setF_eq, reg_setReg_same, fld_setFld_ne _ _ (by decide) (by decide) (by decide)]
  exact (rf_setF_same s _ cur (by decide) (by decide)).trans (Nat.mod_eq_of_lt hcur)

/-- A current of 2 mA or more ends the count of low samples, and raises no event. -/
theorem biasOpen_flowing {n cur : Nat} {s : State} (hcur : 200 ≤ cur) : ∃ u : State,
    biasOpen n cur s = u ∧ (u.fe n).bias = { (s.fe n).bias with lowCnt := 0, okCnt := (s.fe n).bias.okCnt + 1 } ∧ u.dt = s.dt
      ∧ Confined [R.FE_BIAS_STAT n] s u ∧ u.rf (R.FE_BIAS_STAT n) 15 0 = s.rf (R.FE_BIAS_STAT n) 15 0 := by
  obtain ⟨v, hv⟩ : ∃ v, v = s.setFe n { s.fe n with bias := { (s.fe n).bias with lowCnt := 0, okCnt := (s.fe n).bias.okCnt + 1 } } := ⟨_, rfl⟩
  have hopen : biasOpen n cur s = if bit (v.reg (R.FE_BIAS_STAT n)) 16 then
      (if 10000 < (s.fe n).bias.okCnt + 1 then v.setF (R.FE_BIAS_STAT n) 16 16 0 else v) else v := by
    subst hv
    simp [biasOpen, Nat.not_lt.mpr hcur]
  have hbias : (v.fe n).bias = { (s.fe n).bias with lowCnt := 0, okCnt := (s.fe n).bias.okCnt + 1 } := by rw [hv, State.setFe_fe_same]
  have hconf : Confined [R.FE_BIAS_STAT n] s v := hv ▸ (Confined.refl _ s).setFe n _
  have hstat : v.rf (R.FE_BIAS_STAT n) 15 0 = s.rf (R.FE_BIAS_STAT n) 15 0 := by rw [hv, State.setFe_rf]
  have hdt : v.dt = s.dt := by rw [hv, State.setFe_dt]
  refine ⟨_, rfl, ?_⟩
  rw [hopen]
  have hkept : (v.fe n).bias = _ ∧ v.dt = s.dt ∧ Confined [R.FE_BIAS_STAT n] s v ∧ v.rf (R.FE_BIAS_STAT n) 15 0 = _ := ⟨hbias, hdt, hconf, hstat⟩
  split
  · split
    · rw [State.setF_eq, setReg_fe, State.setReg_dt]
      refine ⟨hbias, hdt, hconf.setReg (by simp) _, ?_⟩
      rw [State.rf, reg_setReg_same, fld_setFld_ne _ _ (by decide) (by decide) (by decide)]
      exact hstat
    · exact hkept
  · exact hkept

/-- What a sample leaves of the counts of the bias, `hot` when it lies over the limit 1 ms or more after the switch-on. -/
def biasCounted (n : Nat) (hot : Bool) (s : State) : State :=
  s.setFe n { s.fe n with bias := { (s.fe n).bias with onCnt := (s.fe n).bias.onCnt + 1, overCnt := b2n hot } }

/-- A sample over the limit, 1 ms or more after the switch-on: counted, and a short where the sample before it was one too. -/
theorem exec_biasSample_over {n : Fin 4} {uv cur : Nat} {s : State} (hcur : cur = min (uv * 100 / max 1 (s.rf (R.FE_BIAS_CFG n) 33 21)) 65535)
    (hon : (s.fe n).bias.on = true) (hcnt : 99 ≤ (s.fe n).bias.onCnt) (hlow : 200 ≤ cur) (hover : 100 * s.rf (R.FE_BIAS_CFG n) 20 13 < cur) :
    ∃ w, ((w : State).fe n).bias.overCnt = 1 ∧ w.dt = s.dt ∧ w.mem = s.mem ∧ w.rf (R.FE_BIAS_STAT n) 15 0 = cur
      ∧ exec (.biasSample n uv) s
        = .next (if (s.fe n).bias.overCnt != 0 then biasShort n (max cur (s.rf (R.FE_BIAS_STAT n) 15 0)) w else w) := by
  obtain ⟨range, hrange⟩ : ∃ r, r = decide (65535 < uv * 100 / max 1 (s.rf (R.FE_BIAS_CFG n) 33 21)) := ⟨_, rfl⟩
  obtain ⟨r, hr⟩ : ∃ r, r = biasRecorded n cur range s := ⟨_, rfl⟩
  obtain ⟨hfes, hdt⟩ : r.fes = s.fes ∧ r.dt = s.dt := hr ▸ biasRecorded_keeps n cur range s
  have hfe : r.fe n = s.fe n := congrArg (tget _ · _) hfes
  have hconf : Confined _ s r := hr ▸ biasRecorded_confined n cur range s
  have hshown : r.rf (R.FE_BIAS_STAT n) 15 0 = cur := hr ▸ biasRecorded_current range s (by omega)
  obtain ⟨u, hu, hbias, hudt, huconf, hustat⟩ := biasOpen_flowing (n := n) (s := r) hlow
  rw [hfe] at hbias
  have hlimit : u.rf (R.FE_BIAS_CFG n) 20 13 = s.rf (R.FE_BIAS_CFG n) 20 13 := (huconf.rf (by simp) _ _).trans (hconf.rf (by simp) _ _)
  have hexec : exec (.biasSample n uv) s
      = .next (let b : BiasSt := { (u.fe n).bias with onCnt := (u.fe n).bias.onCnt + 1 }
        let hot := b.on && decide (100 ≤ b.onCnt) && decide (100 * u.rf (R.FE_BIAS_CFG n) 20 13 < cur)
        if hot && b.overCnt != 0 then biasShort n (max cur (s.rf (R.FE_BIAS_STAT n) 15 0)) (biasCounted n hot u) else biasCounted n hot u) := by
    rw [← hu, hr, hrange, hcur]
    rfl
  have hhot : ((s.fe n).bias.on && decide (100 ≤ (s.fe n).bias.onCnt + 1) && decide (100 * s.rf (R.FE_BIAS_CFG n) 20 13 < cur)) = true := by
    simp [hon, hover]
    omega
  refine ⟨biasCounted n true u, ?_, ?_, ?_, ?_, ?_⟩
  · rw [biasCounted, State.setFe_fe_same]
    rfl
  · exact hudt.trans hdt
  · exact huconf.mem.trans hconf.mem
  · exact hustat.trans hshown
  · rw [hexec]
    simp only [hbias, hlimit, hhot, Bool.true_and]

/-! ## Retries (R79, R81) -/

theorem exec_biasRetry_due {n : Fin 4} {d : Dt} {s : State} (hd : (s.fe n).bias.retryAt = some d) (hst : s.feState n ≠ feRetired)
    (hdue : dtGe s.dt d = true) :
    exec (.biasRetry n) s = .next (if bit (s.reg (R.FE_BIAS_CFG n)) 0 then biasOn n s
      else biasSync n (s.setFe n { s.fe n with bias := { (s.fe n).bias with retryAt := none } })) := by
  have hexec : exec (.biasRetry n) s = execBiasRetry n s := rfl
  rw [hexec, execBiasRetry, hd]
  cases hen : bit (s.reg (R.FE_BIAS_CFG n)) 0 <;> simp [hdue, hst]

/-- Settles O31: a write arms the bias and then switches it on or leaves it; a sample over the limit passes the open test, so that only the count of
samples over the limit decides. -/
theorem aerialBiasFollowsItsSamples : Obligations.AerialBiasFollowsItsSamples := by
  unfold Obligations.AerialBiasFollowsItsSamples
  intro n s
  refine ⟨?write, ?sample, ?retry, ?on⟩
  case write =>
    intro src v l hlive hl hok
    obtain ⟨m, hm⟩ : ∃ m, m = wMerge l.row (s.reg (R.FE_BIAS_CFG n)) v := ⟨_, rfl⟩
    have hen : bit m 0 = bit v 0 := hm ▸ bit_wMerge_feBiasCfg_en hl _ v
    have hconf := biasCfgWrite_confined n m false (s.onBus src)
    refine ⟨_, exec_biasCfgWrite hlive hl hok, ?_⟩
    rw [← hm, ← hen]
    refine ⟨?_, fun hv => ?_, fun hv hwas hst hon hno => ?_, fun d hd => ?_, fun o ho => ?_, ?_⟩
    · rw [hconf.regs _ (by simp), reg_setReg_same]
    · rw [biasCfgWrite_off false _ hv, biasSync_fe, State.setFe_fe_same]
    · have hwas' : bit ((s.onBus src).reg (R.FE_BIAS_CFG n)) 0 = false := by rwa [onBus_reg]
      rw [biasCfgWrite_on hv hwas' (by rwa [onBus_feState]) (by rwa [onBus_fe]) (by rwa [onBus_fe]), biasOn_bias, biasOn_latch]
      exact ⟨rfl, rfl, biasArmed_latch m false hwas'⟩
    · obtain ⟨hkeep, hoff⟩ := biasCfgWrite_retry (s := s.onBus src) m false ((onBus_fe s src n).symm ▸ hd)
      exact ⟨hkeep, fun hon => hoff ((onBus_fe s src n).symm ▸ hon)⟩
    · simp only [List.mem_cons, List.not_mem_nil, or_false, not_or] at ho
      obtain ⟨hcfg, hstat, hretry⟩ := ho
      rw [hconf.regs _ (by simp [hstat, hretry]), reg_setReg_ne _ _ hcfg, onBus_reg]
    · rw [hconf.mem, State.setReg_mem, onBus_mem]
  case sample =>
    intro uv cur hcur hon hcnt hlow hover
    obtain ⟨w, hone, hdt, hmem, hshown, hexec⟩ := exec_biasSample_over hcur hon hcnt hlow hover
    refine ⟨fun hfirst => ⟨w, ?_, hone, hshown, hmem⟩, fun hsecond => ⟨w, ?_, hdt⟩⟩
    · rw [hexec, hfirst, if_neg (by decide)]
    · rw [hexec, hsecond, if_pos (by decide)]
  case retry =>
    intro d hd hst hdue
    rw [exec_biasRetry_due hd hst hdue]
    refine ⟨fun hen => by rw [if_pos hen], fun hen => ⟨_, by rw [hen, if_neg Bool.false_ne_true], ?_⟩⟩
    rw [biasSync_fe, State.setFe_fe_same]
    exact ⟨rfl, rfl⟩
  case on =>
    rw [biasOn_bias]
    exact ⟨rfl, rfl, rfl⟩

end Sys2Proof.Machine
end

section
/-! Coexistence (R88 to R93): what the edges of a pair, its windows and their arming give, in terms of the pair's own record. -/

namespace Sys2Proof.Machine

set_option Elab.async false

@[simp] theorem setCoex_coexP_same (s : State) (k : Nat) (x : CoexSt) : (s.setCoex k x).coexP k = x := tget_tset_same _ _ _ _

/-! ## Marking the front ends that a request is mapped to changes what is hidden of them and nothing else -/

theorem coexHit_eq (k n : Nat) (s : State) : coexHit k n s = { s with fes := (coexHit k n s).fes } := by
  unfold coexHit
  dsimp only
  split <;> rfl

theorem coexMark_eq (k : Nat) (s : State) : coexMark k s = { s with fes := (coexMark k s).fes } := by
  unfold coexMark
  rw [coexHit_eq k 3, coexHit_eq k 2, coexHit_eq k 1, coexHit_eq k 0]

theorem coexMark_coexP (k j : Nat) (s : State) : (coexMark k s).coexP j = s.coexP j := by rw [coexMark_eq]; rfl
theorem coexMark_reg (k o : Nat) (s : State) : (coexMark k s).reg o = s.reg o := by rw [coexMark_eq]; rfl
theorem coexMark_fsOn (k : Nat) (s : State) : (coexMark k s).fsOn = s.fsOn := by rw [coexMark_eq]; rfl
theorem coexMark_cycle (k : Nat) (s : State) : (coexMark k s).cycle = s.cycle := by rw [coexMark_eq]

/-! ## Edges of the pair's balls -/

theorem exec_coexReqEdge_release {k : Fin 2} {s : State} (hon : s.fsOn = true) (hmode : s.coexMode k = 1) (hreq : (s.coexP k).req = true) :
    exec (.coexReqEdge k false) s = .next (coexSync k ((s.setCoex k { s.coexP k with req := false }).setCoex k { s.coexP k with
      req := false, gnt := false, withheld := false, ivs := ivsClose (s.cycle + s.rf (R.FE_COEX_EXT 0 k) 15 0) s.cycle (s.coexP k).ivs })) := by
  have hexec : exec (.coexReqEdge k false) s = execCoexReqEdge k false s := rfl
  have hon' : (s.setCoex k { s.coexP k with req := false }).fsOn = true := hon
  simp [hexec, execCoexReqEdge, hmode, hreq, hon']

/-- A request that becomes active is answered in the state in which the front ends mapped to it are marked. -/
theorem exec_coexReqEdge_active {k : Fin 2} {s u : State} (hon : s.fsOn = true) (hmode : s.coexMode k = 1) (hreq : (s.coexP k).req = false)
    (hu : u = coexMark k (s.setCoex k { s.coexP k with req := true })) :
    exec (.coexReqEdge k true) s = .next (coexSync k (if s.coexDeny k = true ∧ (s.coexP k).inWin = true
      then u.setCoex k { s.coexP k with req := true, withheld := true }
      else coexGrant k (s.cycle - min (s.rf (R.FE_COEX_EXT 0 k) 31 16) 16) u)) := by
  have hexec : exec (.coexReqEdge k true) s = (if s.coexMode k = 2 ∨ (s.coexP k).req = true then .next s
      else if s.coexMode k = 0 ∨ (!u.fsOn) = true then
        .next (coexSync k (u.setCoex k { u.coexP k with gnt := true, withheld := false, ivs := ivsClose u.cycle u.cycle (u.coexP k).ivs }))
      else if u.coexDeny k && (u.coexP k).inWin then .next (coexSync k (u.setCoex k { u.coexP k with withheld := true }))
      else .next (coexSync k (coexGrant k (u.cycle - min (u.rf (R.FE_COEX_EXT 0 k) 31 16) 16) u))) := by
    subst hu
    rfl
  have hpair : u.coexP k = { s.coexP k with req := true } := by rw [hu, coexMark_coexP, setCoex_coexP_same]
  have hon' : u.fsOn = true := by rw [hu, coexMark_fsOn]; exact hon
  have hdeny : u.coexDeny k = s.coexDeny k := by rw [hu, State.coexDeny, State.rf, coexMark_reg]; rfl
  have hext : u.rf (R.FE_COEX_EXT 0 k) 31 16 = s.rf (R.FE_COEX_EXT 0 k) 31 16 := by rw [hu, State.rf, coexMark_reg]; rfl
  have hcycle : u.cycle = s.cycle := by rw [hu, coexMark_cycle]; rfl
  rw [hexec, if_neg (by simp [hmode, hreq]), if_neg (by simp [hmode, hon']), hpair, hdeny, hext, hcycle]
  simp only [Bool.and_eq_true]
  split <;> rfl

theorem exec_coexGntEdge_window {k : Fin 2} {level : Bool} {m : Nat} {s : State} (hmode : s.coexMode k = 2) (hgnt : (s.coexP k).gnt ≠ level)
    (hwin : (s.coexP k).winN = some m) :
    exec (.coexGntEdge k level) s = .next (if (s.coexP k).inWin && !level then coexDenied k m (coexSync k (s.setCoex k { s.coexP k with gnt := level }))
      else coexSync k (s.setCoex k { s.coexP k with gnt := level })) := by
  have hexec : exec (.coexGntEdge k level) s = execCoexGntEdge k level s := rfl
  have hne : ¬ (s.coexMode k ≠ 2 ∨ (s.coexP k).gnt = level) := by simp [hmode, hgnt]
  simp only [hexec, execCoexGntEdge, hne, if_false, hwin]

/-! ## Windows -/

theorem coexSync_coexMode (k : Nat) (s : State) : (coexSync k s).coexMode k = s.coexMode k := by
  unfold coexSync
  rw [State.coexMode, State.rf, reg_setReg_ne _ _ (by simp)]
  rfl

theorem exec_coexWindowStart_due {k : Fin 2} {m : Nat} {s : State} (hon : s.fsOn = true) (hwin : (s.coexP k).winN = some m) (hm : m ≤ s.cycle)
    (hout : (s.coexP k).inWin = false) (hmode : s.coexMode k ≠ 2) :
    exec (.coexWindowStart k) s = .next (coexSync k (s.setCoex k { s.coexP k with inWin := true })) := by
  have hexec : exec (.coexWindowStart k) s = execCoexWindowStart k s := rfl
  have hmode' : (coexSync k (s.setCoex k { s.coexP k with inWin := true })).coexMode k ≠ 2 := by rwa [coexSync_coexMode]
  rw [hexec, execCoexWindowStart]
  split
  next hnone => cases hwin.symm.trans hnone
  next n hsome =>
    cases hwin.symm.trans hsome
    rw [if_neg (by simp [hout, hon, hm])]
    exact congrArg _ (if_neg fun h => hmode' h.1)

theorem exec_coexWindowEnd_due {k : Fin 2} {m : Nat} {s : State} (hon : s.fsOn = true) (hwin : (s.coexP k).winN = some m)
    (hin : (s.coexP k).inWin = true) (hm : m + (s.reg (R.FE_COEX_WIN_LEN 0 k)).toNat ≤ s.cycle) :
    exec (.coexWindowEnd k) s = .next (coexSync k (coexRelease k (s.setCoex k { s.coexP k with
      inWin := false, winN := (if (s.reg (R.FE_COEX_WIN_PER 0 k)).toNat = 0 then none else some (m + (s.reg (R.FE_COEX_WIN_PER 0 k)).toNat)),
      relN := m + (s.reg (R.FE_COEX_WIN_LEN 0 k)).toNat + s.rf (R.FE_COEX_EXT 0 k) 15 0 }))) := by
  have hexec : exec (.coexWindowEnd k) s = execCoexWindowEnd k s := rfl
  rw [hexec, execCoexWindowEnd, hwin]
  simp [hin, hon, Nat.not_lt.mpr hm]

/-! ## A write of WIN_FRAC (R93, R98) -/

theorem regAt_feCoexWinFrac : ∀ (n : Fin 4) (k : Fin 2), regAt (R.FE_COEX_WIN_FRAC n k)
    = some ⟨.fe, n, ⟨0xb8, 0x38, 2, 0xfffffffff, 0x0, false, 0x0, 0x0, []⟩, k⟩ := by decide

theorem canonOff_feCoexWinFrac : ∀ (n : Fin 4) (k : Fin 2), canonOff (R.FE_COEX_WIN_FRAC n k) = R.FE_COEX_WIN_FRAC 0 k := by decide

/-- WIN_FRAC is none of the registers of a front end that act by their own offset. -/
theorem feCoexWinFrac_ne : ∀ (n : Fin 4) (k : Fin 2), R.FE_COEX_WIN_FRAC n k ∉ [R.FE_CTRL n, R.FE_CFG n, R.FE_CENTRE n, R.FE_GAIN_CFG n,
    R.FE_TUNER n, R.FE_BIAS_CFG n, R.FE_COEX_MAP n, R.FE_MATCH_CFG n] := by decide

theorem exec_coexWinFracWrite_ok {src : Src} {n : Fin 4} {k : Fin 2} {v : Word} {s : State} (hlive : s.srcLive src = true)
    (hboot : s.booted = true) (hok : coexWinBad (s.reg (R.FE_COEX_WIN_LEN 0 k)).toNat (s.reg (R.FE_COEX_WIN_PER 0 k)).toNat = false) :
    exec (.coexWinFracWrite src n k v) s = .next (coexArm k ((s.onBus src).setReg (R.FE_COEX_WIN_FRAC 0 k) v)) := by
  have hexec : exec (.coexWinFracWrite src n k v) s = actRow src (R.FE_COEX_WIN_FRAC n k) v s := rfl
  have hne := feCoexWinFrac_ne n k
  simp only [List.mem_cons, List.not_mem_nil, or_false, not_or] at hne
  obtain ⟨hctrl, hcfg, hcentre, hgain, htuner, hbias, hmap, hmatch⟩ := hne
  have hbad : writeBad (R.FE_COEX_WIN_FRAC n k) ⟨.fe, n, ⟨0xb8, 0x38, 2, 0xfffffffff, 0x0, false, 0x0, 0x0, []⟩, k⟩ v s = false :=
    writeBad_of_no_rules hboot rfl (by simp [comboBad, hctrl, hmatch, hok, -Nat.reduceAdd])
  have hall (old : Word) : wMerge ⟨0xb8, 0x38, 2, 0xfffffffff, 0x0, false, 0x0, 0x0, []⟩ old v = v := wMerge_all old v rfl rfl
  rw [hexec, actRow_acts hlive (regAt_feCoexWinFrac n k) hbad (by simp)]
  simp only [actWrite, feRegWrite, hctrl, hcfg, hcentre, hgain, htuner, hbias, hmap, canonOff_feCoexWinFrac, hall, or_self, if_false, if_true,
    Nat.reduceEqDiff]

/-- Settles O32: an edge is answered from the pair's own record, which marking the front ends leaves alone; the windows and their arming are the
branches of their rows. -/
theorem coexistenceArbiter : Obligations.CoexistenceArbiter := by
  unfold Obligations.CoexistenceArbiter
  intro k s hon
  refine ⟨fun hmode hreq => exec_coexReqEdge_release hon hmode hreq, fun hmode hreq u hu => ⟨fun hdeny => ?_, fun hfree => ?_⟩,
    fun level hmode hgnt m hwin => exec_coexGntEdge_window hmode hgnt hwin, fun m hwin hm hout hmode => exec_coexWindowStart_due hon hwin hm hout hmode,
    fun m hwin hin hm => exec_coexWindowEnd_due hon hwin hin hm, fun src n v hlive hboot hok => exec_coexWinFracWrite_ok hlive hboot hok⟩
  · rw [exec_coexReqEdge_active hon hmode hreq hu, if_pos hdeny]
  · rw [exec_coexReqEdge_active hon hmode hreq hu, if_neg hfree]

end Sys2Proof.Machine
end

section
/-! Borrowed regions and their test (R397 to R399), and clearing the amplitude histogram of a front end (R98). -/

namespace Sys2Proof.Machine

set_option Elab.async false

/-! ## Borrowing a region -/

theorem shadowWord_clean {s : State} {k : Nat} {d : Word} (h : eccDec (s.stored k) = .clean d) : shadowWord s k = s := by
  unfold shadowWord
  rw [h]

theorem foldl_shadowWord_clean {s : State} {ks : List Nat} (h : ∀ k ∈ ks, ∃ d, eccDec (s.stored k) = .clean d) : ks.foldl shadowWord s = s := by
  induction ks with
  | nil => rfl
  | cons k ks ih =>
    obtain ⟨d, hd⟩ := h k List.mem_cons_self
    rw [List.foldl_cons, shadowWord_clean hd]
    exact ih fun j hj => h j (List.mem_cons_of_mem k hj)

/-- The state whose words the shadow takes: a pass that comes round is counted. -/
def passCounted (r : Nat) (s : State) : State := if r < s.cons.testNext then s.cnt R.MEM_TEST_PASS_CNT else s

/-- The words of region `r` of the shared store. -/
def regionWords (r : Nat) : List Nat := (List.range 64).map (fun i => kBank (r / 4096) (64 * (r % 4096) + i))

theorem exec_regionBorrow_next {r : Nat} {s : State} (hen : bit (s.reg R.MEM_TEST_CFG) 12 = true) (hfree : s.cons.borrowed = none)
    (hr : nextRegion 65536 s.cons.testNext s = some r) : ∃ u, u = (regionWords r).foldl shadowWord (passCounted r s) ∧
      exec .regionBorrow s = .next ({ u with cons := { u.cons with borrowed := some r, testNext := r + 1 } }.setReg R.MEM_TEST_STAT
        (wd (65536 + r))) := by
  have hexec : exec .regionBorrow s = execRegionBorrow s := rfl
  refine ⟨_, rfl, ?_⟩
  rw [hexec, execRegionBorrow, hen, hfree, hr]
  rfl

theorem passCounted_stored (r k : Nat) (s : State) : (passCounted r s).stored k = s.stored k := by
  unfold passCounted
  split <;> rfl

/-- A region without errors is left as it stands. -/
theorem foldl_shadowWord_region {r : Nat} {s : State}
    (h : ∀ i < 64, ∃ d, eccDec (s.stored (kBank (r / 4096) (64 * (r % 4096) + i))) = .clean d) :
    (regionWords r).foldl shadowWord (passCounted r s) = passCounted r s := by
  refine foldl_shadowWord_clean fun k hk => ?_
  obtain ⟨i, hi, rfl⟩ := List.mem_map.mp hk
  rw [passCounted_stored]
  exact h i (List.mem_range.mp hi)

theorem passCounted_confined (r : Nat) (s : State) : Confined [R.MEM_TEST_PASS_CNT] s (passCounted r s) :=
  Confined.ite ((Confined.refl _ s).cnt (by simp) 1) (Confined.refl _ s)

theorem passCounted_reg (r : Nat) (s : State) : (passCounted r s).reg R.MEM_TEST_PASS_CNT
    = if r < s.cons.testNext then bump (s.reg R.MEM_TEST_PASS_CNT) 1 else s.reg R.MEM_TEST_PASS_CNT := by
  unfold passCounted
  split
  · rw [State.cnt_eq, reg_setReg_same]
  · rfl

theorem nextRegion_testable {n r q : Nat} {s : State} (h : nextRegion n r s = some q) : testable q s = true ∧ q < 65536 := by
  induction n generalizing r with
  | zero => cases h
  | succ n ih =>
    unfold nextRegion at h
    split at h
    next ht =>
      cases h
      exact ⟨ht, Nat.mod_lt _ (by decide)⟩
    · exact ih h

/-! ## The end of a test -/

/-- Writing the shadow back changes, of the registers, those of an armed flip and the shown state of the test. -/
theorem shadowBack_confined (r : Nat) (s : State) : ∃ b, ∀ o,
    o ∉ [R.MEM_FLIP_ARM, R.BANK_STATUS b, R.MEM_TEST_STAT] → (shadowBack r s).reg o = s.reg o := by
  refine ⟨kBank (r / 4096) (64 * (r % 4096)) / 262144, fun o ho => ?_⟩
  simp only [List.mem_cons, List.not_mem_nil, or_false, not_or] at ho
  obtain ⟨harm, hstatus, hstat⟩ := ho
  have hbits (k : Nat) (x : Stored) (hb : o ≠ R.BANK_STATUS (k / 262144)) : (s.storeBits k x).reg o = s.reg o := by
    unfold State.storeBits
    split
    · rw [State.sticky_eq, reg_setReg_ne _ _ hb, reg_setReg_ne _ _ harm, reg_putStored]
    · exact reg_putStored _ _ _ _
  unfold shadowBack
  rw [reg_setReg_ne _ _ hstat]
  split
  · exact hbits _ _ hstatus
  · rfl

theorem shadowBack_borrowed (r : Nat) (s : State) : (shadowBack r s).cons.borrowed = none := rfl

theorem shadowBack_failCnt (r : Nat) (s : State) : (shadowBack r s).reg R.MEM_TEST_FAIL_CNT = s.reg R.MEM_TEST_FAIL_CNT := by
  obtain ⟨b, hb⟩ := shadowBack_confined r s
  refine hb _ ?_
  simp only [List.mem_cons, List.not_mem_nil, or_false, R.MEM_TEST_FAIL_CNT, R.MEM_FLIP_ARM, R.BANK_STATUS, R.MEM_TEST_STAT]
  omega

theorem exec_marchTestComplete_borrowed {a : Fin 64} {mask : Stored} {retryOk : Bool} {r : Nat} {s : State} (hr : s.cons.borrowed = some r) :
    exec (.marchTestComplete a mask retryOk) s = if mask = 0 then .next (shadowBack r s) else
      .next (regionFault (kBank (r / 4096) (64 * (r % 4096) + a)) ((List.range 43).filter (fun i => mask.getLsbD i)) retryOk
        (raise 0x907 2 (uRgn r) [wd (uRgn r), wd mask.toNat, wd (mask.toNat / 68719476736)]
          (((shadowBack r s).cnt R.MEM_TEST_FAIL_CNT).sticky R.MEM_STATUS 4))).2 := by
  have hexec : exec (.marchTestComplete a mask retryOk) s = execMarchTestComplete a mask retryOk s := rfl
  rw [hexec, execMarchTestComplete, hr]

/-! ## Clearing a histogram -/

theorem histClear_eq (base : Nat → Nat) (i : Nat) (s : State) : histClear base i s = { s with regs := (histClear base i s).regs } := by
  induction i generalizing s with
  | zero => rfl
  | succ i ih =>
    unfold histClear
    rw [ih]
    rfl

theorem histClear_reg_ne {base : Nat → Nat} {i o : Nat} (s : State) (h : ∀ j < i, o ≠ base j) : (histClear base i s).reg o = s.reg o := by
  induction i generalizing s with
  | zero => rfl
  | succ i ih => rw [histClear, ih _ fun j hj => h j (by omega), reg_setReg_ne _ _ (h i (by omega))]

theorem histClear_reg_bin {base : Nat → Nat} {i j : Nat} (s : State) (hj : j < i) : (histClear base i s).reg (base j) = 0 := by
  induction i generalizing s j with
  | zero => omega
  | succ i ih =>
    rw [histClear]
    by_cases hlt : j < i
    · exact ih _ hlt
    · obtain rfl : j = i := by omega
      by_cases hagain : ∀ m < j, base j ≠ base m
      · rw [histClear_reg_ne _ hagain, reg_setReg_same]
      · push Not at hagain
        obtain ⟨m, hm, he⟩ := hagain
        rw [he]
        exact ih _ hm

theorem regAt_feHistCtrl : ∀ n : Fin 4, regAt (R.FE_HIST_CTRL n) = some ⟨.fe, n, ⟨0x1b0, 0x0, 1, 0x2, 0x0, false, 0x1, 0x0, []⟩, 0⟩ := by decide

theorem canonOff_feHistCtrl : ∀ n : Fin 4, canonOff (R.FE_HIST_CTRL n) = R.FE_HIST_CTRL n := by decide

/-- A write of CLEAR with the other bits as they stand leaves the control register as it was. -/
theorem wMerge_feHistCtrl_clear (old : Word) :
    wMerge ⟨0x1b0, 0x0, 1, 0x2, 0x0, false, 0x1, 0x0, []⟩ old (setBit old 0 true) = old := by
  refine wMerge_eq_old rfl (by decide) fun i _ hrw => bit_setBit_ne _ _ (by decide) ?_
  rintro rfl
  cases hrw

theorem exec_feHistCtrlClear_live {src : Src} {n : Fin 4} {s : State} (hlive : s.srcLive src = true) (hboot : s.booted = true) :
    exec (.feHistCtrlClear src n) s
      = .next ((histClear (R.FE_HIST n) 64 (s.onBus src)).setReg (R.FE_HIST_CTRL n) (s.reg (R.FE_HIST_CTRL n))) := by
  have hexec : exec (.feHistCtrlClear src n) s = actRow src (R.FE_HIST_CTRL n) (setBit (s.reg (R.FE_HIST_CTRL n)) 0 true) s := rfl
  have hbad : writeBad (R.FE_HIST_CTRL n) ⟨.fe, n, ⟨0x1b0, 0x0, 1, 0x2, 0x0, false, 0x1, 0x0, []⟩, 0⟩ (setBit (s.reg (R.FE_HIST_CTRL n)) 0 true) s
      = false := writeBad_of_no_rules hboot rfl (by simp [comboBad, R.FE_HIST_CTRL, R.FE_CTRL, R.FE_MATCH_CFG])
  rw [hexec, actRow_acts hlive (regAt_feHistCtrl n) hbad (by simp)]
  simp [actWrite, feRegWrite, canonOff_feHistCtrl, wMerge_feHistCtrl_clear, bit_setBit_same, R.FE_HIST_CTRL, R.FE_CTRL, R.FE_CFG, R.FE_CENTRE,
    R.FE_GAIN_CFG, R.FE_TUNER, R.FE_BIAS_CFG, R.FE_COEX_MAP]

theorem feHistCtrl_ne_feHist (n i : Nat) : R.FE_HIST_CTRL n ≠ R.FE_HIST n i := by
  unfold R.FE_HIST_CTRL R.FE_HIST
  omega

theorem feHistCtrlClear_clears {src : Src} {n : Fin 4} {s : State} (hlive : s.srcLive src = true) (hboot : s.booted = true) :
    ∃ u, exec (.feHistCtrlClear src n) s = .next u ∧ (∀ o, (∀ i < 64, o ≠ R.FE_HIST n i) → u.reg o = s.reg o)
      ∧ (∀ i < 64, u.reg (R.FE_HIST n i) = 0) ∧ u.mem = s.mem ∧ u.out = s.out := by
  refine ⟨_, exec_feHistCtrlClear_live hlive hboot, fun o ho => ?_, fun i hi => ?_, ?_, ?_⟩
  · by_cases hctrl : o = R.FE_HIST_CTRL n
    · rw [hctrl, reg_setReg_same]
    · rw [reg_setReg_ne _ _ hctrl, histClear_reg_ne _ ho, onBus_reg]
  · rw [reg_setReg_ne _ _ (feHistCtrl_ne_feHist n i).symm, histClear_reg_bin _ hi]
  · rw [State.setReg_mem, histClear_eq]
    exact onBus_mem s src
  · rw [State.setReg_out, histClear_eq]
    exact onBus_out s src

/-- Settles O50: the shadow takes a clean word by doing nothing, writing it back touches no counter of tests, and a cleared histogram is a run of
register writes of zero. -/
theorem regionsAreBorrowedAndTested : Obligations.RegionsAreBorrowedAndTested := by
  unfold Obligations.RegionsAreBorrowedAndTested
  intro s
  refine ⟨?borrow, fun n r q hq => nextRegion_testable hq, ?test, fun src n hlive hboot _ => feHistCtrlClear_clears hlive hboot⟩
  case borrow =>
    intro r hen hfree hr
    obtain ⟨u, hu, hexec⟩ := exec_regionBorrow_next hen hfree hr
    refine ⟨_, hexec, rfl, rfl, reg_setReg_same _ _ _, fun hclean => ?_⟩
    rw [foldl_shadowWord_region hclean] at hu
    subst hu
    have hconf := passCounted_confined r s
    refine ⟨hconf.mem, fun o hstat hpass => ?_, ?_⟩
    · exact (reg_setReg_ne _ _ hstat).trans (hconf.regs o (by simpa using hpass))
    · exact (reg_setReg_ne _ _ (by decide)).trans (passCounted_reg r s)
  case test =>
    intro a mask retryOk r hr
    rw [exec_marchTestComplete_borrowed hr]
    refine ⟨fun hz => by rw [if_pos hz], fun hz => ⟨_, by rw [if_neg hz], ?_, ?_, bit_sticky _ _ (by decide)⟩⟩
    · exact shadowBack_borrowed r s
    · rw [State.sticky_eq, reg_setReg_ne _ _ (by decide), State.cnt_eq, reg_setReg_same, shadowBack_failCnt]

end Sys2Proof.Machine
end

section
/-! Commands of front ends and synthesisers (R454, R455) and of the channeliser (R456): the registers each configuration leaves, and its reply. -/

namespace Sys2Proof.Machine

set_option Elab.async false

/-! ## What a command answers -/

/-- A row whose command is done at its boundary answers OK with the words its effect gives. -/
theorem takes_done {row : Packet → Instr} {c : CmdSpec} {h : HeldCmd} {u t : State} {ws : List Word}
    (hr : ∀ p s, exec (row p) s = .next (consumeCmd c p s)) (he : c.eff h u = (.done ws, t)) :
    Takes row c h u (reply h 0 (c.at_ h u) ws t) := takes_of hr (by rw [he])

/-- The boundary of a command does not move with what device time leaves alone. -/
theorem atSample_congr {h : HeldCmd} {s t : State} (hdt : t.dt = s.dt) : atSample h t = atSample h s := by
  unfold atSample
  rw [hdt]

/-! ## FE_STATE (R95) -/

theorem feStateSpec_enable {h : HeldCmd} {u : State} (hact : h.pk.pf 0 6 4 = 1) (hoff : u.feState (h.pk.pf 0 1 0) = feOff) :
    feStateSpec.eff h u = (.done (wd ((feEnable (h.pk.pf 0 1 0) u).feState (h.pk.pf 0 1 0)) :: dtWords (atSample h u)),
      feEnable (h.pk.pf 0 1 0) u) := by
  simp only [feStateSpec, hact, hoff, if_true]

theorem feStateSpec_disable {h : HeldCmd} {u : State} (hact : h.pk.pf 0 6 4 = 2) (hst : u.feState (h.pk.pf 0 1 0) ≠ feReplay) :
    feStateSpec.eff h u = (.done (wd ((feDisable (h.pk.pf 0 1 0) u).feState (h.pk.pf 0 1 0)) :: dtWords (atSample h u)),
      feDisable (h.pk.pf 0 1 0) u) := by
  simp only [feStateSpec, hact, hst, if_false]

theorem feStateSpec_replay {h : HeldCmd} {u : State} (hact : h.pk.pf 0 6 4 = 3) :
    feStateSpec.eff h u = (.done (wd ((feReplayEnable (h.pk.pf 0 1 0) u).feState (h.pk.pf 0 1 0)) :: dtWords (atSample h u)),
      feReplayEnable (h.pk.pf 0 1 0) u) := by
  simp only [feStateSpec, hact]

/-! ## FE_CONFIG (R68, R70, R74) -/

theorem gainCfgWrite_confined (n : Nat) (v : Word) (s : State) :
    Confined [R.FE_GAIN_STAT n] (s.setReg (R.FE_GAIN_CFG n) v) (gainCfgWrite n v s) := by
  have hcodes : Confined [R.FE_GAIN_STAT n] (s.setReg (R.FE_GAIN_CFG n) v) (if fld v 15 14 = 0 then s.setReg (R.FE_GAIN_CFG n) v
      else (s.setReg (R.FE_GAIN_CFG n) v).setFe n { (s.setReg (R.FE_GAIN_CFG n) v).fe n with codes := [] }) :=
    .ite (.refl _ _) ((Confined.refl _ _).setFe n _)
  exact .ite ((hcodes.setFe n _).setF (by simp) _ _ _) hcodes

theorem tunerWrite_confined (n : Nat) (v : Word) (s : State) : Confined [R.FE_TUNER n, R.CALN_TUNER_DLY n] s (tunerWrite n v s) :=
  ((Confined.refl _ s).setReg (by simp) _).setReg (by simp) _

theorem coexHit_confined (k n : Nat) (s : State) : Confined [] s (coexHit k n s) := Confined.ite ((Confined.refl _ s).setFe n _) (.refl _ s)

theorem coexMapWrite_confined (n : Nat) (v : Word) (s : State) : Confined [] (s.setReg (R.FE_COEX_MAP n) v) (coexMapWrite n v s) :=
  (coexHit_confined 0 n _).trans (coexHit_confined 1 n _)

theorem feOffOnly_off {o n : Nat} {v : Word} {s : State} (h : s.feState n = feOff) : feOffOnly o n v s = s.setReg o v := if_pos h

theorem feOffOnly_mem (o n : Nat) (v : Word) (s : State) : (feOffOnly o n v s).mem = s.mem := by
  unfold feOffOnly
  split <;> rfl

/-- The state an FE_CONFIG leaves. -/
def feConfigured (n : Nat) (p : Packet) (s : State) : State :=
  (coexMapWrite n (p.par 7) (((tunerWrite n (p.par 4) (gainCfgWrite n (p.par 3)
    (feOffOnly (R.FE_CFG n) n (p.par 2) (feOffOnly (R.FE_CENTRE n) n (p.par 1) s)))).setReg (R.FE_MATCH_CFG n) (p.par 5)).setReg
      (R.FE_CAL_CFG n) (p.par 6))).setReg (R.FE_EVT_MASK n) (p.par 8)

theorem feConfigSpec_done (h : HeldCmd) (u : State) :
    feConfigSpec.eff h u = (.done (dtWords (atSample h u)), feConfigured (h.pk.pf 0 1 0) h.pk u) := by
  have hdt : (feConfigured (h.pk.pf 0 1 0) h.pk u).dt = u.dt :=
    (Frame.refl (q := true) u).feOffOnly.feOffOnly.gainCfgWrite.tunerWrite.setReg.setReg.coexMapWrite.setReg.clock.2.2
  rw [← atSample_congr hdt]
  rfl

/-- Of each register what the last of the command's writes to it left. -/
theorem feConfigured_reg {n o : Nat} (p : Packet) (s : State) (hstat : o ≠ R.FE_GAIN_STAT n) (htuner : o ∉ [R.FE_TUNER n, R.CALN_TUNER_DLY n]) :
    (feConfigured n p s).reg o = if o = R.FE_EVT_MASK n then p.par 8 else if o = R.FE_COEX_MAP n then p.par 7
      else if o = R.FE_CAL_CFG n then p.par 6 else if o = R.FE_MATCH_CFG n then p.par 5 else if o = R.FE_GAIN_CFG n then p.par 3
      else (feOffOnly (R.FE_CFG n) n (p.par 2) (feOffOnly (R.FE_CENTRE n) n (p.par 1) s)).reg o := by
  unfold feConfigured
  rw [reg_setReg, (coexMapWrite_confined n _ _).regs o List.not_mem_nil, reg_setReg, reg_setReg, reg_setReg,
    (tunerWrite_confined n _ _).regs o htuner, (gainCfgWrite_confined n _ _).regs o (by simpa using hstat), reg_setReg]

theorem feConfigured_mem (n : Nat) (p : Packet) (s : State) : (feConfigured n p s).mem = s.mem := by
  unfold feConfigured
  rw [State.setReg_mem, (coexMapWrite_confined n _ _).mem, State.setReg_mem, State.setReg_mem, State.setReg_mem, (tunerWrite_confined n _ _).mem,
    (gainCfgWrite_confined n _ _).mem, State.setReg_mem, feOffOnly_mem, feOffOnly_mem]

theorem feConfigured_off {n : Nat} (p : Packet) {s : State} (h : s.feState n = feOff) :
    feOffOnly (R.FE_CFG n) n (p.par 2) (feOffOnly (R.FE_CENTRE n) n (p.par 1) s) = (s.setReg (R.FE_CENTRE n) (p.par 1)).setReg (R.FE_CFG n) (p.par 2) := by
  have hoff : (s.setReg (R.FE_CENTRE n) (p.par 1)).feState n = feOff := by
    rw [State.feState, State.rf, reg_setReg_ne _ _ (feReg_ne (by decide))]
    exact h
  rw [feOffOnly_off h, feOffOnly_off hoff]

theorem takes_feConfig (h : HeldCmd) (u : State) {n : Nat} (hn : n = h.pk.pf 0 1 0) :
    ∃ t, Takes .feConfig feConfigSpec h u (reply h 0 (atSample h u) (dtWords (atSample h u)) t)
      ∧ (u.feState n = feOff → t.reg (R.FE_CENTRE n) = h.pk.par 1 ∧ t.reg (R.FE_CFG n) = h.pk.par 2) ∧ t.reg (R.FE_GAIN_CFG n) = h.pk.par 3
      ∧ t.reg (R.FE_MATCH_CFG n) = h.pk.par 5 ∧ t.reg (R.FE_CAL_CFG n) = h.pk.par 6 ∧ t.reg (R.FE_COEX_MAP n) = h.pk.par 7
      ∧ t.reg (R.FE_EVT_MASK n) = h.pk.par 8 ∧ t.mem = u.mem := by
  have hlt : n < 4 := hn ▸ fld_lt _ 1 0
  have hreg (j : Nat) (hj : j < 0x400) (hstat : j ≠ 0x38) (htuner : j ≠ 0x48) :=
    feConfigured_reg (n := n) (o := 0x3000 + j + 0x400 * n) h.pk u (by unfold R.FE_GAIN_STAT; omega)
      (by simp only [R.FE_TUNER, R.CALN_TUNER_DLY, List.mem_cons, List.not_mem_nil, or_false]; omega)
  refine ⟨feConfigured n h.pk u, takes_done (fun _ _ => rfl) (hn ▸ feConfigSpec_done h u), fun hoff => ⟨?_, ?_⟩, ?_, ?_, ?_, ?_, ?_,
    feConfigured_mem n h.pk u⟩
  · simpa [feConfigured_off h.pk hoff, reg_setReg] using hreg 0x20 (by decide) (by decide) (by decide)
  · simpa [feConfigured_off h.pk hoff] using hreg 0x18 (by decide) (by decide) (by decide)
  · simpa using hreg 0x30 (by decide) (by decide) (by decide)
  · simpa using hreg 0x58 (by decide) (by decide) (by decide)
  · simpa using hreg 0x78 (by decide) (by decide) (by decide)
  · simpa using hreg 0x90 (by decide) (by decide) (by decide)
  · simpa using hreg 0x198 (by decide) (by decide) (by decide)

/-! ## FE_COEX (R88, R93) -/

theorem coexDecide_confined (k : Nat) (s : State) : Confined [] s (coexDecide k s) :=
  .ite (.refl _ s) (.ite ((Confined.refl _ s).setCoex k _) ((Confined.refl _ s).setCoex k _))

theorem coexRelease_confined (k : Nat) (s : State) : Confined [] s (coexRelease k s) := .ite (coexDecide_confined k s) (.refl _ s)

theorem Confined.coexSync {L : List Nat} {k : Nat} {s t : State} (h : Confined L s t) (hstat : R.FE_COEX_STAT 0 k ∈ L) :
    Confined L s (coexSync k t) := h.setReg hstat _

theorem coexCfgWrite_confined (k : Nat) (v : Word) (s : State) :
    Confined [R.FE_COEX_STAT 0 k] (s.setReg (R.FE_COEX_CFG 0 k) v) (coexCfgWrite k v s) := by
  have hin : R.FE_COEX_STAT 0 k ∈ [R.FE_COEX_STAT 0 k] := List.mem_cons_self
  have hnone {u : State} (hu : Confined [] (s.setReg (R.FE_COEX_CFG 0 k) v) u) : Confined [R.FE_COEX_STAT 0 k] (s.setReg (R.FE_COEX_CFG 0 k) v)
      (Machine.coexSync k u) := (hu.mono (by simp)).coexSync hin
  unfold coexCfgWrite
  exact .ite (hnone (coexRelease_confined k _)) (.ite (hnone ((Confined.refl _ _).setCoex k _))
    (.ite (hnone (((Confined.refl _ _).setCoex k _).trans (coexDecide_confined k _))) (hnone ((Confined.refl _ _).setCoex k _))))

/-- The state in which an FE_COEX arms the windows. -/
def coexConfigured (k : Nat) (p : Packet) (s : State) : State :=
  (((((coexCfgWrite k (p.par 1) s).setReg (R.FE_COEX_EXT 0 k) (p.par 2)).setReg (R.FE_COEX_WIN_SEC 0 k) (p.par 3)).setReg
    (R.FE_COEX_WIN_FRAC 0 k) (p.par 4)).setReg (R.FE_COEX_WIN_LEN 0 k) (p.par 5)).setReg (R.FE_COEX_WIN_PER 0 k) (p.par 6)

theorem feCoexSpec_done (h : HeldCmd) (u : State) : feCoexSpec.eff h u
    = (.done (dtWords (atSample h u)), coexArm (h.pk.pf 0 0 0) (coexConfigured (h.pk.pf 0 0 0) h.pk u)) := by
  have hdt : (coexConfigured (h.pk.pf 0 0 0) h.pk u).dt = u.dt :=
    (Frame.refl (q := true) u).coexCfgWrite.setReg.setReg.setReg.setReg.setReg.clock.2.2
  rw [← atSample_congr hdt]
  rfl

theorem takes_feCoex (h : HeldCmd) (u : State) {k : Nat} (hk : k = h.pk.pf 0 0 0) :
    ∃ t w, Takes .feCoex feCoexSpec h u (reply h 0 (atSample h u) (dtWords (atSample h u)) t)
      ∧ t = coexArm k w ∧ w.reg (R.FE_COEX_CFG 0 k) = h.pk.par 1 ∧ w.reg (R.FE_COEX_EXT 0 k) = h.pk.par 2
      ∧ w.reg (R.FE_COEX_WIN_SEC 0 k) = h.pk.par 3 ∧ w.reg (R.FE_COEX_WIN_FRAC 0 k) = h.pk.par 4
      ∧ w.reg (R.FE_COEX_WIN_LEN 0 k) = h.pk.par 5 ∧ w.reg (R.FE_COEX_WIN_PER 0 k) = h.pk.par 6 ∧ w.mem = u.mem := by
  have hcfg := coexCfgWrite_confined k (h.pk.par 1) u
  have hshown : (coexCfgWrite k (h.pk.par 1) u).reg (R.FE_COEX_CFG 0 k) = h.pk.par 1 := by rw [hcfg.regs _ (by simp), reg_setReg_same]
  refine ⟨_, coexConfigured k h.pk u, takes_done (fun _ _ => rfl) (hk ▸ feCoexSpec_done h u), rfl, ?_, ?_, ?_, ?_, ?_, ?_, ?_⟩
  case refine_7 => rw [coexConfigured, State.setReg_mem, State.setReg_mem, State.setReg_mem, State.setReg_mem, State.setReg_mem, hcfg.mem, State.setReg_mem]
  all_goals simp [coexConfigured, reg_setReg, hshown]

/-! ## SYN_SMP and SYN_REF_CONFIG (R106, R108, R109) -/

theorem synSmpSpec_enable {h : HeldCmd} {u : State} (hen : h.pk.pf 0 0 0 = 1) :
    synSmpSpec.eff h u = (.done [(smpEnable u).reg R.SYN_SMP_STATE], smpEnable u) := by
  simp only [synSmpSpec, hen, if_true]

theorem synSmpSpec_reengage {h : HeldCmd} {u : State} (hen : h.pk.pf 0 0 0 = 0) (hre : h.pk.pf 0 1 1 = 1) :
    synSmpSpec.eff h u = (.done [(smpClose 6 u).reg R.SYN_SMP_STATE], smpClose 6 u) := by
  simp only [synSmpSpec, hen, hre, if_true, Nat.zero_ne_one, if_false]

theorem qualRestart_regs (s : State) : (qualRestart s).regs = ((s.setReg R.SYN_QUAL_ELAPSED 0).setF R.SYN_REF_STAT 2 2 0).regs := by
  simp only [qualRestart]

theorem qualRestart_mem (s : State) : (qualRestart s).mem = s.mem := by
  simp only [qualRestart, State.setF_eq, State.setReg_mem]

theorem qualRestart_reg (s : State) (o : Nat) : (qualRestart s).reg o = ((s.setReg R.SYN_QUAL_ELAPSED 0).setF R.SYN_REF_STAT 2 2 0).reg o :=
  congrArg (tget regReset · o) (qualRestart_regs s)

theorem Confined.qualRestart {L : List Nat} {s t : State} (h : Confined L s t) (hel : R.SYN_QUAL_ELAPSED ∈ L) (hstat : R.SYN_REF_STAT ∈ L) :
    Confined L s (qualRestart t) :=
  ⟨fun o ho => (qualRestart_reg t o).trans (((h.setReg hel 0).setF hstat 2 2 0).regs o ho), (qualRestart_mem t).trans h.mem⟩

theorem Confined.pllRestart {L : List Nat} {s t : State} (h : Confined L s t) (i : Nat) : Confined L s (pllRestart i t) := h.setPll i _

theorem qualRestart_elapsed (s : State) : (qualRestart s).reg R.SYN_QUAL_ELAPSED = 0 := by
  rw [qualRestart_reg, State.setF_eq, reg_setReg_ne _ _ (by decide), reg_setReg_same]

theorem smpFixed_congr {s t : State} (h : t.reg R.SYN_SMP_STATE = s.reg R.SYN_SMP_STATE) : smpFixed t = smpFixed s := by
  simp only [smpFixed, State.smpState, State.rf, h]

theorem refFreqWrite_confined (v : Word) (s : State) :
    Confined [R.SYN_REF_FREQ, R.SYN_QUAL_ELAPSED, R.SYN_REF_STAT] s (refFreqWrite v s) :=
  .ite (.refl _ s) (((Confined.refl _ s).setReg (by decide) v).qualRestart (by decide) (by decide))

theorem refFreqWrite_free {v : Word} {s : State} (h : smpFixed s = false) : (refFreqWrite v s).reg R.SYN_REF_FREQ = v := by
  rw [refFreqWrite, h, if_neg Bool.false_ne_true]
  have hrest : Confined [R.SYN_QUAL_ELAPSED, R.SYN_REF_STAT] (s.setReg R.SYN_REF_FREQ v) (qualRestart (s.setReg R.SYN_REF_FREQ v)) :=
    (Confined.refl _ _).qualRestart (by decide) (by decide)
  rw [hrest.regs _ (by decide), reg_setReg_same]

theorem qualCfgWrite_confined (v : Word) (s : State) :
    Confined [R.SYN_QUAL_ELAPSED, R.SYN_REF_STAT] (s.setReg R.SYN_QUAL_CFG v) (qualCfgWrite v s) :=
  (Confined.refl _ _).qualRestart (by decide) (by decide)

theorem smpCfgWrite_confined (v : Word) (s : State) : Confined [R.SYN_SMP_CFG, R.SYN_QUAL_ELAPSED, R.SYN_REF_STAT] s (smpCfgWrite v s) :=
  .ite (((Confined.refl _ s).setReg (by decide) _).pllRestart 8)
    ((((Confined.refl _ s).setReg (by decide) v).qualRestart (by decide) (by decide)).pllRestart 8)

theorem smpCfgWrite_free {v : Word} {s : State} (h : smpFixed s = false) : (smpCfgWrite v s).reg R.SYN_SMP_CFG = v := by
  rw [smpCfgWrite, h, if_neg Bool.false_ne_true]
  have hrest : Confined [R.SYN_QUAL_ELAPSED, R.SYN_REF_STAT] (s.setReg R.SYN_SMP_CFG v) (pllRestart 8 (qualRestart (s.setReg R.SYN_SMP_CFG v))) :=
    ((Confined.refl _ _).qualRestart (by decide) (by decide)).pllRestart 8
  rw [hrest.regs _ (by decide), reg_setReg_same]

theorem smpCfgWrite_elapsed {v : Word} {s : State} (h : s.reg R.SYN_QUAL_ELAPSED = 0) : (smpCfgWrite v s).reg R.SYN_QUAL_ELAPSED = 0 := by
  unfold smpCfgWrite
  split
  · exact (reg_setReg_ne _ _ (by decide)).trans h
  · exact qualRestart_elapsed _

/-- The states a SYN_REF_CONFIG goes through: the reference, then its qualification and the policy, then the sample synthesiser. -/
def refConfigured (p : Packet) (s : State) : State := (refFreqWrite (p.par 0) s).setReg R.SYN_REF_CFG (p.par 1)
def qualConfigured (p : Packet) (s : State) : State := (qualCfgWrite (p.par 2) s).setReg R.SYN_POLICY (p.par 3)
def smpConfigured (p : Packet) (s : State) : State := pllRestart 8 ((smpCfgWrite (p.par 4) s).setReg R.SYN_SMP_LOCK (p.par 5))

theorem synRefConfigSpec_done (h : HeldCmd) (u : State) : synRefConfigSpec.eff h u
    = (.done (dtWords (atSample h u)), smpConfigured h.pk (qualConfigured h.pk (refConfigured h.pk u))) := by
  have hdt : (smpConfigured h.pk (qualConfigured h.pk (refConfigured h.pk u))).dt = u.dt :=
    (Frame.refl (q := true) u).refFreqWrite.setReg.qualCfgWrite.setReg.smpCfgWrite.setReg.pllRestart.clock.2.2
  rw [← atSample_congr hdt]
  rfl

theorem refConfigured_confined (p : Packet) (s : State) :
    Confined [R.SYN_REF_CFG, R.SYN_REF_FREQ, R.SYN_QUAL_ELAPSED, R.SYN_REF_STAT] s (refConfigured p s) :=
  ((refFreqWrite_confined _ s).mono fun _ => List.mem_cons_of_mem _).setReg (by decide) _

theorem qualConfigured_confined (p : Packet) (s : State) :
    Confined [R.SYN_QUAL_CFG, R.SYN_POLICY, R.SYN_QUAL_ELAPSED, R.SYN_REF_STAT] s (qualConfigured p s) :=
  (((Confined.refl _ s).setReg (by decide) _).qualRestart (by decide) (by decide)).setReg (by decide) _

theorem smpConfigured_confined (p : Packet) (s : State) :
    Confined [R.SYN_SMP_LOCK, R.SYN_SMP_CFG, R.SYN_QUAL_ELAPSED, R.SYN_REF_STAT] s (smpConfigured p s) :=
  (((smpCfgWrite_confined _ s).mono fun _ => List.mem_cons_of_mem _).setReg (by decide) _).pllRestart 8

theorem takes_synRefConfig (h : HeldCmd) (u : State) :
    ∃ t, Takes .synRefConfig synRefConfigSpec h u (reply h 0 (atSample h u) (dtWords (atSample h u)) t)
      ∧ t.reg R.SYN_REF_CFG = h.pk.par 1 ∧ t.reg R.SYN_QUAL_CFG = h.pk.par 2 ∧ t.reg R.SYN_POLICY = h.pk.par 3 ∧ t.reg R.SYN_SMP_LOCK = h.pk.par 5
      ∧ (smpFixed u = false → t.reg R.SYN_REF_FREQ = h.pk.par 0 ∧ t.reg R.SYN_SMP_CFG = h.pk.par 4) ∧ t.reg R.SYN_QUAL_ELAPSED = 0 ∧ t.mem = u.mem := by
  obtain ⟨v, hv⟩ : ∃ v, v = refConfigured h.pk u := ⟨_, rfl⟩
  obtain ⟨w, hw⟩ : ∃ w, w = qualConfigured h.pk v := ⟨_, rfl⟩
  have href : Confined _ u v := hv ▸ refConfigured_confined h.pk u
  have hqual : Confined _ v w := hw ▸ qualConfigured_confined h.pk v
  have hsmp : Confined _ w (smpConfigured h.pk w) := smpConfigured_confined h.pk w
  have hqcfg : w.reg R.SYN_QUAL_CFG = h.pk.par 2 := by
    rw [hw, qualConfigured, reg_setReg_ne _ _ (by decide), (qualCfgWrite_confined _ v).regs _ (by decide), reg_setReg_same]
  have helapsed : w.reg R.SYN_QUAL_ELAPSED = 0 := by
    rw [hw, qualConfigured, reg_setReg_ne _ _ (by decide)]
    exact qualRestart_elapsed _
  refine ⟨smpConfigured h.pk w, takes_done (fun _ _ => rfl) (by rw [hw, hv, synRefConfigSpec_done]), ?_, ?_, ?_, ?_, fun hfree => ⟨?_, ?_⟩, ?_, ?_⟩
  · rw [hsmp.regs _ (by decide), hqual.regs _ (by decide), hv, refConfigured, reg_setReg_same]
  · rw [hsmp.regs _ (by decide), hqcfg]
  · rw [hsmp.regs _ (by decide), hw, qualConfigured, reg_setReg_same]
  · exact reg_setReg_same _ R.SYN_SMP_LOCK _
  · rw [hsmp.regs _ (by decide), hqual.regs _ (by decide), hv, refConfigured, reg_setReg_ne _ _ (by decide), refFreqWrite_free hfree]
  · have hfree' : smpFixed w = false := by
      rw [smpFixed_congr (hqual.regs _ (by decide)), smpFixed_congr (href.regs _ (by decide)), hfree]
    exact (reg_setReg_ne _ _ (by decide)).trans (smpCfgWrite_free hfree')
  · exact (reg_setReg_ne _ _ (by decide)).trans (smpCfgWrite_elapsed helapsed)
  · rw [hsmp.mem, hqual.mem, href.mem]

/-! ## SYN_RAMP_ARM, STREAM_CONFIG and REPLAY_CTRL -/

theorem synRampArmSpec_arm {h : HeldCmd} {u : State} (harm : h.pk.pf 0 4 4 = 0) (hnew : later 72 u.dt (dtOf (h.pk.par 2) (h.pk.par 3)) = false) :
    synRampArmSpec.eff h u = (.done (dtWords (dtOfCycle (cycleOf u.cycle (dtOf (h.pk.par 2) (h.pk.par 3))))),
      rampArm (h.pk.pf 0 1 0) (dtOf (h.pk.par 2) (h.pk.par 3)) (((u.setReg (R.LO_RAMP_CFG (h.pk.pf 0 1 0)) (h.pk.par 1)).setReg
        (R.LO_RAMP_SEC (h.pk.pf 0 1 0)) (h.pk.par 2)).setReg (R.LO_RAMP_FRAC (h.pk.pf 0 1 0)) (h.pk.par 3))) := by
  simp only [synRampArmSpec, harm, Nat.zero_ne_one, if_false, State.setReg_dt, State.setReg_cycle, hnew, Bool.false_eq_true]

theorem streamConfigSpec_on {h : HeldCmd} {u : State} (hen : bit (h.pk.par 1) 5 = true) : streamConfigSpec.eff h u
    = (.done (dtWords (dtOfCycle ((streamCfgWrite (h.pk.pf 0 1 0) (h.pk.par 1) u).fe (h.pk.pf 0 1 0)).strm.firstN)),
      streamCfgWrite (h.pk.pf 0 1 0) (h.pk.par 1) u) := by
  simp only [streamConfigSpec, hen, if_true]

theorem replayCtrlSpec_stop {h : HeldCmd} {u : State} (hstop : h.pk.pf 0 5 5 = 1) : replayCtrlSpec.eff h u
    = (.done (dtWords (atSample h u)), replayStop (h.pk.pf 0 1 0) 1 (replayCfgWrite (h.pk.pf 0 1 0) (h.pk.par 1) u)) := by
  simp only [replayCtrlSpec, hstop, if_true]

theorem replayCtrlSpec_start {h : HeldCmd} {u : State} (hstop : h.pk.pf 0 5 5 = 0) (hstart : h.pk.pf 0 4 4 = 1) : replayCtrlSpec.eff h u
    = (.done (dtWords (atSample h u)), replayStart (h.pk.pf 0 1 0) (replayCfgWrite (h.pk.pf 0 1 0) (h.pk.par 1) u)) := by
  simp only [replayCtrlSpec, hstop, hstart, Nat.zero_ne_one, if_false, if_true]

/-- Settles O33: each row takes its command's effect, which is one branch of the command's specification, and the configurations leave in each
register the last word written to it. -/
theorem frontEndSynthesiserAndChannelizerCommands : Obligations.FrontEndSynthesiserAndChannelizerCommands := by
  unfold Obligations.FrontEndSynthesiserAndChannelizerCommands
  refine ⟨fun h u => ⟨⟨?enable, ?disable, ?replay⟩, ?config, ?calibrate, ?bias, ?coex, ⟨?smpOn, ?smpBack⟩, ?reference, ?lo, ?seg, ?arm⟩,
    fun h u n hn => ⟨?tap, ?chz, ?notch, ?stream, ?stop, ?start⟩⟩
  case enable => exact fun hact hoff => takes_done (fun _ _ => rfl) (feStateSpec_enable hact hoff)
  case disable => exact fun hact hst => takes_done (fun _ _ => rfl) (feStateSpec_disable hact hst)
  case replay => exact fun hact => takes_done (fun _ _ => rfl) (feStateSpec_replay hact)
  case config => exact fun n hn => takes_feConfig h u hn
  case calibrate => exact takes_done (fun _ _ => rfl) rfl
  case bias => exact takes_done (fun _ _ => rfl) rfl
  case coex => exact fun k hk => takes_feCoex h u hk
  case smpOn => exact fun hen => takes_done (fun _ _ => rfl) (synSmpSpec_enable hen)
  case smpBack => exact fun hen hre => takes_done (fun _ _ => rfl) (synSmpSpec_reengage hen hre)
  case reference => exact takes_synRefConfig h u
  case lo => exact takes_done (fun _ _ => rfl) rfl
  case seg => exact takes_done (fun _ _ => rfl) rfl
  case arm =>
    rintro harm k rfl hnew
    exact takes_done (fun _ _ => rfl) (synRampArmSpec_arm harm hnew)
  case tap => exact hn ▸ takes_done (fun _ _ => rfl) rfl
  case chz => exact hn ▸ takes_done (fun _ _ => rfl) rfl
  case notch =>
    rintro k rfl
    exact hn ▸ takes_done (fun _ _ => rfl) rfl
  case stream => exact fun hen => hn ▸ takes_done (fun _ _ => rfl) (streamConfigSpec_on hen)
  case stop => exact fun hstop => hn ▸ takes_done (fun _ _ => rfl) (replayCtrlSpec_stop hstop)
  case start => exact fun hstop hstart => hn ▸ takes_done (fun _ _ => rfl) (replayCtrlSpec_start hstop hstart)

end Sys2Proof.Machine
end

section
/-! Blocks, gain codes, level scales and notches (R71 to R73, R132, R137): what the end of a block records, and what follows of the same block keeps. -/

namespace Sys2Proof.Machine

set_option Elab.async false

/-! ## What the evaluation of a block keeps of the gain control of its front end -/

/-- The registers in which a block's means, root mean squares and gain control are shown. -/
def agcRegs (n : Nat) : List Nat := [R.FE_RMS_I n, R.FE_RMS_Q n, R.FE_DC_I n, R.FE_DC_Q n, R.FE_GAIN_STAT n]

/-- `t` agrees with `s` in those registers, in the codes that will fall due and in the block that waits for its evaluation. -/
structure AgcKeeps (n : Nat) (s t : State) : Prop where
  regs : ∀ o ∈ agcRegs n, t.reg o = s.reg o
  codes : (t.fe n).codes = (s.fe n).codes
  done : (t.fe n).done = (s.fe n).done

theorem evReg_agcRegs : ∀ n : Fin 4, ∀ o ∈ agcRegs n, evReg 2 o = false := by decide

/-- No register of a channeliser is among them. -/
theorem chz_not_mem_agcRegs (n : Fin 4) {o : Nat} (ho : 0x4000 ≤ o) : o ∉ agcRegs n := by
  have hn := n.isLt
  simp only [agcRegs, R.FE_RMS_I, R.FE_RMS_Q, R.FE_DC_I, R.FE_DC_Q, R.FE_GAIN_STAT, List.mem_cons, List.not_mem_nil, or_false]
  omega

theorem feStatus_not_mem_agcRegs (n : Nat) : R.FE_STATUS n ∉ agcRegs n := by
  simp [agcRegs]

namespace AgcKeeps

variable {n : Fin 4} {s t u : State} {o : Nat}

theorem refl (n : Nat) (s : State) : AgcKeeps n s s := ⟨fun _ _ => rfl, rfl, rfl⟩

theorem ite {c : Prop} {_ : Decidable c} (ht : AgcKeeps n s t) (hu : AgcKeeps n s u) : AgcKeeps n s (if c then t else u) := by
  split
  · exact ht
  · exact hu

theorem setReg (h : AgcKeeps n s t) (ho : o ∉ agcRegs n) (v : Word) : AgcKeeps n s (t.setReg o v) :=
  ⟨fun o' ho' => (reg_setReg_ne t v (ne_of_mem_of_not_mem ho' ho)).trans (h.regs o' ho'), h.codes, h.done⟩

theorem setF (h : AgcKeeps n s t) (ho : o ∉ agcRegs n) (hi lo v : Nat) : AgcKeeps n s (t.setF o hi lo v) := h.setReg ho _
theorem sticky (h : AgcKeeps n s t) (ho : o ∉ agcRegs n) (i : Nat) : AgcKeeps n s (t.sticky o i) := h.setReg ho _

/-- The record of the front end takes other values, its codes and its finished block apart. -/
theorem setFe {x : RfSt} (h : AgcKeeps n s t) (hcodes : x.codes = (t.fe n).codes) (hdone : x.done = (t.fe n).done) :
    AgcKeeps n s (t.setFe n x) :=
  ⟨fun o ho => (State.setFe_reg t n x o).trans (h.regs o ho), by rw [State.setFe_fe_same, hcodes, h.codes], by rw [State.setFe_fe_same, hdone, h.done]⟩

theorem setTap (h : AgcKeeps n s t) (k : Nat) (x : TapSt) : AgcKeeps n s (t.setTap n k x) := h.setFe rfl rfl
theorem setNf (h : AgcKeeps n s t) (k : Nat) (x : NotchSt) : AgcKeeps n s (t.setNf n k x) := h.setFe rfl rfl

theorem raiseIn (h : AgcKeeps n s t) (sec : Word) (code sev unit : Nat) (ps : List Word) : AgcKeeps n s (raiseIn sec code sev unit ps t) := by
  obtain ⟨hstill, hregs, -⟩ := Quiet.raiseIn (q := 2) (by decide) sec code sev unit ps t
  have hfes : (Machine.raiseIn sec code sev unit ps t).fes = t.fes := (congrArg State.fes hstill :)
  have hfe : (Machine.raiseIn sec code sev unit ps t).fe n = t.fe n := congrArg (tget _ · n.val) hfes
  exact ⟨fun o ho => (hregs o (evReg_agcRegs n o ho)).trans (h.regs o ho), by rw [hfe, h.codes], by rw [hfe, h.done]⟩

theorem levelTap (h : AgcKeeps n s t) (k i : Nat) : AgcKeeps n s (levelTap n k i t) := by
  have hlvl : R.CHZ_TAP_LEVEL n i ∉ agcRegs n := chz_not_mem_agcRegs n (by unfold R.CHZ_TAP_LEVEL; omega)
  have hshown := (h.setF hlvl 24 24 (b2n (!bit (t.reg (R.CHZ_LVL_CFG n)) 20 && decide (10 * (t.tap n i).usedL < (t.tap n i).allL)))).setF hlvl 11 0
    (min (levelRms (t.tapRate n i) (t.tap n i).usedL (t.tap n i).ssL) 4095)
  exact .ite h (.ite hshown (hshown.setTap i _))

theorem levelBlock (h : AgcKeeps n s t) (k : Nat) (ts : List Nat) : AgcKeeps n s (levelBlock n k ts t) := by
  unfold Machine.levelBlock
  induction ts generalizing t with
  | nil => exact h
  | cons i ts ih => exact ih (h.levelTap k i)

theorem notchBlock (h : AgcKeeps n s t) (blk : Nat) (f : List Int) (k : Nat) : AgcKeeps n s (notchBlock n blk f k t) := by
  have hstat : R.CHZ_NF_STAT n k ∉ agcRegs n := chz_not_mem_agcRegs n (by unfold R.CHZ_NF_STAT; omega)
  unfold Machine.notchBlock
  extract_lets _ _ _ _ cand
  refine .ite ?_ (.ite ((h.setF hstat _ _ _).setNf k _) h)
  clear_value cand
  split
  · exact h
  · exact h.setNf k _

end AgcKeeps

/-! ## The end of a block -/

/-- What the end of block `k` evaluates after the gain control: levels, blanking and notches (R132, R136, R137). -/
def blockRest (n : Fin 4) (k : Nat) (b : BlkSums) (s : State) : State :=
  let s := levelBlock n k (List.range 16) s
  let frac := if b.all = 0 then 0 else b.blanked * 65536 / b.all
  let s := s.setReg (R.CHZ_BLANK_FRAC n) (wd (if 65535 < frac then 65536 + 65535 else frac))
  let s := if 256 * s.rf (R.CHZ_BLANK_CFG n) 15 8 < frac then
      raiseIn (secOfCycle ((k + 1) * 163680)) 0x303 1 (uChz n) [wd (min frac 65535)] (s.sticky (R.CHZ_STATUS n) 3) else s
  let f := (s.fe n).specL
  let s := s.setReg (R.CHZ_NOTCH_FLOOR n) (wd (bitsS 12 (binFloor f)))
  notchBlock n k f 3 (notchBlock n k f 2 (notchBlock n k f 1 (notchBlock n k f 0 s)))

theorem blockRest_keeps (n : Fin 4) (k : Nat) (b : BlkSums) (s : State) : AgcKeeps n s (blockRest n k b s) := by
  have hfrac : R.CHZ_BLANK_FRAC n ∉ agcRegs n := chz_not_mem_agcRegs n (by unfold R.CHZ_BLANK_FRAC; omega)
  have hstatus : R.CHZ_STATUS n ∉ agcRegs n := chz_not_mem_agcRegs n (by unfold R.CHZ_STATUS; omega)
  have hfloor : R.CHZ_NOTCH_FLOOR n ∉ agcRegs n := chz_not_mem_agcRegs n (by unfold R.CHZ_NOTCH_FLOOR; omega)
  unfold blockRest
  extract_lets t1 _ t2 t3 _ t4
  have h2 : AgcKeeps n s t2 := ((AgcKeeps.refl n s).levelBlock k _).setReg hfrac _
  have h3 : AgcKeeps n s t3 := .ite ((h2.sticky hstatus 3).raiseIn _ _ _ _ _) h2
  have h4 : AgcKeeps n s t4 := h3.setReg hfloor _
  exact (((h4.notchBlock k _ 0).notchBlock k _ 1).notchBlock k _ 2).notchBlock k _ 3

/-- What a live block shows of itself (R73): the level and the hold of the gain control, root mean squares and means. -/
def blockShown (n : Nat) (b : BlkSums) (s : State) : State :=
  (((((s.setF (R.FE_GAIN_STAT n) 15 0 (rms8 (b.ssI + b.ssQ) (2 * b.cnt))).setF (R.FE_GAIN_STAT n) 24 24
    (b2n (decide (2 * b.cnt < 32736)))).setReg (R.FE_RMS_I n) (wd (rms8 b.ssI b.cnt))).setReg (R.FE_RMS_Q n) (wd (rms8 b.ssQ b.cnt))).setReg
      (R.FE_DC_I n) (wd (bitsS 18 (mean8 b.smI b.cnt)))).setReg (R.FE_DC_Q n) (wd (bitsS 18 (mean8 b.smQ b.cnt)))

/-- The gain code that automatic control takes after the block (R71). -/
def nextCode (n : Nat) (b : BlkSums) (s : State) : Nat :=
  (max 0 (min 144 ((s.rf (R.FE_GAIN_STAT n) 23 16 : Int) + agcDelta (s.rf (R.FE_GAIN_CFG n) 13 8) (2 * b.cnt) (b.ssI + b.ssQ)))).toNat

/-- The state in which that code falls due at the start of block `k` + 2, under automatic control with enough values used (R71, R72). -/
def blockCoded (n k : Nat) (b : BlkSums) (s : State) : State :=
  if s.rf (R.FE_GAIN_CFG n) 15 14 = 0 ∧ !decide (2 * b.cnt < 32736) then
    s.setFe n { s.fe n with codes := (s.fe n).codes ++ [((k + 2) * 163680, nextCode n b s)] }
  else s

theorem agcBlock_keeps (n : Fin 4) (k : Nat) (b : BlkSums) (s : State) :
    AgcKeeps n (blockCoded n k b (blockShown n b s)) (agcBlock n k b s) :=
  .ite (((AgcKeeps.refl n _).sticky (feStatus_not_mem_agcRegs n) 7).raiseIn _ _ _ _ _) (.refl n _)

theorem exec_agcBlockEnd_live {n : Fin 4} {k : Nat} {b : BlkSums} {s : State} (hdone : (s.fe n).done = some (k, b)) (hst : s.feState n ≠ feReplay) :
    exec (.agcBlockEnd n) s = .next (blockRest n k b (agcBlock n k b (s.setFe n { s.fe n with done := none }))) := by
  have hexec : exec (.agcBlockEnd n) s = execAgcBlockEnd n s := rfl
  have hlive : (if (s.setFe n { s.fe n with done := none }).feState n = feReplay then s.setFe n { s.fe n with done := none }
      else agcBlock n k b (s.setFe n { s.fe n with done := none })) = agcBlock n k b (s.setFe n { s.fe n with done := none }) := if_neg hst
  rw [hexec, execAgcBlockEnd, hdone, ← hlive]
  rfl

theorem blockCoded_reg (n k : Nat) (b : BlkSums) (s : State) (o : Nat) : (blockCoded n k b s).reg o = s.reg o := by
  unfold blockCoded
  split
  · exact State.setFe_reg _ _ _ _
  · rfl

theorem blockCoded_done (n k : Nat) (b : BlkSums) (s : State) : ((blockCoded n k b s).fe n).done = (s.fe n).done := by
  unfold blockCoded
  split
  · rw [State.setFe_fe_same]
  · rfl

theorem blockShown_fe (n m : Nat) (b : BlkSums) (s : State) : (blockShown n b s).fe m = s.fe m := by
  simp only [blockShown, State.setF_eq, setReg_fe]

theorem blockShown_gainStat (n : Nat) (b : BlkSums) (s : State) : (blockShown n b s).reg (R.FE_GAIN_STAT n)
    = setFld (setFld (s.reg (R.FE_GAIN_STAT n)) 15 0 (rms8 (b.ssI + b.ssQ) (2 * b.cnt))) 24 24 (b2n (decide (2 * b.cnt < 32736))) := by
  simp [blockShown, State.setF_eq, reg_setReg]

theorem blockShown_gainCfg (n : Nat) (b : BlkSums) (s : State) (hi lo : Nat) :
    (blockShown n b s).rf (R.FE_GAIN_CFG n) hi lo = s.rf (R.FE_GAIN_CFG n) hi lo := by
  simp [State.rf, blockShown, State.setF_eq, reg_setReg]

theorem blockShown_held (n : Nat) (b : BlkSums) (s : State) :
    (blockShown n b s).rf (R.FE_GAIN_STAT n) 24 24 = b2n (decide (2 * b.cnt < 32736)) := by
  rw [State.rf, blockShown_gainStat, fld_setFld_same _ _ (by decide) (by decide)]
  cases decide (2 * b.cnt < 32736) <;> rfl

theorem blockShown_code (n : Nat) (b : BlkSums) (s : State) : (blockShown n b s).rf (R.FE_GAIN_STAT n) 23 16 = s.rf (R.FE_GAIN_STAT n) 23 16 := by
  rw [State.rf, blockShown_gainStat, fld_setFld_ne _ _ (by decide) (by decide) (by decide), fld_setFld_ne _ _ (by decide) (by decide) (by decide)]
  rfl

theorem nextCode_blockShown (n : Nat) (b : BlkSums) (s : State) : nextCode n b (blockShown n b s) = nextCode n b s := by
  rw [nextCode, blockShown_code, blockShown_gainCfg, nextCode]

theorem blockCoded_codes_auto {n : Nat} {b : BlkSums} {s : State} (k : Nat) (hauto : s.rf (R.FE_GAIN_CFG n) 15 14 = 0) (hused : 32736 ≤ 2 * b.cnt) :
    ((blockCoded n k b (blockShown n b s)).fe n).codes = (s.fe n).codes ++ [((k + 2) * 163680, nextCode n b s)] := by
  rw [blockCoded, if_pos ⟨(blockShown_gainCfg n b s 15 14).trans hauto, by simpa using hused⟩, State.setFe_fe_same, blockShown_fe, nextCode_blockShown]

theorem blockCoded_codes_held {n : Nat} {b : BlkSums} {s : State} (k : Nat) (h : s.rf (R.FE_GAIN_CFG n) 15 14 ≠ 0 ∨ 2 * b.cnt < 32736) :
    ((blockCoded n k b (blockShown n b s)).fe n).codes = (s.fe n).codes := by
  rw [blockCoded, if_neg, blockShown_fe]
  rw [blockShown_gainCfg]
  rintro ⟨hauto, hused⟩
  rcases h with h | h
  · exact h hauto
  · simp [h] at hused

/-! ## Codes, scales and notches that fall due -/

theorem exec_agcCodeApply_due {n : Fin 4} {c code : Nat} {rest : List (Nat × Nat)} {s : State} (hcodes : (s.fe n).codes = (c, code) :: rest)
    (hon : s.fsOn = true) (hdue : c ≤ s.cycle) : exec (.agcCodeApply n) s = .next (gainCode n code c (s.setFe n { s.fe n with codes := rest })) := by
  have hexec : exec (.agcCodeApply n) s = execAgcCodeApply n s := rfl
  rw [hexec, execAgcCodeApply, hcodes]
  simp [hon, hdue]

theorem exec_levelScaleApply_due {n : Fin 4} {t : Fin 16} {c v : Nat} {rest : List (Nat × Nat)} {s : State} (hscales : (s.tap n t).scales = (c, v) :: rest)
    (hon : s.fsOn = true) (hdue : c ≤ s.streamN n) :
    exec (.levelScaleApply n t) s = .next ((s.setTap n t { s.tap n t with scales := rest }).setF (R.CHZ_TAP_LEVEL n t) 23 12 v) := by
  have hexec : exec (.levelScaleApply n t) s = execLevelScaleApply n t s := rfl
  rw [hexec, execLevelScaleApply, hscales]
  simp [hon, hdue]

theorem exec_notchEngage_due {n k : Fin 4} {c lvl : Nat} {w : Word} {s : State} (hengage : (s.nf n k).engage = some (c, w, lvl))
    (hon : s.fsOn = true) (hdue : c ≤ s.streamN n) (hst : s.nfState n k = 1) :
    exec (.notchEngage n k) s = .next (raise 0x301 1 (unitId (1 + n.val) 7 k) [w, wd lvl]
      (((s.setNf n k NotchSt.idle).setReg (R.CHZ_NF_STAT n k) (wd (512 + lvl))).setReg (R.CHZ_NF_FREQ n k) w)) := by
  have hexec : exec (.notchEngage n k) s = execNotchEngage n k s := rfl
  rw [hexec, execNotchEngage, hengage]
  simp [hon, hdue, hst]

theorem exec_notchRelease_due {n k : Fin 4} {c : Nat} {s : State} (hrelease : (s.nf n k).release = some c) (hon : s.fsOn = true)
    (hdue : c ≤ s.streamN n) (hst : s.nfState n k = 2) :
    exec (.notchRelease n k) s = .next (raise 0x302 0 (unitId (1 + n.val) 7 k) [wd (s.nf n k).blocks]
      ((s.setNf n k NotchSt.idle).setReg (R.CHZ_NF_STAT n k) 256)) := by
  have hexec : exec (.notchRelease n k) s = execNotchRelease n k s := rfl
  rw [hexec, execNotchRelease, hrelease]
  simp [hon, hdue, hst]

theorem gainCode_confined (n code c : Nat) (s : State) : Confined [R.FE_GAIN_STAT n] s (gainCode n code c s) :=
  ((Confined.refl _ s).setFe n _).setF List.mem_cons_self _ _ _

/-- Settles O34: what follows the gain control at the end of a block leaves its registers and codes alone; the other steps are their due branch. -/
theorem blocksSetGainLevelAndNotches : Obligations.BlocksSetGainLevelAndNotches := by
  unfold Obligations.BlocksSetGainLevelAndNotches
  intro n s
  refine ⟨?block, ?code, fun t c v rest hscales hon hdue => exec_levelScaleApply_due hscales hon hdue,
    fun k c lvl w hengage hon hdue hst => exec_notchEngage_due hengage hon hdue hst,
    fun k c hrelease hon hdue hst => exec_notchRelease_due hrelease hon hdue hst⟩
  case block =>
    intro k b hdone hst
    obtain ⟨u, hu⟩ : ∃ u, u = s.setFe n { s.fe n with done := none } := ⟨_, rfl⟩
    obtain ⟨v, hv⟩ : ∃ v, v = agcBlock n k b u := ⟨_, rfl⟩
    have hagc : AgcKeeps n (blockCoded n k b (blockShown n b u)) v := hv ▸ agcBlock_keeps n k b u
    have hrest : AgcKeeps n v (blockRest n k b v) := blockRest_keeps n k b v
    have hreg (o : Nat) (ho : o ∈ agcRegs n) : (blockRest n k b v).reg o = (blockShown n b u).reg o := by
      rw [hrest.regs o ho, hagc.regs o ho, blockCoded_reg]
    have hcodes : (u.fe n).codes = (s.fe n).codes := by rw [hu, State.setFe_fe_same]
    have hrf (o hi lo : Nat) : u.rf o hi lo = s.rf o hi lo := by rw [hu, State.setFe_rf]
    refine ⟨blockRest n k b v, by rw [hv, hu, exec_agcBlockEnd_live hdone hst], ?done, ?rmsI, ?rmsQ, ?dcI, ?dcQ, ?held,
      fun hauto hused => ?_, fun hheld => ?_⟩
    case done => rw [hrest.done, hagc.done, blockCoded_done, blockShown_fe, hu, State.setFe_fe_same]
    case rmsI | rmsQ | dcI | dcQ =>
      rw [hreg _ (by simp [agcRegs])]
      simp [blockShown, reg_setReg]
    case held =>
      rw [State.rf, hreg _ (by simp [agcRegs])]
      exact blockShown_held n b u
    · rw [hrest.codes, hagc.codes, blockCoded_codes_auto k (by rw [hrf, hauto]) hused, hcodes, nextCode, hrf, hrf]
    · rw [hrest.codes, hagc.codes, blockCoded_codes_held k (by rwa [hrf]), hcodes]
  case code =>
    intro c code rest hcodes hon hdue
    have hconf := gainCode_confined n code c (s.setFe n { s.fe n with codes := rest })
    refine ⟨_, exec_agcCodeApply_due hcodes hon hdue, rfl, rf_setF_same _ _ _ (by decide) (by decide), fun o ho => ?_, ?_⟩
    · rw [hconf.regs o (by simpa using ho), State.setFe_reg]
    · rw [hconf.mem, State.setFe_mem]

end Sys2Proof.Machine
end

section
/-! Front-end states, calibration runs and mismatch checks (R75 to R78, R83 to R86, R95). -/

namespace Sys2Proof.Machine

set_option Elab.async false

/-! ## Writes of FE_CTRL (R95) -/

theorem regAt_feCtrl : ∀ n : Fin 4, regAt (R.FE_CTRL n) = some ⟨.fe, n, ⟨0x0, 0x0, 1, 0x0, 0x0, false, 0x7, 0x0, []⟩, 0⟩ := by decide

/-- A write of FE_CTRL with one request bit acts by that bit. -/
theorem exec_feCtrl_live {src : Src} {n : Fin 4} {v : Word} {s : State} (hlive : s.srcLive src = true) (hboot : s.booted = true)
    (hone : fld v 1 0 ≠ 3) : actRow src (R.FE_CTRL n) v s = .next (feCtrl n v.toNat (s.onBus src)) := by
  have hbad : writeBad (R.FE_CTRL n) ⟨.fe, n, ⟨0x0, 0x0, 1, 0x0, 0x0, false, 0x7, 0x0, []⟩, 0⟩ v s = false :=
    writeBad_of_no_rules hboot rfl (by simp [comboBad, hone, R.FE_CTRL, R.FE_MATCH_CFG])
  rw [actRow_acts hlive (regAt_feCtrl n) hbad (by simp)]
  simp [actWrite, feRegWrite]

theorem feCtrl_enable {n : Nat} {s : State} (hoff : s.feState n = feOff) (hok : feEnableStatus n s = 0) : feCtrl n 1 s = feEnable n s := by
  simp [feCtrl, hoff, hok]

theorem feCtrl_disable (n : Nat) (s : State) : feCtrl n 2 s = feDisable n s := by
  simp [feCtrl]

theorem feCtrl_recal {n : Nat} {s : State} (hrun : s.feState n = feRun) (hmask : s.rf (R.FE_CAL_CFG n) 6 0 ≠ 0) :
    feCtrl n 4 s = calRunBegin n (s.rf (R.FE_CAL_CFG n) 6 0) false feRecal s := by
  simp [feCtrl, hrun, hmask]

theorem feEnableStatus_onBus (n : Nat) (s : State) (src : Src) : feEnableStatus n (s.onBus src) = feEnableStatus n s := by
  simp [feEnableStatus, State.smpState]

/-! ## Locks and calibration runs -/

theorem exec_feLockTimeout_late {n : Fin 4} {s : State} (hst : s.feState n = feStarting) (hsmp : s.smpState = 2) (hon : s.fsOn = true)
    (hlock : ¬ (s.loState n = 2 ∧ s.loState (4 + n) = 2)) (hlate : max (s.fe n).enN s.smp.lockedN + 818400 ≤ s.cycle) :
    exec (.feLockTimeout n) s = .next (feFault n s) := by
  have hexec : exec (.feLockTimeout n) s = execFeLockTimeout n s := rfl
  have hlate' : ¬ s.cycle < max (s.fe n).enN s.smp.lockedN + 5 * msCycles := by
    unfold msCycles
    omega
  rw [hexec, execFeLockTimeout, if_neg]
  simpa [hst, hsmp, hon, hlate'] using hlock

/-- A step that goes on is judged when its time has passed. -/
theorem calStep_due {r : CalRun} {step : Nat} {s : State} (hgoes : r.suspN = none) (hon : s.fsOn = true)
    (hdue : r.stepN + stepMs.getD step 0 * 163680 ≤ s.cycle) :
    (r.suspN.isSome || !s.fsOn || decide (s.cycle < r.stepN + stepMs.getD step 0 * msCycles)) = false := by
  have hlate : decide (s.cycle < r.stepN + stepMs.getD step 0 * msCycles) = false := by
    unfold msCycles
    exact decide_eq_false (Nat.not_lt.mpr hdue)
  rw [hgoes, hon, hlate]
  rfl

/-- The last step passes. -/
theorem exec_calStepEnd_last {n : Fin 4} {r : CalRun} {step : Nat} {ms : List Int} {s : State} (hrun : (s.fe n).run = some r) (hleft : r.left = [step])
    (hgoes : r.suspN = none) (hon : s.fsOn = true) (hdue : r.stepN + stepMs.getD step 0 * 163680 ≤ s.cycle) (hpass : stepPass n step ms s = true)
    (hstep : step ≠ 5) : exec (.calStepEnd n ms) s
      = .next (calRunEnd n { r with left := [], done := r.done + 2 ^ step, stepN := s.cycle } (stepResult n step ms s)) := by
  have hexec : exec (.calStepEnd n ms) s = execCalStepEnd n ms s := rfl
  have hcycle : (stepResult n step ms s).cycle = s.cycle := (Frame.refl (q := true) s).stepResult.clock.2.1
  have hdue' := calStep_due hgoes hon hdue
  rw [hexec, execCalStepEnd, hrun]
  simp only [hleft, hdue', hpass, hstep, hcycle, if_true, if_false, Bool.false_eq_true]

/-- The state in which a failed step is reported (R83, R85). -/
def calFailed (n : Nat) (r : CalRun) (step : Nat) (s : State) : State :=
  let u := (s.setFe n { s.fe n with run := none }).setReg (R.FE_CAL_STAT n) (wd (2 * 16384 + (r.done + 2 ^ step) * 128 + 2 ^ step))
  ((u.setReg (R.FE_CAL_TEMP n) (wd (u.rf (R.CUR_S_VAL n) 11 0))).cnt (R.FE_CAL_FAIL_CNT n)).sticky (R.FE_STATUS n) 1

theorem exec_calStepEnd_fails {n : Fin 4} {r : CalRun} {step : Nat} {rest : List Nat} {ms : List Int} {s : State} (hrun : (s.fe n).run = some r)
    (hleft : r.left = step :: rest) (hgoes : r.suspN = none) (hon : s.fsOn = true) (hdue : r.stepN + stepMs.getD step 0 * 163680 ≤ s.cycle)
    (hfail : stepPass n step ms s = false) (hsupply : s.rfSupplyHold = false) (hstep : step ≠ 6) : exec (.calStepEnd n ms) s
      = .next (feFault n (raise 0x102 2 (uFe n) [wd step, wdI (ms.getD 0 0)] (calFailed n r step s))) := by
  have hexec : exec (.calStepEnd n ms) s = execCalStepEnd n ms s := rfl
  have hdue' := calStep_due hgoes hon hdue
  rw [hexec, execCalStepEnd, hrun]
  simp only [hleft, hdue', hfail, hsupply, hstep, if_false, Bool.false_eq_true]
  rfl

theorem calFailed_run (n : Nat) (r : CalRun) (step : Nat) (s : State) : ((calFailed n r step s).fe n).run = none := by
  rw [calFailed, State.sticky_eq, State.cnt_eq, setReg_fe, setReg_fe, setReg_fe, setReg_fe, State.setFe_fe_same]

theorem calFailed_stat (n : Nat) (r : CalRun) (step : Nat) (s : State) :
    (calFailed n r step s).reg (R.FE_CAL_STAT n) = wd (2 * 16384 + (r.done + 2 ^ step) * 128 + 2 ^ step) := by
  simp [calFailed, State.sticky_eq, State.cnt_eq, reg_setReg]

theorem calFailed_failCnt (n : Nat) (r : CalRun) (step : Nat) (s : State) :
    (calFailed n r step s).reg (R.FE_CAL_FAIL_CNT n) = bump (s.reg (R.FE_CAL_FAIL_CNT n)) 1 := by
  simp [calFailed, State.sticky_eq, State.cnt_eq, reg_setReg]

theorem exec_calStepRestart_free {n : Fin 4} {r : CalRun} {c : Nat} {s : State} (hrun : (s.fe n).run = some r) (hsusp : r.suspN = some c)
    (hsmp : s.smpState = 2) (hon : s.fsOn = true) (hsupply : s.rfSupplyHold = false) (hcoex : r.left.head? = some 5 → s.coexActive n = false) :
    exec (.calStepRestart n) s
      = .next (s.setFe n { s.fe n with run := some { r with susp := r.susp + (s.cycle - c), suspN := none, stepN := s.cycle } }) := by
  have hexec : exec (.calStepRestart n) s = execCalStepRestart n s := rfl
  rw [hexec, execCalStepRestart, hrun]
  simp only [hsusp]
  rw [if_neg]
  simpa [hsmp, hon, hsupply] using hcoex

/-! ## Mismatch checks (R75, R77, R78) -/

theorem exec_mismatchCheckStart_due {n : Fin 4} {per : Nat} {s : State} (hper : per = s.rf (R.FE_MATCH_CFG n) 11 0) (hpos : per ≠ 0) (hon : s.fsOn = true)
    (hdue : (s.cycle + per * 163680000 - n.val * 40920000 % (per * 163680000)) % (per * 163680000) = 0) (hst : s.feState n = feRun)
    (hsweep : (s.calU n).sweep = none) (hcoex : s.coexActive n = false) (hcheck : (s.fe n).check = none) :
    exec (.mismatchCheckStart n) s
      = .next (loPlan (4 + n) (s.loAct n / 32 - s.bwHz n / 4) (s.setFe n { s.fe n with check := some (s.cycle, false) })) := by
  have hexec : exec (.mismatchCheckStart n) s = execMismatchCheckStart n s := rfl
  have htone : (matchTones n s).headD 0 = s.loAct n / 32 - s.bwHz n / 4 := List.headD_cons
  have hfalls : (per = 0 || !s.fsOn || (s.cycle + per * 163680000 - n.val * 40920000 % (per * 163680000)) % (per * 163680000) != 0
      || s.feState n != feRun || (s.calU n).sweep.isSome || s.coexActive n || (s.fe n).check.isSome) = false := by
    rw [hdue]
    simp [hpos, hon, hst, hsweep, hcoex, hcheck]
  rw [hexec, execMismatchCheckStart, ← hper, hfalls, htone, if_neg Bool.false_ne_true]

/-- An injection synthesiser's plan touches its own registers only. -/
def loRegs (u : Nat) : List Nat := [R.LO_TARGET u, R.LO_DIV u, R.LO_NUM u, R.LO_DEN u, R.LO_ACT u]

theorem Confined.loPlan {L : List Nat} {s t : State} {u : Nat} (h : Confined L s t) (hu : 4 ≤ u) (hL : ∀ o ∈ loRegs u, o ∈ L) (target : Nat) :
    Confined L s (loPlan u target t) := by
  have htarget : R.LO_TARGET u ∈ L := hL _ (by simp [loRegs])
  have hdiv : R.LO_DIV u ∈ L := hL _ (by simp [loRegs])
  have hnum : R.LO_NUM u ∈ L := hL _ (by simp [loRegs])
  have hden : R.LO_DEN u ∈ L := hL _ (by simp [loRegs])
  have hact : R.LO_ACT u ∈ L := hL _ (by simp [loRegs])
  unfold Machine.loPlan loSetAct
  extract_lets t1 _ _ t2
  have h1 : Confined L s t1 := h.setReg htarget _
  have h2 : Confined L s t2 := .ite (((h1.setReg hdiv _).setReg hnum _).setReg hden _) (((h1.setReg hdiv _).setReg hnum _).setReg hden _)
  rw [if_neg (by omega)]
  exact h2.setReg hact _

theorem loPlan_fe (u target m : Nat) (s : State) : (loPlan u target s).fe m = s.fe m := by
  unfold loPlan loSetAct
  extract_lets t1 _ _ t2
  have h1 : t1.fe m = s.fe m := setReg_fe s _ _ m
  have h2 : t2.fe m = s.fe m := by
    unfold t2
    clear_value t1
    split <;> rw [setReg_fe, setReg_fe, setReg_fe, h1]
  clear_value t2
  split
  · rw [setReg_fe, setReg_fe, h2]
  · rw [setReg_fe, h2]

theorem tonesDrive_confined (n : Nat) (s : State) : Confined (loRegs (4 + n)) s (tonesDrive n s) :=
  (((Confined.refl _ s).loPlan (Nat.le_add_right 4 n) (fun _ => id) _).loPlan (Nat.le_add_right 4 n) (fun _ => id) _).loPlan
    (Nat.le_add_right 4 n) (fun _ => id) _

theorem tonesDrive_fe (n m : Nat) (s : State) : (tonesDrive n s).fe m = s.fe m :=
  ((loPlan_fe _ _ m _).trans (loPlan_fe _ _ m _)).trans (loPlan_fe _ _ m s)

/-- The state after a check in RUN: the three tones driven, and the injection synthesiser back at its own aim. -/
def checkEnded (n : Nat) (s : State) : State :=
  let u := s.setFe n { s.fe n with check := none }
  loPlan (4 + n) (injAim n u) (tonesDrive n u)

theorem checkEnded_confined (n : Nat) (s : State) : Confined (loRegs (4 + n)) s (checkEnded n s) :=
  (((Confined.refl _ s).setFe n _).trans (tonesDrive_confined n _)).loPlan (Nat.le_add_right 4 n) (fun _ => id) _

theorem checkEnded_check (n : Nat) (s : State) : ((checkEnded n s).fe n).check = none := by
  rw [checkEnded, loPlan_fe, tonesDrive_fe, State.setFe_fe_same]

theorem feState_not_mem_loRegs : ∀ n : Fin 4, R.FE_STATE n ∉ loRegs (4 + n) := by decide

theorem exec_mismatchCheckEnd_run {n : Fin 4} {c : Nat} {s : State} (lo mid hi : Nat) (refl : BitVec 12) (hcheck : (s.fe n).check = some (c, false))
    (hon : s.fsOn = true) (hdue : c + 16368 ≤ s.cycle) (hst : s.feState n = feRun) : exec (.mismatchCheckEnd n lo mid hi refl) s
      = .next (matchReport n lo mid hi ((checkEnded n s).setReg (R.FE_REFL_PWR n) (wd refl.toNat))) := by
  have hexec : exec (.mismatchCheckEnd n lo mid hi refl) s = execMismatchCheckEnd n lo mid hi refl s := rfl
  have hdrive : (if (s.setFe n { s.fe n with check := none }).feState n = feRun
      then loPlan (4 + n) (injAim n (s.setFe n { s.fe n with check := none })) (tonesDrive n (s.setFe n { s.fe n with check := none }))
      else s.setFe n { s.fe n with check := none }) = checkEnded n s := if_pos hst
  have hst' : (checkEnded n s).feState n = feRun := ((checkEnded_confined n s).feState (feState_not_mem_loRegs n)).trans hst
  have hdue' : ¬ s.cycle < c + 16368 := Nat.not_lt.mpr hdue
  rw [hexec, execMismatchCheckEnd, hcheck]
  simp only [hon, hdue', Bool.not_true, decide_false, Bool.or_self, Bool.false_eq_true, if_false]
  rw [hdrive, hst']
  rfl

/-- A return loss at the warning level or better raises nothing where it was not poor before. -/
theorem matchReport_good {n : Fin 4} {lo mid hi : Nat} {s : State}
    (hwarn : s.rf (R.FE_MATCH_CFG n) 27 20 ≤ min (min lo 160) (min (min mid 160) (min hi 160))) (hpoor : (s.fe n).poor = false)
    (hfault : s.rf (R.FE_MATCH_CFG n) 19 12 ≤ s.rf (R.FE_MATCH_CFG n) 27 20) :
    ∃ x, matchReport n lo mid hi s = (s.setReg (R.FE_MATCH_STAT n) (wd (b2n (decide (160 < lo) || decide (160 < mid) || decide (160 < hi)) * 16777216
      + min lo 160 * 65536 + min mid 160 * 256 + min hi 160))).setFe n x := by
  obtain ⟨u, hu⟩ : ∃ u, u = s.setReg (R.FE_MATCH_STAT n) (wd (b2n (decide (160 < lo) || decide (160 < mid) || decide (160 < hi)) * 16777216
      + min lo 160 * 65536 + min mid 160 * 256 + min hi 160)) := ⟨_, rfl⟩
  have hcfg (hi lo : Nat) : u.rf (R.FE_MATCH_CFG n) hi lo = s.rf (R.FE_MATCH_CFG n) hi lo := by
    rw [hu, State.rf, reg_setReg_ne _ _ (feReg_ne (by decide))]
    rfl
  have hok : decide (min (min lo 160) (min (min mid 160) (min hi 160)) < u.rf (R.FE_MATCH_CFG n) 27 20) = false := by
    rw [hcfg]
    exact decide_eq_false (Nat.not_lt.mpr hwarn)
  have hfine (x : RfSt) : ¬ min (min lo 160) (min (min mid 160) (min hi 160)) < (u.setFe n x).rf (R.FE_MATCH_CFG n) 19 12 := by
    rw [State.setFe_rf, hcfg]
    exact Nat.not_lt.mpr (hfault.trans hwarn)
  have hwas : (u.fe n).poor = false := by rw [hu, setReg_fe, hpoor]
  refine ⟨{ u.fe n with poor := false }, ?_⟩
  rw [matchReport, ← hu]
  simp only [hok, hwas, hfine, if_false, Bool.false_eq_true, Bool.false_and]

/-- Settles O30: each step is its due branch, a failed step is reported in registers of its own, and driving the tones leaves the front end's record and
state alone. -/
theorem frontEndStatesCalibrationAndChecks : Obligations.FrontEndStatesCalibrationAndChecks := by
  unfold Obligations.FrontEndStatesCalibrationAndChecks
  refine ⟨fun n s => ⟨?ctrl, fun hst hsmp hon hlock hlate => exec_feLockTimeout_late hst hsmp hon hlock hlate, ?stepEnd,
    fun r c hrun hsusp hsmp hon hsupply hcoex => exec_calStepRestart_free hrun hsusp hsmp hon hsupply hcoex⟩,
    fun n s => ⟨fun hpos hon hdue hst hsweep hcoex hcheck => exec_mismatchCheckStart_due rfl hpos hon hdue hst hsweep hcoex hcheck, ?checkEnd, ?report⟩⟩
  case ctrl =>
    intro src hlive hboot
    refine ⟨fun hoff hok => ?_, ?_, fun hrun hmask => ?_⟩
    · rw [← feCtrl_enable (by rwa [onBus_feState]) (by rwa [feEnableStatus_onBus])]
      exact exec_feCtrl_live hlive hboot (by decide)
    · rw [← feCtrl_disable]
      exact exec_feCtrl_live hlive hboot (by decide)
    · rw [← onBus_rf s src, ← feCtrl_recal (by rwa [onBus_feState]) (by rwa [onBus_rf])]
      exact exec_feCtrl_live hlive hboot (by decide)
  case stepEnd =>
    intro r step rest ms hrun hleft hgoes hon hdue
    refine ⟨fun hpass hstep hrest => ?_, fun hfail hsupply hstep => ?_⟩
    · exact exec_calStepEnd_last hrun (hrest ▸ hleft) hgoes hon hdue hpass hstep
    · exact ⟨calFailed n r step s, exec_calStepEnd_fails hrun hleft hgoes hon hdue hfail hsupply hstep, calFailed_run _ _ _ _, calFailed_stat _ _ _ _,
        calFailed_failCnt _ _ _ _, bit_sticky _ _ (by decide)⟩
  case checkEnd =>
    intro c lo mid hi refl hcheck hon hdue hst
    exact ⟨_, exec_mismatchCheckEnd_run lo mid hi refl hcheck hon hdue hst, by rw [setReg_fe, checkEnded_check], reg_setReg_same _ _ _⟩
  case report =>
    intro lo mid hi hwarn hpoor hfault
    obtain ⟨x, hx⟩ := matchReport_good hwarn hpoor hfault
    refine ⟨_, hx, ?_, fun o ho => ?_, ?_⟩
    · rw [State.setFe_reg, reg_setReg_same]
    · rw [State.setFe_reg, reg_setReg_ne _ _ ho]
    · rw [State.setFe_mem, State.setReg_mem]

end Sys2Proof.Machine
end

section
/-! The sample synthesiser's own operations (R106 to R111): what a change of its state, a closing of its loop, a restart of qualification, a hold of
the DAC and the beginning of an episode leave of its registers, its record and its comparisons. -/

namespace Sys2Proof.Machine

/-! ## The record of the sample synthesiser, and comparisons -/

/-- Put a record of the sample synthesiser into the state. -/
def State.setSmp (s : State) (x : SmpSt) : State := { s with smp := x }

@[simp] theorem State.setSmp_smp (s : State) (x : SmpSt) : (s.setSmp x).smp = x := rfl
@[simp] theorem State.setSmp_reg (s : State) (x : SmpSt) (o : Nat) : (s.setSmp x).reg o = s.reg o := rfl
@[simp] theorem State.setSmp_rf (s : State) (x : SmpSt) (o hi lo : Nat) : (s.setSmp x).rf o hi lo = s.rf o hi lo := rfl
@[simp] theorem State.setSmp_pllOf (s : State) (x : SmpSt) (u : Nat) : (s.setSmp x).pllOf u = s.pllOf u := rfl
@[simp] theorem setReg_pllOf (s : State) (o : Nat) (v : Word) (u : Nat) : (s.setReg o v).pllOf u = s.pllOf u := rfl

theorem Confined.setSmp {L : List Nat} {s t : State} (h : Confined L s t) (x : SmpSt) : Confined L s (t.setSmp x) := ⟨h.regs, h.mem⟩

/-! ## What a change of state leaves alone -/

/-- Of the registers, `t` differs from `s` in those of events only; the record of the sample synthesiser and the comparisons are as they were. -/
structure SynKeeps (s t : State) : Prop where
  regs : ∀ o, evReg 2 o = false → t.reg o = s.reg o
  smp : t.smp = s.smp
  pll : t.pll = s.pll

namespace SynKeeps

variable {s t u : State}

theorem refl (s : State) : SynKeeps s s := ⟨fun _ _ => rfl, rfl, rfl⟩

theorem trans (h : SynKeeps s t) (k : SynKeeps t u) : SynKeeps s u :=
  ⟨fun o ho => (k.regs o ho).trans (h.regs o ho), k.smp.trans h.smp, k.pll.trans h.pll⟩

theorem ite {c : Prop} [Decidable c] (h : SynKeeps s t) (k : SynKeeps s u) : SynKeeps s (if c then t else u) := by
  split
  · exact h
  · exact k

theorem of_quiet (h : Quiet 2 s t) : SynKeeps s t := ⟨h.2.1, (congrArg State.smp h.1 :), (congrArg State.pll h.1 :)⟩

theorem setFe (n : Nat) (x : RfSt) (s : State) : SynKeeps s (s.setFe n x) := ⟨fun _ _ => rfl, rfl, rfl⟩

theorem setKeepTime (k : Bool) (s : State) : SynKeeps s { s with keepTime := k } := ⟨fun _ _ => rfl, rfl, rfl⟩

theorem raise (code sev unit : Nat) (ps : List Word) (s : State) : SynKeeps s (raise code sev unit ps s) :=
  of_quiet (Quiet.raise (by decide) code sev unit ps s)

theorem keepSync (s : State) : SynKeeps s (keepSync s) := ite (refl s) ((setKeepTime _ s).trans (raise _ _ _ _ _))

theorem suspendRuns (ns : List Nat) (s : State) : SynKeeps s (suspendRuns ns s) := by
  induction ns generalizing s with
  | nil => exact refl s
  | cons n ns ih =>
    unfold Machine.suspendRuns
    refine trans ?_ (ih _)
    split
    · exact ite (refl s) (setFe n _ s)
    · exact refl s

/-- A change of state writes STATE, and besides that only what events write. -/
theorem smpSetState (v : Nat) (s : State) : SynKeeps (s.setF R.SYN_SMP_STATE 3 0 v) (smpSetState v s) :=
  (ite (suspendRuns _ _) (refl _)).trans (keepSync _)

theorem rf (h : SynKeeps s t) {o : Nat} (ho : evReg 2 o = false) (hi lo : Nat) : t.rf o hi lo = s.rf o hi lo := congrArg (fld · hi lo) (h.regs o ho)

theorem pllOf (h : SynKeeps s t) (u : Nat) : t.pllOf u = s.pllOf u := congrArg (tget (fun _ => PllSt.idle) · u) h.pll

end SynKeeps

theorem smpSetState_smpState {v : Nat} (s : State) (hv : v < 16) : (smpSetState v s).smpState = v :=
  ((SynKeeps.smpSetState v s).rf (by decide) 3 0).trans ((rf_setF_same s _ v (by decide) (by decide)).trans (Nat.mod_eq_of_lt hv))

theorem smpSetState_reg {v o : Nat} (s : State) (hev : evReg 2 o = false) (ho : o ≠ R.SYN_SMP_STATE) : (smpSetState v s).reg o = s.reg o :=
  ((SynKeeps.smpSetState v s).regs o hev).trans (reg_setReg_ne s _ ho)

theorem smpSetState_smp (v : Nat) (s : State) : (smpSetState v s).smp = s.smp := (SynKeeps.smpSetState v s).smp

theorem smpSetState_pllOf (v u : Nat) (s : State) : (smpSetState v s).pllOf u = s.pllOf u := (SynKeeps.smpSetState v s).pllOf u

theorem smpSetState_cycle (v : Nat) (s : State) : (smpSetState v s).cycle = s.cycle := (Frame.refl (q := true) s).smpSetState.clock.2.1

/-! ## Qualification (R108) and the beginning of an episode (R111) -/

theorem qualRestart_smp (s : State) : (qualRestart s).smp = { s.smp with qualN := nextWindow s.cycle } := by
  simp only [qualRestart, State.setF_eq, State.setReg_smp, State.setReg_cycle]

theorem qualRestart_pllOf (u : Nat) (s : State) : (qualRestart s).pllOf u = s.pllOf u := by
  simp only [State.pllOf, qualRestart, State.setF_eq, State.setReg_pll]

theorem qualRestart_reg_ne {o : Nat} (s : State) (hel : o ≠ R.SYN_QUAL_ELAPSED) (hstat : o ≠ R.SYN_REF_STAT) : (qualRestart s).reg o = s.reg o := by
  rw [qualRestart_reg, State.setF_eq, reg_setReg_ne _ _ hstat, reg_setReg_ne _ _ hel]

/-- The registers the beginning of an episode writes. -/
def epiRegs : List Nat := [R.SYN_EPI_START_SEC, R.SYN_EPI_START_FRAC, R.SYN_SMP_UNLOCK_CNT, R.SYN_SMP_STATUS]

theorem episodeBegin_confined (start : Dt) (startN : Nat) (refLost clkAbsent : Bool) (s : State) :
    Confined epiRegs s (episodeBegin start startN refLost clkAbsent s) :=
  let x : Episode := ⟨start, startN, (s.pllOf 8).last, refLost, clkAbsent, false⟩
  have h : Confined epiRegs s (s.setSmp { s.smp with epi := some x }) := (Confined.refl _ s).setSmp _
  (((h.setReg (by decide) _).setReg (by decide) _).cnt (by decide) 1).sticky (by decide) 0

theorem episodeBegin_smp (start : Dt) (startN : Nat) (refLost clkAbsent : Bool) (s : State) :
    (episodeBegin start startN refLost clkAbsent s).smp = { s.smp with epi := some ⟨start, startN, (s.pllOf 8).last, refLost, clkAbsent, false⟩ } := by
  simp only [episodeBegin, State.sticky_eq, State.cnt_eq, State.setDt, State.setReg_smp]

theorem episodeRefLost_confined (s : State) : Confined epiRegs s (episodeRefLost s) := by
  unfold episodeRefLost
  split
  · exact (Confined.refl _ s).same rfl
  · exact .ite (episodeBegin_confined _ _ _ _ s) (.refl _ s)

theorem episodeRefLost_opens {s : State} (hever : s.smp.everLocked = true) (hepi : s.smp.epi = none) :
    (episodeRefLost s).smp.epi = some ⟨s.dtAfter 1, s.cycle + 1, (s.pllOf 8).last, true, false, false⟩ := by
  simp only [episodeRefLost, hepi, hever, if_true, episodeBegin_smp]

theorem episodeRefLost_cycle (s : State) : (episodeRefLost s).cycle = s.cycle := (Frame.refl (q := true) s).episodeRefLost.clock.2.1

/-! ## The loop closes (R106, R107) -/

theorem smpPlan_cycle (s : State) : (smpPlan s).cycle = s.cycle := (Frame.refl (q := true) s).smpPlan.clock.2.1

/-- The state in which a closing of the loop changes STATE: a new plan, the comparisons counted anew, the DAC released. -/
def smpClosing (s : State) : State :=
  let t := (pllRestart 8 (smpPlan s)).setF R.SYN_SMP_HOLD 16 16 0
  t.setSmp { t.smp with closedN := t.cycle }

theorem smpClose_eq (v : Nat) (s : State) : smpClose v s = smpSetState v (smpClosing s) := rfl

theorem smpClosing_pllOf (s : State) : (smpClosing s).pllOf 8 = { (smpPlan s).pllOf 8 with good := 0, bad := 0 } := by
  rw [smpClosing, State.setSmp_pllOf, State.setF_eq, setReg_pllOf, pllRestart, State.setPll_pllOf_same]

theorem smpClosing_closedN (s : State) : (smpClosing s).smp.closedN = s.cycle := by
  rw [smpClosing, State.setSmp_smp, State.setF_eq, State.setReg_cycle]
  exact smpPlan_cycle s

theorem smpClosing_hold (s : State) : (smpClosing s).rf R.SYN_SMP_HOLD 16 16 = 0 := by
  rw [smpClosing, State.setSmp_rf, rf_setF_same _ _ _ (by decide) (by decide), Nat.zero_mod]

theorem smpClosing_div (s : State) : (smpClosing s).reg R.SYN_SMP_DIV = (smpPlan s).reg R.SYN_SMP_DIV := by
  rw [smpClosing, State.setSmp_reg, State.setF_eq, reg_setReg_ne _ _ (by decide)]
  rfl

theorem smpClose_shows {v : Nat} (s : State) (hv : v < 8) : (smpClose v s).smpState = v ∧ (smpClose v s).smp.closedN = s.cycle
    ∧ (smpClose v s).rf R.SYN_SMP_HOLD 16 16 = 0 ∧ (smpClose v s).reg R.SYN_SMP_DIV = (smpPlan s).reg R.SYN_SMP_DIV
    ∧ ((smpClose v s).pllOf 8).good = 0 ∧ ((smpClose v s).pllOf 8).bad = 0 := by
  rw [smpClose_eq, smpSetState_pllOf, smpClosing_pllOf, smpSetState_smp, State.rf, smpSetState_reg _ (by decide) (by decide),
    smpSetState_reg _ (by decide) (by decide)]
  exact ⟨smpSetState_smpState _ (by omega), smpClosing_closedN s, smpClosing_hold s, smpClosing_div s, rfl, rfl⟩

end Sys2Proof.Machine
end

section
/-! The sample synthesiser's enable and the reference (R94, R100, R106 to R108): the writes of SYN_SMP_CTRL, loss, return and qualification. -/

namespace Sys2Proof.Machine

/-! ## Writes of SYN_SMP_CTRL (R94, R102, R106) -/

theorem regAt_synSmpCtrl : regAt R.SYN_SMP_CTRL = some ⟨.syn, 0, ⟨0x40, 0x0, 1, 0x0, 0x0, false, 0x3, 0x0, []⟩, 0⟩ := by decide

/-- A write of SYN_SMP_CTRL with one request bit acts by that bit. -/
theorem exec_synSmpCtrl_live {src : Src} {v : Word} {s : State} (hlive : s.srcLive src = true) (hboot : s.booted = true)
    (hone : fld v 1 0 ≠ 3) : actRow src R.SYN_SMP_CTRL v s = .next (synSmpCtrl v.toNat (s.onBus src)) := by
  have hbad : writeBad R.SYN_SMP_CTRL ⟨.syn, 0, ⟨0x40, 0x0, 1, 0x0, 0x0, false, 0x3, 0x0, []⟩, 0⟩ v s = false :=
    writeBad_of_no_rules hboot rfl (by simp [comboBad, hone])
  rw [actRow_acts hlive regAt_synSmpCtrl hbad (by decide)]
  simp [actWrite, synRegWrite]

theorem synSmpCtrl_enable {s : State} (hok : smpEnableStatus s = 0) : synSmpCtrl 1 s = smpEnable s := by
  simp [synSmpCtrl, hok]

theorem synSmpCtrl_reengage {s : State} (hok : smpReengageStatus s = 0) : synSmpCtrl 2 s = smpClose 6 s := by
  simp [synSmpCtrl, hok]

/-- An enable in OFF is accepted with a valid plan, where the reference is absent or within the range of its frequency. -/
theorem smpEnableStatus_ok {s : State} (hoff : s.smpState = 0) (hplan : smpPlanOk s = true)
    (href : s.refPresent = true → ¬ 6 * s.rf R.SYN_REF_FREQ 25 0 < 100 * ((1000 * s.rf R.SYN_REF_EST 15 0 : Int) - s.rf R.SYN_REF_FREQ 25 0).natAbs) :
    smpEnableStatus s = 0 := by
  simp only [smpEnableStatus, hoff, hplan, ne_eq, not_true, if_false, Bool.not_true, Bool.false_eq_true]
  rw [if_neg]
  simpa using href

theorem smpEnable_present {s : State} (hoff : s.smpState = 0) (href : s.refPresent = true) :
    smpEnable s = coexResume 1 (coexResume 0 (smpClose 1 s)) := by
  simp only [smpEnable, hoff, href, ne_eq, not_true, if_false, if_true]

theorem smpEnable_absent {s : State} (hoff : s.smpState = 0) (href : s.refPresent = false) :
    smpEnable s = coexResume 1 (coexResume 0 (qualRestart (smpSetState 4 (smpHold Config.centreCode.toNat s)))) := by
  simp only [smpEnable, hoff, href, ne_eq, not_true, if_false, Bool.false_eq_true]

theorem smpEnableStatus_onBus (s : State) (src : Src) : smpEnableStatus (s.onBus src) = smpEnableStatus s := by
  rw [onBus_eq]
  rfl

theorem smpReengageStatus_ok {s : State} (hqual : s.smpState = 5) (hplan : smpPlanOk s = true) : smpReengageStatus s = 0 := by
  simp [smpReengageStatus, hqual, hplan]

theorem smpReengageStatus_onBus (s : State) (src : Src) : smpReengageStatus (s.onBus src) = smpReengageStatus s := by
  rw [onBus_eq]
  rfl

@[simp] theorem onBus_refPresent (s : State) (src : Src) : (s.onBus src).refPresent = s.refPresent := by simp [State.refPresent]

theorem exec_synSmpCtrlEnable_ok {src : Src} {s : State} (hlive : s.srcLive src = true) (hboot : s.booted = true) (hok : smpEnableStatus s = 0) :
    exec (.synSmpCtrlEnable src) s = .next (smpEnable (s.onBus src)) := by
  rw [← synSmpCtrl_enable (by rwa [smpEnableStatus_onBus])]
  exact exec_synSmpCtrl_live hlive hboot (by decide)

theorem exec_synSmpCtrlReengage_ok {src : Src} {s : State} (hlive : s.srcLive src = true) (hboot : s.booted = true)
    (hok : smpReengageStatus s = 0) : exec (.synSmpCtrlReengage src) s = .next (smpClose 6 (s.onBus src)) := by
  rw [← synSmpCtrl_reengage (by rwa [smpReengageStatus_onBus])]
  exact exec_synSmpCtrl_live hlive hboot (by decide)

/-! ## The reference is lost (R100, R106, R107) -/

/-- The state in which a loss of the reference meets the loop: the loss shown and counted. -/
def refLostShown (gross : Bool) (est : BitVec 16) (s : State) : State :=
  let t := (s.setReg R.SYN_REF_STAT (wd (b2n gross * 8 + 2))).setReg R.SYN_REF_EST (wd est.toNat)
  ((t.cnt R.SYN_REF_LOSS_CNT).sticky R.SYN_SMP_STATUS 1).setReg R.SYN_QUAL_ELAPSED 0

/-- A running loop goes to COAST, and its qualification starts again. -/
def refLostCoasting (gross : Bool) (est : BitVec 16) (s : State) : State :=
  qualRestart (smpSetState 4 (episodeRefLost (smpHoldBack (refLostShown gross est s))))

theorem exec_referenceLost_running {gross : Bool} {est : BitVec 16} {s : State} (href : s.refPresent = true) (hrun : s.smpState ∈ [1, 2, 3, 6])
    (hgross : gross = true → s.refGross est.toNat = true) :
    exec (.referenceLost gross est) s = .next (raise 0x202 2 uRef [wd (b2n gross)] (refLostCoasting gross est s)) := by
  have hexec : exec (.referenceLost gross est) s = execReferenceLost gross est s := rfl
  have hcounts : (gross && !s.refGross est.toNat) = false := by cases gross <;> simp_all
  have hrun' : s.smpState = 1 ∨ s.smpState = 2 ∨ s.smpState = 3 ∨ s.smpState = 6 := by simpa using hrun
  simp only [hexec, execReferenceLost, hcounts, href, hrun', if_true, if_false, Bool.not_true, Bool.false_eq_true]
  rfl

theorem refLostShown_lossCnt (gross : Bool) (est : BitVec 16) (s : State) :
    (refLostShown gross est s).reg R.SYN_REF_LOSS_CNT = bump (s.reg R.SYN_REF_LOSS_CNT) 1 := by
  simp [refLostShown, State.sticky_eq, State.cnt_eq, reg_setReg]

theorem refLostShown_est (gross : Bool) (est : BitVec 16) (s : State) : (refLostShown gross est s).reg R.SYN_REF_EST = wd est.toNat := by
  simp [refLostShown, State.sticky_eq, State.cnt_eq, reg_setReg]

theorem refLostShown_keeps (gross : Bool) (est : BitVec 16) (s : State) : (refLostShown gross est s).smp = s.smp
    ∧ (refLostShown gross est s).pllOf 8 = s.pllOf 8 ∧ (refLostShown gross est s).cycle = s.cycle := by
  simp [refLostShown, State.sticky_eq, State.cnt_eq]

/-- Apart from what opening an episode and restarting qualification write, coasting shows the registers of the loss and the code held. -/
theorem refLostCoasting_reg {o : Nat} (gross : Bool) (est : BitVec 16) (s : State)
    (ho : o ∉ R.SYN_QUAL_ELAPSED :: R.SYN_REF_STAT :: R.SYN_SMP_STATE :: epiRegs) (hev : evReg 2 o = false) :
    (refLostCoasting gross est s).reg o = (smpHoldBack (refLostShown gross est s)).reg o := by
  simp only [List.mem_cons, not_or] at ho
  obtain ⟨hel, hstat, hstate, hepi⟩ := ho
  rw [refLostCoasting, qualRestart_reg_ne _ hel hstat, smpSetState_reg _ hev hstate]
  exact (episodeRefLost_confined _).regs _ (by simpa [epiRegs] using hepi)

theorem refLostCoasting_hold (gross : Bool) (est : BitVec 16) (s : State) :
    (refLostCoasting gross est s).reg R.SYN_SMP_HOLD = wd (65536 + (Config.vcoCode (s.cycle - 328)).toNat % 65536) := by
  rw [refLostCoasting_reg gross est s (by decide) (by decide), smpHoldBack, smpHold, reg_setReg_same, (refLostShown_keeps gross est s).2.2]

theorem refLostCoasting_reg_shown {o : Nat} (gross : Bool) (est : BitVec 16) (s : State)
    (ho : o ∉ R.SYN_SMP_HOLD :: R.SYN_QUAL_ELAPSED :: R.SYN_REF_STAT :: R.SYN_SMP_STATE :: epiRegs) (hev : evReg 2 o = false) :
    (refLostCoasting gross est s).reg o = (refLostShown gross est s).reg o := by
  rw [List.mem_cons, not_or] at ho
  obtain ⟨hhold, hrest⟩ := ho
  rw [refLostCoasting_reg gross est s hrest hev, smpHoldBack, smpHold, reg_setReg_ne _ _ hhold]

theorem refLostCoasting_elapsed (gross : Bool) (est : BitVec 16) (s : State) : (refLostCoasting gross est s).reg R.SYN_QUAL_ELAPSED = 0 := by
  rw [refLostCoasting, qualRestart_elapsed]

theorem refLostCoasting_smpState (gross : Bool) (est : BitVec 16) (s : State) : (refLostCoasting gross est s).smpState = 4 := by
  rw [State.smpState, State.rf, refLostCoasting, qualRestart_reg_ne _ (by decide) (by decide)]
  exact smpSetState_smpState _ (by decide)

theorem refLostCoasting_smp (gross : Bool) (est : BitVec 16) (s : State) : (refLostCoasting gross est s).smp
    = { (episodeRefLost (smpHoldBack (refLostShown gross est s))).smp with qualN := nextWindow s.cycle } := by
  obtain ⟨-, -, hcycle⟩ := refLostShown_keeps gross est s
  rw [refLostCoasting, qualRestart_smp, smpSetState_smp, smpSetState_cycle, episodeRefLost_cycle, smpHoldBack, smpHold, State.setReg_cycle, hcycle]

theorem refLostCoasting_opens {gross : Bool} {est : BitVec 16} {s : State} (hever : s.smp.everLocked = true) (hepi : s.smp.epi = none) :
    (refLostCoasting gross est s).smp.epi = some ⟨s.dtAfter 1, s.cycle + 1, (s.pllOf 8).last, true, false, false⟩ := by
  obtain ⟨hsmp, hpll, hcycle⟩ := refLostShown_keeps gross est s
  have hheld : (smpHoldBack (refLostShown gross est s)).smp = s.smp := by
    rw [smpHoldBack, smpHold, State.setReg_smp, hsmp]
  rw [refLostCoasting_smp]
  dsimp only
  rw [episodeRefLost_opens (by rwa [hheld]) (by rwa [hheld]), smpHoldBack, smpHold, setReg_pllOf, hpll, State.setReg_cycle, hcycle, State.dtAfter,
    State.setReg_cycle, hcycle]
  rfl

/-! ## The reference returns, and is qualified (R100, R108) -/

theorem exec_referenceReturn_absent {est : BitVec 16} {s : State} (href : s.refPresent = false) : exec (.referenceReturn est) s
    = if s.refGross est.toNat then .next (s.setReg R.SYN_REF_EST (wd est.toNat))
      else .next (qualRestart ((s.setReg R.SYN_REF_EST (wd est.toNat)).setReg R.SYN_REF_STAT 1)) := by
  have hexec : exec (.referenceReturn est) s = execReferenceReturn est s := rfl
  have hstill : (s.setReg R.SYN_REF_EST (wd est.toNat)).refPresent = false := by
    rw [State.refPresent, reg_setReg_ne _ _ (by decide)]
    exact href
  have hgross : (s.setReg R.SYN_REF_EST (wd est.toNat)).refGross est.toNat = s.refGross est.toNat := by
    rw [State.refGross, State.rf, reg_setReg_ne _ _ (by decide)]
    rfl
  simp only [hexec, execReferenceReturn, hstill, hgross, Bool.false_or]

/-- A window that has ended in COAST with the reference present. -/
structure WindowDone (s : State) : Prop where
  coast : s.smpState = 4
  present : s.refPresent = true
  clock : s.fsOn = true
  grid : s.cycle % 1636800 = 0
  whole : s.smp.qualN + 1636800 ≤ s.cycle

theorem exec_qualWindowEnd_beyond {offset : BitVec 36} {s : State} (h : WindowDone s)
    (hofs : s.rf R.SYN_QUAL_CFG 27 12 * 1099511627776 < offset.toInt.natAbs * 100000000) :
    exec (.qualWindowEnd offset) s = .next (qualRestart (s.setReg R.SYN_REF_OFS offset)) := by
  have hexec : exec (.qualWindowEnd offset) s = execQualWindowEnd offset s := rfl
  have htol : (s.setReg R.SYN_REF_OFS offset).rf R.SYN_QUAL_CFG 27 12 = s.rf R.SYN_QUAL_CFG 27 12 := by
    rw [State.rf, reg_setReg_ne _ _ (by decide), State.rf]
  rw [hexec, execQualWindowEnd, if_neg (by simp [h.coast, h.present, h.clock, h.grid, h.whole])]
  simp only [htol, hofs, if_true]

theorem exec_qualWindowEnd_counts {offset : BitVec 36} {s : State} (h : WindowDone s)
    (hofs : offset.toInt.natAbs * 100000000 ≤ s.rf R.SYN_QUAL_CFG 27 12 * 1099511627776)
    (hmore : s.rf R.SYN_QUAL_ELAPSED 11 0 + 1 < s.rf R.SYN_QUAL_CFG 11 0) : exec (.qualWindowEnd offset) s
      = .next ((s.setReg R.SYN_REF_OFS offset).setReg R.SYN_QUAL_ELAPSED (wd (s.rf R.SYN_QUAL_ELAPSED 11 0 + 1))) := by
  have hexec : exec (.qualWindowEnd offset) s = execQualWindowEnd offset s := rfl
  have hrf {o : Nat} (ho : o ≠ R.SYN_REF_OFS) (hi lo : Nat) : (s.setReg R.SYN_REF_OFS offset).rf o hi lo = s.rf o hi lo := by
    rw [State.rf, reg_setReg_ne _ _ ho, State.rf]
  have hneeded (w : Word) : ((s.setReg R.SYN_REF_OFS offset).setReg R.SYN_QUAL_ELAPSED w).rf R.SYN_QUAL_CFG 11 0 = s.rf R.SYN_QUAL_CFG 11 0 := by
    rw [State.rf, reg_setReg_ne _ _ (by decide)]
    exact hrf (by decide) 11 0
  rw [hexec, execQualWindowEnd, if_neg (by simp [h.coast, h.present, h.clock, h.grid, h.whole])]
  simp only [hrf (show R.SYN_QUAL_CFG ≠ R.SYN_REF_OFS by decide), hrf (show R.SYN_QUAL_ELAPSED ≠ R.SYN_REF_OFS by decide),
    Nat.not_lt.mpr hofs, hneeded, hmore, if_true, if_false]

/-- Settles O26: a request acts by its bit; a change of STATE leaves the registers of the loss, the code held and the episode as they were set
before it; return and windows are the branches of their rows. -/
theorem sampleSynthesiserFollowsReference : Obligations.SampleSynthesiserFollowsReference := by
  unfold Obligations.SampleSynthesiserFollowsReference
  intro s
  refine ⟨?enable, ?reengage, fun v _ hv _ _ => smpClose_shows s hv, ?lost, ?back, ?window⟩
  case enable =>
    intro src hlive hboot hoff hplan
    refine ⟨fun href hfreq => ?_, fun href => ?_⟩
    · rw [exec_synSmpCtrlEnable_ok hlive hboot (smpEnableStatus_ok hoff hplan fun _ => hfreq), smpEnable_present (by simpa) (by simpa)]
    · rw [exec_synSmpCtrlEnable_ok hlive hboot (smpEnableStatus_ok hoff hplan (by simp [href])), smpEnable_absent (by simpa) (by simpa)]
  case reengage =>
    exact fun src hlive hboot hqual hplan => exec_synSmpCtrlReengage_ok hlive hboot (smpReengageStatus_ok hqual hplan)
  case lost =>
    intro gross est href hrun hgross
    refine ⟨_, exec_referenceLost_running href hrun hgross, refLostCoasting_smpState gross est s, refLostCoasting_hold gross est s, ?_,
      refLostCoasting_elapsed gross est s, ?_, ?_, fun hever hepi => refLostCoasting_opens hever hepi⟩
    · rw [refLostCoasting_reg_shown gross est s (by decide) (by decide), refLostShown_est]
    · rw [refLostCoasting_reg_shown gross est s (by decide) (by decide), refLostShown_lossCnt]
    · rw [refLostCoasting_smp]
  case back =>
    intro est href
    exact ⟨fun hnear => by rw [exec_referenceReturn_absent href, hnear, if_neg Bool.false_ne_true],
      fun hgross => by rw [exec_referenceReturn_absent href, if_pos hgross]⟩
  case window =>
    intro offset hcoast href hon hgrid hwhole
    exact ⟨exec_qualWindowEnd_beyond ⟨hcoast, href, hon, hgrid, hwhole⟩, exec_qualWindowEnd_counts ⟨hcoast, href, hon, hgrid, hwhole⟩⟩

end Sys2Proof.Machine
end

section
/-! Locks, losses, time-outs, declared discontinuities and absences of the sample clock (R105, R106, R111 to R116): each is its due branch. -/

namespace Sys2Proof.Machine

/-! ## Locks (R105, R106, R111, R116) -/

theorem exec_synthLocked_fewer {w : Fin 9} {slip : BitVec 32} {s : State} (hfew : (s.pllOf w.val).good < s.lockN w.val) :
    exec (.synthLocked w slip) s = .next s := by
  have hexec : exec (.synthLocked w slip) s = execSynthLocked w slip s := rfl
  simp [hexec, execSynthLocked, hfew]

theorem exec_synthLocked_sample {slip : BitVec 32} {s : State} (hon : s.fsOn = true) (hmade : s.lockN 8 ≤ (s.pllOf 8).good)
    (hst : s.smpState ∈ [1, 3, 6]) :
    exec (.synthLocked 8 slip) s = .next (episodeEnd (s.pllOf 8).first slip.toInt (smpLock s)) := by
  have hexec : exec (.synthLocked 8 slip) s = execSynthLocked 8 slip s := rfl
  have hst' : s.smpState = 1 ∨ s.smpState = 3 ∨ s.smpState = 6 := by simpa using hst
  simp [hexec, execSynthLocked, hon, Nat.not_lt.mpr hmade, hst']

theorem exec_synthLocked_lo {w : Fin 9} {slip : BitVec 32} {s : State} (hon : s.fsOn = true) (hmade : s.lockN w.val ≤ (s.pllOf w.val).good)
    (hw : w.val < 8) : exec (.synthLocked w slip) s = .next (loLock w.val s) := by
  have hexec : exec (.synthLocked w slip) s = execSynthLocked w slip s := rfl
  simp only [hexec, execSynthLocked, hon, Nat.not_lt.mpr hmade, hw, Bool.not_true, decide_false, Bool.or_self, Bool.false_eq_true, if_false, if_true]

theorem loLock_searching {u : Nat} {s : State} (hst : s.loState u = 1 ∨ s.loState u = 3) : loLock u s
    = feTryStart (u % 4) ((s.setF (R.LO_STATE u) 3 0 2).setFe (u % 4)
        (if u < 4 then { s.fe (u % 4) with loGap := false } else { s.fe (u % 4) with injGap := false })) := by
  rw [loLock, if_neg (by omega)]
  rfl

/-! ## Losses (R105, R111, R116) -/

theorem exec_synthLockLost_fewer {w : Fin 9} {s : State} (hfew : (s.pllOf w.val).bad < s.lossK w.val) : exec (.synthLockLost w) s = .next s := by
  have hexec : exec (.synthLockLost w) s = execSynthLockLost w s := rfl
  simp [hexec, execSynthLockLost, hfew]

theorem exec_synthLockLost_lo {w : Fin 9} {s : State} (hon : s.fsOn = true) (hmade : s.lossK w.val ≤ (s.pllOf w.val).bad) (hw : w.val < 8)
    (hst : s.loState w.val = 2 ∨ s.loState w.val = 4) : exec (.synthLockLost w) s = .next (loLoss w.val s) := by
  have hexec : exec (.synthLockLost w) s = execSynthLockLost w s := rfl
  simp only [hexec, execSynthLockLost, hon, Nat.not_lt.mpr hmade, hw, hst, Bool.not_true, decide_false, Bool.or_self, Bool.false_eq_true, if_false,
    if_true]

/-- The sample synthesiser in UNLOCKED, an episode begun from the next sample cycle. -/
def smpUnlocked (s : State) : State := smpSetState 3 (pllRestart 8 (episodeBegin (s.dtAfter 1) (s.cycle + 1) false false s))

theorem exec_synthLockLost_sample {s : State} (hon : s.fsOn = true) (hmade : s.lossK 8 ≤ (s.pllOf 8).bad) (hst : s.smpState = 2)
    (href : s.refPresent = true) :
    exec (.synthLockLost 8) s = .next (raise 0x201 2 uSmp [wdI (divRound ((smpUnlocked s).pllOf 8).last 256)] (smpUnlocked s)) := by
  have hexec : exec (.synthLockLost 8) s = execSynthLockLost 8 s := rfl
  rw [hexec, execSynthLockLost, if_neg (by simp [hon, hmade]), if_neg (by decide), if_neg (by simp [hst, href])]
  rfl

/-! ## A loop that does not lock, and a long episode (R106, R113) -/

theorem exec_lockTimeout_late {s : State} (hon : s.fsOn = true) (href : s.refPresent = true) (hst : s.smpState = 1 ∨ s.smpState = 6)
    (hlate : s.smp.closedN + 16368000 + ceilDiv (s.rf R.SYN_SMP_LOCK 31 16 * s.rf R.SYN_SMP_DIV 11 0 * 163680000) (max 1 (s.rf R.SYN_REF_FREQ 25 0))
      ≤ s.cycle) : exec .lockTimeout s = .next (if s.smpState = 1
        then raise 0x20D 2 uSmp [wdI (divRound (s.pllOf 8).last 256)] (qualRestart (smpSetState 4 (smpHold Config.centreCode.toNat s)))
        else qualRestart (smpSetState 4 (smpHold (Config.vcoCode (s.cycle - 328)).toNat s))) := by
  have hexec : exec .lockTimeout s = execLockTimeout s := rfl
  have hlast : ((qualRestart (smpSetState 4 (smpHold Config.centreCode.toNat s))).pllOf 8).last = (s.pllOf 8).last := by
    rw [qualRestart_pllOf, smpSetState_pllOf, smpHold, setReg_pllOf]
  rw [hexec, execLockTimeout, if_neg (by simpa [hon, href, hlate] using hst.resolve_left), ← hlast]
  split <;> rfl

theorem exec_discDeclared_long {x : Episode} {s : State} (hepi : s.smp.epi = some x) (hnew : x.declared = false)
    (hlong : x.startN + 16368000 ≤ s.cycle) : exec .discDeclared s = .next (raise 0x205 2 uSmp [dtSec x.start]
      (State.sticky { s with smp := { s.smp with epi := some { x with declared := true } } } R.SYN_SMP_STATUS 4)) := by
  have hexec : exec .discDeclared s = execDiscDeclared s := rfl
  simp [hexec, execDiscDeclared, hepi, hnew, Nat.not_lt.mpr hlong]

/-! ## The sample clock (R94, R115) -/

theorem coexAbsent_smp (k : Nat) (s : State) : (coexAbsent k s).smp = s.smp := by
  unfold coexAbsent
  split <;> rfl

/-- With no episode in progress an absence in a state other than LOCKED begins none. -/
theorem exec_sampleClockAbsent_unlocked {s : State} (hon : s.fsOn = true) (hst : s.smpState ≠ 2) (hepi : s.smp.epi = none) :
    exec .sampleClockAbsent s = .next (coexAbsent 1 (coexAbsent 0 (raise 0x206 4 uSmp [dtSec s.dt]
      { (s.cnt R.SYN_CLK_ABS_CNT).sticky R.SYN_SMP_STATUS 5 with smp := { s.smp with absent := true } }))) := by
  have hexec : exec .sampleClockAbsent s = execSampleClockAbsent s := rfl
  rw [hexec, execSampleClockAbsent, if_neg (by simp [hon])]
  extract_lets st t _ v w _ u
  have hnone : w.smp.epi = none := by
    rw [coexAbsent_smp, coexAbsent_smp, (SynKeeps.raise _ _ _ _ _).smp]
    exact hepi
  have hsame : u = w := by
    unfold u
    split
    next hsome => cases hnone.symm.trans hsome
    · rfl
  rw [if_pos hst, hsame]
  rfl

theorem exec_sampleClockReturned_absent {a : State} (cycles : BitVec 36) (habs : a.smp.absent = true) :
    exec (.sampleClockReturned cycles) a = .next (raise 0x207 1 uSmp [cycles] (coexResume 1 (coexResume 0
      (tpReturned 3 (tpReturned 2 (tpReturned 1 (tpReturned 0 { a with smp := { a.smp with absent := false } }))))))) := by
  have hexec : exec (.sampleClockReturned cycles) a = execSampleClockReturned cycles a := rfl
  rw [hexec, execSampleClockReturned, habs]
  rfl

/-- Settles O27: a run of comparisons that is short changes nothing; each other row is its due branch, and a change of STATE and the pass-through of
coexistence leave the comparisons and the record of the sample synthesiser alone. -/
theorem synthesiserLocksAndLosses : Obligations.SynthesiserLocksAndLosses := by
  unfold Obligations.SynthesiserLocksAndLosses
  intro s hon
  refine ⟨?locked, ?lostSample, ?lost, ?timeout, ?declared, ?absent, ?returned⟩
  case locked =>
    refine fun slip => ⟨exec_synthLocked_sample hon, fun w => ⟨exec_synthLocked_fewer, fun hmade hw hst => ?_⟩⟩
    rw [exec_synthLocked_lo hon hmade hw, loLock_searching hst]
  case lostSample =>
    exact fun hmade hst href => ⟨smpUnlocked s, rfl, exec_synthLockLost_sample hon hmade hst href⟩
  case lost => exact fun w => ⟨exec_synthLockLost_fewer, exec_synthLockLost_lo hon⟩
  case timeout =>
    rintro n href rfl hst hlate
    exact exec_lockTimeout_late hon href hst hlate
  case declared => exact fun x => exec_discDeclared_long
  case absent => exact exec_sampleClockAbsent_unlocked hon
  case returned => exact fun cycles a => exec_sampleClockReturned_absent cycles

end Sys2Proof.Machine
end

section
/-! The end of an episode (R111, R112, R114): what it records, and the rule of the discontinuity counter. -/

namespace Sys2Proof.Machine

/-! ## The state in which the event of the end is raised -/

/-- What the end of an episode records: its DT, its length, the step and what the episode included. -/
def episodeShown (info : Nat) (slip step : Int) (x : Episode) (s : State) : State :=
  let t := (s.setSmp { s.smp with epi := none }).setDt R.SYN_EPI_END_SEC R.SYN_EPI_END_FRAC s.dt
  ((t.setReg R.SYN_EPI_LEN (wd (s.cycle - x.startN))).setReg R.SYN_STEP (wdI step)).setReg R.SYN_STEP_INFO (wd (info * 4294967296 + bitsS 32 slip))

/-- The discontinuity counter advances where the episode is a discontinuity (R112). -/
def discCounted (disc : Bool) (s : State) : State :=
  if disc then s.setReg R.SYN_DISC_CNT (wd ((s.rf R.SYN_DISC_CNT 15 0 + 1) % 65536)) else s

/-- The end is kept with the counter and the step; one that lost the reference is kept for the solution too. -/
def episodeKept (step : Int) (x : Episode) (s : State) : State :=
  let t := s.setSmp { s.smp with ended := (s.cycle, s.rf R.SYN_DISC_CNT 15 0, step) :: s.smp.ended }
  if x.refLost then { t with sol := { t.sol with pfdPend := t.cycle :: t.sol.pfdPend } } else t

/-- All that the end of an episode writes before its event. -/
def episodeEnded (info : Nat) (disc : Bool) (slip step : Int) (x : Episode) (s : State) : State :=
  episodeKept step x (discCounted disc (episodeShown info slip step x s))

theorem episodeKept_reg (step : Int) (x : Episode) (s : State) (o : Nat) : (episodeKept step x s).reg o = s.reg o := by
  unfold episodeKept
  extract_lets t
  split <;> rfl

theorem episodeKept_epi (step : Int) (x : Episode) (s : State) : (episodeKept step x s).smp.epi = s.smp.epi := by
  unfold episodeKept
  extract_lets t
  split <;> rfl

theorem discCounted_reg_ne {o : Nat} (disc : Bool) (s : State) (ho : o ≠ R.SYN_DISC_CNT) : (discCounted disc s).reg o = s.reg o := by
  unfold discCounted
  split
  · exact reg_setReg_ne s _ ho
  · rfl

theorem discCounted_smp (disc : Bool) (s : State) : (discCounted disc s).smp = s.smp := by
  unfold discCounted
  split <;> rfl

/-- Below its greatest value the counter advances by one exactly at a discontinuity. -/
theorem discCounted_cnt (disc : Bool) {s : State} (h : s.rf R.SYN_DISC_CNT 15 0 < 65535) :
    (discCounted disc s).rf R.SYN_DISC_CNT 15 0 = s.rf R.SYN_DISC_CNT 15 0 + b2n disc := by
  unfold discCounted
  cases disc with
  | false => rfl
  | true =>
    rw [if_pos rfl, State.rf, reg_setReg_same, fld, wd, BitVec.toNat_ofNat]
    have hmod : (s.rf R.SYN_DISC_CNT 15 0 + 1) % 65536 % 2 ^ 36 = s.rf R.SYN_DISC_CNT 15 0 + 1 := by omega
    rw [hmod, Nat.shiftRight_zero, Nat.mod_eq_of_lt (by omega)]
    rfl

theorem episodeShown_epi (info : Nat) (slip step : Int) (x : Episode) (s : State) : (episodeShown info slip step x s).smp.epi = none := by
  simp only [episodeShown, State.setDt, State.setReg_smp, State.setSmp_smp]

theorem episodeShown_reg (info : Nat) (slip step : Int) (x : Episode) (s : State) (o : Nat) : (episodeShown info slip step x s).reg o
    = if o = R.SYN_STEP_INFO then wd (info * 4294967296 + bitsS 32 slip) else if o = R.SYN_STEP then wdI step
      else if o = R.SYN_EPI_LEN then wd (s.cycle - x.startN) else if o = R.SYN_EPI_END_FRAC then dtFrac s.dt
      else if o = R.SYN_EPI_END_SEC then dtSec s.dt else s.reg o := by
  simp only [episodeShown, State.setDt, reg_setReg, State.setSmp_reg]

section
variable (info : Nat) (disc : Bool) (slip step : Int) (x : Episode) (s : State)

theorem episodeEnded_epi : (episodeEnded info disc slip step x s).smp.epi = none := by
  rw [episodeEnded, episodeKept_epi, discCounted_smp, episodeShown_epi]

theorem episodeEnded_reg {o : Nat} (ho : o ≠ R.SYN_DISC_CNT) :
    (episodeEnded info disc slip step x s).reg o = (episodeShown info slip step x s).reg o := by
  rw [episodeEnded, episodeKept_reg, discCounted_reg_ne _ _ ho]

theorem episodeEnded_discCnt {s : State} (h : s.rf R.SYN_DISC_CNT 15 0 < 65535) :
    (episodeEnded info disc slip step x s).rf R.SYN_DISC_CNT 15 0 = s.rf R.SYN_DISC_CNT 15 0 + b2n disc := by
  have hbefore : (episodeShown info slip step x s).rf R.SYN_DISC_CNT 15 0 = s.rf R.SYN_DISC_CNT 15 0 := by
    rw [State.rf, episodeShown_reg]
    rfl
  have hafter := discCounted_cnt disc (s := episodeShown info slip step x s) (by rwa [hbefore])
  rw [State.rf, episodeEnded, episodeKept_reg, ← hbefore, ← hafter, State.rf]

end

/-! ## The step and the rule of the counter -/

/-- The cycle slip that counts: none across a loss of the reference (R111). -/
def episodeSlip (slip : Int) (x : Episode) : Int := if x.refLost then 0 else slip

/-- The reference frequency the step is reckoned with. -/
def refHz (s : State) : Int := max 1 (s.rf R.SYN_REF_FREQ 25 0)

/-- The step times 256 f (R111). -/
def episodeNum (eAfter k : Int) (x : Episode) (s : State) : Int :=
  (eAfter - x.eBefore) * refHz s + 256 * k * (68719476736 * s.rf R.SYN_SMP_DIV 11 0)

/-- Was the episode longer than 16,368,000 sample cycles? -/
def episodeLong (x : Episode) (s : State) : Bool := decide (16368000 < s.cycle - x.startN)

/-- Is the episode a discontinuity (R112)? -/
def episodeDisc (k num : Int) (x : Episode) (s : State) : Bool :=
  x.refLost || x.clkAbsent || episodeLong x s || k != 0 || decide (68719476736 * 256 * refHz s ≤ num.natAbs * 10000000000)

/-- What the episode included, as event 0x204 shows it. -/
def episodeInfo (x : Episode) (s : State) : Nat := b2n x.refLost * 8 + b2n x.refLost * 4 + b2n (episodeLong x s) * 2 + b2n x.clkAbsent

theorem episodeInfo_eq (x : Episode) (s : State) : episodeInfo x s = b2n x.refLost * 12 + b2n (episodeLong x s) * 2 + b2n x.clkAbsent := by
  unfold episodeInfo
  omega

/-- The end of an episode with slip `k` and numerator `num`. -/
theorem episodeEnd_some {x : Episode} {s : State} (eAfter slip : Int) (hx : s.smp.epi = some x) {k num step : Int} (hk : k = episodeSlip slip x)
    (hnum : num = episodeNum eAfter k x s) (hstep : step = divRound num (256 * refHz s)) : ∃ u,
    u = episodeEnded (episodeInfo x s) (episodeDisc k num x s) k step x s ∧ episodeEnd eAfter slip s
      = stepFeed step (raise 0x204 1 uSmp [wdI step, wdI k, wd (episodeInfo x s), u.reg R.SYN_DISC_CNT] u) := by
  refine ⟨_, rfl, ?_⟩
  subst hstep hnum hk
  unfold episodeEnd
  rw [hx]
  rfl

/-- Settles O28: the step, the rule and what the event says are named as the statement reckons them; of the registers recorded only the counter
depends on the rule. -/
theorem episodeEndRecordsStep : Obligations.EpisodeEndRecordsStep := by
  unfold Obligations.EpisodeEndRecordsStep
  intro eAfter slip x s hx hcnt f k num disc
  obtain ⟨u, hu, hend⟩ := episodeEnd_some eAfter slip hx (k := k) (num := num) rfl rfl rfl
  rw [episodeInfo_eq] at hend
  have hreg {o : Nat} (ho : o ≠ R.SYN_DISC_CNT) : u.reg o = (episodeShown (episodeInfo x s) k (divRound num (256 * f)) x s).reg o := by
    rw [hu]
    exact episodeEnded_reg _ _ _ _ x s ho
  refine ⟨u, hend, ?epi, ?step, ?len, ?sec, ?frac, ?cnt⟩
  case epi => rw [hu, episodeEnded_epi]
  case cnt =>
    rw [hu, episodeEnded_discCnt _ _ _ _ _ hcnt]
    rfl
  all_goals
    rw [hreg (by decide), episodeShown_reg]
    rfl

end Sys2Proof.Machine
end

section
/-! Ramps (R117 to R120, R122): the writes that arm and stop one, its start, the end of a segment and the end of a stopped profile. -/

namespace Sys2Proof.Machine

/-! ## What the writes read and leave of a ramp -/

@[simp] theorem setReg_rampOf (s : State) (o : Nat) (v : Word) (u : Nat) : (s.setReg o v).rampOf u = s.rampOf u := rfl
@[simp] theorem setRamp_rampOf_same (s : State) (u : Nat) (x : RampSt) : (s.setRamp u x).rampOf u = x := tget_tset_same _ _ _ _

@[simp] theorem onBus_rampOf (s : State) (src : Src) (u : Nat) : (s.onBus src).rampOf u = s.rampOf u := by
  rw [onBus_eq]
  rfl

@[simp] theorem onBus_cycle (s : State) (src : Src) : (s.onBus src).cycle = s.cycle := by rw [onBus_eq]

theorem rampOk_onBus (u : Nat) (s : State) (src : Src) : rampOk u (s.onBus src) = rampOk u s := by
  rw [onBus_eq]
  rfl

theorem feState_ne_loRampFrac (n u : Nat) : R.FE_STATE n ≠ R.LO_RAMP_FRAC u := by
  unfold R.FE_STATE R.LO_RAMP_FRAC
  omega

theorem loRampSec_ne_loRampFrac (u : Nat) : R.LO_RAMP_SEC u ≠ R.LO_RAMP_FRAC u := by
  unfold R.LO_RAMP_SEC R.LO_RAMP_FRAC
  omega

/-! ## RAMP_FRAC and RAMP_STOP (R118, R119, R122) -/

theorem regAt_loRampFrac : ∀ u : Fin 8, regAt (R.LO_RAMP_FRAC u) = some ⟨.lo, u, ⟨0x70, 0x0, 1, 0xfffffffff, 0x0, false, 0x0, 0x0, []⟩, 0⟩ := by
  decide

theorem regAt_loCtrl : ∀ u : Fin 8, regAt (R.LO_CTRL u) = some ⟨.lo, u, ⟨0x0, 0x0, 1, 0x0, 0x0, false, 0x1, 0x0, []⟩, 0⟩ := by decide

/-- A write to RAMP_FRAC in RUN arms a valid profile at its DT. -/
theorem rampFracWrite_run {u : Nat} {v : Word} {s : State} (hlo : u < 4) (hok : rampOk u s = true) (hrun : s.feState u = feRun)
    (hidle : (s.rampOf u).active = false) :
    rampFracWrite u v s = (rampArm u (dtOf (s.reg (R.LO_RAMP_SEC u)) v) (s.setReg (R.LO_RAMP_FRAC u) v), true) := by
  have hrun' : (s.setReg (R.LO_RAMP_FRAC u) v).feState u = feRun := by
    rw [State.feState, State.rf, reg_setReg_ne _ _ (feState_ne_loRampFrac u u)]
    exact hrun
  have hsec : (s.setReg (R.LO_RAMP_FRAC u) v).reg (R.LO_RAMP_SEC u) = s.reg (R.LO_RAMP_SEC u) :=
    reg_setReg_ne _ _ (loRampSec_ne_loRampFrac u)
  simp [rampFracWrite, Nat.not_le.mpr hlo, hok, hrun', hidle, hsec]

theorem exec_rampFracWrite_run {src : Src} {u : Fin 8} {v : Word} {s : State} (hlive : s.srcLive src = true) (hboot : s.booted = true)
    (hlo : u.val < 4) (hok : rampOk u s = true) (hrun : s.feState u = feRun) (hidle : (s.rampOf u).active = false) :
    exec (.rampFracWrite src u v) s
      = .next (rampArm u (dtOf (s.reg (R.LO_RAMP_SEC u)) v) ((s.onBus src).setReg (R.LO_RAMP_FRAC u) v)) := by
  have hexec : exec (.rampFracWrite src u v) s = actRow src (R.LO_RAMP_FRAC u) v s := rfl
  have hbad : writeBad (R.LO_RAMP_FRAC u) ⟨.lo, u, ⟨0x70, 0x0, 1, 0xfffffffff, 0x0, false, 0x0, 0x0, []⟩, 0⟩ v s = false :=
    writeBad_of_no_rules hboot rfl (by simp [comboBad, hok])
  have hall (old : Word) : wMerge ⟨0x70, 0x0, 1, 0xfffffffff, 0x0, false, 0x0, 0x0, []⟩ old v = v := wMerge_all old v rfl rfl
  have harm := rampFracWrite_run (v := v) (s := s.onBus src) hlo (by rwa [rampOk_onBus]) (by rwa [onBus_feState]) (by rwa [onBus_rampOf])
  rw [hexec, actRow_acts hlive (regAt_loRampFrac u) hbad (by simp)]
  simp [actWrite, synRegWrite, hall, harm, Nat.not_le.mpr hlo, R.LO_RAMP_FRAC, R.LO_CTRL, R.LO_CFG, R.LO_LOCK]

/-- A stop fixes the next update point of a repeating profile as its end. -/
theorem loCtrl_stop {u : Nat} {s : State} (hlo : u < 4) (hact : (s.rampOf u).active = true) (hgoes : (s.rampOf u).stopN = none)
    (hrepeat : s.rf (R.LO_RAMP_CFG u) 5 4 ≠ 0) : loCtrl u 1 s = s.setRamp u { s.rampOf u with
      stopN := some ((s.rampOf u).segN + ceilDiv (s.cycle - (s.rampOf u).segN) 160 * 160) } := by
  simp [loCtrl, hlo, hact, hgoes, hrepeat]

theorem exec_rampStop_repeating {src : Src} {u : Fin 8} {s : State} (hlive : s.srcLive src = true) (hboot : s.booted = true) (hlo : u.val < 4)
    (hact : (s.rampOf u).active = true) (hgoes : (s.rampOf u).stopN = none) (hrepeat : s.rf (R.LO_RAMP_CFG u) 5 4 ≠ 0) :
    exec (.rampStop src u) s = .next ((s.onBus src).setRamp u { s.rampOf u with
      stopN := some ((s.rampOf u).segN + ceilDiv (s.cycle - (s.rampOf u).segN) 160 * 160) }) := by
  have hexec : exec (.rampStop src u) s = actRow src (R.LO_CTRL u) 1 s := rfl
  have hbad : writeBad (R.LO_CTRL u) ⟨.lo, u, ⟨0x0, 0x0, 1, 0x0, 0x0, false, 0x1, 0x0, []⟩, 0⟩ 1 s = false :=
    writeBad_of_no_rules hboot rfl (by simp [comboBad, R.LO_CTRL, R.LO_RAMP_FRAC])
  have hstop := loCtrl_stop (s := s.onBus src) hlo (by rwa [onBus_rampOf]) (by rwa [onBus_rampOf]) (by rwa [onBus_rf])
  rw [onBus_rampOf, onBus_cycle] at hstop
  rw [hexec, actRow_acts hlive (regAt_loCtrl u) hbad (by simp), ← hstop]
  simp [actWrite, synRegWrite]

/-! ## Arming and starting (R118) -/

/-- A profile whose DT has not passed is armed at that DT. -/
theorem rampArm_ahead {u : Nat} {d : Dt} {s : State} (hahead : later 72 s.dt d = false) :
    rampArm u d s = (s.setRamp u { s.rampOf u with armed := some d }).setF (R.LO_RAMP_STAT u) 1 1 1 := by
  simp only [rampArm, hahead, Bool.false_eq_true, if_false]

theorem rampArm_ahead_shows {u : Nat} {d : Dt} {s : State} (hahead : later 72 s.dt d = false) :
    ((rampArm u d s).rampOf u).armed = some d ∧ bit ((rampArm u d s).reg (R.LO_RAMP_STAT u)) 1 = true := by
  rw [rampArm_ahead hahead, State.setF_eq, setReg_rampOf, setRamp_rampOf_same, reg_setReg_same, bit_setFld _ _ (by decide) (by decide)]
  exact ⟨rfl, rfl⟩

theorem exec_rampStart_due {u : Fin 8} {d : Dt} {s : State} (hon : s.fsOn = true) (harmed : (s.rampOf u).armed = some d)
    (hdue : dtGe s.dt d = true) (hrun : u.val < 4 → s.feState u = feRun) :
    exec (.rampStart u) s = .next ((if u.val < 4 then feSetState u feSurvey else id) (raise 0x209 0 (uSynth u) [dtSec s.dt]
      (((s.setRamp u ⟨none, true, false, s.cycle, none⟩).setReg (R.LO_RAMP_STAT u) 1).setF (R.LO_STATE u) 3 0 4))) := by
  have hexec : exec (.rampStart u) s = execRampStart u s := rfl
  have hgoes : ¬ (u.val < 4 ∧ s.feState u ≠ feRun) := fun h => h.2 (hrun h.1)
  rw [hexec, execRampStart, harmed]
  simp only [hon, hdue, hgoes, Bool.not_true, Bool.or_self, Bool.false_eq_true, if_false]
  split <;> rfl

/-! ## Segments and the end of a profile (R117, R119) -/

/-- A stopped profile ends at its update point. -/
theorem rampTick_stopped {u c : Nat} {s : State} (hact : (s.rampOf u).active = true) (hstop : (s.rampOf u).stopN = some c) (hc : c ≤ s.cycle) :
    rampTick u s = rampEnd u (dtOfCycle c) s := by
  simp [rampTick, hact, hstop, hc]

theorem exec_rampSegmentEnd_stopped {u : Fin 8} {c : Nat} {s : State} (hstop : (s.rampOf u).stopN = some c) :
    exec (.rampSegmentEnd u) s = .next (rampTick u s) := by
  have hexec : exec (.rampSegmentEnd u) s = execRampSegmentEnd u s := rfl
  rw [hexec, execRampSegmentEnd, hstop]
  rfl

/-- A segment of a single profile that has run its ramp epochs. -/
structure SegmentDone (u : Fin 8) (endN : Nat) (s : State) : Prop where
  clock : s.fsOn = true
  active : (s.rampOf u).active = true
  goes : (s.rampOf u).stopN = none
  ends : endN = (s.rampOf u).segN + s.rf (R.LO_SEG u (s.rf (R.LO_RAMP_STAT u) 7 4)) 7 0 * 1636800
  past : endN ≤ s.cycle
  single : s.rf (R.LO_RAMP_CFG u) 5 4 = 0

section
variable {u : Fin 8} {endN : Nat} {s : State}

theorem exec_rampSegmentEnd_next (h : SegmentDone u endN s) (hmore : s.rf (R.LO_RAMP_STAT u) 7 4 < s.rf (R.LO_RAMP_CFG u) 3 0) :
    exec (.rampSegmentEnd u) s
      = .next ((s.setRamp u { s.rampOf u with segN := endN, back := false }).setF (R.LO_RAMP_STAT u) 7 4 (s.rf (R.LO_RAMP_STAT u) 7 4 + 1)) := by
  have hexec : exec (.rampSegmentEnd u) s = execRampSegmentEnd u s := rfl
  obtain ⟨hon, hact, hgoes, hends, hpast, hsingle⟩ := h
  have hd : (s.rampOf u).segN + fld (s.reg (R.LO_SEG u (s.rf (R.LO_RAMP_STAT u) 7 4))) 7 0 * 1636800 = endN := hends.symm
  simp [hexec, execRampSegmentEnd, segFields, hd, hon, hact, hgoes, hsingle, hmore, Nat.not_lt.mpr hpast]

theorem exec_rampSegmentEnd_last (h : SegmentDone u endN s) (hlast : s.rf (R.LO_RAMP_CFG u) 3 0 ≤ s.rf (R.LO_RAMP_STAT u) 7 4) (hlo : u.val < 4) :
    exec (.rampSegmentEnd u) s
      = .next (rampEnd u (dtOfCycle endN) (s.setF (R.LO_RAMP_STAT u) 23 8 (s.rf (R.LO_RAMP_STAT u) 23 8 + 1))) := by
  have hexec : exec (.rampSegmentEnd u) s = execRampSegmentEnd u s := rfl
  obtain ⟨hon, hact, hgoes, hends, hpast, hsingle⟩ := h
  have hd : (s.rampOf u).segN + fld (s.reg (R.LO_SEG u (s.rf (R.LO_RAMP_STAT u) 7 4))) 7 0 * 1636800 = endN := hends.symm
  simp [hexec, execRampSegmentEnd, segFields, hd, hon, hact, hgoes, hsingle, Nat.not_lt.mpr hlast, Nat.not_lt.mpr hpast, Nat.not_le.mpr hlo]

end

/-- Settles O29: the writes act in their registers' own functions, on a state in which only the link differs; the rows are their due branches. -/
theorem rampsRunTheirProfile : Obligations.RampsRunTheirProfile := by
  unfold Obligations.RampsRunTheirProfile
  refine ⟨fun src u v s hlive hboot hlo hok hrun hidle => exec_rampFracWrite_run hlive hboot hlo hok hrun hidle,
    fun u d s _ hahead => rampArm_ahead_shows hahead, fun u s hon => ⟨?start, ?segment, ?stop, ?stopped⟩⟩
  case start => exact fun d harmed hdue hrun => exec_rampStart_due hon harmed hdue hrun
  case segment =>
    intro endN hact hgoes hends hpast hsingle
    have hdone : SegmentDone u endN s := ⟨hon, hact, hgoes, hends, hpast, hsingle⟩
    exact ⟨exec_rampSegmentEnd_next hdone, exec_rampSegmentEnd_last hdone⟩
  case stop =>
    exact fun src hlive hboot hlo hact hgoes hrepeat => exec_rampStop_repeating hlive hboot hlo hact hgoes hrepeat
  case stopped =>
    intro c hact hstop hc
    have htick := rampTick_stopped hact hstop hc
    exact ⟨htick, by rw [exec_rampSegmentEnd_stopped hstop, htick]⟩

end Sys2Proof.Machine
end

section
/-! Registers of a channeliser and the records of the front ends while events are raised (R430), and a write to a channeliser's register (R147). -/

namespace Sys2Proof.Machine

set_option Elab.async false

/-! ## Events -/

/-- The registers of the channelisers lie apart from those that events and the entries of a ring write. -/
theorem evReg_of_chz {q o : Nat} (hq : q < 32) (hlo : 0x4000 ≤ o) (hhi : o < 0x5000) : evReg q o = false := by
  have hev : o ∉ evRegs := fun h => by
    have hapart : ∀ x ∈ evRegs, x < 0x4000 ∨ 0x5000 ≤ x := by decide
    have := hapart o h
    omega
  have hring (p : Nat) (hp : p < 32) : o ∉ ringRegs p := by
    simp only [ringRegs, R.RING_STATE, R.RING_PROD, R.RING_DROP_CNT, R.RING_STATUS, R.RING_OCC_MAX, R.HIF_VEC_CNT, R.HIF_VEC_LAT, List.mem_cons,
      List.not_mem_nil, or_false]
    omega
  have hbank : ∀ b < 16, ¬(o = R.BANK_STATE b ∨ o = R.BANK_STATUS b) := by
    intro b _
    unfold R.BANK_STATE R.BANK_STATUS
    omega
  simpa [evReg, hev, hring 2 (by decide), hring q hq] using hbank

theorem evReg_chz {q a : Nat} (hq : q < 32) (n : Fin 4) (hlo : 0x4000 ≤ a) (hhi : a < 0x4400) : evReg q (a + 0x400 * n) = false :=
  evReg_of_chz hq (by omega) (by omega)

theorem evReg_tap {q a : Nat} (hq : q < 32) (n : Fin 4) (t : Fin 16) (hlo : 0x4000 ≤ a) (hhi : a < 0x4128) : evReg q (a + 0x400 * n + 0x28 * t) = false :=
  evReg_of_chz hq (by omega) (by omega)

theorem raise_reg {o : Nat} (ho : evReg 2 o = false) (code sev unit : Nat) (ps : List Word) (s : State) : (raise code sev unit ps s).reg o = s.reg o :=
  (Quiet.raise (by decide) code sev unit ps s).2.1 o ho

theorem Quiet.fe {q : Nat} {s t : State} (h : Quiet q s t) (n : Nat) : t.fe n = s.fe n :=
  congrArg (tget (fun _ => RfSt.idle) · n) (congrArg State.fes h.1 :)

theorem raise_fe (code sev unit : Nat) (ps : List Word) (s : State) (n : Nat) : (raise code sev unit ps s).fe n = s.fe n :=
  (Quiet.raise (q := 2) (by decide) code sev unit ps s).fe n

theorem keepSync_reg {o : Nat} (ho : evReg 2 o = false) (s : State) : (keepSync s).reg o = s.reg o := (SynKeeps.keepSync s).regs o ho

theorem keepSync_fe (s : State) (n : Nat) : (keepSync s).fe n = s.fe n := by
  unfold keepSync
  extract_lets k
  split
  · rfl
  · exact raise_fe _ _ _ _ _ n

/-! ## A front end's record and its taps -/

@[simp] theorem State.setTap_tap_same (s : State) (n t : Nat) (x : TapSt) : (s.setTap n t x).tap n t = x := by
  rw [State.tap, State.setTap, State.setFe_fe_same]
  exact tget_tset_same _ _ _ _

@[simp] theorem State.setTap_feState (s : State) (n t : Nat) (x : TapSt) (m : Nat) : (s.setTap n t x).feState m = s.feState m := rfl

/-! ## Registers of one channeliser and of one tap -/

theorem tapReg_ne {a b n t : Nat} (h : a ≠ b) : a + 0x400 * n + 0x28 * t ≠ b + 0x400 * n + 0x28 * t := by omega

/-- The registers of the taps lie after the channeliser's own. -/
theorem tapReg_ne_chz {a b n t : Nat} (h : b < a) : a + 0x400 * n + 0x28 * t ≠ b + 0x400 * n := by omega

/-! ## Writes by a source (R147) -/

theorem regAt_chzCtrl : ∀ n : Fin 4, regAt (R.CHZ_CTRL n) = some ⟨.chz, n, ⟨0x0, 0x0, 1, 0x0, 0x0, false, 0x3, 0x0, []⟩, 0⟩ := by decide

theorem regAt_tapCfg : ∀ (n : Fin 4) (t : Fin 16),
    regAt (R.CHZ_TAP_CFG n t) = some ⟨.chz, n, ⟨0x100, 0x28, 16, 0xfde1, 0x0, false, 0x0, 0x0, []⟩, t⟩ := by
  decide +kernel

theorem regAt_tapFcw : ∀ (n : Fin 4) (t : Fin 16),
    regAt (R.CHZ_TAP_FCW n t) = some ⟨.chz, n, ⟨0x108, 0x28, 16, 0xfffffffff, 0x0, false, 0x0, 0x0, []⟩, t⟩ := by
  decide +kernel

/-- A write of CHZ_CTRL with one request bit acts by that bit. -/
theorem exec_chzCtrl_live {src : Src} {n : Fin 4} {v : Word} {s : State} (hlive : s.srcLive src = true) (hboot : s.booted = true)
    (hone : fld v 1 0 ≠ 3) : actRow src (R.CHZ_CTRL n) v s = .next (chzCtrl n v.toNat (s.onBus src)) := by
  have hbad : writeBad (R.CHZ_CTRL n) ⟨.chz, n, ⟨0x0, 0x0, 1, 0x0, 0x0, false, 0x3, 0x0, []⟩, 0⟩ v s = false :=
    writeBad_of_no_rules hboot rfl (by simp [comboBad, hone])
  rw [actRow_acts hlive (regAt_chzCtrl n) hbad (by simp)]
  simp [actWrite, chzRegWrite]

theorem chzRegWrite_tapCfg (n t : Nat) (row : RegRow) (v : Word) (s : State) (hrow : row.off = 0x100) :
    chzRegWrite (R.CHZ_TAP_CFG n t) ⟨.chz, n, row, t⟩ v s = tapWrite n t (wMerge row (s.reg (R.CHZ_TAP_CFG n t)) v) (s.reg (R.CHZ_TAP_FCW n t)) s := by
  have hctrl : R.CHZ_TAP_CFG n t ≠ R.CHZ_CTRL n := tapReg_ne_chz (by decide)
  have hstream : R.CHZ_TAP_CFG n t ≠ R.CHZ_STREAM_CFG n := tapReg_ne_chz (by decide)
  have hreplay : R.CHZ_TAP_CFG n t ≠ R.CHZ_REPLAY_CFG n := tapReg_ne_chz (by decide)
  simp only [chzRegWrite, hctrl, hstream, hreplay, hrow, if_true, if_false]

theorem chzRegWrite_tapFcw (n t : Nat) (row : RegRow) (v : Word) (s : State) (hrow : row.off = 0x108) :
    chzRegWrite (R.CHZ_TAP_FCW n t) ⟨.chz, n, row, t⟩ v s = tapWrite n t (s.reg (R.CHZ_TAP_CFG n t)) (wMerge row (s.reg (R.CHZ_TAP_FCW n t)) v) s := by
  have hctrl : R.CHZ_TAP_FCW n t ≠ R.CHZ_CTRL n := tapReg_ne_chz (by decide)
  have hstream : R.CHZ_TAP_FCW n t ≠ R.CHZ_STREAM_CFG n := tapReg_ne_chz (by decide)
  have hreplay : R.CHZ_TAP_FCW n t ≠ R.CHZ_REPLAY_CFG n := tapReg_ne_chz (by decide)
  have hoff : ¬ (0x108 : Nat) = 0x100 := by decide
  simp only [chzRegWrite, hctrl, hstream, hreplay, hrow, hoff, if_true, if_false]

end Sys2Proof.Machine
end

section
/-! Taps (R127 to R130): a write of a tap's configuration, what enabling a tap shows, and its start. -/

namespace Sys2Proof.Machine

set_option Elab.async false

/-! ## What is shown of a tap that is enabled -/

section
variable {n : Fin 4} {t : Fin 16} {o v : Nat}

theorem tapSetState_reg (s : State) (hev : evReg 2 o = false) (ho : o ≠ R.CHZ_TAP_STAT n t) : (tapSetState n t v s).reg o = s.reg o := by
  unfold tapSetState
  extract_lets old
  split
  · rfl
  · rw [raise_reg hev, State.setF_eq, reg_setReg_ne _ _ ho]

theorem tapSetState_tapState (s : State) (hv : v < 4) : (tapSetState n t v s).tapState n t = v := by
  unfold tapSetState
  extract_lets old
  split
  next hsame => exact hsame
  · have hshown := rf_setF_same s (R.CHZ_TAP_STAT n t) (hi := 19) (lo := 18) v (by decide) (by decide)
    rw [State.tapState, State.rf, raise_reg (evReg_tap (by decide) n t (by decide) (by decide))]
    exact hshown.trans (Nat.mod_eq_of_lt hv)

/-- A change of a tap's state leaves the units it takes. -/
theorem tapSetState_units (s : State) : (tapSetState n t v s).rf (R.CHZ_TAP_STAT n t) 17 13 = s.rf (R.CHZ_TAP_STAT n t) 17 13 := by
  unfold tapSetState
  extract_lets old
  split
  · rfl
  · rw [State.rf, raise_reg (evReg_tap (by decide) n t (by decide) (by decide)), State.setF_eq, reg_setReg_same,
      fld_setFld_ne _ _ (by decide) (by decide) (by decide), State.rf]

theorem chzSync_reg (s : State) (ho : o ≠ R.CHZ_BUDGET n) : (chzSync n s).reg o = s.reg o := reg_setReg_ne _ _ ho

theorem tapEnable_reg (s : State) (hev : evReg 2 o = false) (hstat : o ≠ R.CHZ_TAP_STAT n t) (hlevel : o ≠ R.CHZ_TAP_LEVEL n t)
    (hbudget : o ≠ R.CHZ_BUDGET n) : (tapEnable n t s).reg o = s.reg o := by
  unfold tapEnable
  rw [chzSync_reg _ hbudget, tapSetState_reg _ hev hstat, reg_setReg_ne _ _ hlevel, reg_setReg_ne _ _ hstat, State.setTap_reg]

theorem tapEnable_tapState (s : State) : (tapEnable n t s).tapState n t = 1 := by
  unfold tapEnable
  rw [State.tapState, State.rf, chzSync_reg _ (tapReg_ne_chz (by decide))]
  exact tapSetState_tapState _ (by decide)

theorem tapUnits_le (rate : Nat) : tapUnits rate ≤ 16 := Nat.div_le_self _ _

theorem tapEnable_units (s : State) : (tapEnable n t s).rf (R.CHZ_TAP_STAT n t) 17 13 = tapUnits (s.tapRate n t) := by
  have hfits : tapUnits (s.tapRate n t) % 2 ^ (17 + 1 - 13) = tapUnits (s.tapRate n t) := Nat.mod_eq_of_lt (by have := tapUnits_le (s.tapRate n t); omega)
  unfold tapEnable
  extract_lets u rs x s1 s2 s3
  have hset : (tapSetState n t 1 s3).rf (R.CHZ_TAP_STAT n t) 17 13 = tapUnits (s.tapRate n t) := by
    rw [tapSetState_units, State.rf, reg_setReg_ne _ _ (tapReg_ne (by decide)), reg_setReg_same, fld_setFld_same _ _ (by decide) (by decide), hfits]
  rw [State.rf, chzSync_reg _ (tapReg_ne_chz (by decide))]
  exact hset

theorem tapStream_reg (s : State) : (tapStream n t s).reg o = s.reg o := by
  unfold tapStream
  extract_lets
  split
  · rfl
  · split <;> exact State.setTap_reg _ _ _ _ _

end

/-- A tap that takes effect is enabled on the state that holds its configuration. -/
theorem tapApply_enables {n t : Nat} {cfg f : Word} {s : State} (hoff : s.tapEn n t = false) (hon : bit cfg 0 = true) :
    tapApply n t cfg f s = keepSync (tapStream n t (tapEnable n t ((s.setReg (R.CHZ_TAP_CFG n t) cfg).setReg (R.CHZ_TAP_FCW n t) f))) := by
  simp [tapApply, hoff, hon]

/-- A tap enabled shows its configuration and its units and waits (R127, R129). -/
theorem tapApply_enabled_shows (n : Fin 4) (t : Fin 16) {cfg f : Word} {s : State} (hoff : s.tapEn n t = false) (hon : bit cfg 0 = true) :
    (tapApply n t cfg f s).reg (R.CHZ_TAP_CFG n t) = cfg ∧ (tapApply n t cfg f s).reg (R.CHZ_TAP_FCW n t) = f
      ∧ (tapApply n t cfg f s).tapState n t = 1 ∧ (tapApply n t cfg f s).rf (R.CHZ_TAP_STAT n t) 17 13 = tapUnits (fld cfg 7 5) := by
  obtain ⟨u, hu⟩ : ∃ u, u = (s.setReg (R.CHZ_TAP_CFG n t) cfg).setReg (R.CHZ_TAP_FCW n t) f := ⟨_, rfl⟩
  have hcfg : u.reg (R.CHZ_TAP_CFG n t) = cfg := by rw [hu, reg_setReg_ne _ _ (tapReg_ne (by decide)), reg_setReg_same]
  have hfcw : u.reg (R.CHZ_TAP_FCW n t) = f := by rw [hu, reg_setReg_same]
  have hafter {a : Nat} (hlo : 0x4000 ≤ a) (hhi : a < 0x4128) :
      (tapApply n t cfg f s).reg (a + 0x400 * n + 0x28 * t) = (tapEnable n t u).reg (a + 0x400 * n + 0x28 * t) := by
    rw [tapApply_enables hoff hon, ← hu, keepSync_reg (evReg_tap (by decide) n t hlo hhi), tapStream_reg]
  have hstat : (tapApply n t cfg f s).reg (R.CHZ_TAP_STAT n t) = (tapEnable n t u).reg (R.CHZ_TAP_STAT n t) := hafter (by decide) (by decide)
  have hkept {a : Nat} (hlo : 0x4100 ≤ a) (hhi : a < 0x4110) : (tapEnable n t u).reg (a + 0x400 * n + 0x28 * t) = u.reg (a + 0x400 * n + 0x28 * t) :=
    tapEnable_reg u (evReg_tap (by decide) n t (by omega) (by omega)) (tapReg_ne (by omega)) (tapReg_ne (by omega)) (tapReg_ne_chz (by omega))
  refine ⟨?_, ?_, ?_, ?_⟩
  · exact (hafter (by decide) (by decide)).trans ((hkept (by decide) (by decide)).trans hcfg)
  · exact (hafter (by decide) (by decide)).trans ((hkept (by decide) (by decide)).trans hfcw)
  · rw [State.tapState, State.rf, hstat]
    exact tapEnable_tapState u
  · rw [State.rf, hstat, ← hcfg]
    exact tapEnable_units u

/-! ## A write of a tap's configuration (R127) -/

section
variable {n t : Nat} {m f : Word} {s : State}

theorem tapWrite_applies (hfe : s.feState n ≠ feRetired) (hst : tapStatus n t m f s = 0) : tapWrite n t m f s = tapApply n t m f s := by
  simp [tapWrite, hfe, hst]

theorem tapWrite_misfit (hfe : s.feState n ≠ feRetired) (hst : tapStatus n t m f s = 3) : tapWrite n t m f s = s.sticky (R.CHZ_STATUS n) 1 := by
  simp [tapWrite, hfe, hst]

theorem tapWrite_overBudget (hfe : s.feState n ≠ feRetired) (hst : tapStatus n t m f s = 6) : tapWrite n t m f s = s.sticky (R.CHZ_STATUS n) 0 := by
  simp [tapWrite, hfe, hst]

theorem tapStatus_onBus (src : Src) : tapStatus n t m f (s.onBus src) = tapStatus n t m f s := by
  rw [onBus_eq]
  rfl

end

/-- A write of either register of a tap's configuration is one of both, the other as it stands. -/
theorem exec_tapCfgWrite {src : Src} {n : Fin 4} {t : Fin 16} {fcw : Bool} {v m f : Word} {l : RegLoc} {s : State} (hlive : s.srcLive src = true)
    (hl : regAt (if fcw then R.CHZ_TAP_FCW n t else R.CHZ_TAP_CFG n t) = some l)
    (hok : writeBad (if fcw then R.CHZ_TAP_FCW n t else R.CHZ_TAP_CFG n t) l v s = false)
    (hm : m = if fcw then s.reg (R.CHZ_TAP_CFG n t) else wMerge l.row (s.reg (R.CHZ_TAP_CFG n t)) v)
    (hf : f = if fcw then v else s.reg (R.CHZ_TAP_FCW n t)) :
    exec (.tapCfgWrite src n t fcw v) s = .next (tapWrite n t m f (s.onBus src)) := by
  have hexec : exec (.tapCfgWrite src n t fcw v) s = actRow src (if fcw then R.CHZ_TAP_FCW n t else R.CHZ_TAP_CFG n t) v s := rfl
  cases fcw
  case false =>
    obtain rfl := Option.some.inj ((regAt_tapCfg n t).symm.trans hl)
    rw [hexec, actRow_acts hlive hl hok (by simp), hm, hf]
    simp [actWrite, chzRegWrite_tapCfg]
  case true =>
    obtain rfl := Option.some.inj ((regAt_tapFcw n t).symm.trans hl)
    rw [hexec, actRow_acts hlive hl hok (by simp), hm, hf]
    simp [actWrite, chzRegWrite_tapFcw, wMerge_all]

/-! ## The start of a tap (R129) -/

theorem exec_tapStart_due {n : Fin 4} {t : Fin 16} {s : State} (hwait : s.tapState n t = 1) (hfe : feProduces (s.feState n) = true)
    (hon : s.fsOn = true) (hcycle : s.cycle % tapDec (s.tapRate n t) = 0) :
    exec (.tapStart n t) s = .next (tapSetState n t (if s.feState n = feReplay then 3 else 2)
      (s.setTap n t { s.tap n t with firstN := s.cycle, newest := none })) := by
  have hexec : exec (.tapStart n t) s = execTapStart n t s := rfl
  rw [hexec, execTapStart, if_neg (by simp [hwait, hfe, hon, hcycle])]
  rfl

end Sys2Proof.Machine
end

section
/-! An entry that a ring takes over PCI Express (R424, R425): what is sent for it stays sent, and its producer index moves on by one. -/

namespace Sys2Proof.Machine

set_option Elab.async false

/-- What `s` has sent `t` has sent too, and the producer index of ring `q` is as it was. -/
structure RingKeeps (q : Nat) (s t : State) : Prop where
  out : ∀ x ∈ s.out, x ∈ t.out
  prod : t.reg (R.RING_PROD q) = s.reg (R.RING_PROD q)

namespace RingKeeps

variable {q : Nat} {s t u : State} {o : Nat}

theorem refl (q : Nat) (s : State) : RingKeeps q s s := ⟨fun _ => id, rfl⟩

theorem ite {c : Prop} {_ : Decidable c} (ht : RingKeeps q s t) (hu : RingKeeps q s u) : RingKeeps q s (if c then t else u) := by
  split
  · exact ht
  · exact hu

/-- Neither a register nor what was sent changed. -/
theorem same (h : RingKeeps q s t) (e : (u.regs, u.out) = (t.regs, t.out) := by with_reducible exact rfl) : RingKeeps q s u := by
  obtain ⟨hr, ho⟩ : u.regs = t.regs ∧ u.out = t.out := by simpa using e
  exact ⟨fun x hx => ho ▸ h.out x hx, (congrArg (tget regReset · (R.RING_PROD q)) hr).trans h.prod⟩

theorem setReg (h : RingKeeps q s t) (ho : R.RING_PROD q ≠ o) (v : Word) : RingKeeps q s (t.setReg o v) :=
  ⟨h.out, (reg_setReg_ne t v ho).trans h.prod⟩

theorem setF (h : RingKeeps q s t) (ho : R.RING_PROD q ≠ o) (hi lo v : Nat) : RingKeeps q s (t.setF o hi lo v) := h.setReg ho _
theorem cnt (h : RingKeeps q s t) (ho : R.RING_PROD q ≠ o) (n : Nat) : RingKeeps q s (t.cnt o n) := h.setReg ho _
theorem sticky (h : RingKeeps q s t) (ho : R.RING_PROD q ≠ o) (i : Nat) : RingKeeps q s (t.sticky o i) := h.setReg ho _
theorem maxF (h : RingKeeps q s t) (ho : R.RING_PROD q ≠ o) (hi lo v : Nat) : RingKeeps q s (t.maxF o hi lo v) := ite (h.setF ho _ _ _) h
theorem setRh (h : RingKeeps q s t) (p : Nat) (r : RingH) : RingKeeps q s (t.setRh p r) := h.same rfl

theorem emit (h : RingKeeps q s t) (x : Out) : RingKeeps q s (t.emit x) :=
  ⟨fun y hy => List.mem_cons_of_mem x (h.out y hy), h.prod⟩

/-- The registers below those of the rings. -/
theorem below {q o : Nat} (ho : o < 0x7000) : R.RING_PROD q ≠ o := by
  unfold R.RING_PROD
  omega

theorem putStored (h : RingKeeps q s t) (k : Nat) (x : Stored) : RingKeeps q s (t.putStored k x) := h.same rfl

theorem store (h : RingKeeps q s t) (k : Nat) (d : Word) : RingKeeps q s (t.store k d) := by
  unfold State.store State.storeBits
  split
  next hk =>
    have hb : R.BANK_STATUS (k / 262144) < 0x7000 := by unfold R.BANK_STATUS; omega
    exact ((h.putStored k _).setReg (below (by decide)) _).sticky (below hb) 6
  · exact h.putStored k _

/-- A message of ring `q`, of the alert or of the error. -/
theorem msiDue (h : RingKeeps q s t) {v : Nat} (hv : v ≤ q + 33) : RingKeeps q s (msiDue v t) := by
  have hcnt : RingKeeps q s (t.cnt (R.HIF_VEC_CNT v)) := h.cnt (by unfold R.RING_PROD R.HIF_VEC_CNT; omega) 1
  exact ite hcnt (ite (hcnt.same rfl) (hcnt.emit _))

theorem alertSet (h : RingKeeps q s t) (i : Nat) : RingKeeps q s (alertSet i t) := by
  have hset : RingKeeps q s (t.sticky R.HIF_ALERT_STAT i) := h.sticky (below (by decide)) i
  exact ite h (ite (hset.msiDue (by omega)) hset)

theorem vecLat (h : RingKeeps q s t) (us : Nat) : RingKeeps q s (vecLat q us t) := by
  have hlat : R.RING_PROD q ≠ R.HIF_VEC_LAT q := by unfold R.RING_PROD R.HIF_VEC_LAT; omega
  exact (ite (h.sticky hlat 20) h).maxF hlat _ _ _

theorem syncRingBit (h : RingKeeps q s t) : RingKeeps q s (syncRingBit t) := ite (h.setReg (below (by decide)) _) (h.alertSet 0)

theorem ringMessage (h : RingKeeps q s t) : RingKeeps q s (ringMessage q t) :=
  ((((h.vecLat _).setRh _ _).sticky (below (by decide)) q).syncRingBit).msiDue (by omega)

theorem ringModerate (h : RingKeeps q s t) (written : Bool) : RingKeeps q s (ringModerate q written t) := by
  have hst : R.RING_PROD q ≠ R.RING_STATUS q := by unfold R.RING_PROD R.RING_STATUS; omega
  unfold Machine.ringModerate
  extract_lets r r1 hwm hit r2 t1 t2
  have h1 : RingKeeps q s t1 := h.setRh _ _
  have h2 : RingKeeps q s t2 := ite (h1.sticky hst 3) h1
  exact ite h (ite h2.ringMessage h2)

theorem countBytes_tx (h : RingKeeps q s t) (n : Nat) : RingKeeps q s (countBytes true n t) := by
  have hcnt : RingKeeps q s (if (t.hif.txRem + n) / 1048576 = 0 then t else t.cnt R.HIF_TX_CNT ((t.hif.txRem + n) / 1048576)) :=
    ite h (h.cnt (below (by decide)) _)
  exact hcnt.same rfl

theorem ringWriteBack (h : RingKeeps q s t) (p : Nat) : RingKeeps q s (ringWriteBack q p t) := ite (ite (ite (h.store _ _) h) (h.emit _)) h

end RingKeeps

/-- The index of the producer after an entry is the one given to `ringCommit`, and what was sent stays sent. -/
theorem ringCommit_keeps (q p : Nat) (s : State) : RingKeeps q (s.setF (R.RING_PROD q) 16 0 p) (ringCommit q p s) := by
  have hocc : R.RING_PROD q ≠ R.RING_OCC_MAX q := by unfold R.RING_PROD R.RING_OCC_MAX; omega
  have hst : R.RING_PROD q ≠ R.RING_STATUS q := by unfold R.RING_PROD R.RING_STATUS; omega
  unfold ringCommit
  extract_lets t1 t2 t3 t4
  have h3 : RingKeeps q t1 t3 := ((RingKeeps.refl q t1).countBytes_tx _).maxF hocc _ _ _
  have h4 : RingKeeps q t1 t4 := .ite (h3.sticky hst 0) h3
  have hfull : RingKeeps q t1 (syncFull q t4) := h4.setReg (RingKeeps.below (by decide)) _
  exact (hfull.ringWriteBack p).ringModerate true

/-- Ring `q` is ON, has a place free and is reached over PCI Express. -/
structure RingOpen (q : Nat) (s : State) : Prop where
  pcie : s.spiMode = false
  link : s.linkUp = true
  on : s.ringOn q = true
  free : s.ringOcc q < s.ringSize q

/-- The index of the producer of ring `q` after one more entry (R423). -/
def nextProd (q : Nat) (s : State) : Nat := (s.rf (R.RING_PROD q) 16 0 + 1) % (2 * s.ringSize q)

/-- The registers that say whether ring `q` takes an entry, and where, read the same. -/
structure SameRing (q : Nat) (s t : State) : Prop where
  mode : t.reg R.HIF_MODE = s.reg R.HIF_MODE
  link : t.reg R.HIF_LINK_STAT = s.reg R.HIF_LINK_STAT
  ring : ∀ a, 0x7000 ≤ a → t.reg (a + 0x80 * q) = s.reg (a + 0x80 * q)

namespace SameRing

variable {q : Nat} {s t : State}

theorem cfg (h : SameRing q s t) : t.reg (R.RING_CFG q) = s.reg (R.RING_CFG q) := h.ring _ (by decide)
theorem cls (h : SameRing q s t) : t.ringClass q = s.ringClass q := by rw [State.ringClass, State.rf, h.cfg, State.ringClass, State.rf]
theorem size (h : SameRing q s t) : t.ringSize q = s.ringSize q := by rw [State.ringSize, State.rf, h.cfg, State.ringSize, State.rf]
theorem entry (h : SameRing q s t) : t.ringEntry q = s.ringEntry q := by rw [State.ringEntry, State.rf, h.cfg, State.ringEntry, State.rf]
theorem prod (h : SameRing q s t) : t.rf (R.RING_PROD q) 16 0 = s.rf (R.RING_PROD q) 16 0 := congrArg (fld · 16 0) (h.ring _ (by decide))
theorem cons (h : SameRing q s t) : t.rf (R.RING_CONS q) 16 0 = s.rf (R.RING_CONS q) 16 0 := congrArg (fld · 16 0) (h.ring _ (by decide))
theorem state (h : SameRing q s t) : t.ringState q = s.ringState q := congrArg (fld · 1 0) (h.ring _ (by decide))
theorem occ (h : SameRing q s t) : t.ringOcc q = s.ringOcc q := by rw [State.ringOcc, h.prod, h.cons, h.size, State.ringOcc]
theorem next (h : SameRing q s t) : nextProd q t = nextProd q s := by rw [nextProd, h.prod, h.size, nextProd]

theorem ringOpen (h : SameRing q s t) (hopen : RingOpen q s) : RingOpen q t where
  pcie := (congrArg (bit · 0) h.mode).trans hopen.pcie
  link := (congrArg (bit · 0) h.link).trans hopen.link
  on := (congrArg (· == 1) h.state).trans hopen.on
  free := by rw [h.occ, h.size]; exact hopen.free

end SameRing

/-- A block with sample bytes goes out at slot PROD, and PROD moves on. -/
theorem ringPutB_open {q cls : Nat} {ws : List Word} {bytes : List (BitVec 8)} {s : State} (hopen : RingOpen q s) (hcls : s.ringClass q = cls)
    (hbytes : bytes ≠ []) : ringPutB q cls ws bytes s = (ringCommit q (nextProd q s) (s.emit
      (.ringBlock q (s.rf (R.RING_PROD q) 16 0 % s.ringSize q) (padTo (s.ringEntry q / 8 - bytes.length / 8) ws) bytes)), [], true) := by
  obtain ⟨hpcie, hlink, hon, hfree⟩ := hopen
  simp [ringPutB, ringPlace, hpcie, hlink, hon, Nat.not_le.mpr hfree, hcls, hbytes, nextProd]

/-- The index fits its field for a ring of at most 65,536 entries. -/
theorem nextProd_lt {q : Nat} {s : State} (hsize : s.ringSize q ≤ 65536) : nextProd q s < 2 ^ 17 := by
  have hlt : nextProd q s < 2 * s.ringSize q := Nat.mod_lt _ (by have := ringSize_pos s q; omega)
  omega

theorem ringCommit_prod {q p : Nat} (s : State) (hp : p < 2 ^ 17) : (ringCommit q p s).rf (R.RING_PROD q) 16 0 = p := by
  rw [State.rf, (ringCommit_keeps q p s).prod]
  exact (rf_setF_same s _ p (by decide) (by decide)).trans (Nat.mod_eq_of_lt hp)

theorem mem_ringCommit_emit_out (q p : Nat) (x : Out) (s : State) : x ∈ (ringCommit q p (s.emit x)).out :=
  (ringCommit_keeps q p (s.emit x)).out x List.mem_cons_self

/-- Sending an entry changes what delivering one to ring `q` may change. -/
theorem ringCommit_emit_quiet {q : Nat} (hq : q < 32) (p : Nat) (x : Out) (s : State) : Quiet q s (ringCommit q p (s.emit x)) :=
  (Quiet.emit x).trans hq (Quiet.ringCommit hq (.inl rfl) p _)

end Sys2Proof.Machine
end

section
/-! Stream blocks (R140 to R143): the header and the bytes of a complete block, and where it goes; one that sheds is dropped. -/

namespace Sys2Proof.Machine

set_option Elab.async false

/-! ## A block as it is written (R141 to R143), stream 16 being that of the samples before the taps -/

/-- The samples of a whole block of stream `k`. -/
def blockMost (k : Nat) : Nat := if k = 16 then 1920 else 3840

/-- The ring of stream `k`. -/
def streamRing (n k : Nat) (s : State) : Nat := if k = 16 then s.rf (R.CHZ_STREAM_CFG n) 4 0 else s.rf (R.CHZ_TAP_CFG n k) 14 10

/-- The sample bytes of a block. -/
def blockRaw (blk : List StrS) : List Nat := (blk.map StrS.bytes).flatten

/-- The payload of a block: its sample bytes, filled up with zeros to 3,840. -/
def blockBytes (blk : List StrS) : List (BitVec 8) := (blockRaw blk ++ List.replicate (3840 - (blockRaw blk).length) 0).map (BitVec.ofNat 8)

/-- The number of the next block. -/
def streamSeq (n k : Nat) (s : State) : Word := if k = 16 then s.reg (R.CHZ_STREAM_SEQ n) else (s.tap n k).seq

/-- The header of the block that `b` begins. -/
def blockHeader (n k : Nat) (st : StreamSt) (b : StrS) (blk : List StrS) (es : List (Nat × Nat × Nat)) (s : State) : List Word :=
  [streamSeq n k s, dtSec (dtOfCycle b.n), dtFrac (dtOfCycle b.n),
    wd ((if k = 16 then 0 else 17179869184 + k * 268435456 + s.tapRate n k * 33554432 + s.rf (R.CHZ_TAP_CFG n k) 8 8 * 16777216)
      + n * 4294967296 + (b :: blk).length * 4096 + es.length * 128),
    wd (b2n st.drop * 34359738368 + b.disc * 65536), wd (crc32 (blockRaw (b :: blk))), 0, 0]
  ++ padTo 24 (es.map (fun (e : Nat × Nat × Nat) => wd (2 ^ e.1 * 16777216 + e.2.1 * 4096 + e.2.2)))

/-- The state in which the block's number is taken. -/
def seqTaken (n k : Nat) (s : State) : State :=
  if k = 16 then s.setReg (R.CHZ_STREAM_SEQ n) (streamSeq n k s + 1#36) else s.setTap n k { s.tap n k with seq := streamSeq n k s + 1#36 }

theorem blockBytes_ne_nil (blk : List StrS) : blockBytes blk ≠ [] := by
  have hlen : (blockBytes blk).length = (blockRaw blk).length + (3840 - (blockRaw blk).length) := by simp [blockBytes]
  intro hnil
  rw [hnil, List.length_nil] at hlen
  omega

theorem streamRing_lt (n k : Nat) (s : State) : streamRing n k s < 32 := by
  unfold streamRing
  split
  · exact fld_lt _ 4 0
  · exact fld_lt _ 14 10

/-- Only the number of the stream of samples is a register. -/
theorem seqTaken_reg {n k o : Nat} (s : State) (ho : o ≠ R.CHZ_STREAM_SEQ n) : (seqTaken n k s).reg o = s.reg o := by
  unfold seqTaken
  split
  · exact reg_setReg_ne _ _ ho
  · exact State.setTap_reg _ _ _ _ _

theorem seqTaken_thermStat (n k : Nat) (s : State) (hi lo : Nat) : (seqTaken n k s).rf R.CUR_THERM_STAT hi lo = s.rf R.CUR_THERM_STAT hi lo :=
  congrArg (fld · hi lo) (seqTaken_reg s (by unfold R.CUR_THERM_STAT R.CHZ_STREAM_SEQ; omega))

theorem seqTaken_ring (n : Fin 4) (k q : Nat) (s : State) : SameRing q s (seqTaken n k s) where
  mode := seqTaken_reg s (by unfold R.HIF_MODE R.CHZ_STREAM_SEQ; omega)
  link := seqTaken_reg s (by unfold R.HIF_LINK_STAT R.CHZ_STREAM_SEQ; omega)
  ring a _ := seqTaken_reg s (by unfold R.CHZ_STREAM_SEQ; omega)

/-! ## The end of a block -/

section
variable {n k : Nat} {st : StreamSt} {s : State} {b : StrS} {blk rest : List StrS} {es : List (Nat × Nat × Nat)}

/-- A block that is not sent: it is counted, and event 0x304 says so at most once a second (R143). -/
def blockDropped (n k : Nat) (st : StreamSt) (b : StrS) (rest : List StrS) (s : State) : State × StreamSt :=
  let s := (if k = 16 then s.cnt (R.CHZ_STREAM_DROP_CNT n) else s.cnt (R.CHZ_TAP_DROP_CNT n k)).sticky (R.CHZ_STATUS n) 4
  let u := if k = 16 then uChz n else uTap n k
  let x := rateOkAt (dtSec (dtOfCycle b.n)) (rateKey 0x304 u) s
  (if x.1 then raise 0x304 2 u [wd (st.dropped + 1)] x.2 else x.2,
    { st with q := rest.reverse, drop := true, dropped := if x.1 then 0 else st.dropped + 1 })

theorem blockKind_eq (n k r f l e : Nat) :
    b2n (!decide (k = 16)) * 17179869184 + n * 4294967296 + (if k = 16 then 0 else k) * 268435456 + (if k = 16 then 0 else r) * 33554432
      + (if k = 16 then 0 else f) * 16777216 + l * 4096 + e * 128
    = (if k = 16 then 0 else 17179869184 + k * 268435456 + r * 33554432 + f * 16777216) + n * 4294967296 + l * 4096 + e * 128 := by
  split
  next hk => simp [hk, b2n]
  next hk =>
    simp only [hk, decide_false, Bool.not_false, b2n, if_true]
    omega

/-- The ring's answer to a block; none is asked at shed step 3 (R143, R468). -/
def blockPut (n k : Nat) (st : StreamSt) (b : StrS) (blk : List StrS) (es : List (Nat × Nat × Nat)) (s : State) : State × List EvReq × Bool :=
  if s.rf R.CUR_THERM_STAT 34 33 = 3 then (seqTaken n k s, [], false)
  else ringPutB (streamRing n k s) 0xC (blockHeader n k st b blk es s) (blockBytes (b :: blk)) (seqTaken n k s)

/-- What follows that answer. -/
def blockPutDone (n k : Nat) (st : StreamSt) (b : StrS) (rest : List StrS) (x : State × List EvReq × Bool) : State × StreamSt :=
  if x.2.2 then (raiseList 8 x.2.1 x.1, { st with q := rest.reverse, drop := false }) else blockDropped n k st b rest (raiseList 8 x.2.1 x.1)

theorem streamWrite_complete (hblk : blockSplit (blockMost k) 0 [] [] st.q.reverse = (b :: blk, es, rest, true)) :
    streamWrite n k st s = blockPutDone n k st b rest (blockPut n k st b blk es s) := by
  simp only [blockPut, ← seqTaken_thermStat n k s 34 33, blockHeader, ← blockKind_eq]
  simp only [blockMost] at hblk
  simp only [streamWrite, decide_eq_true_eq, hblk, Bool.not_true, Bool.false_eq_true, if_false]
  rfl

/-- A block whose ring takes it goes out and its stream is freed of it. -/
theorem streamWrite_sent {q : Nat} {x : Out} {n : Fin 4} (hblk : blockSplit (blockMost k) 0 [] [] st.q.reverse = (b :: blk, es, rest, true))
    (htherm : s.rf R.CUR_THERM_STAT 34 33 ≠ 3) (hq : q = streamRing n k s) (hopen : RingOpen q s) (hcls : s.ringClass q = 0xC)
    (hx : x = .ringBlock q (s.rf (R.RING_PROD q) 16 0 % s.ringSize q)
      (padTo (s.ringEntry q / 8 - (blockBytes (b :: blk)).length / 8) (blockHeader n k st b blk es s)) (blockBytes (b :: blk))) :
    streamWrite n k st s = (ringCommit q (nextProd q s) ((seqTaken n k s).emit x), { st with q := rest.reverse, drop := false }) := by
  have hring := seqTaken_ring n k q s
  rw [streamWrite_complete hblk, blockPut, if_neg htherm, ← hq, ringPutB_open (hring.ringOpen hopen) (hring.cls.trans hcls) (blockBytes_ne_nil _),
    hring.prod, hring.size, hring.entry, hring.next, ← hx]
  rfl

theorem streamWrite_shed (hblk : blockSplit (blockMost k) 0 [] [] st.q.reverse = (b :: blk, es, rest, true))
    (htherm : s.rf R.CUR_THERM_STAT 34 33 = 3) : streamWrite n k st s = blockDropped n k st b rest (seqTaken n k s) := by
  rw [streamWrite_complete hblk, blockPut, if_pos htherm]
  rfl

theorem streamWrite_incomplete (hblk : (blockSplit (blockMost k) 0 [] [] st.q.reverse).2.2.2 = false) : streamWrite n k st s = (s, st) := by
  simp only [blockMost] at hblk
  simp only [streamWrite, decide_eq_true_eq, hblk, Bool.not_false, if_true]

/-- Of the registers of a channeliser a dropped block writes its count and the sticky bit. -/
theorem blockDropped_reg {o : Nat} (ho : evReg 2 o = false) : (blockDropped n k st b rest s).1.reg o
    = ((if k = 16 then s.cnt (R.CHZ_STREAM_DROP_CNT n) else s.cnt (R.CHZ_TAP_DROP_CNT n k)).sticky (R.CHZ_STATUS n) 4).reg o := by
  unfold blockDropped
  extract_lets t u x
  have hx : x.2.reg o = t.reg o := (Quiet.rateOkAt (q := 2) _ _ t).2.1 o ho
  split
  · exact (raise_reg ho _ _ _ _ _).trans hx
  · exact hx

/-! ## The row -/

/-- The record of stream `k`. -/
def streamOf (n k : Nat) (s : State) : StreamSt := if k = 16 then (s.fe n).strm else (s.tap n k).strm

/-- The stream's record put back. -/
def withStream (n k : Nat) (x : State × StreamSt) : State :=
  if k = 16 then x.1.setFe n { x.1.fe n with strm := x.2 } else x.1.setTap n k { x.1.tap n k with strm := x.2 }

theorem exec_streamBlockEnd (n : Fin 4) (k : Fin 17) (s : State) :
    exec (.streamBlockEnd n k) s = .next (withStream n k (streamWrite n k (streamOf n k s) s)) := by
  have hexec : exec (.streamBlockEnd n k) s = execStreamBlockEnd n k s := rfl
  rw [hexec, execStreamBlockEnd, withStream, streamOf]
  by_cases hk : k.val = 16 <;> simp only [hk, if_true, if_false]

theorem withStream_reg (n k : Nat) (x : State × StreamSt) (o : Nat) : (withStream n k x).reg o = x.1.reg o := by
  unfold withStream
  split
  · exact State.setFe_reg _ _ _ _
  · exact State.setTap_reg _ _ _ _ _

theorem withStream_out (n k : Nat) (x : State × StreamSt) : (withStream n k x).out = x.1.out := by
  unfold withStream
  split
  · exact State.setFe_out _ _ _
  · exact State.setTap_out _ _ _ _

/-- What a stream shows after a block is written: its number moves on, and its record is `st`. -/
theorem withStream_shows {n : Fin 4} {v : State} (hreg : v.reg (R.CHZ_STREAM_SEQ n) = (seqTaken n k s).reg (R.CHZ_STREAM_SEQ n))
    (hfe : v.fe n = (seqTaken n k s).fe n) :
    if k = 16 then (withStream n k (v, st)).reg (R.CHZ_STREAM_SEQ n) = s.reg (R.CHZ_STREAM_SEQ n) + 1 ∧ ((withStream n k (v, st)).fe n).strm = st
    else ((withStream n k (v, st)).tap n k).seq = (s.tap n k).seq + 1 ∧ ((withStream n k (v, st)).tap n k).strm = st := by
  by_cases hk : k = 16
  · rw [if_pos hk, withStream_reg, hreg, seqTaken, if_pos hk, reg_setReg_same, streamSeq, if_pos hk, withStream, if_pos hk, State.setFe_fe_same]
    exact ⟨rfl, rfl⟩
  · have htap : v.tap n k = { s.tap n k with seq := (s.tap n k).seq + 1 } := by
      rw [State.tap, hfe, seqTaken, if_neg hk, streamSeq, if_neg hk]
      exact State.setTap_tap_same _ _ _ _
    rw [if_neg hk, withStream, if_neg hk, State.setTap_tap_same, htap]
    exact ⟨rfl, rfl⟩

/-- A complete block that its ring takes is sent there, and its stream goes on with the next (R140 to R143). -/
theorem exec_streamBlockEnd_sent {n : Fin 4} {k : Fin 17} {q : Nat} {x : Out}
    (hblk : blockSplit (blockMost k) 0 [] [] (streamOf n k s).q.reverse = (b :: blk, es, rest, true)) (htherm : s.rf R.CUR_THERM_STAT 34 33 ≠ 3)
    (hq : q = streamRing n k s) (hopen : RingOpen q s) (hcls : s.ringClass q = 0xC) (hsize : s.ringSize q ≤ 65536)
    (hx : x = .ringBlock q (s.rf (R.RING_PROD q) 16 0 % s.ringSize q)
      (padTo (s.ringEntry q / 8 - (blockBytes (b :: blk)).length / 8) (blockHeader n k (streamOf n k s) b blk es s)) (blockBytes (b :: blk))) :
    ∃ t, exec (.streamBlockEnd n k) s = .next t ∧ x ∈ t.out ∧ t.rf (R.RING_PROD q) 16 0 = nextProd q s
      ∧ if k.val = 16 then t.reg (R.CHZ_STREAM_SEQ n) = s.reg (R.CHZ_STREAM_SEQ n) + 1
          ∧ (t.fe n).strm = { streamOf n k s with q := rest.reverse, drop := false }
        else (t.tap n k).seq = (s.tap n k).seq + 1 ∧ (t.tap n k).strm = { streamOf n k s with q := rest.reverse, drop := false } := by
  have hlt : q < 32 := hq ▸ streamRing_lt n k s
  have hquiet := ringCommit_emit_quiet hlt (nextProd q s) x (seqTaken n k s)
  refine ⟨_, by rw [exec_streamBlockEnd, streamWrite_sent hblk htherm hq hopen hcls hx], ?_, ?_, ?_⟩
  · rw [withStream_out]
    exact mem_ringCommit_emit_out _ _ _ _
  · rw [State.rf, withStream_reg]
    exact ringCommit_prod _ (nextProd_lt hsize)
  · exact withStream_shows (hquiet.2.1 _ (evReg_chz hlt n (by decide) (by decide))) (hquiet.fe n)

/-- A block of the stream of samples that is not complete writes nothing (R142). -/
theorem exec_streamBlockEnd_incomplete {n : Fin 4} (hblk : (blockSplit 1920 0 [] [] (s.fe n).strm.q.reverse).2.2.2 = false) :
    exec (.streamBlockEnd n 16) s = .next (s.setFe n (s.fe n)) :=
  (exec_streamBlockEnd n 16 s).trans (congrArg _ (congrArg (withStream n 16) (streamWrite_incomplete (k := 16) hblk)))

/-- At shed step 3 a block of that stream is dropped and counted, and its number is used (R143, R468). -/
theorem exec_streamBlockEnd_shed {n : Fin 4} (hblk : blockSplit 1920 0 [] [] (s.fe n).strm.q.reverse = (b :: blk, es, rest, true))
    (htherm : s.rf R.CUR_THERM_STAT 34 33 = 3) :
    ∃ t, exec (.streamBlockEnd n 16) s = .next t ∧ (t.fe n).strm.q = rest.reverse ∧ (t.fe n).strm.drop = true
      ∧ t.reg (R.CHZ_STREAM_SEQ n) = s.reg (R.CHZ_STREAM_SEQ n) + 1 ∧ t.reg (R.CHZ_STREAM_DROP_CNT n) = bump (s.reg (R.CHZ_STREAM_DROP_CNT n)) 1
      ∧ bit (t.reg (R.CHZ_STATUS n)) 4 = true := by
  obtain ⟨d, hd⟩ : ∃ d, d = blockDropped n 16 (s.fe n).strm b rest (seqTaken n 16 s) := ⟨_, rfl⟩
  have hexec : exec (.streamBlockEnd n 16) s = .next (withStream n 16 d) :=
    (exec_streamBlockEnd n 16 s).trans (congrArg _ (congrArg (withStream n 16) ((streamWrite_shed (k := 16) hblk htherm).trans hd.symm)))
  have hreg {a : Nat} (hlo : 0x4000 ≤ a) (hhi : a < 0x4400) : d.1.reg (a + 0x400 * n)
      = (((s.setReg (R.CHZ_STREAM_SEQ n) (s.reg (R.CHZ_STREAM_SEQ n) + 1)).cnt (R.CHZ_STREAM_DROP_CNT n)).sticky (R.CHZ_STATUS n) 4).reg (a + 0x400 * n) := by
    rw [hd, blockDropped_reg (evReg_chz (by decide) n hlo hhi)]
    rfl
  have hfe : (withStream n 16 d).fe n = { d.1.fe n with strm := d.2 } := State.setFe_fe_same _ _ _
  refine ⟨_, hexec, ?_, ?_, ?_, ?_, ?_⟩
  · rw [hfe, hd]
    rfl
  · rw [hfe, hd]
    rfl
  · rw [withStream_reg, hreg (by decide) (by decide), State.sticky_eq, reg_setReg_ne _ _ (feReg_ne (by decide)), State.cnt_eq,
      reg_setReg_ne _ _ (feReg_ne (by decide)), reg_setReg_same]
  · rw [withStream_reg, hreg (by decide) (by decide), State.sticky_eq, reg_setReg_ne _ _ (feReg_ne (by decide)), State.cnt_eq, reg_setReg_same,
      reg_setReg_ne _ _ (feReg_ne (by decide))]
  · rw [withStream_reg, hreg (by decide) (by decide)]
    exact bit_sticky _ _ (by decide)

end

end Sys2Proof.Machine
end

section
/-! Replay (R144, R145): its start and stop by CHZ_CTRL, and a block that is taken or refused; with taps and streams, the obligation. -/

namespace Sys2Proof.Machine

set_option Elab.async false

/-! ## Start and stop -/

/-- Replay that starts is ON and paused, with nothing buffered and nothing expected. -/
theorem replayStart_shows {n : Fin 4} {s : State} (hfe : s.feState n = feReplay) (hidle : bit (s.reg (R.CHZ_REPLAY_STAT n)) 0 = false) :
    (replayStart n s).reg (R.CHZ_REPLAY_STAT n) = 3 ∧ ((replayStart n s).fe n).rep = { ReplaySt.idle with lastSeq := (s.fe n).rep.lastSeq } := by
  have hcond : ¬ (s.feState n ≠ feReplay ∨ bit (s.reg (R.CHZ_REPLAY_STAT n)) 0 = true) := by simp [hfe, hidle]
  rw [replayStart, if_neg hcond]
  constructor
  · rw [keepSync_reg (evReg_chz (by decide) n (by decide) (by decide)), State.setFe_reg, reg_setReg_ne _ _ (feReg_ne (by decide)), reg_setReg_same]
  · rw [keepSync_fe, State.setFe_fe_same]

theorem replayStop_on {n cause : Nat} {s : State} (hon : bit (s.reg (R.CHZ_REPLAY_STAT n)) 0 = true) :
    replayStop n cause s = keepSync (raise 0x306 2 (uChz n) [wd cause, (s.fe n).rep.lastSeq]
      ((s.setReg (R.CHZ_REPLAY_STAT n) (wd (cause * 16))).setFe n { s.fe n with rep := { ReplaySt.idle with lastSeq := (s.fe n).rep.lastSeq } })) := by
  simp only [replayStop, hon, Bool.not_true, Bool.false_eq_true, if_false]
  rfl

theorem exec_chzCtrlReplayStart_live {src : Src} {n : Fin 4} {s : State} (hlive : s.srcLive src = true) (hboot : s.booted = true) :
    exec (.chzCtrlReplayStart src n) s = .next (replayStart n (s.onBus src)) :=
  (exec_chzCtrl_live (v := 2) hlive hboot (by decide) :)

theorem exec_chzCtrlReplayStop_live {src : Src} {n : Fin 4} {s : State} (hlive : s.srcLive src = true) (hboot : s.booted = true) :
    exec (.chzCtrlReplayStop src n) s = .next (replayStop n 1 (s.onBus src)) :=
  (exec_chzCtrl_live (v := 1) hlive hboot (by decide) :)

/-! ## A block (R144, R145) -/

/-- A front end's replay takes blocks, and its ring has one. -/
structure ReplayTakes (n ring : Nat) (s : State) : Prop where
  ring_eq : ring = s.rf (R.CHZ_REPLAY_CFG n) 4 0
  on : bit (s.reg (R.CHZ_REPLAY_STAT n)) 0 = true
  good : (s.fe n).rep.bad = none
  cls : s.ringClass ring = 0xD
  ready : s.ringReady ring = true

section
variable {n : Fin 4} {ring : Nat} {h : List Word} {bytes : List (BitVec 8)} {s u : State}

/-- A block that is read from the ring is judged by its cause. -/
theorem exec_replayBlock_takes (ht : ReplayTakes n ring s) (hu : u = ringConsume ring s) : exec (.replayBlock n h bytes) s =
    if replayCause n h (bytes.map fun b => b.toNat) u ≠ 0 then
      .next (replayReject n (replayCause n h (bytes.map fun b => b.toNat) u) (if bit (u.reg (R.CHZ_REPLAY_CFG n)) 8 then fld (h.getD 3 0) 31 28 else 16)
        (h.headD 0) u)
    else .next (replayAccept n h (bytes.map fun b => b.toNat) u) := by
  obtain ⟨rfl, hon, hgood, hcls, hready⟩ := ht
  have hexec : exec (.replayBlock n h bytes) s = execReplayBlock n h bytes s := rfl
  rw [hexec, execReplayBlock, if_neg (by simp [hon, hgood, hcls, hready]), ← hu]

theorem exec_replayBlock_refused {cause key : Nat} (ht : ReplayTakes n ring s) (hu : u = ringConsume ring s)
    (hcause : replayCause n h (bytes.map fun b => b.toNat) u = cause) (hbad : cause ≠ 0)
    (hkey : key = if bit (u.reg (R.CHZ_REPLAY_CFG n)) 8 then fld (h.getD 3 0) 31 28 else 16) :
    exec (.replayBlock n h bytes) s = .next (replayReject n cause key (h.headD 0) u) := by
  rw [exec_replayBlock_takes ht hu, hcause, if_pos hbad, hkey]

theorem exec_replayBlock_taken (ht : ReplayTakes n ring s) (hu : u = ringConsume ring s)
    (hcause : replayCause n h (bytes.map fun b => b.toNat) u = 0) :
    exec (.replayBlock n h bytes) s = .next (replayAccept n h (bytes.map fun b => b.toNat) u) := by
  rw [exec_replayBlock_takes ht hu, if_neg (not_not.mpr hcause)]

end

/-- A refused block is counted and its cause is kept; replay stops with it, unless samples of that stream are still to be written. -/
theorem replayReject_eq {n cause key : Nat} {seq : Word} {s w : State}
    (hw : w = ((s.cnt (R.CHZ_REPLAY_REJ_CNT n)).sticky (R.CHZ_STATUS n) 6).setFe n
      { s.fe n with rep := { (s.fe n).rep with lastSeq := seq, bad := some (cause, key) } }) :
    replayReject n cause key seq s = if replayHas n key w then w else replayStop n cause w := by
  have hfe : ((s.cnt (R.CHZ_REPLAY_REJ_CNT n)).sticky (R.CHZ_STATUS n) 6).fe n = s.fe n := setReg_fe _ _ _ _
  rw [← hfe] at hw
  rw [hw, replayReject]

/-- A good block of the stream of samples, when none is expected, begins the buffer at its own first sample. -/
theorem replayAccept_first {n : Nat} {h : List Word} {bs : List Nat} {s : State} (hfull : bit (s.reg (R.CHZ_REPLAY_CFG n)) 8 = false)
    (hnew : (s.fe n).rep.expect = []) {n0 : Nat} (hn0 : n0 = cycleAtOrAfter (dtOf (h.getD 1 0) (h.getD 2 0)).toNat) :
    replayAccept n h bs s = (s.setFe n { s.fe n with
      rep := { (s.fe n).rep with
        buf := (s.fe n).rep.buf ++ replaySamples n0 1 16 true ((h.drop 8).take (fld (h.getD 3 0) 11 7)) (fld (h.getD 3 0) 23 12) 0 bs
        expect := tset (fun _ => 0) [] 16 (n0 + fld (h.getD 3 0) 23 12), paused := false, lastSeq := h.headD 0, now := n0 } }).setF
          (R.CHZ_REPLAY_STAT n) 1 1 0 := by
  subst hn0
  simp [replayAccept, hfull, hnew]

/-- Settles O35: a write of a tap's configuration is one of both its registers, and what follows its enabling leaves them; a block that its ring takes
is sent before the index moves, and events leave the channeliser's registers; a replay block is refused or accepted by its cause. -/
theorem tapsStreamsAndReplay : Obligations.TapsStreamsAndReplay := by
  unfold Obligations.TapsStreamsAndReplay
  refine ⟨fun n t s => ⟨?write, fun cfg f hoff hon _ => tapApply_enabled_shows n t hoff hon,
      fun hwait hfe hon hcycle => exec_tapStart_due hwait hfe hon hcycle⟩,
    fun n s => ⟨?sent, exec_streamBlockEnd_incomplete, fun _ _ _ _ hblk htherm => exec_streamBlockEnd_shed hblk htherm,
      fun src hlive hboot => ⟨?start, ?stop⟩, ?block⟩⟩
  case write =>
    intro src fcw v m f l hlive hfe hl hok hm hf
    have hfe' : (s.onBus src).feState n ≠ feRetired := by rwa [onBus_feState]
    rw [exec_tapCfgWrite hlive hl hok hm hf]
    exact ⟨fun hst => by rw [tapWrite_applies hfe' ((tapStatus_onBus src).trans hst)],
      fun hst => by rw [tapWrite_misfit hfe' ((tapStatus_onBus src).trans hst)],
      fun hst => by rw [tapWrite_overBudget hfe' ((tapStatus_onBus src).trans hst)]⟩
  case sent =>
    rintro k st b blk rest es q raw bytes hdr rfl hblk hq rfl rfl rfl htherm hpcie hlink hcls hon hfree hsize
    exact exec_streamBlockEnd_sent hblk htherm hq ⟨hpcie, hlink, hon, hfree⟩ hcls hsize rfl
  case start =>
    intro hfe hidle
    have hshown := replayStart_shows (n := n) (s := s.onBus src) (by rwa [onBus_feState]) (by rwa [onBus_reg])
    rw [onBus_fe] at hshown
    obtain ⟨hstat, hrep⟩ := hshown
    exact ⟨_, exec_chzCtrlReplayStart_live hlive hboot, hstat, by rw [hrep]; rfl, by rw [hrep]; rfl, by rw [hrep]⟩
  case stop =>
    intro hon
    rw [exec_chzCtrlReplayStop_live hlive hboot, replayStop_on (by rwa [onBus_reg]), onBus_fe]
    rfl
  case block =>
    intro ring h bytes u hring hon hgood hcls hready hu
    have ht : ReplayTakes n ring s := ⟨hring, hon, hgood, hcls, hready⟩
    refine ⟨?refuse, ?take⟩
    case refuse =>
      intro cause key hcause hbad hkey
      exact ⟨_, rfl, by rw [exec_replayBlock_refused ht hu hcause hbad hkey, replayReject_eq rfl]⟩
    case take =>
      intro n0 hcause hfull hnew hn0
      rw [exec_replayBlock_taken ht hu hcause, replayAccept_first hfull hnew hn0]

end Sys2Proof.Machine
end

section
/-! The statement on the acquisition engine (R160 to R168) fails: it gives a job searched to its end the half that searched it, where the model keeps
on the job the half that began it, from which the other takes it over when that half is retired. -/

namespace Sys2Proof.Machine

set_option Elab.async false

/-! ## A search that gives a result -/

/-- A search in whose blocks no sample is excluded gives a result. -/
theorem acqSearch_of_none_excluded {s : State} {j : Job} {smp : List (Int × Int × Bool)} (h : ∀ x ∈ smp, x.2.2 = false) :
    ∃ o, acqSearch s j smp = (false, o) := by
  have hblocks : ∀ (n k : Nat) (l : List (Int × Int × Bool)), (∀ x ∈ l, x.2.2 = false) → ∀ b ∈ splitBlocks n k l, ∀ x ∈ b, x.2.2 = false := by
    intro n k
    induction k with
    | zero => exact fun _ _ b hb => absurd hb List.not_mem_nil
    | succ k ih =>
      intro l hl b hb
      rcases List.mem_cons.mp hb with rfl | hb
      · exact fun x hx => hl x (List.mem_of_mem_take hx)
      · exact ih _ (fun x hx => hl x (List.mem_of_mem_drop hx)) b hb
  unfold acqSearch
  extract_lets g n blocks exc excl
  have hany : exc.any (fun e => decide (n < 2 * e)) = false := by
    simp only [exc, List.any_map, List.any_eq_false, Function.comp_apply, decide_eq_true_eq]
    intro b hb
    rw [List.filter_eq_nil_iff.mpr fun x hx => by simp [hblocks _ _ _ h b hb x hx]]
    exact Nat.not_lt_zero _
  rw [if_neg (by simp only [hany, Bool.false_eq_true, not_false_eq_true])]
  exact ⟨_, rfl⟩

theorem jobSearch_found {h : Nat} {j : Job} {s v : State} {ws : List Word} {o : SearchOut}
    (hread : snapRead j.pages (snapWords j.rate (j.tcoh * j.nnc)) 0 s = (some ws, v)) (hfound : acqSearch v j (ws.map wordSamples).flatten = (false, o)) :
    jobSearch h j s = v.setJob { j with
      stage := 2, res := jobWords j 0 h (decide (searchThresh j ≤ o.peak)) (acqCn0 o.peak j.nnc j.tcoh).2 (bitsS 16 (acqCn0 o.peak j.nnc j.tcoh).1)
        (searchThresh j) (searchW j * searchF j) o } := by
  rw [jobSearch, hread]
  simp only [hfound]

/-! ## A job taken over -/

/-- A job of 1 ms that half 0 began and that half 1 searches. -/
def takenOver : Job := { Job.new with seq := 1, svk := 1, pages := [0], stage := 1, half := 0 }

/-- Bank 0 is on loan to ACQ, and that job is the only one. -/
def takenOverState : State := { State.reset.setReg (R.BANK_OWNER 0) 5 with acq := { State.reset.acq with jobs := [takenOver] } }

theorem pageAt_takenOver (w : Nat) : (pageAt takenOver.pages w).1 = 0 := by
  simp only [pageAt, takenOver]
  rcases w / 4096 with _ | _
  · rfl
  · simp

theorem bankRead_takenOver (a : Nat) : bankRead 5 0 0 a uAcq (acqServe 0 takenOverState) = (takenOverState, .ok 0) := by
  have hserve : acqServe 0 takenOverState = takenOverState := rfl
  have hgate : bankGate 5 0 0 a uAcq takenOverState = (takenOverState, none) := rfl
  have hzero : eccDec (takenOverState.stored (kBank 0 a)) = .clean 0 := by
    rw [show takenOverState.stored (kBank 0 a) = eccEnc 0 from rfl, eccDec_eccEnc]
  have hin : takenOverState.isRetired (uRegion (kBank 0 a)) = false := rfl
  simp only [hserve, bankRead, hgate, memRead, hin, hzero, Bool.false_and, Bool.false_eq_true, if_false]

/-- The snapshot holds zeros. -/
theorem snapRead_takenOver (n w : Nat) : snapRead takenOver.pages n w takenOverState = (some (List.replicate n 0), takenOverState) := by
  induction n generalizing w with
  | zero => rfl
  | succ n ih => simp only [snapRead, pageAt_takenOver, bankRead_takenOver, ih, List.replicate_succ]

theorem samples_takenOver (n : Nat) : ∀ x ∈ ((List.replicate n (0 : Word)).map wordSamples).flatten, x.2.2 = false := by
  have hword : ∀ x ∈ wordSamples 0, x.2.2 = false := by decide
  intro x hx
  obtain ⟨l, hl, hx⟩ := List.mem_flatten.mp hx
  rw [List.map_replicate] at hl
  exact hword x (List.eq_of_mem_replicate hl ▸ hx)

theorem jobs_half_setJob {s : State} {j k : Job} (hs : s.acq.jobs = [k]) (hseq : k.seq = j.seq) : (s.setJob j).acq.jobs.map (·.half) = [j.half] := by
  simp [State.setJob, hs, hseq]

/-- Refutes O37: half 1 searches the job that half 0 began, and the job keeps half 0, where the statement has it take half 1. -/
theorem not_acquisitionEngineRunsJobs : ¬ Obligations.AcquisitionEngineRunsJobs := by
  unfold Obligations.AcquisitionEngineRunsJobs
  intro h
  obtain ⟨-, -, -, -, hsearch, -⟩ := h takenOverState
  have hjobs : takenOverState.acq.jobs = [takenOver] := rfl
  have hread := snapRead_takenOver (snapWords takenOver.rate (takenOver.tcoh * takenOver.nnc)) 0
  obtain ⟨o, ho⟩ := acqSearch_of_none_excluded (s := takenOverState) (j := takenOver) (samples_takenOver _)
  have hmodel := jobSearch_found (h := 1) hread ho
  have hstated := hsearch 1 takenOver _ _ o hread ho _ _ rfl rfl
  have hhalf := congrArg (·.acq.jobs.map (·.half)) (hmodel.symm.trans hstated)
  simp (disch := rfl) only [jobs_half_setJob hjobs] at hhalf
  exact absurd hhalf (by decide)

end Sys2Proof.Machine
end

section
/-! The statement on scrubbing (R390 to R394) fails: it speaks of every state, and with a flip armed for the word's bank the Conservator's write-back is
stored with the mask (R400). -/

namespace Sys2Proof.Machine

set_option Elab.async false

/-- The scrubber stands at word 0, one of whose bits is in error, and a flip of one bit is armed for its bank. -/
def armedScrub : State := (((State.reset.setReg R.MEM_SCRUB_CFG 4096).setReg R.MEM_FLIP_ARM 1).setReg R.MEM_FLIP_DATA 1).putStored 0 1

theorem armedScrub_scrubs : bit (armedScrub.reg R.MEM_SCRUB_CFG) 12 = true ∧ 0 = scrubNext 16 armedScrub.cons.scrubPos armedScrub
    ∧ scrubbable 0 armedScrub = true ∧ scrubWaits 0 armedScrub = false ∧ eccDec (armedScrub.stored 0) = .corrected 0 0 := by
  decide +kernel

/-- What is written back takes the mask, so the word is in error as before. -/
theorem armedScrub_store : (armedScrub.store 0 0).stored 0 ≠ eccEnc 0 := by
  decide +kernel

/-- Refutes O49: in `armedScrub` the word that the scrubber rewrites is not the corrected one, the flip of its bank having fired. -/
theorem not_scrubbingCorrectsAndPoisons : ¬ Obligations.ScrubbingCorrectsAndPoisons := by
  unfold Obligations.ScrubbingCorrectsAndPoisons
  intro h
  obtain ⟨hen, hnext, hin, hfree, hword⟩ := armedScrub_scrubs
  obtain ⟨hscrub, -⟩ := h armedScrub
  obtain ⟨u, -, -, -, -, -, -, hcorrected, -⟩ := hscrub 0 hen hnext (by decide) hin hfree
  obtain ⟨-, hstored⟩ := hcorrected 0 0 hword
  exact armedScrub_store hstored

end Sys2Proof.Machine
end

section
/-! Commands of groups 0x4 and 0x5 (R181 to R184, R218, R243): what admitting a job leaves of its number, and what each command answers. -/

namespace Sys2Proof.Machine

set_option Elab.async false

/-! ## A job admitted (R157 to R159) -/

/-- The pages of a snapshot are released by registers of the snapshots alone. -/
theorem snapsRelease_jobSeq (g : Nat) (s : State) : (snapsRelease g s).reg R.ACQ_JOB_SEQ = s.reg R.ACQ_JOB_SEQ := by
  have hfree (i : Nat) (t : State) : (snapFree i t).reg R.ACQ_JOB_SEQ = t.reg R.ACQ_JOB_SEQ := by
    unfold snapFree
    rw [reg_setReg_ne _ _ (by unfold R.ACQ_JOB_SEQ R.ACQ_SNAP_SEC; omega), reg_setReg_ne _ _ (by unfold R.ACQ_JOB_SEQ R.ACQ_SNAP_DESC; omega)]
    rfl
  unfold snapsRelease
  refine List.foldlRecOn (List.range 32) _ (motive := fun t : State => t.reg R.ACQ_JOB_SEQ = s.reg R.ACQ_JOB_SEQ) rfl fun t ht i _ => ?_
  split
  · rw [hfree, ht]
  · exact ht

theorem jobOverrun_jobSeq (j : Job) (s : State) : (jobOverrun j s).reg R.ACQ_JOB_SEQ = s.reg R.ACQ_JOB_SEQ := by
  unfold jobOverrun
  rw [raise_reg (by decide), State.sticky_eq, reg_setReg_ne _ _ (by decide), State.cnt_eq, reg_setReg_ne _ _ (by decide)]
  rfl

theorem cellsAdd_jobSeq (key n : Nat) (s : State) : (cellsAdd key R.ACQ_CELLS_CNT n s).reg R.ACQ_JOB_SEQ = s.reg R.ACQ_JOB_SEQ := by
  unfold cellsAdd
  dsimp only
  split
  · rfl
  · exact reg_setReg_ne _ _ (by decide)

/-- The number of the next job moves on by one. -/
theorem jobAdmit_jobSeq (j : Job) (s : State) : (jobAdmit j s).2.reg R.ACQ_JOB_SEQ = nextSeq (s.reg R.ACQ_JOB_SEQ) := by
  have hadded (key n : Nat) (d : Dt) (t : State) :
      (cellsAdd key R.ACQ_CELLS_CNT n ((t.setReg R.ACQ_JOB_SEQ (nextSeq (s.reg R.ACQ_JOB_SEQ))).setDt R.ACQ_NOM_END_SEC R.ACQ_NOM_END_FRAC d)).reg
        R.ACQ_JOB_SEQ = nextSeq (s.reg R.ACQ_JOB_SEQ) := by
    rw [cellsAdd_jobSeq, State.setDt_reg_ne _ _ (by decide) (by decide), reg_setReg_same]
  unfold jobAdmit
  dsimp only
  split
  · rw [jobOverrun_jobSeq, hadded]
  · exact hadded ..

/-- A command ACQ_JOB, from its parameters and the cycle of its entry (R182). -/
def jobAsked (p : Packet) (n : Nat) : Job :=
  { Job.new with
    tag := p.tag.toNat, sig := p.pf 0 27 20, svk := p.pf 0 19 9, fcn := p.pf 0 8 5, snap := p.pf 0 4 0, tcoh := p.pf 1 28 22, nnc := p.pf 1 21 15,
    pfa := p.pf 1 14 9, ring := p.pf 1 8 4, dopp := (p.par 2).toInt, span := p.pf 3 35 18, bin := p.pf 3 17 0,
    code := (p.par 4).toNat + p.pf 5 20 20 * two36, cwin := p.pf 5 19 0, entryN := n }

theorem acqJobSpec_done (h : HeldCmd) (u : State) (j : Job) (v : State) (hj : jobAdmit (jobAsked h.pk (h.n u)) (snapsRelease (h.n u) u) = (j, v)) :
    acqJobSpec.eff h u = (.done ([j.seq] ++ dtWords (dtOfCycle j.nomEnd) ++ [wd j.cells]), v) := by
  obtain ⟨rfl, rfl⟩ := Prod.mk.inj hj
  rfl

theorem takes_acqJob (h : HeldCmd) (u : State) {g : Nat} (hg : g = h.n u) :
    ∃ (j0 j : Job) (v : State), jobAdmit j0 (snapsRelease g u) = (j, v) ∧ j0.sig = h.pk.pf 0 27 20 ∧ j0.svk = h.pk.pf 0 19 9 ∧ j0.tcoh = h.pk.pf 1 28 22
      ∧ j0.nnc = h.pk.pf 1 21 15 ∧ j0.host = true ∧ j0.tag = h.pk.tag.toNat ∧ j0.snap = h.pk.pf 0 4 0 ∧ j0.entryN = g
      ∧ Takes .acqJob acqJobSpec h u (reply h 0 (dtOfCycle g) ([j.seq] ++ dtWords (dtOfCycle j.nomEnd) ++ [wd j.cells]) v)
      ∧ j.seq = u.reg R.ACQ_JOB_SEQ ∧ j.cells = acqCells (sigRow j0.sig) j0.svk j0.tcoh j0.nnc j0.code j0.cwin j0.span j0.bin
      ∧ v.reg R.ACQ_JOB_SEQ = nextSeq (u.reg R.ACQ_JOB_SEQ) ∧ j.startN = ((snapsRelease g u).snap (h.pk.pf 0 4 0)).startN := by
  subst hg
  refine ⟨jobAsked h.pk (h.n u), (jobAdmit (jobAsked h.pk (h.n u)) (snapsRelease (h.n u) u)).1, (jobAdmit (jobAsked h.pk (h.n u)) (snapsRelease (h.n u) u)).2,
    rfl, rfl, rfl, rfl, rfl, rfl, rfl, rfl, rfl, takes_done (fun _ _ => rfl) (acqJobSpec_done h u _ _ rfl), ?_, rfl, ?_, rfl⟩
  · exact snapsRelease_jobSeq _ u
  · rw [jobAdmit_jobSeq, snapsRelease_jobSeq]

/-! ## Commands of channels and of their loops (R209, R213, R215, R222) -/

theorem chAssignSpec_done {h : HeldCmd} {u : State} {c : Nat} (hc : assignPlace h.pk u = some c) : chAssignSpec.eff h u
    = (.done ([wd c, wd ((doAssign (assignOf h c (h.n u)) u).chan c).units] ++ dtWords (dtOfCycle (h.n u))), doAssign (assignOf h c (h.n u)) u) := by
  simp only [chAssignSpec, hc, Option.getD_some]

/-- The channel that a command of the host names or is given is taken at once. -/
theorem doAssign_assignOf (h : HeldCmd) (c n : Nat) (u : State) :
    doAssign (assignOf h c n) u = chanTake (assignOf h c n) c { u with assignQ := u.assignQ ++ [assignOf h c n] } := rfl

theorem takes_chAssign {h : HeldCmd} {u : State} {n c : Nat} (hn : n = h.n u) (hc : assignPlace h.pk u = some c) :
    ∃ t, t = doAssign (assignOf h c n) u ∧ Takes .chAssign chAssignSpec h u (reply h 0 (dtOfCycle n) ([wd c, wd (t.chan c).units] ++ dtWords (dtOfCycle n)) t)
      ∧ (t.chan c).cond = 1 ∧ (t.chan c).units = tapUnits (u.tapRate (h.pk.pf 1 25 24) (h.pk.pf 1 23 20)) ∧ (t.chan c).sig = h.pk.pf 0 27 20
      ∧ t.assignQ = u.assignQ ++ [assignOf h c n] ∧ t.mem = u.mem := by
  subst hn
  refine ⟨_, rfl, takes_done (fun _ _ => rfl) (chAssignSpec_done hc), ?_⟩
  rw [doAssign_assignOf, chanTake]
  simp only [State.setChan_chan_same, State.setChan_assignQ, State.setChan_mem]
  exact ⟨trivial, rfl, rfl, trivial, trivial⟩

theorem chReleaseSpec_done {h : HeldCmd} {u v w : State} {c k : Nat} (hc : c = h.pk.pf 0 10 0) (hv : v = ensureEntered c u)
    (hrel : (v.chan c).relAt = none) (hk : k = unposted c v) (hw : w = v.setChan c { v.chan c with relAt := some (k, 1) }) :
    chReleaseSpec.eff h u = (.done (dtWords (chanAt c u)), if (v.chan c).proc + 2 < k then stopPost c k w else w) := by
  subst hc hv hk hw
  simp only [chReleaseSpec, hrel]

theorem wgCtrl_enable (w : Nat) (s : State) : wgCtrl w 1 s = wgEnable w s := rfl
theorem wgCtrl_disable (w : Nat) (s : State) : wgCtrl w 2 s = wgDisable w s := rfl

/-- Settles O39: each row takes its command's effect, which the specification of the command gives; a job is numbered from a register that the release
of snapshots leaves alone. -/
theorem acquisitionAndChannelCommands : Obligations.AcquisitionAndChannelCommands := by
  unfold Obligations.AcquisitionAndChannelCommands
  refine ⟨fun h u g hg => ⟨takes_acqJob h u hg, ?snap, ?free, ?cancel, ?list, ?back⟩,
    fun h u => ⟨fun n c hn hc => takes_chAssign hn hc, ?release, ?config, ?move, ?enable, ?disable, ?set, ?select, ?get, ?dflt, ?status, ?hook⟩⟩
  case snap =>
    subst hg
    rintro n t rfl rfl
    exact takes_done (fun _ _ => rfl) rfl
  case free =>
    subst hg
    exact takes_done (fun _ _ => rfl) rfl
  case cancel =>
    subst hg
    rintro js rfl
    exact takes_done (fun _ _ => rfl) rfl
  case list =>
    subst hg
    exact takes_done (fun _ _ => rfl) rfl
  case back =>
    subst hg
    exact takes_done (fun _ _ => rfl) rfl
  case release =>
    intro c v k w hc hv hrel hk hw
    have heff := chReleaseSpec_done hc hv hrel hk hw
    subst hc
    exact takes_done (fun _ _ => rfl) heff
  case config =>
    rintro c v rfl rfl
    exact takes_done (fun _ _ => rfl) rfl
  case move =>
    rintro c v rfl rfl
    exact takes_of (fun _ _ => rfl) rfl
  case enable =>
    intro hen
    have heff : wgCtrlSpec.eff h u = (.done [], wgEnable (h.pk.pf 0 3 0) u) := by simp only [wgCtrlSpec, hen, wgCtrl_enable]
    exact takes_done (fun _ _ => rfl) heff
  case disable =>
    intro hdis
    have heff : wgCtrlSpec.eff h u = (.done [], wgDisable (h.pk.pf 0 3 0) u) := by simp only [wgCtrlSpec, hdis, wgCtrl_disable]
    exact takes_done (fun _ _ => rfl) heff
  case set =>
    rintro k d rfl rfl
    exact takes_done (fun _ _ => rfl) rfl
  case select =>
    rintro c d rfl rfl
    exact takes_done (fun _ _ => rfl) rfl
  case get => exact takes_done (fun _ _ => rfl) rfl
  case dflt => exact takes_done (fun _ _ => rfl) rfl
  case status => exact takes_done (fun _ _ => rfl) rfl
  case hook =>
    rintro k d rfl rfl
    exact takes_done (fun _ _ => rfl) rfl

end Sys2Proof.Machine
end

section
/-! What a tick of the scheduler leaves alone while its front ends choose searches (R174 to R179): one relation, and a rule for each operation. -/

namespace Sys2Proof.Machine

set_option Elab.async false

/-! ## Events leave the registers of acquisition -/

theorem evReg_of_acq {q o : Nat} (hq : q < 32) (hlo : 0x5000 ≤ o) (hhi : o < 0x6000) : evReg q o = false := by
  have hev : o ∉ evRegs := fun h => by
    have hapart : ∀ x ∈ evRegs, x < 0x5000 ∨ 0x6000 ≤ x := by decide
    have := hapart o h
    omega
  have hring (p : Nat) (hp : p < 32) : o ∉ ringRegs p := by
    simp only [ringRegs, R.RING_STATE, R.RING_PROD, R.RING_DROP_CNT, R.RING_STATUS, R.RING_OCC_MAX, R.HIF_VEC_CNT, R.HIF_VEC_LAT, List.mem_cons,
      List.not_mem_nil, or_false]
    omega
  have hbank : ∀ b < 16, ¬(o = R.BANK_STATE b ∨ o = R.BANK_STATUS b) := by
    intro b _
    unfold R.BANK_STATE R.BANK_STATUS
    omega
  simpa [evReg, hev, hring 2 (by decide), hring q hq] using hbank

theorem Quiet.acq {q : Nat} {s t : State} (h : Quiet q s t) : t.acq = s.acq := (congrArg State.acq h.1 :)

/-! ## The relation -/

/-- `t` has the ticks still to run and the lists still due of `s`, its count of ticks and its scheduler settings. -/
structure TickKeeps (s t : State) : Prop where
  ticks : t.acq.ticks = s.acq.ticks
  listDue : t.acq.listDue = s.acq.listDue
  count : t.reg R.ACQ_SCHED_TICKS = s.reg R.ACQ_SCHED_TICKS
  cfg : t.reg R.ACQ_SCHED_CFG = s.reg R.ACQ_SCHED_CFG

namespace TickKeeps

variable {s t u : State} {o : Nat}

theorem refl (s : State) : TickKeeps s s := ⟨rfl, rfl, rfl, rfl⟩

theorem trans (h : TickKeeps s t) (k : TickKeeps t u) : TickKeeps s u :=
  ⟨k.ticks.trans h.ticks, k.listDue.trans h.listDue, k.count.trans h.count, k.cfg.trans h.cfg⟩

theorem ite {c : Prop} {_ : Decidable c} (ht : TickKeeps s t) (hu : TickKeeps s u) : TickKeeps s (if c then t else u) := by
  split
  · exact ht
  · exact hu

/-- Nothing changed of the registers, the ticks and the lists. -/
theorem same (h : TickKeeps s t) (e : (u.regs, u.acq.ticks, u.acq.listDue) = (t.regs, t.acq.ticks, t.acq.listDue) := by with_reducible exact rfl) :
    TickKeeps s u := by
  obtain ⟨hr, ht, hl⟩ : u.regs = t.regs ∧ u.acq.ticks = t.acq.ticks ∧ u.acq.listDue = t.acq.listDue := by simpa using e
  exact ⟨ht.trans h.ticks, hl.trans h.listDue, (congrArg (tget regReset · _) hr).trans h.count, (congrArg (tget regReset · _) hr).trans h.cfg⟩

theorem quiet {q : Nat} (hq : q < 32) (h : TickKeeps s t) (k : Quiet q t u) : TickKeeps s u :=
  h.trans ⟨by rw [k.acq], by rw [k.acq], k.2.1 _ (evReg_of_acq hq (by decide) (by decide)), k.2.1 _ (evReg_of_acq hq (by decide) (by decide))⟩

theorem foldl {α : Type} {f : State → α → State} {l : List α} (h : TickKeeps s t) (hf : ∀ u a, TickKeeps s u → TickKeeps s (f u a)) :
    TickKeeps s (l.foldl f t) := by
  induction l generalizing t with
  | nil => exact h
  | cons a l ih => exact ih (hf t a h)

/-- A register that is neither of the two. -/
theorem setReg (h : TickKeeps s t) (ho : o ∉ [R.ACQ_SCHED_TICKS, R.ACQ_SCHED_CFG]) (v : Word) : TickKeeps s (t.setReg o v) := by
  obtain ⟨hcount, hcfg⟩ : o ≠ R.ACQ_SCHED_TICKS ∧ o ≠ R.ACQ_SCHED_CFG := by simpa using ho
  exact ⟨h.ticks, h.listDue, (reg_setReg_ne t v hcount.symm).trans h.count, (reg_setReg_ne t v hcfg.symm).trans h.cfg⟩

theorem setF (h : TickKeeps s t) (ho : o ∉ [R.ACQ_SCHED_TICKS, R.ACQ_SCHED_CFG]) (hi lo v : Nat) : TickKeeps s (t.setF o hi lo v) := h.setReg ho _
theorem cnt (h : TickKeeps s t) (ho : o ∉ [R.ACQ_SCHED_TICKS, R.ACQ_SCHED_CFG]) (n : Nat) : TickKeeps s (t.cnt o n) := h.setReg ho _
theorem sticky (h : TickKeeps s t) (ho : o ∉ [R.ACQ_SCHED_TICKS, R.ACQ_SCHED_CFG]) (i : Nat) : TickKeeps s (t.sticky o i) := h.setReg ho _

theorem setDt {a b : Nat} (h : TickKeeps s t) (ha : a ∉ [R.ACQ_SCHED_TICKS, R.ACQ_SCHED_CFG]) (hb : b ∉ [R.ACQ_SCHED_TICKS, R.ACQ_SCHED_CFG]) (d : Dt) :
    TickKeeps s (t.setDt a b d) := (h.setReg ha _).setReg hb _

/-- The registers of a row of units lie above both. -/
theorem above {a b : Nat} (ha : 0x50f0 < a) : a + b ∉ [R.ACQ_SCHED_TICKS, R.ACQ_SCHED_CFG] := by
  simp only [R.ACQ_SCHED_TICKS, R.ACQ_SCHED_CFG, List.mem_cons, List.not_mem_nil, or_false]
  omega

theorem raise (h : TickKeeps s t) (code sev unit : Nat) (ps : List Word) : TickKeeps s (raise code sev unit ps t) :=
  h.quiet (q := 2) (by decide) (Quiet.raise (by decide) _ _ _ _ _)

theorem raiseList (h : TickKeeps s t) (n : Nat) (es : List EvReq) : TickKeeps s (raiseList n es t) :=
  h.quiet (q := 2) (by decide) (Quiet.raiseList (by decide) _ _ _)

theorem raiseLimited (h : TickKeeps s t) (code sev unit : Nat) (ps : List Word) : TickKeeps s (raiseLimited code sev unit ps t) :=
  h.quiet (q := 2) (by decide) (Quiet.raiseLimited (by decide) _ _ _ _ _)

/-! ## The shared store (R384 to R402) -/

theorem putStored (h : TickKeeps s t) (k : Nat) (x : Stored) : TickKeeps s (t.putStored k x) := h.same rfl

theorem storeBits (h : TickKeeps s t) (k : Nat) (x : Stored) : TickKeeps s (t.storeBits k x) :=
  ite (((h.putStored _ _).setReg (by decide) _).sticky (above (by decide)) _) (h.putStored _ _)

theorem setMerr (h : TickKeeps s t) (m : Nat) (e : MemErr) : TickKeeps s (t.setMerr m e) :=
  ite (h.same.setReg (above (by decide)) _) (h.same)

theorem ceCount (h : TickKeeps s t) (k syn : Nat) : TickKeeps s (ceCount k syn t) := by
  unfold Machine.ceCount
  extract_lets m a e depth ovr first filt t1 t2 t3 _ t4 t5 t6
  have h1 : TickKeeps s t1 := h.cnt (by decide) 1
  have h2 : TickKeeps s t2 := ite (((h1.cnt (above (by decide)) 1).setReg (above (by decide)) _).setReg (above (by decide)) _) h1
  have h4 : TickKeeps s t4 := (h2.setMerr _ _).same rfl
  have h5 : TickKeeps s t5 := h4.sticky (by decide) 1
  exact ite ((ite (h5.sticky (above (by decide)) 2) h5).raise _ _ _ _) h4

theorem ceFound (h : TickKeeps s t) (k syn : Nat) : TickKeeps s (ceFound k syn t) := ite h (h.ceCount k syn)

theorem ueFound (h : TickKeeps s t) (k requester : Nat) : TickKeeps s (ueFound k requester t) := by
  unfold Machine.ueFound
  extract_lets m a syn t1 t2 t3 t4 t5
  have h4 : TickKeeps s t4 :=
    ((((h.cnt (by decide) 1).sticky (by decide) 0).setReg (by decide) _).setReg (by decide) _).setDt (by decide) (by decide) _
  exact (ite ((((h4.cnt (above (by decide)) 1).sticky (above (by decide)) 1).setReg (above (by decide)) _).setReg (above (by decide)) _) h4).raise _ _ _ _

theorem memRead (h : TickKeeps s t) (k requester : Nat) : TickKeeps s (memRead k requester t).1 := by
  unfold Machine.memRead
  split
  · exact h.ueFound k requester
  · split
    · exact h
    · exact h.ceFound k _
    · exact h.ueFound k requester
    · exact h.ueFound k requester

theorem bankServe (h : TickKeeps s t) (b : Nat) : TickKeeps s (bankServe b t).1 := by
  unfold Machine.bankServe
  extract_lets x p ev t1 t2 t3 es
  have h1 : TickKeeps s t1 := ite (h.same rfl) h
  have h3 : TickKeeps s t3 := (h1.setF (above (by decide)) 10 8 0).same rfl
  split
  · exact h
  · split
    · exact h3
    · exact (h3.cnt (by decide) 1).sticky (by decide) 6

theorem acqServe (h : TickKeeps s t) (b : Nat) : TickKeeps s (acqServe b t) := (h.bankServe b).raiseList 8 _

theorem nonOwner (h : TickKeeps s t) (b a requester : Nat) : TickKeeps s (nonOwner b a requester t) :=
  ((((h.cnt (above (by decide)) 1).sticky (above (by decide)) 0).cnt (by decide) 1).sticky (by decide) 8).raiseLimited _ _ _ _

theorem setBankPower (h : TickKeeps s t) (b v : Nat) : TickKeeps s (setBankPower b v t) :=
  ite h ((h.setF (above (by decide)) 10 8 v).raise _ _ _ _)

theorem shadowBack (h : TickKeeps s t) (r : Nat) : TickKeeps s (shadowBack r t) :=
  (ite (h.storeBits _ _) h).same.setReg (by decide) _

theorem touchBorrowed (h : TickKeeps s t) (b a : Nat) : TickKeeps s (touchBorrowed b a t) :=
  ite (((h.cnt (by decide) 1).cnt (by decide) 1).shadowBack _) h

theorem bankGate (h : TickKeeps s t) (own del b a requester : Nat) : TickKeeps s (bankGate own del b a requester t).1 := by
  unfold Machine.bankGate
  extract_lets allowed
  split
  · exact h.nonOwner b a requester
  · split
    · exact h
    · split
      · exact (h.setBankPower b 2).same rfl
      · split
        · exact h
        · exact h.touchBorrowed b a

theorem bankWrite (h : TickKeeps s t) (own del b a : Nat) (d : Word) (requester : Nat) : TickKeeps s (bankWrite own del b a d requester t).1 := by
  have hgate := h.bankGate own del b a requester
  unfold Machine.bankWrite
  split
  next e =>
    rw [e] at hgate
    exact hgate
  next e =>
    rw [e] at hgate
    split
    · exact hgate
    · exact hgate.storeBits _ _

/-! ## Snapshots and jobs (R154 to R159) -/

theorem snapPut (h : TickKeeps s t) (pages : List Nat) (w : Nat) (d : Word) : TickKeeps s (snapPut pages w d t) :=
  (h.acqServe _).bankWrite _ _ _ _ _ _

theorem snapSample (h : TickKeeps s t) (pages : List Nat) (k code : Nat) (x : Bool) : TickKeeps s (snapSample pages k code x t) := h.snapPut _ _ _

theorem setSnap (h : TickKeeps s t) (i : Nat) (x : Snap) : TickKeeps s (t.setSnap i x) := h.same rfl

theorem snapFree (h : TickKeeps s t) (i : Nat) : TickKeeps s (snapFree i t) :=
  ((h.setSnap i _).setReg (above (by decide)) _).setReg (above (by decide)) _

theorem snapsRelease (h : TickKeeps s t) (g : Nat) : TickKeeps s (snapsRelease g t) := h.foldl fun _ _ k => ite (k.snapFree _) k

theorem capCopy (h : TickKeeps s t) (n r : Nat) (pages : List Nat) (m k c : Nat) : TickKeeps s (capCopy n r pages m k c t) := by
  induction m generalizing k c t with
  | zero => exact h
  | succ m ih =>
    unfold Machine.capCopy
    extract_lets tp d word _ t1
    refine ih ?_ _ _
    unfold t1
    split
    · exact h
    next r _ =>
      have hread := h.memRead (kTap n (64 * r + word % 64)) uAcq
      split
      next e =>
        rw [e] at hread
        exact hread.snapSample _ _ _ _
      next e =>
        rw [e] at hread
        exact hread.putStored _ _

theorem capEnter (h : TickKeeps s t) (i n r len g : Nat) (auto : Bool) : TickKeeps s (capEnter i n r len g auto t) := by
  unfold Machine.capEnter
  extract_lets rate d pages e t1 t2 t3 t4 tp
  have h3 : TickKeeps s t3 := ((h.setSnap i _).setReg (above (by decide)) _).setReg (above (by decide)) _
  have h4 : TickKeeps s t4 := h3.foldl fun _ _ k => k.snapPut _ _ _
  split
  · exact h4
  · exact ite h4 (h4.capCopy _ _ _ _ _ _)

theorem jobEnd (h : TickKeeps s t) (j : Job) (status half excl : Nat) : TickKeeps s (jobEnd j status half excl t) := h.same rfl

theorem jobOverrun (h : TickKeeps s t) (j : Job) : TickKeeps s (jobOverrun j t) :=
  (((h.jobEnd j 3 j.half 0).cnt (by decide) 1).sticky (by decide) 3).raise _ _ _ _

theorem cellsAdd (h : TickKeeps s t) (key n : Nat) : TickKeeps s (cellsAdd key R.ACQ_CELLS_CNT n t) :=
  ite h.same (h.same.cnt (by decide) _)

theorem jobAdmit (h : TickKeeps s t) (j : Job) : TickKeeps s (jobAdmit j t).2 := by
  unfold Machine.jobAdmit
  extract_lets g sn cells nom seq j' full _ t1 t2 t3
  have h2 : TickKeeps s t2 := (h.same.setReg (by decide) _).setDt (by decide) (by decide) _
  have h3 : TickKeeps s t3 := h2.cellsAdd 2 cells
  dsimp only
  exact ite (h3.jobOverrun _) h3

/-! ## What a front end does in a tick (R174 to R179) -/

theorem agedNote (h : TickKeeps s t) (j : Job) : TickKeeps s (agedNote j t) := ite h ((h.same.sticky (by decide) 6).raise _ _ _ _)

theorem doAssign (h : TickKeeps s t) (a : Assign) : TickKeeps s (doAssign a t) := by
  unfold Machine.doAssign
  extract_lets t1
  split
  · exact h.same rfl
  · exact h.same rfl

theorem directAssign (h : TickKeeps s t) (n r tick : Nat) (x : Chan) (k : Contrib) (c : Cand) : TickKeeps s (directAssign n r tick x k c t) := by
  unfold Machine.directAssign
  exact (h.cnt (by decide) 1).doAssign _

theorem directAll (h : TickKeeps s t) (n tick : Nat) (cs : List Cand) : TickKeeps s (directAll n tick cs t).2 := by
  induction cs generalizing t with
  | nil => exact h
  | cons c cs ih =>
    unfold Machine.directAll
    split
    · exact ih (h.directAssign _ _ _ _ _ _)
    · exact ih h

theorem capAll (h : TickKeeps s t) (n tick : Nat) (l : List (Nat × Nat)) : TickKeeps s (capAll n tick l t).2 := by
  induction l generalizing t with
  | nil => exact h
  | cons x xs ih => exact ih (h.capEnter _ _ _ _ _ _)

theorem schedEngine (h : TickKeeps s t) (n tick : Nat) (js : List Job) : TickKeeps s (schedEngine n tick js t) :=
  ((h.snapsRelease tick).capAll _ _ _).foldl fun _ _ k => (k.agedNote _).jobAdmit _

theorem setChan (h : TickKeeps s t) (c : Nat) (x : Chan) : TickKeeps s (t.setChan c x) := h.same rfl

theorem fbStart (h : TickKeeps s t) (tick : Nat) (j : Job) : TickKeeps s (fbStart tick j t) := by
  unfold Machine.fbStart
  refine ite h ?_
  split
  · exact h
  · exact ((h.setChan _ _).agedNote _).same

theorem schedFe (h : TickKeeps s t) (tick n : Nat) : TickKeeps s (schedFe tick t n) :=
  ite h (ite ((h.directAll _ _ _).foldl fun _ _ k => k.fbStart _ _) ((h.directAll _ _ _).schedEngine _ _ _))

/-! ## Plans (R171, R172) -/

theorem planActivate (h : TickKeeps s t) (r : Rebuild) (n : Nat) : TickKeeps s (planActivate r n t) :=
  ((h.same.setReg (by decide) _).setDt (by decide) (by decide) _).raise _ _ _ _

theorem planLate (h : TickKeeps s t) (tick : Nat) : TickKeeps s (planLate tick t) := by
  unfold Machine.planLate
  split
  · exact h.planActivate _ _
  · exact h

theorem planStart (h : TickKeeps s t) (e : Nat) : TickKeeps s (planStart e t) := h.same rfl

end TickKeeps

end Sys2Proof.Machine
end

section
/-! The halves of the engine as ACQ_CFG enables them (R168), the plan and its rebuilds (R170 to R172), ticks of the scheduler (R174) and the dwells of
fall-back searches (R178 to R180). -/

namespace Sys2Proof.Machine

set_option Elab.async false

/-! ## Writes of ACQ_CFG and ACQ_CTRL (R168, R171) -/

theorem raise_acqReg {o : Nat} (hlo : 0x5000 ≤ o) (hhi : o < 0x6000) (code sev unit : Nat) (ps : List Word) (s : State) :
    (raise code sev unit ps s).reg o = s.reg o := raise_reg (evReg_of_acq (by decide) hlo hhi) _ _ _ _ _

theorem raise_acq (code sev unit : Nat) (ps : List Word) (s : State) : (raise code sev unit ps s).acq = s.acq :=
  (Quiet.raise (q := 2) (by decide) code sev unit ps s).acq

theorem setHalf_reg {h v o : Nat} (s : State) (hlo : 0x5000 ≤ o) (hhi : o < 0x6000) (ho : o ≠ R.ACQ_H_STATE h) : (setHalf h v s).reg o = s.reg o := by
  unfold setHalf
  extract_lets st
  split
  · rfl
  · rw [raise_acqReg hlo hhi, reg_setReg_ne _ _ ho]

theorem setHalf_halfState {h v : Nat} (s : State) (hh : h < 2) (hv : v < 8) : (setHalf h v s).halfState h = v := by
  unfold setHalf
  extract_lets st
  split
  next hst => exact hst
  · have hword : fld (wd v) 2 0 = v := by
      interval_cases v <;> rfl
    rw [State.halfState, State.rf, raise_acqReg (by unfold R.ACQ_H_STATE; omega) (by unfold R.ACQ_H_STATE; omega), reg_setReg_same, hword]

theorem fbSync_reg {o : Nat} (s : State) (hlo : 0x5000 ≤ o) (hhi : o < 0x6000) (ho : o ≠ R.ACQ_STATUS) : (fbSync s).reg o = s.reg o := by
  unfold fbSync
  extract_lets off on
  split
  · rfl
  · split
    · rw [raise_acqReg hlo hhi, State.sticky_eq, reg_setReg_ne _ _ ho]
      rfl
    · rw [raise_acqReg hlo hhi]
      rfl

theorem halfEnable_reg {h o : Nat} (s : State) (hlo : 0x5000 ≤ o) (hhi : o < 0x6000) (ho : o ≠ R.ACQ_H_STATE h) : (halfEnable h s).reg o = s.reg o := by
  unfold halfEnable
  extract_lets en st
  split
  · split
    · exact setHalf_reg s hlo hhi ho
    · rfl
  · split
    · exact setHalf_reg s hlo hhi ho
    · rfl

theorem halfEnable_on {h : Nat} {s : State} (hh : h < 2) (hen : bit (s.reg R.ACQ_CFG) h = true) (hoff : s.halfState h = 0) :
    (halfEnable h s).halfState h = 1 := by
  simp only [halfEnable, hen, hoff, if_true, setHalf_halfState s hh (show 1 < 8 by decide)]

theorem halfEnable_off {h : Nat} {s : State} (hh : h < 2) (hen : bit (s.reg R.ACQ_CFG) h = false) (hfree : s.halfState h = 1) :
    (halfEnable h s).halfState h = 0 := by
  simp only [halfEnable, hen, hfree, Bool.false_eq_true, if_false, true_or, if_true, setHalf_halfState s hh (show 0 < 8 by decide)]

theorem acqCfgSet_cfg (m : Word) (s : State) : (acqCfgSet m s).reg R.ACQ_CFG = m := by
  rw [acqCfgSet, fbSync_reg _ (by decide) (by decide) (by decide), halfEnable_reg _ (by decide) (by decide) (by decide),
    halfEnable_reg _ (by decide) (by decide) (by decide), reg_setReg_same]

/-- A half moves as its own enable bit has it; the other half's has no part in it. -/
theorem acqCfgSet_halfState (m : Word) (s : State) (h : Fin 2) :
    ∃ u : State, u.reg R.ACQ_CFG = m ∧ u.halfState h = s.halfState h ∧ (acqCfgSet m s).halfState h = (halfEnable h u).halfState h := by
  have hsync (t : State) : (fbSync t).halfState h = t.halfState h :=
    congrArg (fld · 2 0) (fbSync_reg t (by unfold R.ACQ_H_STATE; omega) (by unfold R.ACQ_H_STATE; omega) (by unfold R.ACQ_H_STATE R.ACQ_STATUS; omega))
  have hset : (s.setReg R.ACQ_CFG m).halfState h = s.halfState h := congrArg (fld · 2 0) (reg_setReg_ne s m (by unfold R.ACQ_H_STATE R.ACQ_CFG; omega))
  rw [acqCfgSet, hsync]
  match h with
  | 0 =>
    exact ⟨_, reg_setReg_same _ _ _, hset, congrArg (fld · 2 0) (halfEnable_reg _ (by decide) (by decide) (by decide))⟩
  | 1 =>
    refine ⟨_, ?_, ?_, rfl⟩
    · rw [halfEnable_reg _ (by decide) (by decide) (by decide), reg_setReg_same]
    · exact (congrArg (fld · 2 0) (halfEnable_reg _ (by decide) (by decide) (by decide))).trans hset

theorem acqCfgSet_enables {m : Word} {s : State} {h : Fin 2} (hen : bit m h = true) (hoff : s.halfState h = 0) : (acqCfgSet m s).halfState h = 1 := by
  obtain ⟨u, hcfg, hst, hset⟩ := acqCfgSet_halfState m s h
  rw [hset, halfEnable_on h.isLt (hcfg ▸ hen) (hst.trans hoff)]

theorem acqCfgSet_disables {m : Word} {s : State} {h : Fin 2} (hen : bit m h = false) (hfree : s.halfState h = 1) : (acqCfgSet m s).halfState h = 0 := by
  obtain ⟨u, hcfg, hst, hset⟩ := acqCfgSet_halfState m s h
  rw [hset, halfEnable_off h.isLt (hcfg ▸ hen) (hst.trans hfree)]

theorem regAt_acqCfg : regAt R.ACQ_CFG = some ⟨.acq, 0, ⟨0x8, 0x0, 1, 0x3f0043, 0x0, false, 0x0, 0x100040, []⟩, 0⟩ := by decide
theorem regAt_acqCtrl : regAt R.ACQ_CTRL = some ⟨.acq, 0, ⟨0x0, 0x0, 1, 0x0, 0x0, false, 0x1, 0x0, []⟩, 0⟩ := by decide

theorem exec_acqCfgWrite_live {src : Src} {v m : Word} {l : RegLoc} {s : State} (hlive : s.srcLive src = true) (hboot : s.booted = true)
    (hl : regAt R.ACQ_CFG = some l) (hm : m = wMerge l.row (s.reg R.ACQ_CFG) v) : exec (.acqCfgWrite src v) s = .next (acqCfgSet m (s.onBus src)) := by
  have hexec : exec (.acqCfgWrite src v) s = actRow src R.ACQ_CFG v s := rfl
  obtain rfl := Option.some.inj (regAt_acqCfg.symm.trans hl)
  rw [hexec, actRow_acts hlive hl (writeBad_of_no_rules hboot rfl rfl) (by decide), hm]
  simp [actWrite, R.ACQ_CFG, R.ACQ_CTRL]

theorem exec_acqCtrlPlanNow_live {src : Src} {s : State} (hlive : s.srcLive src = true) (hboot : s.booted = true) :
    exec (.acqCtrlPlanNow src) s = .next { s.onBus src with acq := { s.acq with planNow := true } } := by
  have hexec : exec (.acqCtrlPlanNow src) s = actRow src R.ACQ_CTRL 1 s := rfl
  have hact : actWrite src R.ACQ_CTRL ⟨.acq, 0, ⟨0x0, 0x0, 1, 0x0, 0x0, false, 0x1, 0x0, []⟩, 0⟩ 1 (s.onBus src)
      = { s.onBus src with acq := { (s.onBus src).acq with planNow := true } } := rfl
  have hacq : (s.onBus src).acq = s.acq := by rw [onBus_eq]
  rw [hexec, actRow_acts hlive regAt_acqCtrl (writeBad_of_no_rules hboot rfl rfl) (by decide), hact, hacq]

/-! ## Rebuilds of the plan (R171, R172) -/

theorem exec_planRebuildStart_due {e : Nat} {rest : List Nat} {s : State} (heks : s.acq.eks = e :: rest) (halive : catAlive s = true)
    (hclosed : epochsBy e s = true) : exec .planRebuildStart s = .next (planStart e { s with acq := { s.acq with eks := rest } }) := by
  have hexec : exec .planRebuildStart s = execPlanRebuildStart s := rfl
  simp only [hexec, execPlanRebuildStart, heks, halive, hclosed, Bool.not_true, Bool.or_self, Bool.false_eq_true, if_false]

/-- The first of a list that meets a condition is replaced in its place. -/
theorem rebuildSet_at {p : Rebuild → Bool} {f : Rebuild → List Rebuild} {pre post : List Rebuild} {r : Rebuild} (hpre : ∀ x ∈ pre, p x = false)
    (hr : p r = true) : rebuildSet p f (pre ++ r :: post) = pre ++ (f r ++ post) := by
  induction pre with
  | nil => simp only [List.nil_append, rebuildSet, hr, if_true]
  | cons x pre ih =>
    obtain ⟨hx, hrest⟩ := List.forall_mem_cons.mp hpre
    simp only [List.cons_append, rebuildSet, hx, Bool.false_eq_true, if_false, ih hrest]

theorem exec_planRebuildComplete_at {pre post : List Rebuild} {r : Rebuild} {s : State} (hs : s.acq.rebuilds = pre ++ r :: post)
    (hpre : ∀ x ∈ pre, x.complete = true ∨ x.dead = true) (hrun : r.complete = false) (hlive : r.dead = false) :
    exec .planRebuildComplete s = .next { s with acq := { s.acq with rebuilds := pre ++ { r with complete := true } :: post } } := by
  have hexec : exec .planRebuildComplete s = execPlanRebuildComplete s := rfl
  have hbefore : ∀ x ∈ pre, (!x.complete && !x.dead) = false := fun x hx => by
    rcases hpre x hx with h | h <;> simp [h]
  rw [hexec, execPlanRebuildComplete, hs, rebuildSet_at hbefore (by simp [hrun, hlive])]
  rfl

theorem mem_rebuildSet {f : Rebuild → List Rebuild} {r y : Rebuild} {l : List Rebuild} (hr : r ∈ l) (hy : y ∈ f r) :
    y ∈ rebuildSet (fun x => x == r) f l := by
  induction l with
  | nil => exact absurd hr List.not_mem_nil
  | cons x l ih =>
    unfold rebuildSet
    split
    next hx =>
      obtain rfl : x = r := by simpa using hx
      exact List.mem_append_left _ hy
    next hx =>
      have hne : r ≠ x := fun e => hx (by simp [e])
      exact List.mem_cons_of_mem _ (ih ((List.mem_cons.mp hr).resolve_left hne))

/-! ## Activation (R171, R172) -/

theorem planDue_some {n : Nat} {r : Rebuild} {s : State} (h : planDue n s = some r) : r ∈ s.acq.rebuilds ∧ r.late = false := by
  have hp := List.find?_some h
  simp only [Bool.and_eq_true, Bool.not_eq_true'] at hp
  exact ⟨List.mem_of_find?_eq_some h, hp.1⟩

/-- The state in which event 0x401 says that a generation is active. -/
def planActive (r : Rebuild) (n : Nat) (s : State) : State :=
  ({ s with acq := { s.acq with
      plan := some ⟨nextSeq s.acq.lastGen, r.aN, n, r.ents⟩, planOld := s.acq.plan, rebuilds := s.acq.rebuilds.erase r, lastGen := nextSeq s.acq.lastGen
      td := if r.late then s.acq.td else s.acq.td.map (fun t : Nat × Option Nat => (t.1, some (t.2.getD n))) } }.setReg R.ACQ_PLAN_GEN (nextSeq s.acq.lastGen)).setDt
    R.ACQ_PLAN_SEC R.ACQ_PLAN_FRAC (dtOfCycle r.aN)

theorem planActivate_eq (r : Rebuild) (n : Nat) (s : State) :
    planActivate r n s = raise 0x401 0 uAcq [nextSeq s.acq.lastGen, wd r.ents.length] (planActive r n s) := rfl

theorem exec_planActivate_complete {r : Rebuild} {s : State} (hdue : planDue s.smpNow s = some r) (hon : s.fsOn = true) (hdone : r.complete = true) :
    exec .planActivate s = .next (planActivate r r.aN s) := by
  have hexec : exec .planActivate s = execPlanActivate s := rfl
  simp only [hexec, execPlanActivate, hdue, hon, hdone, Bool.not_true, Bool.false_eq_true, if_false, if_true]

theorem planActive_shows {r : Rebuild} {s : State} (hdue : planDue s.smpNow s = some r) (hon : s.fsOn = true) (hdone : r.complete = true) :
    ∃ u, exec .planActivate s = .next (raise 0x401 0 uAcq [nextSeq s.acq.lastGen, wd r.ents.length] u)
      ∧ u.acq.plan = some ⟨nextSeq s.acq.lastGen, r.aN, r.aN, r.ents⟩ ∧ u.acq.planOld = s.acq.plan ∧ u.acq.rebuilds = s.acq.rebuilds.erase r
      ∧ (∀ a, s.acq.td = some (a, none) → u.acq.td = some (a, some r.aN))
      ∧ u.reg R.ACQ_PLAN_GEN = nextSeq s.acq.lastGen ∧ u.reg R.ACQ_PLAN_SEC = dtSec (dtOfCycle r.aN) ∧ u.reg R.ACQ_PLAN_FRAC = dtFrac (dtOfCycle r.aN) := by
  obtain ⟨-, hontime⟩ := planDue_some hdue
  refine ⟨planActive r r.aN s, exec_planActivate_complete hdue hon hdone, rfl, rfl, rfl, fun a ha => ?_, ?_, ?_, ?_⟩
  · simp [planActive, State.setDt, hontime, ha]
  · rw [planActive, State.setDt_reg_ne _ _ (by decide) (by decide), reg_setReg_same]
  · exact State.setDt_reg_sec _ _ (by decide)
  · exact State.setDt_reg_frac _ _ _ _

/-- The cycle from which jobs carry TD, when a rebuild due at `n` is late: that of an earlier late one where TD stands open. -/
def tdOpen (n : Nat) (s : State) : Option (Nat × Option Nat) := match s.acq.td with
  | some (a, none) => some (a, none)
  | _ => some (n, none)

theorem tdOpen_shows (n : Nat) (s : State) : ∃ a, tdOpen n s = some (a, none) ∧ (s.acq.td = some (a, none) ∨ a = n) := by
  unfold tdOpen
  split
  next a ha => exact ⟨a, rfl, .inl ha⟩
  · exact ⟨n, rfl, .inr rfl⟩

/-- The state in which event 0x402 says that a rebuild is late. -/
def planIsLate (r : Rebuild) (s : State) : State :=
  ({ s with acq := { s.acq with
      rebuilds := rebuildSet (fun x => x == r) (fun x => if x.dead then [] else [{ x with late := true }]) s.acq.rebuilds
      td := tdOpen r.aN s } }.cnt R.ACQ_PLAN_LATE_CNT).sticky R.ACQ_STATUS 5

theorem exec_planActivate_late {r : Rebuild} {s : State} (hdue : planDue s.smpNow s = some r) (hon : s.fsOn = true) (hrun : r.complete = false) :
    exec .planActivate s = .next (raise 0x402 2 uAcq [(s.acq.plan.map (fun p => p.gen)).getD 0] (planIsLate r s)) := by
  have hexec : exec .planActivate s = execPlanActivate s := rfl
  have hkept : (match s.acq.plan with
      | some p => p.gen
      | none => 0 : Word) = (s.acq.plan.map (fun p => p.gen)).getD 0 := by cases s.acq.plan <;> rfl
  rw [← hkept]
  simp only [hexec, execPlanActivate, hdue, hon, hrun, Bool.not_true, Bool.false_eq_true, if_false]
  rfl

theorem planIsLate_shows {r : Rebuild} {s : State} (hdue : planDue s.smpNow s = some r) (hon : s.fsOn = true) (hrun : r.complete = false) :
    ∃ u, exec .planActivate s = .next (raise 0x402 2 uAcq [(s.acq.plan.map (fun p => p.gen)).getD 0] u)
      ∧ (r.dead = false → { r with late := true } ∈ u.acq.rebuilds) ∧ u.acq.plan = s.acq.plan
      ∧ (∃ a, u.acq.td = some (a, none) ∧ (s.acq.td = some (a, none) ∨ a = r.aN))
      ∧ u.reg R.ACQ_PLAN_LATE_CNT = bump (s.reg R.ACQ_PLAN_LATE_CNT) 1 := by
  obtain ⟨hmem, -⟩ := planDue_some hdue
  refine ⟨planIsLate r s, exec_planActivate_late hdue hon hrun, fun hlive => ?_, rfl, tdOpen_shows r.aN s, ?_⟩
  · exact mem_rebuildSet hmem (by simp [hlive])
  · rw [planIsLate, State.sticky_eq, reg_setReg_ne _ _ (by decide), State.cnt_eq, reg_setReg_same]
    rfl

/-! ## Ticks of the scheduler (R171, R172, R174) -/

/-- The state of a tick `n` that has its lists, in which the plan is looked at. -/
def listsTaken (n : Nat) (rest : List Nat) (s : State) : State :=
  listApply n { s with acq := { s.acq with ticks := rest, misses := s.acq.misses.filter (fun m => decide (n < m.n + 255 * 163680000)) } }

/-- A rebuild at a tick where PLAN_NOW has asked for one. -/
def rebuildAsked (n : Nat) (s : State) : State := if s.acq.planNow then planStart n { s with acq := { s.acq with planNow := false } } else s

/-- The state of a tick before its front ends have their part. -/
def tickBegun (n : Nat) (rest : List Nat) (s : State) : State := rebuildAsked n (planLate n (listsTaken n rest s))

theorem exec_schedulerTick_due {n : Nat} {rest : List Nat} {s : State} (hticks : s.acq.ticks = n :: rest) (halive : catAlive s = true)
    (hclosed : epochsBy n s = true) (hdue : planDue n s = none) (hpassed : allPassed n s = true) : exec .schedulerTick s
      = if (tickBegun n rest s).rf R.ACQ_SCHED_CFG 21 20 = 0 then .next (tickBegun n rest s)
        else .next ((List.range 4).foldl (schedFe n) ((tickBegun n rest s).cnt R.ACQ_SCHED_TICKS)) := by
  have hexec : exec .schedulerTick s = execSchedulerTick s := rfl
  simp only [hexec, execSchedulerTick, hticks, halive, hclosed, hdue, hpassed, Option.isSome_none, Bool.not_true, Bool.or_self, Bool.false_eq_true, if_false]
  rfl

theorem TickKeeps.rebuildAsked {s t : State} (h : TickKeeps s t) (n : Nat) : TickKeeps s (rebuildAsked n t) := .ite (h.same.planStart n) h

theorem tickBegun_keeps (n : Nat) (rest : List Nat) (s : State) : TickKeeps (listsTaken n rest s) (tickBegun n rest s) :=
  ((TickKeeps.refl _).planLate n).rebuildAsked n

/-- With no rebuild on its way and none asked for, a tick begins with its lists alone. -/
theorem tickBegun_plain {n : Nat} {rest : List Nat} {s : State} (hnone : s.acq.rebuilds = []) (hnow : s.acq.planNow = false) :
    tickBegun n rest s = listsTaken n rest s := by
  have hrebuilds : (listsTaken n rest s).acq.rebuilds = [] := hnone
  have hoff : (listsTaken n rest s).acq.planNow = false := hnow
  have hlate : planLate n (listsTaken n rest s) = listsTaken n rest s := by simp only [planLate, hrebuilds, List.find?_nil]
  rw [tickBegun, hlate, rebuildAsked, hoff, if_neg Bool.false_ne_true]

theorem schedulerTick_shows {n : Nat} {rest : List Nat} {s : State} (hticks : s.acq.ticks = n :: rest) (halive : catAlive s = true)
    (hclosed : epochsBy n s = true) (hdue : planDue n s = none) (hpassed : allPassed n s = true) :
    ∃ t, exec .schedulerTick s = .next t ∧ t.acq.ticks = rest ∧ t.acq.listDue = s.acq.listDue.filter (fun p => decide (n < p.2.1))
      ∧ (s.rf R.ACQ_SCHED_CFG 21 20 ≠ 0 → t.reg R.ACQ_SCHED_TICKS = bump (s.reg R.ACQ_SCHED_TICKS) 1)
      ∧ (s.rf R.ACQ_SCHED_CFG 21 20 = 0 → s.acq.rebuilds = [] → s.acq.planNow = false → t.regs = s.regs ∧ t.mem = s.mem) := by
  have hbegun := tickBegun_keeps n rest s
  have hmode : (tickBegun n rest s).rf R.ACQ_SCHED_CFG 21 20 = s.rf R.ACQ_SCHED_CFG 21 20 := congrArg (fld · 21 20) hbegun.cfg
  rw [exec_schedulerTick_due hticks halive hclosed hdue hpassed, hmode]
  by_cases hoff : s.rf R.ACQ_SCHED_CFG 21 20 = 0
  · refine ⟨_, if_pos hoff, hbegun.ticks, hbegun.listDue, fun hon => absurd hoff hon, fun _ hnone hnow => ?_⟩
    rw [tickBegun_plain hnone hnow]
    exact ⟨rfl, rfl⟩
  · have hfes : TickKeeps ((tickBegun n rest s).cnt R.ACQ_SCHED_TICKS) ((List.range 4).foldl (schedFe n) ((tickBegun n rest s).cnt R.ACQ_SCHED_TICKS)) :=
      (TickKeeps.refl _).foldl fun _ _ k => k.schedFe _ _
    refine ⟨_, if_neg hoff, hfes.ticks.trans hbegun.ticks, hfes.listDue.trans hbegun.listDue, fun _ => ?_, fun hzero => absurd hzero hoff⟩
    rw [hfes.count, State.cnt_eq, reg_setReg_same, hbegun.count]
    rfl

/-! ## Dwells of fall-back searches (R162, R179, R180) -/

/-- The largest value is not below any of those compared. -/
theorem le_bestStep (l : List (Nat × Int × Nat)) (b : Nat × Int × Nat) : b.2.2 ≤ (bestStep l b).2.2 ∧ ∀ v ∈ l, v.2.2 ≤ (bestStep l b).2.2 := by
  induction l generalizing b with
  | nil => exact ⟨Nat.le_refl _, fun _ hv => absurd hv List.not_mem_nil⟩
  | cons c l ih =>
    obtain ⟨d, hd⟩ : ∃ d, d = if b.2.2 < c.2.2 ∨ (b.2.2 = c.2.2 ∧ (c.1 < b.1 ∨ (c.1 = b.1 ∧ c.2.1 < b.2.1))) then c else b := ⟨_, rfl⟩
    have hup : b.2.2 ≤ d.2.2 ∧ c.2.2 ≤ d.2.2 := by
      rw [hd]
      split <;> omega
    obtain ⟨hfirst, hrest⟩ := ih d
    rw [bestStep, List.forall_mem_cons, ← hd]
    exact ⟨hup.1.trans hfirst, hup.2.trans hfirst, hrest⟩

/-- The largest value is one of those compared. -/
theorem bestStep_mem (l : List (Nat × Int × Nat)) (b : Nat × Int × Nat) : bestStep l b = b ∨ bestStep l b ∈ l := by
  induction l generalizing b with
  | nil => exact .inl rfl
  | cons c l ih =>
    rw [bestStep, List.mem_cons]
    split
    · exact .inr (ih c)
    · exact (ih b).imp_right .inr

theorem bestStep_lt {l : List (Nat × Int × Nat)} {n : Nat} (hpos : 0 < n) (h : ∀ v ∈ l, v.2.2 < n) : (bestStep l (0, 0, 0)).2.2 < n := by
  rcases bestStep_mem l (0, 0, 0) with he | he
  · rw [he]
    exact hpos
  · exact h _ he

section

variable {c : Fin 2048} {f : FbSearch} {e : Nat} {s : State} (hf : s.fbOf c = some f) (hblk : f.job.nnc ≤ f.blk)
  (he : e = f.dwellN + f.job.tcoh * 163680 * f.job.nnc)

include hf hblk he

/-- A value at the threshold ends the search, and its channel goes on from the end of the dwell. -/
theorem exec_fallbackDwellEnd_detects {o : SearchOut} {u : State} (ho : o = fbReport f f.dwellN f.values (f.cells ++ f.values))
    (hu : u = fbClose f true o s) (h : ∃ v ∈ f.values, searchThresh f.job ≤ v.2.2) : exec (.fallbackDwellEnd c) s
      = .next (doAssign (detAssign f.job (some c.val) e o.code o.dopp (dtOfCycle f.dwellN) (s.reg R.ACQ_JOB_SEQ) u) u) := by
  have hexec : exec (.fallbackDwellEnd c) s = execFallbackDwellEnd c s := rfl
  obtain ⟨v, hv, hreach⟩ := h
  have hbest := hreach.trans ((le_bestStep f.values (0, 0, 0)).2 v hv)
  simp only [hexec, execFallbackDwellEnd, hf, Nat.not_lt.mpr hblk, hbest, if_false, if_true, fbCoh, ← he, ← ho, ← hu]

/-- With no value at the threshold the next dwell follows, or after the last the search ends and its channel is given up. -/
theorem exec_fallbackDwellEnd_below {w : State} (hw : w = fbClose f false (fbReport f f.dwellN (f.cells ++ f.values) (f.cells ++ f.values)) s)
    (h : ∀ v ∈ f.values, v.2.2 < searchThresh f.job) (hpos : 0 < searchThresh f.job) : exec (.fallbackDwellEnd c) s
      = if f.dwells ≤ f.dwell + 1 then .next (w.setChan c ((w.chan c).gone e))
        else .next (s.setFb { f with dwell := f.dwell + 1, dwellN := e, blk := 0, pows := [], noise := 0, nsum := f.nsum + f.noise,
                                     ncnt := f.ncnt + 1, cells := f.cells ++ f.values }) := by
  have hexec : exec (.fallbackDwellEnd c) s = execFallbackDwellEnd c s := rfl
  simp only [hexec, execFallbackDwellEnd, hf, Nat.not_lt.mpr hblk, Nat.not_le.mpr (bestStep_lt hpos h), if_false, fbCoh, ← he, ← hw]

end

/-- Settles O38: a write of ACQ_CFG moves each half by its own bit; a rebuild is replaced in its place in the list; what the front ends do in a tick
leaves the ticks, the lists due and their count; and the largest value of a dwell reaches the threshold exactly when one of them does. -/
theorem planSchedulerAndFallback : Obligations.PlanSchedulerAndFallback := by
  unfold Obligations.PlanSchedulerAndFallback
  intro s
  refine ⟨?write, fun src hlive hboot => exec_acqCtrlPlanNow_live hlive hboot, fun e rest heks halive hclosed =>
    exec_planRebuildStart_due heks halive hclosed, fun e => ⟨_, rfl, rfl⟩, fun pre post r hs hpre hrun hlive => exec_planRebuildComplete_at hs hpre hrun hlive,
    fun r hdue hon => ⟨planActive_shows hdue hon, planIsLate_shows hdue hon⟩, fun n rest hticks halive hclosed hdue hpassed =>
    schedulerTick_shows hticks halive hclosed hdue hpassed, ?dwell⟩
  case write =>
    intro src v m l hlive hboot hl hm
    exact ⟨exec_acqCfgWrite_live hlive hboot hl hm, acqCfgSet_cfg m s, fun h => ⟨acqCfgSet_enables, acqCfgSet_disables⟩⟩
  case dwell =>
    intro c f o e u hf hblk ho he hu
    refine ⟨exec_fallbackDwellEnd_detects hf hblk he ho hu, fun hbelow hpos hmore => ?_, fun hbelow hpos hlast => ?_⟩
    · rw [exec_fallbackDwellEnd_below hf hblk he rfl hbelow hpos, if_neg (Nat.not_le.mpr hmore)]
      exact ⟨_, rfl, rfl, rfl, rfl, rfl, rfl⟩
    · rw [exec_fallbackDwellEnd_below hf hblk he rfl hbelow hpos, if_pos hlast]
      exact ⟨_, rfl, rfl⟩

end Sys2Proof.Machine
end

section
/-! Integrations of a correlator channel (R200 to R208, R221): what a row of the channel does where its condition holds, and what the operations of an
integration leave of the channels. -/

namespace Sys2Proof.Machine

/-! ## Operations that leave the channels alone -/

@[simp] theorem storeBits_chans (s : State) (k : Nat) (x : Stored) : (s.storeBits k x).chans = s.chans := by
  unfold State.storeBits
  split
  · rfl
  · rfl

@[simp] theorem storeList_chans (ws : List Word) (k : Nat) (s : State) : (storeList k ws s).chans = s.chans := by
  induction ws generalizing k s with
  | nil => rfl
  | cons w ws ih => exact (ih (k + 1) (s.store k w)).trans (storeBits_chans s k _)

@[simp] theorem pendLine_chans (w l : Nat) (s : State) : (pendLine w l s).chans = s.chans := by
  unfold pendLine
  extract_lets x
  split
  · rfl
  · rfl

theorem Quiet.chans {q : Nat} {s t : State} (h : Quiet q s t) : t.chans = s.chans := (congrArg State.chans h.1 :)

@[simp] theorem raise_chans (code sev unit : Nat) (ps : List Word) (s : State) : (raise code sev unit ps s).chans = s.chans :=
  (Quiet.raise (q := 2) (by decide) code sev unit ps s).chans

theorem chan_eq_of_chans {s t : State} (h : t.chans = s.chans) (c : Nat) : t.chan c = s.chan c := congrArg (tget (fun _ => Chan.free) · c) h

theorem navFails_chans (c : Nat) (x : Chan) (d : Dt) (ms : List NavMsg) (s : State) : (navFails c x d ms s).chans = s.chans := by
  induction ms generalizing s with
  | nil => rfl
  | cons m ms ih =>
    have hfail : (navFail c x d m s).chans = s.chans := by
      unfold navFail
      extract_lets s' key rr
      split
      · rfl
      · split
        · rfl
        · exact raise_chans _ _ _ _ _
    exact (ih _).trans hfail

theorem loopRaise_chans (c : Nat) (es : List (Nat × Nat × List Word)) (s : State) : (loopRaise c es s).chans = s.chans := by
  induction es generalizing s with
  | nil => rfl
  | cons e es ih => exact (ih _).trans (raise_chans _ _ _ _ _)

/-! ## The start of an integration -/

section

variable {c : Fin 2048} {s : State} (hst : startable c s = true)

include hst

section

variable (hcond : (s.chan c).cond ≠ 3) (hstop : (s.chan c).stopAct = none) (hhas : chHas (s.chan c) (s.chan c).nextN s = true)

include hcond hstop hhas

theorem exec_integrationStart_reads (hfb : s.fbOf c = none) : exec (.integrationStart c) s = .next (tokenRead c false s) := by
  show execIntegrationStart c s = _
  simp [execIntegrationStart, hst, hcond, hstop, hhas, hfb]

theorem exec_integrationStart_dwells {f : FbSearch} (hfb : s.fbOf c = some f) : exec (.integrationStart c) s = .next (fbBegin c f s) := by
  show execIntegrationStart c s = _
  simp [execIntegrationStart, hst, hcond, hstop, hhas, hfb]

end

theorem exec_integrationStart_stops {a : Nat} (hcond : (s.chan c).cond ≠ 3) (hstop : (s.chan c).stopAct = some a)
    (hproc : (s.chan c).j ≤ (s.chan c).proc) : exec (.integrationStart c) s = .next (chanRelease c a (s.chan c).nextN s) := by
  show execIntegrationStart c s = _
  simp [execIntegrationStart, hst, hstop, hcond, Nat.not_lt.mpr hproc]

theorem exec_tokenLatch_waiting (hcond : (s.chan c).cond = 3) : exec (.tokenLatch c) s = .next (tokenRead c true s) :=
  if_pos (by simp [hst, hcond])

end

theorem cfgTake_nil {c : Nat} {s : State} (h : (s.chan c).cfgAt = []) : cfgTake c s = s := by
  simp [cfgTake, h]

section

variable {c : Nat} {s v : State} {ws : List Word} (hcfg : (s.chan c).cfgAt = []) (hread : slotRead c (s.chan c).j [0] [] s = (v, .inl ws))

include hcfg hread

/-- The token is there and the slot is valid: it is latched whole (R203). -/
theorem tokenRead_latches (again : Bool) {v' : State} {sl : List Word} (htok : fld (ws.getD 0 0) 35 20 = (s.chan c).j % 65536)
    (hslot : slotRead c (s.chan c).j [1, 2, 3, 4, 5, 6] ws v = (v', .inl sl)) (hgood : slotBad (s.chan c).sig sl = false)
    (hgo : bit (ws.getD 0 0) 19 = false) : tokenRead c again s = integBegin c sl false v' := by
  unfold tokenRead
  simp only [cfgTake_nil hcfg, hread, htok, hslot, hgood, hgo, if_true, if_false, Bool.false_eq_true]

/-- The token is not there: the channel waits, or goes on waiting (R203). -/
theorem tokenRead_waits (again : Bool) (htok : fld (ws.getD 0 0) 35 20 ≠ (s.chan c).j % 65536) (hfree : (s.chan c).freerun = false) :
    tokenRead c again s = if again then v else (v.setChan c { s.chan c with cond := 3, waited := true }).cnt (R.WG_TOKEN_WAIT_CNT (c / 128)) := by
  unfold tokenRead
  simp only [cfgTake_nil hcfg, hread, if_neg htok, hfree, Bool.false_eq_true, if_false]

end

/-- Above the shared store a word written arms and marks nothing, so that every register stays. -/
theorem storeList_above_reg (ws : List Word) {k : Nat} (hk : 4194304 ≤ k) (s : State) (o : Nat) : (storeList k ws s).reg o = s.reg o := by
  induction ws generalizing k s with
  | nil => rfl
  | cons w ws ih =>
    have hstore : (s.store k w).reg o = s.reg o := by
      rw [store_unarmed w fun hlt => absurd hlt (Nat.not_lt.mpr hk), reg_putStored]
    exact (ih (Nat.le_succ_of_le hk) _).trans hstore

theorem kBuf_above (c j : Nat) : 4194304 ≤ kBuf c j := by
  rw [kBuf, kCsm, Nat.add_assoc]
  exact Nat.le_add_right_of_le (by decide)

theorem resultHeader_tapRate (c j : Nat) (ws : List Word) (w : Word) (s : State) (n t : Nat) :
    ((storeList (kBuf c j + 1) ws s).store (kBuf c j) w).tapRate n t = s.tapRate n t := by
  have hreg : ((storeList (kBuf c j + 1) ws s).store (kBuf c j) w).reg (R.CHZ_TAP_CFG n t) = s.reg (R.CHZ_TAP_CFG n t) :=
    (storeList_above_reg [w] (kBuf_above c j) _ _).trans (storeList_above_reg ws (Nat.le_succ_of_le (kBuf_above c j)) s _)
  rw [State.tapRate, State.rf, hreg, State.tapRate, State.rf]

/-- What a channel shows as integration j begins with its token (R200, R201, R203). -/
theorem integBegin_shows (c : Nat) (ws : List Word) (s : State) {x : Chan} (hx : x = (integBegin c ws false s).chan c) {p : Nat}
    (hp : p = (jumpPos (sigRow (s.chan c).sig) (s.chan c).svk (s.chan c).pos (ws.getD 4 0).toInt).1) :
    x.running = true ∧ x.cond = 2 ∧ x.slot = ws ∧ x.j = (s.chan c).j ∧ x.phi = ((s.chan c).phi + (ws.getD 3 0).toNat) % two36 ∧ x.pos = p
      ∧ x.runTd = false ∧ x.endN = (s.chan c).nextN
        + integSamples (sigRow (s.chan c).sig) p (fld (ws.getD 0 0) 6 0) (ws.getD 2 0).toNat * tapDec (s.tapRate (s.chan c).fe (s.chan c).tap) := by
  have hchan := hx.trans (State.setChan_chan_same _ _ _)
  subst hp
  rw [hchan]
  exact ⟨rfl, rfl, rfl, rfl, rfl, rfl, rfl, congrArg (fun r => (s.chan c).nextN + _ * tapDec r) (resultHeader_tapRate c _ _ _ s _ _)⟩

/-! ## The end of an integration -/

theorem lagNote_dt (c : Nat) (s : State) : (lagNote c s).dt = s.dt := by
  unfold lagNote State.maxF
  extract_lets x
  split
  · rfl
  · rfl

theorem integFinish_chan_same (c e : Nat) (s : State) : ((integFinish c e 0 s).chan c).j = (s.chan c).j + 1
    ∧ ((integFinish c e 0 s).chan c).running = false ∧ ((integFinish c e 0 s).chan c).nextN = e := by
  have hchan : (integFinish c e 0 s).chan c = _ := State.setChan_chan_same _ _ _
  rw [hchan]
  exact ⟨rfl, rfl, rfl⟩

theorem integFinish_chan_ne {c d : Nat} (e flags : Nat) (s : State) (hd : d ≠ c) : (integFinish c e flags s).chan d = s.chan d := by
  unfold integFinish
  extract_lets x _ _ bad _ s1
  split
  extract_lets _ s2 s3 s4 _ _ s5 s6 _
  rw [State.setChan_chan_ne _ _ hd]
  have h3 : s3.chans = s.chans := by simp [s3, s2, s1, State.store]
  have h4 : s4.chans = s3.chans := by
    unfold s4
    split
    · rfl
    · rfl
  have h6 : s6.chans = s4.chans := by
    unfold s6
    split
    · split
      · rfl
      · rfl
    · rfl
  exact chan_eq_of_chans (h6.trans (h4.trans h3)) d

section

variable {c : Fin 2048} {e : Nat} {s : State} (hrun : (s.chan c).running = true) (hlag : chLag (s.chan c) s ≤ 327360)
  (hhas : chHas (s.chan c) (lastBefore e (s.chan c) s) s = true)

include hrun hlag hhas

theorem exec_integrationEnd_there (he : e = endEff (s.chan c) s) {x : Chan} {u : State} (hcorr : corrTo e (s.chan c) (lagNote c s) = (x, u)) :
    exec (.integrationEnd c) s = .next (integFinish c e 0 (u.setChan c x)) := by
  show execIntegrationEnd c s = _
  simp only [execIntegrationEnd, ← he, hrun, Nat.not_lt.mpr hlag, hhas, hcorr, Bool.not_true, decide_false, Bool.or_true, Bool.or_self,
    Bool.false_eq_true, if_false]

section

variable (he : e = min (((s.chan c).segN / 81840 + 1) * 81840) (endEff (s.chan c) s)) (hseg : (s.chan c).segN < e)

include he hseg

theorem exec_residueCheckpoint_agree (r : Bool) {x : Chan} {u : State} (hcorr : corrTo e (s.chan c) (lagNote c s) = (x, u)) :
    exec (.residueCheckpoint c false r) s = .next (u.setChan c x) := by
  show execResidueCheckpoint c false r s = _
  simp only [execResidueCheckpoint, ← he, hrun, Nat.not_lt.mpr hlag, Nat.not_le.mpr hseg, hhas, hcorr, Bool.not_true, Bool.not_false, decide_false,
    Bool.or_self, Bool.false_eq_true, if_false, if_true]

theorem exec_residueCheckpoint_retried {x : Chan} {u v : State}
    (hjudge : faultJudge (uCh c) 0 true s.dt ((lagNote c s).sticky (R.WG_STATUS (c.val / 128)) 0) = (none, v))
    (hcorr : corrTo e (s.chan c) v = (x, u)) : exec (.residueCheckpoint c true true) s
      = .next (raise 0x505 0 (uCh c) [wd x.j] ((u.setChan c x).cnt (R.WG_RETRY_CNT (c.val / 128)))) := by
  have hdt : ((lagNote c s).sticky (R.WG_STATUS (c.val / 128)) 0).dt = s.dt := by
    rw [State.sticky_eq, State.setReg_dt, lagNote_dt]
  show execResidueCheckpoint c true true s = _
  simp only [execResidueCheckpoint, ← he, hrun, Nat.not_lt.mpr hlag, Nat.not_le.mpr hseg, hhas, hdt, hjudge, hcorr, Bool.not_true, decide_false,
    Bool.or_self, Bool.false_eq_true, if_false]

end

end

/-! ## The loop program: where a channel stands in its integrations -/

/-- The integration a channel correlates next and the one its loop program processes next. -/
def Chan.place (x : Chan) : Nat × Nat := (x.j, x.proc)

theorem ite_place {p : Prop} [Decidable p] {x y z : Chan} (hx : x.place = z.place) (hy : y.place = z.place) : (if p then x else y).place = z.place := by
  split
  · exact hx
  · exact hy

theorem ite_run_place {p : Prop} [Decidable p] {q r : LoopRun} {z : Chan} (hq : q.x.place = z.place) (hr : r.x.place = z.place) :
    (if p then q else r).x.place = z.place := by
  split
  · exact hq
  · exact hr

theorem loopRow_place {on : Bool} {f : LoopRun → LoopRun} (r : LoopRun) (hf : ∀ q, (f q).x.place = q.x.place) : (loopRow on f r).x.place = r.x.place :=
  ite_run_place (hf r) rfl

theorem loopEv_place (ps : List Word) (b code sev : Nat) (params : List Word) {r : LoopRun} {z : Chan} (h : r.x.place = z.place) :
    (loopEv ps b code sev params r).x.place = z.place :=
  ite_run_place h h

theorem loopLoad_place (c : Nat) (x : Chan) (s : State) : (loopLoad c x s).place = x.place := rfl

theorem loopFilter_place (ps : List Word) (k : Contrib) (buf : List Word) (coast : Bool) (x : Chan) :
    (loopFilter ps k buf coast x).1.place = x.place := rfl

theorem lockTake_place (ps : List Word) (k : Contrib) (buf : List Word) (rate : Nat) (x : Chan) : (lockTake ps k buf rate x).1.place = x.place := rfl

theorem syncFeed_place (k : Contrib) (buf : List Word) (coast flip : Bool) (x : Chan) (s : State) : (syncFeed k buf coast flip x s).place = x.place :=
  ite_place rfl rfl

theorem loopStates_place (ps : List Word) (k : Contrib) (coast wasEng : Bool) (o : LoopLock) (r : LoopRun) :
    (loopStates ps k coast wasEng o r).x.place = r.x.place := by
  unfold loopStates
  extract_lets e lock good x cnt weakN r0 r1 r2 r3 r4 r5 r6 r7 r8
  have h0 : r0.x.place = r.x.place := rfl
  have h1 : r1.x.place = r0.x.place := loopRow_place r0 fun _ => rfl
  have h2 : r2.x.place = r1.x.place := loopRow_place r1 fun _ => rfl
  have h3 : r3.x.place = r2.x.place := loopRow_place r2 fun _ => loopEv_place _ _ _ _ _ rfl
  have h4 : r4.x.place = r3.x.place := loopRow_place r3 fun _ => rfl
  have h5 : r5.x.place = r4.x.place := loopRow_place r4 fun _ => rfl
  have h6 : r6.x.place = r5.x.place := loopRow_place r5 fun _ => rfl
  have h7 : r7.x.place = r6.x.place := loopRow_place r6 fun _ => rfl
  have h8 : r8.x.place = r7.x.place := loopRow_place r7 fun _ => ite_run_place (loopEv_place _ _ _ _ _ rfl) rfl
  rw [loopRow_place (f := loseChan 2) r8 fun _ => rfl, h8, h7, h6, h5, h4, h3, h2, h1, h0]

theorem bumpStep_place (ps buf : List Word) (coast : Bool) (r : LoopRun) : (bumpStep ps buf coast r).x.place = r.x.place := by
  unfold bumpStep
  refine ite_run_place rfl (ite_run_place rfl ?_)
  exact ite_run_place rfl (loopEv_place _ _ _ _ _ rfl)

theorem halfResolve_place (ps : List Word) (inv : Bool) (r : LoopRun) : (halfResolve ps inv r).x.place = r.x.place :=
  ite_run_place rfl (loopEv_place _ _ _ _ _ rfl)

theorem syncTake_place (ps : List Word) (k : Contrib) (buf : List Word) (s : State) (r : LoopRun) : (syncTake ps k buf s r).x.place = r.x.place := by
  unfold syncTake
  split
  · exact ite_run_place rfl rfl
  · extract_lets _ x0 x1 _ x2 r'
    have hx : x2.place = r.x.place := ite_place rfl rfl
    have hr : r'.x.place = r.x.place := loopEv_place _ _ _ _ _ hx
    exact ite_run_place ((halfResolve_place _ _ _).trans hr) hr

theorem decodeTake_place (k : Contrib) (o : NavOut) (s : State) (x : Chan) : (decodeTake k o s x).place = x.place := by
  unfold decodeTake
  extract_lets whole x'
  split
  · rfl
  · exact ite_place rfl (ite_place rfl rfl)

theorem slotTake_place (c : Nat) (k : Contrib) (o : NavOut) (s : State) (r : LoopRun) : (slotTake c k o s r).x.place = r.x.place := by
  unfold slotTake
  split
  · rfl
  · exact ite_run_place rfl (ite_run_place rfl rfl)

theorem loopPost_place (c : Nat) (ps : List Word) (dopp dll : Rat) (x : Chan) (s : State) : (loopPost c ps dopp dll x s).1.place = x.place := by
  unfold loopPost
  extract_lets
  split
  · split
    · rfl
    · rfl
  · rfl

/-! ## The loop program: what it leaves of a channel -/

theorem loopAdopt_chan (g : LoopChg) (c : Nat) (s : State) : ∃ n, (loopAdopt g s).chan c = { s.chan c with set := n } := by
  unfold loopAdopt
  split
  next d _ =>
    split
    · exact ⟨_, rfl⟩
    · by_cases hd : c = d
      · subst hd
        exact ⟨_, State.setChan_chan_same _ _ _⟩
      · exact ⟨_, State.setChan_chan_ne _ _ hd⟩
  · exact ⟨_, rfl⟩
  · exact ⟨_, rfl⟩

/-- Adopting the changes that wait gives a channel at most another parameter set (R224). -/
theorem loopMerge_chan (c : Nat) (s : State) : ∃ n, (loopMerge s).chan c = { s.chan c with set := n } := by
  unfold loopMerge
  generalize s.loop.chg = gs
  induction gs generalizing s with
  | nil => exact ⟨_, rfl⟩
  | cons g gs ih =>
    unfold loopMergeGo
    split
    · obtain ⟨m, hm⟩ := loopAdopt_chan g c s
      obtain ⟨n, hn⟩ := ih (loopAdopt g s)
      exact ⟨n, by rw [hn, hm]⟩
    · exact ⟨_, rfl⟩

/-- `y` is the channel `x` with its next integration, `k`, processed. -/
structure Processed (k : Contrib) (x y : Chan) : Prop where
  proc : y.proc = x.proc + 1
  j : y.j = x.j
  lli : y.lli = false
  done : ∀ z ∈ y.contribs, z.j = k.j → z.done = true

/-- Marking the integration processed leaves none of its number unmarked. -/
theorem done_of_mem_map {k : Contrib} {f : Contrib → Contrib} {ys : List Contrib} (hown : ∀ y, y.j = k.j → (f y).done = true)
    (hother : ∀ y, y.j ≠ k.j → f y = y) : ∀ z ∈ ys.map f, z.j = k.j → z.done = true := by
  intro z hz hj
  obtain ⟨y, -, rfl⟩ := List.mem_map.mp hz
  by_cases hy : y.j = k.j
  · exact hown y hy
  · exact absurd (hother y hy ▸ hj) hy

/-- Every stage before the commit, and the posting of the token, keep the channel's place; the update after them counts the integration, and what
follows that leaves the channel but for its parameter set (R221). -/
theorem loopProcess_processed (c : Nat) (budgetTrap : Bool) (k : Contrib) (s : State) :
    Processed k (s.chan c) ((loopProcess c budgetTrap k s).chan c) := by
  unfold loopProcess
  extract_lets x g d set ps buf coast rate wasEng o
  split
  next filtered dopp dll efilter =>
  split
  next locked lk elock =>
  extract_lets fed r0 states bump sync pilot half decoded slot _ stop trap final s1
  split
  next posted s2 epost =>
  extract_lets done entry hook s3 s4 s5
  have hfilter : filtered.place = x.place :=
    (congrArg (fun q => q.1.place) efilter).symm.trans ((loopFilter_place _ _ _ _ _).trans (loopLoad_place _ _ _))
  have hlock : locked.place = filtered.place := by
    split at elock
    · rw [← (Prod.mk.inj elock).1]
    · exact (congrArg (fun q => q.1.place) elock).symm.trans (lockTake_place _ _ _ _ _)
  have hfed : fed.place = locked.place := ite_place (syncFeed_place _ _ _ _ _ _) rfl
  have hstates : states.x.place = fed.place := loopStates_place _ _ _ _ _ r0
  have hbump : bump.x.place = states.x.place := bumpStep_place _ _ _ _
  have hsync : sync.x.place = bump.x.place := ite_run_place (syncTake_place _ _ _ _ _) rfl
  have hpilot : pilot.x.place = sync.x.place := ite_run_place (halfResolve_place _ _ _) rfl
  have hhalf : half.x.place = pilot.x.place := by
    refine ite_run_place rfl ?_
    split
    · exact halfResolve_place _ _ _
    · rfl
  have hdecoded : decoded.x.place = half.x.place := ite_run_place rfl (decodeTake_place _ _ _ _)
  have hslot : slot.x.place = decoded.x.place := ite_run_place rfl (slotTake_place _ _ _ _ _)
  have hstop : stop.x.place = slot.x.place := ite_run_place rfl rfl
  have htrap : final.place = stop.x.place := ite_run_place rfl rfl
  have hposted : posted.place = final.place := (congrArg (fun q => q.1.place) epost).symm.trans (loopPost_place _ _ _ _ _ _)
  have hplace : posted.place = x.place := by
    rw [hposted, htrap, hstop, hslot, hdecoded, hhalf, hpilot, hsync, hbump, hstates, hfed, hlock, hfilter]
  have hnav : s4.chans = s3.chans := by
    unfold s4
    split
    · rfl
    · exact navFails_chans _ _ _ _ _
  have hhook : (if hook then hookEnter c k.j entry ps s5 else s5).chans = s5.chans := by
    split
    · rfl
    · rfl
  have hchans := hhook.trans ((loopRaise_chans c trap.evs s4).trans hnav)
  obtain ⟨n, hmerge⟩ := loopMerge_chan c (if hook then hookEnter c k.j entry ps s5 else s5)
  rw [hmerge, chan_eq_of_chans hchans c, State.setChan_chan_same]
  exact ⟨congrArg (·.2 + 1) hplace, congrArg Prod.fst hplace, rfl,
    done_of_mem_map (fun y hy => congrArg Contrib.done (if_pos hy)) fun y hy => if_neg hy⟩

theorem exec_loopProcessIntegration_ready {c : Fin 2048} {s : State} {k : Contrib} (b : Bool) (hready : loopReady c s = some k) :
    exec (.loopProcessIntegration c b) s = .next (loopProcess c b k s) := by
  show execLoopProcessIntegration c b s = _
  simp only [execLoopProcessIntegration, hready]

theorem loopProcess_dt (c : Nat) (budgetTrap : Bool) (k : Contrib) (s : State) : (loopProcess c budgetTrap k s).dt = s.dt := by
  have hframe : Frame true s (loopProcess c budgetTrap k s) := (Frame.refl s).loopProcess
  obtain ⟨-, -, hdt⟩ := hframe.clock
  exact hdt

/-- Settles O41: each row is the branch of its condition; what an integration shows at its start and end is the record it sets last, since the words
it stores lie above the banks and touch no register; and the loop program keeps the channel's place in its integrations until it counts the one
processed. -/
theorem channelIntegrationsRun : Obligations.ChannelIntegrationsRun := by
  unfold Obligations.ChannelIntegrationsRun
  intro c s
  refine ⟨?start, fun hst hcond a hstop hproc => exec_integrationStart_stops hst hcond hstop hproc, fun hst hcond => exec_tokenLatch_waiting hst hcond,
    ?token, fun ws x hx p hp => integBegin_shows c ws s hx hp, ?finish, fun e => ?next, ?checkpoint, fun b k hready => ?loop⟩
  case start =>
    intro hst hcond hstop hhas
    exact ⟨exec_integrationStart_reads hst hcond hstop hhas, fun f => exec_integrationStart_dwells hst hcond hstop hhas⟩
  case token =>
    intro again v ws hcfg hread
    exact ⟨fun htok v' sl hslot hgood hgo => tokenRead_latches hcfg hread again htok hslot hgood hgo,
      fun htok hfree => tokenRead_waits hcfg hread again htok hfree⟩
  case finish =>
    intro e he hrun hlag hhas
    exact ⟨_, _, rfl, exec_integrationEnd_there hrun hlag hhas he rfl⟩
  case next =>
    obtain ⟨hj, hrun, hnext⟩ := integFinish_chan_same c e s
    exact ⟨hj, hrun, hnext, fun d hd => integFinish_chan_ne e 0 s (Fin.val_ne_of_ne hd)⟩
  case checkpoint =>
    intro e he hrun hseg hlag hhas
    exact ⟨fun x u r hcorr => exec_residueCheckpoint_agree hrun hlag hhas he hseg r hcorr,
      fun x u v hjudge hcorr => exec_residueCheckpoint_retried hrun hlag hhas he hseg hjudge hcorr⟩
  case loop =>
    obtain ⟨hproc, hj, hlli, hdone⟩ := loopProcess_processed c b k s
    exact ⟨_, exec_loopProcessIntegration_ready b hready, hproc, hj, hlli, hdone, loopProcess_dt c b k s⟩

end Sys2Proof.Machine
end

section
/-! Commands of groups 0x6 and 0x7 (R266, R295, R315) and of group 0x8 (R324, R335, R338, R346): what a solution command does at its epoch, and the
registers each configuration leaves. -/

namespace Sys2Proof.Machine

set_option Elab.async false

/-! ## Solution and Catalogue commands (R295) -/

/-- A solution or Catalogue command waits for its epoch. -/
theorem takes_epochSpec {row : Packet → Instr} {op : Nat} {lens : Nat → Bool} {resv parm : Packet → State → Bool} {buf : Option (Nat × Bool)}
    (hr : ∀ p s, exec (row p) s = .next (consumeCmd (epochSpec op lens resv parm buf) p s)) (h : HeldCmd) (u : State) :
    Takes row (epochSpec op lens resv parm buf) h u { u with waitReply := u.waitReply ++ [(64, h)] } := takes_of hr rfl

section

variable {h : HeldCmd} {te : Dt} {u : State}

theorem epochApply_solMode (hop : h.op = 0x611) : epochApply h te u = solModeApply h.pk te u := by simp [epochApply, hop]
theorem epochApply_solPosition (hop : h.op = 0x612) : epochApply h te u = solPositionApply h.pk te u := by simp [epochApply, hop]
theorem epochApply_solSteer (hop : h.op = 0x614) : epochApply h te u = solSteerApply h.pk te u := by simp [epochApply, hop]
theorem epochApply_catLoad (hop : h.op = 0x615) : epochApply h te u = catLoadApply h.pk u := by simp [epochApply, hop]

end

theorem solModeApply_unheld {p : Packet} {te : Dt} {s : State} (hmode : p.pf 0 35 33 = 3) (hheld : bit (s.reg R.SOL_MODE) 3 = false) :
    solModeApply p te s = (5, [], s) := by
  simp [solModeApply, hmode, hheld]

theorem solModeApply_moving {p : Packet} {te : Dt} {s : State} (hmode : p.pf 0 35 33 < 2) : solModeApply p te s
    = (0, dtWords te, solSetMode s.solCore (p.pf 0 35 33) (meanClear { s with sol := { s.sol with fdeRun := 0 } })) := by
  have h2 : p.pf 0 35 33 ≠ 2 := by omega
  have h3 : p.pf 0 35 33 ≠ 3 := by omega
  simp only [solModeApply, h2, h3, false_and, if_false, if_pos (show p.pf 0 35 33 < 3 by omega)]
  rfl

theorem solPositionApply_aid {p : Packet} {te : Dt} {s : State} (haid : bit (p.par 3) 0 = false) : solPositionApply p te s
    = (0, dtWords te, { s with sol := { s.sol with posAid := [p.par 0, p.par 1, p.par 2, wd (p.pf 3 35 18)] } }) := by
  simp [solPositionApply, haid]

theorem solSteerApply_no_gain {p : Packet} {te : Dt} {s : State} (hen : bit (p.par 0) 0 = true) (hgain : s.reg R.OSS_GAIN = 0) :
    solSteerApply p te s = (5, [], s) := by
  simp [solSteerApply, hen, hgain]

/-! ## TP_CONFIG (R299, R304) -/

/-- The registers that a TP_CONFIG writes. -/
def tpCfgRegs (n : Nat) : List Nat := [R.TP_CFG n, R.TP_PERIOD n, R.TP_WIDTH n, R.TP_OFS n, R.TP_SLEW n, R.TP_JUMP_TH n]

theorem evReg_tpCfgRegs : ∀ n < 4, ∀ o ∈ tpCfgRegs n, evReg 2 o = false := by decide

theorem evReg_tpState : ∀ n < 4, evReg 2 (R.TP_STATE n) = false := by decide

theorem tpcState_not_mem (n : Nat) : R.TPC_STATE ∉ tpCfgRegs n := by
  simp only [tpCfgRegs, R.TPC_STATE, R.TP_CFG, R.TP_PERIOD, R.TP_WIDTH, R.TP_OFS, R.TP_SLEW, R.TP_JUMP_TH, List.mem_cons, List.not_mem_nil, or_false]
  omega

/-- `t` has the configuration that output `n` has in `s`. -/
def TpKeeps (n : Nat) (s t : State) : Prop := ∀ o ∈ tpCfgRegs n, t.reg o = s.reg o

namespace TpKeeps

variable {n : Nat} {s t u : State}

theorem refl (n : Nat) (s : State) : TpKeeps n s s := fun _ _ => rfl

theorem ite {c : Prop} {_ : Decidable c} (ht : TpKeeps n s t) (hu : TpKeeps n s u) : TpKeeps n s (if c then t else u) := by
  split
  · exact ht
  · exact hu

theorem setReg {a : Nat} (h : TpKeeps n s t) (ha : a ∉ tpCfgRegs n) (v : Word) : TpKeeps n s (t.setReg a v) :=
  fun o ho => (reg_setReg_ne t v (ne_of_mem_of_not_mem ho ha)).trans (h o ho)

theorem setTp (h : TpKeeps n s t) (x : TpSt) : TpKeeps n s (t.setTp n x) := h

theorem raise (h : TpKeeps n s t) (hn : n < 4) (code sev unit : Nat) (ps : List Word) : TpKeeps n s (raise code sev unit ps t) :=
  fun o ho => (raise_reg (evReg_tpCfgRegs n hn o ho) code sev unit ps t).trans (h o ho)

theorem tpSetState (h : TpKeeps n s t) (hn : n < 4) (v : Nat) : TpKeeps n s (tpSetState n v t) :=
  ite h (((h.setReg (by simp [tpCfgRegs]) _).setReg (tpcState_not_mem n) _).raise hn _ _ _ _)

theorem tpSlewFrom (h : TpKeeps n s t) (d : Int) (at_ : Dt) : TpKeeps n s (tpSlewFrom n d at_ t) :=
  ((h.setTp _).setReg (by simp [tpCfgRegs]) _).setReg (by simp [tpCfgRegs]) _

theorem tpAlign (h : TpKeeps n s t) (fresh : Bool) : TpKeeps n s (tpAlign n fresh t) := (h.setTp _).setReg (by simp [tpCfgRegs]) _

end TpKeeps

theorem tpSetState_tpState {n v : Nat} (hn : n < 4) (hv : v < 8) (s : State) : (tpSetState n v s).tpState n = v := by
  unfold tpSetState
  extract_lets o s1
  split
  next hsame => exact hsame
  next =>
    have hreg : s1.reg (R.TP_STATE n) = (s.setF (R.TP_STATE n) 2 0 v).reg (R.TP_STATE n) := reg_setReg_ne _ _ (by unfold R.TP_STATE R.TPC_STATE; omega)
    rw [State.tpState, State.rf, raise_reg (evReg_tpState n hn), hreg]
    exact (rf_setF_same s _ v (by decide) (by decide)).trans (Nat.mod_eq_of_lt hv)

/-- The six registers of output `n` as a TP_CONFIG writes them. -/
def tpWritten (n : Nat) (p : Packet) (s : State) : State :=
  (((((s.setReg (R.TP_CFG n) (p.par 1)).setReg (R.TP_PERIOD n) (p.par 2)).setReg (R.TP_WIDTH n) (p.par 3)).setReg (R.TP_OFS n) (p.par 4)).setReg
    (R.TP_SLEW n) (p.par 5)).setReg (R.TP_JUMP_TH n) (p.par 6)

theorem tpWritten_tpState (n : Nat) (p : Packet) (s : State) : (tpWritten n p s).tpState n = s.tpState n := by
  simp [tpWritten, State.tpState, State.rf, reg_setReg]

/-- What follows the write leaves the configuration written. -/
theorem tpConfigSpec_keeps (h : HeldCmd) (u : State) :
    TpKeeps (h.pk.pf 0 1 0) (tpWritten (h.pk.pf 0 1 0) h.pk u) (tpConfigSpec.eff h u).2 := by
  have hn : h.pk.pf 0 1 0 < 4 := fld_lt _ 1 0
  dsimp -zeta only [tpConfigSpec]
  extract_lets p n _ _ _ _ _ _ _ w v _ x t
  have hw : TpKeeps n (tpWritten n p u) w := .refl n _
  have hv : TpKeeps n (tpWritten n p u) v := .ite (hw.tpSlewFrom _ _) hw
  have hx : TpKeeps n (tpWritten n p u) x := hv.setTp _
  exact .ite (.ite (hv.tpSetState hn 1) hv) (.ite (.ite (hv.setTp _) ((hv.setTp _).tpSetState hn 0)) (.ite ((hx.tpSlewFrom _ _).tpAlign _) hx))

theorem tpConfigSpec_done (h : HeldCmd) (u : State) : tpConfigSpec.eff h u = (.done (dtWords (atSample h u)), (tpConfigSpec.eff h u).2) := by
  obtain ⟨-, -, hdt⟩ := (Frame.tpConfigSpec_framed.eff (h := h) (Frame.refl u)).clock
  rw [← atSample_congr hdt]
  rfl

theorem tpConfigSpec_enables {h : HeldCmd} {u : State} (hst : u.tpState (h.pk.pf 0 1 0) = 0) (hen : bit (h.pk.par 1) 28 = true) :
    (tpConfigSpec.eff h u).2 = tpSetState (h.pk.pf 0 1 0) 1 (tpWritten (h.pk.pf 0 1 0) h.pk u) := by
  simp [tpConfigSpec, hst, hen, tpWritten]

theorem tpConfigSpec_disables {h : HeldCmd} {u : State} (hst : u.tpState (h.pk.pf 0 1 0) = 1) (hen : bit (h.pk.par 1) 28 = false) :
    (tpConfigSpec.eff h u).2
      = tpSetState (h.pk.pf 0 1 0) 0 ((tpWritten (h.pk.pf 0 1 0) h.pk u).setTp (h.pk.pf 0 1 0) TpSt.idle) := by
  simp [tpConfigSpec, hst, hen, tpWritten]

theorem takes_tpConfig (h : HeldCmd) (u : State) {n : Nat} (hn : n = h.pk.pf 0 1 0) :
    ∃ t, Takes .tpConfig tpConfigSpec h u (reply h 0 (atSample h u) (dtWords (atSample h u)) t)
      ∧ t.reg (R.TP_CFG n) = h.pk.par 1 ∧ t.reg (R.TP_PERIOD n) = h.pk.par 2 ∧ t.reg (R.TP_WIDTH n) = h.pk.par 3 ∧ t.reg (R.TP_OFS n) = h.pk.par 4
      ∧ t.reg (R.TP_SLEW n) = h.pk.par 5 ∧ t.reg (R.TP_JUMP_TH n) = h.pk.par 6
      ∧ (u.tpState n = 0 → bit (h.pk.par 1) 28 = true → t.tpState n = 1) ∧ (u.tpState n = 1 → bit (h.pk.par 1) 28 = false → t.tpState n = 0) := by
  have hlt : n < 4 := hn ▸ fld_lt _ 1 0
  have hkeeps := tpConfigSpec_keeps h u
  rw [← hn] at hkeeps
  have hreg {o : Nat} (ho : o ∈ tpCfgRegs n) : (tpConfigSpec.eff h u).2.reg o = (tpWritten n h.pk u).reg o := hkeeps o ho
  refine ⟨_, takes_done (fun _ _ => rfl) (tpConfigSpec_done h u), ?_, ?_, ?_, ?_, ?_, ?_, fun hst hen => ?_, fun hst hen => ?_⟩
  case refine_7 =>
    subst hn
    rw [tpConfigSpec_enables hst hen, tpSetState_tpState hlt (by decide)]
  case refine_8 =>
    subst hn
    rw [tpConfigSpec_disables hst hen, tpSetState_tpState hlt (by decide)]
  all_goals
    rw [hreg (by simp [tpCfgRegs])]
    simp [tpWritten, reg_setReg]

/-! ## CAL_INJECT and CAL_SWEEP (R324, R335, R338) -/

section

variable {h : HeldCmd} {u : State}

theorem calInjectSpec_stop (hstop : bit (h.pk.par 0) 35 = true) :
    calInjectSpec.eff h u = (.done (dtWords (atSample h u) ++ [0]), calStop (h.pk.pf 0 1 0) u) := by
  simp only [calInjectSpec, hstop, if_true]

theorem calInjectSpec_injecting (hstop : bit (h.pk.par 0) 35 = false) (hst : u.calState (h.pk.pf 0 1 0) ≠ 0) :
    calInjectSpec.eff h u = (.done [u.reg (R.CALN_START_SEC (h.pk.pf 0 1 0)), u.reg (R.CALN_START_FRAC (h.pk.pf 0 1 0)), 0], u) := by
  simp [calInjectSpec, hstop, hst]

theorem calInjectSpec_ready (hstop : bit (h.pk.par 0) 35 = false) (hst : u.calState (h.pk.pf 0 1 0) = 0) (hready : injReady (h.pk.pf 0 1 0) u = true) :
    calInjectSpec.eff h u = (.done (dtWords (dtOfCycle (gridMs (h.n u))) ++ [0]), injBegin (h.pk.pf 0 1 0) (gridMs (h.n u)) 0 u) := by
  simp [calInjectSpec, hstop, hst, hready]

/-- The wait that a CAL_INJECT begins, with the TIMEOUT it names or the one in force. -/
def injWaitOf (h : HeldCmd) (u : State) : InjWait :=
  ⟨h.op, h.pk, h.cidx, h.late, atSample h u, if h.pk.pf 0 33 20 = 0 then u.rf R.CAL_TIMEOUT 13 0 else h.pk.pf 0 33 20⟩

theorem calInjectSpec_waits (hstop : bit (h.pk.par 0) 35 = false) (hst : u.calState (h.pk.pf 0 1 0) = 0)
    (hready : injReady (h.pk.pf 0 1 0) u = false) : calInjectSpec.eff h u
      = (.later, calSetState (h.pk.pf 0 1 0) 1 (u.setCal (h.pk.pf 0 1 0) { u.calU (h.pk.pf 0 1 0) with wait := some (injWaitOf h u) })) := by
  simp [calInjectSpec, hstop, hst, hready, injWaitOf]

theorem calSweepSpec_start (habort : bit (h.pk.par 0) 2 = false) : calSweepSpec.eff h u
    = (.done (dtWords (dtOfCycle (gridMs (h.n u))) ++ dtWords (dtOfCycle (gridMs (h.n u) + u.swEpochs (h.pk.pf 0 1 0) * 1636800))),
      sweepBegin (h.pk.pf 0 1 0) (gridMs (h.n u)) u) := by
  simp [calSweepSpec, habort]

/-- The words that answer an abort are free. -/
def abortWords (i : Nat) : List Word := (List.range 4).map (fun k => Config.engineWord 8 [i, k])

theorem calSweepSpec_abort (habort : bit (h.pk.par 0) 2 = true) : calSweepSpec.eff h u
    = (.done (abortWords (sweepAbort (h.pk.pf 0 1 0) 4 u).freeCtr), (sweepAbort (h.pk.pf 0 1 0) 4 u).takeFree.2) := by
  simp [calSweepSpec, habort, abortWords, State.takeFree]

end

/-! ## CAL_CONFIG (R346) -/

/-- The registers of unit `n` as a CAL_CONFIG writes them from sample cycle `c` on. -/
def calWritten (n c : Nat) (p : Packet) (s : State) : State :=
  ((((((delayNote n c s).setReg (R.CALN_CFG n) (p.par 1)).setReg (R.CALN_INJ_OFS n) (p.par 2)).setReg (R.CALN_EXT_LEVEL n) (p.par 3)).setReg
    (R.CALN_EXT_PATH n) (p.par 4)).setReg (R.CALN_SWEEP_CFG n) (p.par 5)).setReg (R.CALN_CC_CFG n) (p.par 6)

/-- The registers that a CAL_CONFIG writes. -/
def calCfgRegs (n : Nat) : List Nat :=
  [R.CALN_CFG n, R.CALN_INJ_OFS n, R.CALN_EXT_LEVEL n, R.CALN_EXT_PATH n, R.CALN_SWEEP_CFG n, R.CALN_CC_CFG n]

theorem calWritten_confined (n c : Nat) (p : Packet) (s : State) : Confined (calCfgRegs n) s (calWritten n c p s) := by
  have hnote : Confined (calCfgRegs n) s (delayNote n c s) := (Confined.refl _ s).setFe n _
  exact (((((hnote.setReg (by simp [calCfgRegs]) _).setReg (by simp [calCfgRegs]) _).setReg (by simp [calCfgRegs]) _).setReg
    (by simp [calCfgRegs]) _).setReg (by simp [calCfgRegs]) _).setReg (by simp [calCfgRegs]) _

theorem calWritten_check (n c : Nat) (p : Packet) (s : State) : ((calWritten n c p s).fe n).check = (s.fe n).check := by
  simp only [calWritten, setReg_fe, delayNote, State.setFe_fe_same]

theorem synState_not_mem_calCfgRegs : ∀ n < 4, R.LO_STATE (4 + n) ∉ calCfgRegs n ∧ R.FE_STATE n ∉ calCfgRegs n := by decide

theorem calWritten_dt (n c : Nat) (p : Packet) (s : State) : (calWritten n c p s).dt = s.dt := by
  simp only [calWritten, delayNote, State.setReg_dt, State.setFe_dt]

/-- Neither the synthesiser, nor the front end, nor its check is changed by the write, so a free synthesiser is one that was free before. -/
theorem calConfigSpec_done (h : HeldCmd) (u : State) {n : Nat} (hn : n = h.pk.pf 0 1 0) {v : State} (hv : v = calWritten n (h.n u) h.pk u) :
    calConfigSpec.eff h u = (.done (dtWords (atSample h u)),
      if u.loState (4 + n) = 0 ∨ u.feState n = feCal ∨ u.feState n = feRecal ∨ (u.fe n).check.isSome = true then v
      else loPlan (4 + n) (injAim n v) v) := by
  have hconf : Confined (calCfgRegs n) u v := hv ▸ calWritten_confined n _ h.pk u
  obtain ⟨hlo, hfe⟩ := synState_not_mem_calCfgRegs n (hn ▸ fld_lt _ 1 0)
  have hsyn : v.loState (4 + n) = u.loState (4 + n) := hconf.rf hlo 3 0
  have hstate : v.feState n = u.feState n := hconf.feState hfe
  have hcheck : (v.fe n).check = (u.fe n).check := hv ▸ calWritten_check n _ h.pk u
  have hbusy : (v.loState (4 + n) == 0 || v.feState n == feCal || v.feState n == feRecal || (v.fe n).check.isSome) = true
      ↔ u.loState (4 + n) = 0 ∨ u.feState n = feCal ∨ u.feState n = feRecal ∨ (u.fe n).check.isSome = true := by
    simp [hsyn, hstate, hcheck, or_assoc]
  have hdt : v.dt = u.dt := hv ▸ calWritten_dt n _ h.pk u
  rw [← if_congr hbusy rfl rfl, ← atSample_congr hdt, hv, hn]
  rfl

theorem takes_calConfig (h : HeldCmd) (u : State) {n : Nat} (hn : n = h.pk.pf 0 1 0) :
    ∃ v, Takes .calConfig calConfigSpec h u (reply h 0 (atSample h u) (dtWords (atSample h u))
        (if u.loState (4 + n) = 0 ∨ u.feState n = feCal ∨ u.feState n = feRecal ∨ (u.fe n).check.isSome = true then v else loPlan (4 + n) (injAim n v) v))
      ∧ v.reg (R.CALN_CFG n) = h.pk.par 1 ∧ v.reg (R.CALN_INJ_OFS n) = h.pk.par 2 ∧ v.reg (R.CALN_EXT_LEVEL n) = h.pk.par 3
      ∧ v.reg (R.CALN_EXT_PATH n) = h.pk.par 4 ∧ v.reg (R.CALN_SWEEP_CFG n) = h.pk.par 5 ∧ v.reg (R.CALN_CC_CFG n) = h.pk.par 6 ∧ v.mem = u.mem := by
  refine ⟨_, takes_done (fun _ _ => rfl) (calConfigSpec_done h u hn rfl), ?_, ?_, ?_, ?_, ?_, ?_, (calWritten_confined n _ h.pk u).mem⟩
  all_goals simp [calWritten, reg_setReg]

/-- Settles O44: each row takes its command's effect, which is one branch of the command's specification; what TP_CONFIG and CAL_CONFIG do after they
write touches none of the registers written. -/
theorem solutionTimingAndCalibrationCommands : Obligations.SolutionTimingAndCalibrationCommands := by
  unfold Obligations.SolutionTimingAndCalibrationCommands
  refine ⟨fun h u => ⟨?obs, ?wait, fun te hs => rfl, fun te => ⟨?config, ?unheld, ?mode, ?position, ?osc, ?steer, ?load, ?time, ?read, ?clear⟩,
      fun n hn => takes_tpConfig h u hn, takes_done (fun _ _ => rfl) rfl, takes_done (fun _ _ => rfl) rfl⟩,
    fun h u n g hn hg => ⟨?stop, ?injecting, ?ready, ?notReady, ?sweep, ?abort, takes_calConfig h u hn⟩⟩
  case obs =>
    rintro e rfl
    exact takes_done (fun _ _ => rfl) rfl
  case wait =>
    simp only [List.forall_mem_cons]
    have hwaits {row : Packet → Instr} {op lens resv parm buf} hr := takes_epochSpec (row := row) (op := op) (lens := lens) (resv := resv)
      (parm := parm) (buf := buf) hr h u
    exact ⟨hwaits fun _ _ => rfl, hwaits fun _ _ => rfl, hwaits fun _ _ => rfl, hwaits fun _ _ => rfl, hwaits fun _ _ => rfl,
      hwaits fun _ _ => rfl, hwaits fun _ _ => rfl, hwaits fun _ _ => rfl, hwaits fun _ _ => rfl, List.forall_mem_nil _⟩
  case config => exact fun hop => by simp [epochApply, hop]
  case unheld => exact fun hop hmode hheld => (epochApply_solMode hop).trans (solModeApply_unheld hmode hheld)
  case mode => exact fun hop hmode => (epochApply_solMode hop).trans (solModeApply_moving hmode)
  case position => exact fun hop haid => (epochApply_solPosition hop).trans (solPositionApply_aid haid)
  case osc => exact fun hop => by simp [epochApply, hop]
  case steer => exact fun hop hen hgain => (epochApply_solSteer hop).trans (solSteerApply_no_gain hen hgain)
  case load => exact fun hop => epochApply_catLoad hop
  case time => exact fun hop => by simp [epochApply, hop]
  case read => exact fun hop => by simp [epochApply, hop]
  case clear => exact fun hop => by simp [epochApply, hop]
  case stop =>
    subst hn
    exact fun hstop => takes_done (fun _ _ => rfl) (calInjectSpec_stop hstop)
  case injecting =>
    subst hn
    exact fun hstop hst => takes_done (fun _ _ => rfl) (calInjectSpec_injecting hstop hst)
  case ready =>
    subst hn hg
    exact fun hstop hst hready => takes_done (fun _ _ => rfl) (calInjectSpec_ready hstop hst hready)
  case notReady =>
    subst hn
    exact fun hstop hst hready => takes_of (fun _ _ => rfl) (by rw [calInjectSpec_waits hstop hst hready]; rfl)
  case sweep =>
    subst hn hg
    exact fun habort => takes_done (fun _ _ => rfl) (calSweepSpec_start habort)
  case abort =>
    subst hn
    exact fun habort => ⟨abortWords _, _, rfl, rfl, takes_done (fun _ _ => rfl) (calSweepSpec_abort habort)⟩

end Sys2Proof.Machine
end

section
/-! The Curator's measurements (R314, R464 to R469): what recording a reading shows and leaves alone, and the rows that record them. -/

namespace Sys2Proof.Machine

/-! ## The word of a reading (R465) -/

/-- CUR_S_VAL of a reading `v` of sensor `i`: VALID, RANGE when it was clamped, its level and the clamped value. -/
def sensorWord (i level : Nat) (lo hi v : Int) : Word :=
  wd (34359738368 + b2n (max lo (min v hi) != v) * 17179869184 + level * 4294967296
    + (if i < 12 then bitsS 12 (max lo (min v hi)) else (max lo (min v hi)).toNat))

/-- The state in which a reading has been recorded, before event 0xA19. -/
def sensorRecorded (i level : Nat) (lo hi v : Int) (s : State) : State :=
  let t := sensorExt i (!bit (s.reg (R.CUR_S_VAL i)) 35) (max lo (min v hi)) (s.setReg (R.CUR_S_VAL i) (sensorWord i level lo hi v))
  { t with cur := { t.cur with senAt := tset (fun _ => (0 : Dt)) t.cur.senAt i t.dt } }

theorem sensorPut_eq (i level : Nat) (lo hi v : Int) (s : State) :
    sensorPut i level lo hi v s = if max lo (min v hi) = v then sensorRecorded i level lo hi v s
      else raise 0xA19 2 (uSens i) [wd i, wdI v] (sensorRecorded i level lo hi v s) := rfl

theorem sensorExt_reg {i o : Nat} (ho : o ≠ R.CUR_S_EXT i) (first : Bool) (v : Int) (s : State) : (sensorExt i first v s).reg o = s.reg o := by
  unfold sensorExt
  extract_lets ext e rd
  split
  · exact reg_setReg_ne s _ ho
  · exact reg_setReg_ne s _ ho

theorem sensorRecorded_val (i level : Nat) (lo hi v : Int) (s : State) :
    (sensorRecorded i level lo hi v s).reg (R.CUR_S_VAL i) = sensorWord i level lo hi v :=
  (sensorExt_reg (by simp) _ _ _).trans (reg_setReg_same s _ _)

theorem sensorRecorded_reg_ne {i o : Nat} (hval : o ≠ R.CUR_S_VAL i) (hext : o ≠ R.CUR_S_EXT i) (level : Nat) (lo hi v : Int) (s : State) :
    (sensorRecorded i level lo hi v s).reg o = s.reg o :=
  (sensorExt_reg hext _ _ _).trans (reg_setReg_ne s _ hval)

theorem evReg_curSVal : ∀ i < 47, evReg 2 (R.CUR_S_VAL i) = false := by decide +kernel

/-- Event 0xA19 writes no word of a sensor. -/
theorem sensorPut_val {i : Nat} (hi : i < 47) (level : Nat) (lo up v : Int) (s : State) :
    (sensorPut i level lo up v s).reg (R.CUR_S_VAL i) = sensorWord i level lo up v := by
  rw [sensorPut_eq]
  split
  next => exact sensorRecorded_val i level lo up v s
  next => rw [raise_reg (evReg_curSVal i hi), sensorRecorded_val]

/-- A reading in range raises no event, so that only the sensor's two registers are written. -/
theorem sensorPut_reg_of_inRange {i o : Nat} {lo hi v : Int} (hlo : lo ≤ v) (hhi : v ≤ hi) (hval : o ≠ R.CUR_S_VAL i) (hext : o ≠ R.CUR_S_EXT i)
    (level : Nat) (s : State) : (sensorPut i level lo hi v s).reg o = s.reg o := by
  have hclamp : max lo (min v hi) = v := by rw [min_eq_left hhi, max_eq_right hlo]
  rw [sensorPut_eq, if_pos hclamp, sensorRecorded_reg_ne hval hext]

/-! ## The rows -/

theorem exec_sensorSample_booted {s : State} (hboot : s.booted = true) (temps : List Int) (mv : List Nat) :
    exec (.sensorSample temps mv) s = .next (tempRecal 3 (tempRecal 2 (tempRecal 1 (tempRecal 0 (thermShut (thermTj
      (let u := [0, 1, 2, 3].foldl (fun a n => sensorPut (26 + n) 0 0 65535 (a.rf (R.FE_BIAS_STAT n) 15 0) a)
        (supplyPut 12 mv (tempPut 0 temps (poweredTick s)))
       sensorPut 30 0 0 65535 (u.rf R.SYN_REF_EST 15 0) u))))))) :=
  if_neg (by simp [hboot])

/-- The monitors not yet read since the reset are due at once. -/
theorem exec_ageingMeasure_first {s : State} (hboot : s.booted = true) (hfirst : bit (s.reg (R.CUR_S_VAL 31)) 35 = false) (vals : List Nat) :
    exec (.ageingMeasure vals) s = .next { ageingPut 31 vals s with
      cur := { (ageingPut 31 vals s).cur with ageTemp := wd ((ageingPut 31 vals s).rf R.CUR_THERM_STAT 11 0) } } :=
  if_neg (by simp [hboot, hfirst])

/-- The timing unit's delays are written. -/
def setDelays (dfix din : Word) (s : State) : State := (s.setReg R.TPC_DFIX dfix).setReg R.TPC_DIN din

theorem setDelays_shows (dfix din : Word) (s : State) :
    (setDelays dfix din s).reg R.TPC_DFIX = dfix ∧ (setDelays dfix din s).reg R.TPC_DIN = din
      ∧ (∀ o, o ≠ R.TPC_DFIX → o ≠ R.TPC_DIN → (setDelays dfix din s).reg o = s.reg o) ∧ { setDelays dfix din s with regs := s.regs } = s := by
  refine ⟨?_, reg_setReg_same _ _ _, fun o hfix hin => ?_, rfl⟩
  · exact (reg_setReg_ne _ _ (by decide)).trans (reg_setReg_same _ _ _)
  · exact (reg_setReg_ne _ _ hin).trans (reg_setReg_ne _ _ hfix)

theorem exec_tpcDelayRefresh_default {s : State} (hboot : s.booted = true) (hfac : s.facValid = false) :
    exec .tpcDelayRefresh s = .next (setDelays 1500 900 s) :=
  (if_neg (by simp [hboot])).trans (if_pos (by simp [hfac]))

theorem exec_tpcDelayRefresh_factory {s : State} (hboot : s.booted = true) (hfac : s.facValid = true) :
    exec .tpcDelayRefresh s = .next (setDelays (wd (bitsS 16 (delayAt (Config.factory 4 10 0) (Config.factory 4 11 0) (s.tempOf 11))))
      (wd (bitsS 16 (delayAt (Config.factory 4 12 0) (Config.factory 4 13 0) (s.tempOf 11)))) s) :=
  (if_neg (by simp [hboot])).trans (if_neg (by simp [hfac]))

/-- Settles O15: each row is the branch of its condition, and recording a reading writes the sensor's two registers, which the event of a clamped
reading leaves alone. -/
theorem curatorMeasuresAndClamps : Obligations.CuratorMeasuresAndClamps := by
  unfold Obligations.CuratorMeasuresAndClamps
  refine ⟨fun s hboot => ⟨fun temps mv => exec_sensorSample_booted hboot temps mv, fun vals hfirst => exec_ageingMeasure_first hboot hfirst vals,
    fun hfac => ⟨_, exec_tpcDelayRefresh_default hboot hfac, setDelays_shows _ _ s⟩,
    fun hfac => ⟨_, exec_tpcDelayRefresh_factory hboot hfac, setDelays_shows _ _ s⟩⟩, ?reading⟩
  case reading =>
    intro i level lo hi v s hi47 _ _ _ _
    exact ⟨sensorPut_val hi47 level lo hi v s, fun ⟨hlo, hhi⟩ o hval hext => sensorPut_reg_of_inRange hlo hhi hval hext level s⟩

end Sys2Proof.Machine
end

section
/-! Time-pulse outputs (R299 to R304, R308): what an output's record and registers hold after each row, and what reports and events leave of them. -/

namespace Sys2Proof.Machine

/-! ## The timing unit while events are raised and reports delivered (R430) -/

/-- The registers of the timing unit lie above those that events and the entries of a ring write. -/
theorem evReg_of_timing {q o : Nat} (hq : q < 32) (hlo : 0x8000 ≤ o) : evReg q o = false := by
  have hev : o ∉ evRegs := fun h => by
    have hbelow : ∀ x ∈ evRegs, x < 0x8000 := by decide
    have := hbelow o h
    omega
  have hring (p : Nat) (hp : p < 32) : o ∉ ringRegs p := by
    simp only [ringRegs, R.RING_STATE, R.RING_PROD, R.RING_DROP_CNT, R.RING_STATUS, R.RING_OCC_MAX, R.HIF_VEC_CNT, R.HIF_VEC_LAT, List.mem_cons,
      List.not_mem_nil, or_false]
    omega
  have hbank : ∀ b < 16, ¬(o = R.BANK_STATE b ∨ o = R.BANK_STATUS b) := by
    intro b _
    unfold R.BANK_STATE R.BANK_STATUS
    omega
  simpa [evReg, hev, hring 2 (by decide), hring q hq] using hbank

theorem recordSeq_reg {q o seqReg : Nat} (hq : q < 32) (hlo : 0x8000 ≤ o) (hseq : o ≠ seqReg) (cls : Nat) (mk : Word → List Word) (s : State) :
    (recordSeq q cls seqReg mk s).reg o = s.reg o := by
  unfold recordSeq
  split
  · rfl
  · exact ((Quiet.record hq cls _ _).2.1 o (evReg_of_timing hq hlo)).trans (reg_setReg_ne s _ hseq)

theorem tpReport_reg {o : Nat} (hlo : 0x8000 ≤ o) (hseq : o ≠ R.TPC_TP_SEQ) (n : Nat) (e : TEdge) (tick resid d : Int) (m : TModel) (err : Nat)
    (x : TpSt) (s : State) : (tpReport n e tick resid d m err x s).reg o = s.reg o := by
  unfold tpReport
  split
  · rfl
  · exact recordSeq_reg (fld_lt _ 4 0) hlo hseq _ _ s

/-- The registers of an output lie after those of the whole unit. -/
theorem tpReg_ne_unit {a b n : Nat} (h : b < a) : a + 0x100 * n ≠ b := by omega

@[simp] theorem State.setTp_tp_same (s : State) (n : Nat) (x : TpSt) : (s.setTp n x).tp n = x := tget_tset_same _ _ _ _
@[simp] theorem State.setReg_tp (s : State) (o : Nat) (v : Word) (n : Nat) : (s.setReg o v).tp n = s.tp n := rfl

/-! ## A model update (R303) -/

theorem exec_tpModelUpdate_due {c : Nat} {te : Dt} {ms : List (Nat × TModel)} {rest : List (Nat × Dt × List (Nat × TModel))} {s : State}
    (hon : s.fsOn = true) (hupd : s.tpc.upd = (c, te, ms) :: rest) (hdue : c ≤ s.cycle) :
    exec .tpModelUpdate s = .next (tpUpdateOne s.tpc.models 3 (tpUpdateOne s.tpc.models 2 (tpUpdateOne s.tpc.models 1 (tpUpdateOne s.tpc.models 0
      { s with tpc := { s.tpc with models := overModels s.tpc.models ms, upd := rest } })))) := by
  have hexec : exec .tpModelUpdate s = execTpModelUpdate s := rfl
  rw [hexec, execTpModelUpdate, hupd]
  exact if_neg (by simp [hon, hdue])

/-! ## First alignment (R299, R304) -/

/-- Output `n` in RUN with its first pulse to be placed, before event 0x701. -/
def tpAligned (n : Nat) (s : State) : State :=
  let t := tpSetState n 2 s
  (tpAlign n true (t.setTp n { t.tp n with pulses := 0, skip := 0, jump := false, step := false })).setF (R.TP_STATE n) 4 4
    (b2n (s.model (s.tpScale n)).hold)

theorem exec_tpFirstAlignment_waiting {n : Fin 4} {s : State} (hon : s.fsOn = true) (hst : s.tpState n = 1)
    (havail : (s.model (s.tpScale n)).avail = true) : ∃ ps, exec (.tpFirstAlignment n) s = .next (raise 0x701 1 (uTp n) ps (tpAligned n s)) :=
  ⟨_, if_neg (by simp [hst, havail, hon])⟩

theorem tpAligned_tp (n : Nat) (s : State) : (tpAligned n s).tp n
    = { (tpSetState n 2 s).tp n with pulses := 0, skip := 0, jump := false, step := false, delta := 0, first := true, lastLabel := none } := by
  simp [tpAligned, tpAlign, State.sticky_eq, State.setF_eq]

theorem tpAligned_tpState {n : Nat} (hn : n < 4) (s : State) : (tpAligned n s).tpState n = 2 := by
  have hstate : (tpSetState n 2 s).tpState n = 2 := tpSetState_tpState hn (by decide) s
  rw [tpAligned, State.tpState, State.rf, State.setF_eq, reg_setReg_same, fld_setFld_ne _ _ (by decide) (by decide) (by decide), tpAlign,
    State.sticky_eq, reg_setReg_ne _ _ (by simp)]
  exact hstate

theorem tpAligned_status (n : Nat) (s : State) : bit ((tpAligned n s).reg (R.TP_STATUS n)) 0 = true := by
  rw [tpAligned, State.setF_eq, reg_setReg_ne _ _ (by simp)]
  exact bit_sticky _ _ (by decide)

/-! ## Edges (R301, R302) -/

theorem exec_tpEdgeCommit_due {n : Fin 4} {l t : Int} {s : State} (hon : s.fsOn = true) (hst : s.tpState n = 2) (hedge : (s.tp n).edge = none)
    (hstop : (s.tp n).stopping = false) (havail : (s.model (s.tpScale n)).avail = true) (hnext : tpNext n s = (l, t, 0))
    (hdue : t ≤ 16 * (dtOfCycle (s.cycle + 64)).toNat) : exec (.tpEdgeCommit n) s
      = .next (s.setTp n { s.tp n with edge := some (tpCommit n l t t false s), skip := (s.tp n).skip + 0, returned := false }) := by
  have hexec : exec (.tpEdgeCommit n) s = execTpEdgeCommit n s := rfl
  rw [hexec, execTpEdgeCommit, if_neg (by simp [hst, hedge, hstop, hon, havail]), hnext]
  exact (if_neg (not_lt.mpr hdue)).trans (if_pos rfl)

/-- The registers that show a leading edge at `tick`, with its residual and its error. -/
def tpShown (n : Nat) (e : TEdge) (tick resid : Int) (err : Nat) (s : State) : State :=
  (((((s.setDt (R.TP_LAST_SEC n) (R.TP_LAST_FRAC n) (BitVec.ofInt 72 tick)).setReg (R.TP_LAST_LBL0 n) (e.words.getD 0 0)).setReg (R.TP_LAST_LBL1 n)
    (e.words.getD 1 0)).setReg (R.TP_RESID n) (wdI (clampS 36 resid))).setReg (R.TP_ERR n) (wd err)).cnt (R.TP_PULSE_CNT n)

/-- Output `n` after the leading edge `e`. -/
def tpEmitted (n : Nat) (e : TEdge) (s : State) : TpSt :=
  let x := s.tp n
  { x with edge := none, lastLabel := if e.scale = s.tpScale n then some e.code else x.lastLabel,
           trail := some (e.at16 + divRound ((s.reg (R.TP_WIDTH n)).toNat * sec16) 1000000000), level := true, pulses := x.pulses + 1#36,
           first := x.first && !e.first, jump := x.jump && !tpReports n s, step := x.step && !tpReports n s,
           skip := if tpReports n s then 0 else x.skip }

theorem tpShown_cfg (n : Nat) (e : TEdge) (tick resid : Int) (err : Nat) (s : State) :
    (tpShown n e tick resid err s).reg (R.TP_CFG n) = s.reg (R.TP_CFG n) := by
  simp [tpShown, State.setDt, State.cnt_eq, reg_setReg]

/-- An edge emitted as scheduled: it is shown, reported where a report is due, and its trailing edge placed. -/
theorem exec_tpLeadingEdge_onTime {n : Fin 4} {e : TEdge} {tick : Int} {s : State} (hon : s.fsOn = true) (hedge : (s.tp n).edge = some e)
    (hlate : e.late = false) (hst : s.tpState n ≠ 3) (htick : tick = (e.at16 + 8) / 16) (hdue : tick ≤ (s.dt.toNat : Int)) :
    ∃ resid d m err, exec (.tpLeadingEdge n) s
      = .next ((tpReport n e tick resid d m err (s.tp n) (tpShown n e tick resid err s)).setTp n (tpEmitted n e s)) := by
  have hexec : exec (.tpLeadingEdge n) s = execTpLeadingEdge n s := rfl
  have hscale resid d m err : (tpReport n e tick resid d m err (s.tp n) (tpShown n e tick resid err s)).tpScale n = s.tpScale n :=
    congrArg (fld · 35 32) ((tpReport_reg (Nat.le_add_right_of_le (by decide)) (tpReg_ne_unit (by decide)) n e tick resid d m err _ _).trans
      (tpShown_cfg n e tick resid err s))
  rw [hexec, execTpLeadingEdge]
  split
  next hnone => cases hedge.symm.trans hnone
  next e' hsome =>
    cases hedge.symm.trans hsome
    subst htick
    extract_lets tick k m d o resid err width lbl rep t1 t2 t3 t4 t5 t6
    rw [if_neg (by simp [tick, hon, hst, hdue]), if_neg (by simp [hlate])]
    have h5 : t5.tpScale n = s.tpScale n := hscale resid d m err
    refine ⟨resid, d, m, err, ?_⟩
    simp only [t6, h5]
    rfl

/-- The report of a leading edge writes no register of its output. -/
theorem tpLeadingEdge_onTime {n : Fin 4} {e : TEdge} {tick : Int} {s : State} (hon : s.fsOn = true) (hedge : (s.tp n).edge = some e)
    (hlate : e.late = false) (hst : s.tpState n ≠ 3) (htick : tick = (e.at16 + 8) / 16) (hdue : tick ≤ (s.dt.toNat : Int)) :
    ∃ t, exec (.tpLeadingEdge n) s = .next t ∧ t.reg (R.TP_LAST_SEC n) = dtSec (BitVec.ofInt 72 tick)
      ∧ t.reg (R.TP_LAST_FRAC n) = dtFrac (BitVec.ofInt 72 tick) ∧ t.reg (R.TP_PULSE_CNT n) = bump (s.reg (R.TP_PULSE_CNT n)) 1
      ∧ t.tp n = tpEmitted n e s := by
  obtain ⟨resid, d, m, err, hexec⟩ := exec_tpLeadingEdge_onTime hon hedge hlate hst htick hdue
  have hreg {a : Nat} (ha : 0x8010 < a) : (tpReport n e tick resid d m err (s.tp n) (tpShown n e tick resid err s)).reg (a + 0x100 * n)
      = (tpShown n e tick resid err s).reg (a + 0x100 * n) :=
    tpReport_reg (Nat.le_add_right_of_le (by omega)) (tpReg_ne_unit ha) n e tick resid d m err _ _
  refine ⟨_, hexec, ?_, ?_, ?_, State.setTp_tp_same _ _ _⟩
  all_goals
    rw [State.setTp_reg, hreg (by decide)]
    simp [tpShown, State.setDt, State.cnt_eq, reg_setReg]

theorem exec_tpTrailingEdge_running {n : Fin 4} {t : Int} {s : State} (hon : s.fsOn = true) (htrail : (s.tp n).trail = some t)
    (hst : s.tpState n ≠ 3) (hdue : (t + 8) / 16 ≤ (s.dt.toNat : Int)) (hstop : (s.tp n).stopping = false) :
    exec (.tpTrailingEdge n) s = .next (s.setTp n { s.tp n with trail := none, lastTrail := some t, level := false, stopping := false }) := by
  have hexec : exec (.tpTrailingEdge n) s = execTpTrailingEdge n s := rfl
  rw [hexec, execTpTrailingEdge]
  split
  next hnone => cases htrail.symm.trans hnone
  next t' hsome =>
    cases htrail.symm.trans hsome
    rw [if_neg (by simp [hon, hst, hdue])]
    simp only [hstop, Bool.false_eq_true, if_false]

/-! ## Slews and jumps (R303, R304) -/

theorem exec_slewComplete_zero {n : Fin 4} {s : State} (hon : s.fsOn = true) (hst : s.tpState n = 2) (hdelta : (s.tp n).delta ≠ 0)
    (hzero : tpDelta n s.now16 s = 0) :
    exec (.slewComplete n) s = .next (raise 0x703 0 (uTp n) [wd ((s.dt - (s.tp n).slewAt).toNat * 1000 / 68719476736)]
      (((s.setTp n { s.tp n with delta := 0 }).setF (R.TP_STATE n) 3 3 0).setReg (R.TP_SLEW_END_SEC n) 0)) :=
  if_neg (by simp [hst, hdelta, hzero, hon])

/-- Output `n` with Δ removed, before event 0x704. -/
def tpJumped (n : Nat) (s : State) : State :=
  (((((s.setTp n { s.tp n with delta := 0, jump := true }).setF (R.TP_STATE n) 3 3 0).setReg (R.TP_SLEW_END_SEC n) 0).sticky (R.TP_STATUS n) 2).sticky
    R.TPC_STATUS 2).cnt R.TPC_JUMP_CNT

theorem tpJump_eq (n cause : Nat) (s : State) :
    tpJump n cause s = (tpDelta n s.now16 s, raise 0x704 2 (uTp n) [wdI (tpDelta n s.now16 s), wd cause] (tpJumped n s)) := rfl

theorem tpJumped_tp (n : Nat) (s : State) : (tpJumped n s).tp n = { s.tp n with delta := 0, jump := true } := by
  simp [tpJumped, State.cnt_eq, State.sticky_eq, State.setF_eq]

theorem tpJumped_count (n : Nat) (s : State) : (tpJumped n s).reg R.TPC_JUMP_CNT = bump (s.reg R.TPC_JUMP_CNT) 1 := by
  have hreg {a : Nat} (ha : 0x8040 < a) : R.TPC_JUMP_CNT ≠ a + 0x100 * n := (tpReg_ne_unit ha).symm
  simp [tpJumped, State.cnt_eq, State.sticky_eq, State.setF_eq, reg_setReg, hreg]

theorem tpJumped_slewEnd (n : Nat) (s : State) : (tpJumped n s).reg (R.TP_SLEW_END_SEC n) = 0 := by
  have hcnt : R.TP_SLEW_END_SEC n ≠ R.TPC_JUMP_CNT := tpReg_ne_unit (by decide)
  have hstatus : R.TP_SLEW_END_SEC n ≠ R.TPC_STATUS := tpReg_ne_unit (by decide)
  simp [tpJumped, State.cnt_eq, State.sticky_eq, State.setF_eq, reg_setReg, hcnt, hstatus]

/-! ## A write of JUMP (R304, R317) -/

/-- The immediate TP_JUMP of output `n` that a write of JUMP stands for. -/
def jumpPacket (n : Nat) : Packet := ⟨0, 1, false, false, false, true, 0, [wd (2 ^ n)], .ok []⟩

theorem phaseA_jumpPacket (n : Fin 4) (s : State) : phaseA tpJumpSpec (jumpPacket n) s = 0 := by
  have hmask : ∀ n : Fin 4, (jumpPacket n).outside 0 15 = false := by decide
  have hresv : tpJumpSpec.resv (jumpPacket n) s = false := hmask n
  rw [phaseA, hresv]
  rfl

/-- That command as it is held for its boundary, 16,368 sample cycles ahead (R438). -/
def jumpHeld (n : Nat) (s : State) : HeldCmd := ⟨0x701, jumpPacket n, 262144, false, false, s.dt, [uTp n], some (s.cycle + 16368)⟩

theorem cmdWaits_jumpHeld (n : Nat) (s : State) : cmdWaits tpJumpSpec (jumpHeld n s) s = true := by
  have hclock : tpJumpSpec.clock (jumpPacket n) s < s.cycle + 16368 := Nat.lt_add_of_pos_right (by decide)
  have hahead : boundaryCome tpJumpSpec (jumpHeld n s) s = false := decide_eq_false (Nat.not_le.mpr hclock)
  rw [cmdWaits, hahead]
  rfl

/-- It passes its checks and waits. -/
theorem tpCtrl_jump (n : Fin 4) {s : State} (hon : s.fsOn = true) : tpCtrl n 1 s = { s with cmdPend := s.cmdPend ++ [jumpHeld n s] } := by
  have hadmit : tpCtrl n 1 s = admitCmd tpJumpSpec { jumpHeld n s with bnd := none } s := if_neg (by decide)
  have hbuf : phaseB tpJumpSpec (jumpPacket n) s = (0, [], jumpPacket n, s) := rfl
  have hnow : (jumpPacket n).atEpoch = false := rfl
  have hbnd : tpJumpSpec.bnd (jumpPacket n) false s = some (s.cycle + 16368) := if_pos hon
  rw [hadmit, admitCmd, jumpHeld, phaseA_jumpPacket, hbuf]
  simp only [ne_eq, not_true_eq_false, if_false, hnow, Bool.false_and, Bool.false_eq_true, hbnd]
  exact (if_pos (cmdWaits_jumpHeld n s)).trans (if_neg (by simp [HeldCmd.stamped, hnow]))

theorem regAt_tpCtrl : ∀ n : Fin 4, regAt (R.TP_CTRL n) = some ⟨.tp, n, ⟨0x90, 0x0, 1, 0x0, 0x0, false, 0x1, 0x0, []⟩, 0⟩ := by decide

theorem exec_tpCtrlJump_live {src : Src} {n : Fin 4} {s : State} (hlive : s.srcLive src = true) (hboot : s.booted = true) :
    exec (.tpCtrlJump src n) s = .next (tpCtrl n 1 (s.onBus src)) := by
  have hexec : exec (.tpCtrlJump src n) s = actRow src (R.TP_CTRL n) 1 s := rfl
  have hok : writeBad (R.TP_CTRL n) ⟨.tp, n, ⟨0x90, 0x0, 1, 0x0, 0x0, false, 0x1, 0x0, []⟩, 0⟩ 1 s = false := writeBad_of_no_rules hboot rfl rfl
  rw [hexec, actRow_acts hlive (regAt_tpCtrl n) hok (by simp)]
  simp [actWrite]

@[simp] theorem onBus_fsOn (s : State) (src : Src) : (s.onBus src).fsOn = s.fsOn := by rw [onBus_eq]; rfl
@[simp] theorem onBus_cmdPend (s : State) (src : Src) : (s.onBus src).cmdPend = s.cmdPend := by rw [onBus_eq]

theorem jumpHeld_onBus (n : Nat) (s : State) (src : Src) : jumpHeld n (s.onBus src) = jumpHeld n s := by
  rw [jumpHeld, onBus_dt, onBus_cycle, jumpHeld]

theorem exec_tpCtrlJump_waits {src : Src} {n : Fin 4} {s : State} (hon : s.fsOn = true) (hlive : s.srcLive src = true) (hboot : s.booted = true) :
    exec (.tpCtrlJump src n) s = .next { s.onBus src with cmdPend := s.cmdPend ++ [jumpHeld n s] } := by
  rw [exec_tpCtrlJump_live hlive hboot, tpCtrl_jump n (by simpa using hon), onBus_cmdPend, jumpHeld_onBus]

end Sys2Proof.Machine
end

section
/-! Capture inputs (R309 to R312): what a selected edge gives by the dead time and by the room there is, its record, and a write of CAP_CFG. -/

namespace Sys2Proof.Machine

/-! ## Rules of the operations -/

@[simp] theorem State.setCap_cap_same (s : State) (n : Nat) (x : CapSt) : (s.setCap n x).cap n = x := tget_tset_same _ _ _ _
@[simp] theorem State.setReg_cap (s : State) (o : Nat) (v : Word) (n : Nat) : (s.setReg o v).cap n = s.cap n := rfl

@[simp] theorem State.maxF_cap (s : State) (o hi lo v n : Nat) : (s.maxF o hi lo v).cap n = s.cap n := by
  unfold State.maxF
  split
  · rfl
  · rfl

@[simp] theorem State.maxF_out (s : State) (o hi lo v : Nat) : (s.maxF o hi lo v).out = s.out := by
  unfold State.maxF
  split
  · rfl
  · rfl

@[simp] theorem State.minF_out (s : State) (o hi lo v : Nat) : (s.minF o hi lo v).out = s.out := by
  unfold State.minF
  split
  · rfl
  · split
    · rfl
    · rfl

theorem Confined.setCap {L : List Nat} {s t : State} (h : Confined L s t) (n : Nat) (x : CapSt) : Confined L s (t.setCap n x) := h.same rfl

/-! ## A selected edge (R310, R311) -/

/-- The state that knows the level after an edge. -/
def capSeen (n : Nat) (rising : Bool) (s : State) : State := s.setReg (R.CAP_LEVEL n) (wd (b2n rising))

theorem capSeen_cfg (n : Nat) (d : Dt) (rising : Bool) (s : State) : capCfgAt n d (capSeen n rising s) = capCfgAt n d s := by
  simp only [capCfgAt, capSeen, State.setReg_cap, reg_setReg_ne s _ (show R.CAP_CFG n ≠ R.CAP_LEVEL n by simp)]

theorem capSeen_fsOn (n : Nat) (rising : Bool) (s : State) : (capSeen n rising s).fsOn = s.fsOn := by
  have hne : R.SYN_SMP_STATE ≠ R.CAP_LEVEL n := by
    unfold R.SYN_SMP_STATE R.CAP_LEVEL
    omega
  simp only [State.fsOn, State.rf, capSeen, reg_setReg_ne s _ hne, State.setReg_smp]

/-- Does CAP_CFG select an edge at `d`? -/
def capSelects (n : Nat) (rising : Bool) (d : Dt) (s : State) : Bool :=
  let sel := fld (capCfgAt n d s) 4 3
  if rising then sel % 2 == 1 else decide (2 ≤ sel)

theorem capSelects_iff (n : Nat) (rising : Bool) (d : Dt) (s : State) :
    capSelects n rising d s = true ↔ if rising then fld (capCfgAt n d s) 4 3 % 2 = 1 else 2 ≤ fld (capCfgAt n d s) 4 3 := by
  cases rising <;> simp [capSelects]

/-- Does an edge at `d` lie within the dead time of the last one? -/
def capIsDead (n : Nat) (d : Dt) (s : State) : Bool :=
  match (s.cap n).last with
  | some l => decide ((d - l).toNat < Config.deadTicks % 6872)
  | none => false

/-- The interval since the last edge enters the least and the greatest. -/
def capInterval (n : Nat) (d : Dt) (s : State) : State :=
  match (s.cap n).last with
  | some l =>
    let iv := min (d - l).toNat 68719476735
    (s.minF (R.CAP_INTV_MIN n) 35 0 iv).maxF (R.CAP_INTV_MAX n) 35 0 iv
  | none => s

/-- The record of an input with an edge at `d` counted in its second. -/
def capCounted (rising : Bool) (d : Dt) (c : CapSt) : CapSt :=
  let sec := dtSec d
  let c := if c.sec = sec then { c with secCnt := c.secCnt + 1 }
    else { c with prevCnt := if c.sec + 1#36 = sec then c.secCnt else 0, sec := sec, secCnt := 1 }
  { c with last := some d, level := rising }

/-- A stamped edge shown in the registers of its input. -/
def capShown (n : Nat) (rising : Bool) (d : Dt) (s : State) : State :=
  ((((capInterval n d s).setCap n (capCounted rising d (s.cap n))).incr (R.CAP_EDGE_CNT n)).setDt (R.CAP_LAST_SEC n) (R.CAP_LAST_FRAC n) d).sticky
    (R.CAP_STATUS n) 0

/-- An edge that CAP_CFG selects is ignored within the dead time and stamped outside it. -/
theorem exec_captureEdge_selected {n : Fin 4} {rising : Bool} {d : Dt} {s : State} (hon : s.fsOn = true)
    (hsel : if rising then fld (capCfgAt n d s) 4 3 % 2 = 1 else 2 ≤ fld (capCfgAt n d s) 4 3) :
    exec (.captureEdge n rising d) s = .next (if capIsDead n d s then capDead n (capSeen n rising s)
      else capStamp n rising d (capShown n rising d (capSeen n rising s))) := by
  have hselects : capSelects n rising d (capSeen n rising s) = true := (capSelects_iff n rising d _).mpr (by rwa [capSeen_cfg])
  have hpass : ¬ (!(capSeen n rising s).fsOn || !capSelects n rising d (capSeen n rising s)) = true := by
    simp [capSeen_fsOn, hon, hselects]
  have hexec : exec (.captureEdge n rising d) s = if capIsDead n d s then .next (capDead n (capSeen n rising s))
      else .next (capStamp n rising d (capShown n rising d (capSeen n rising s))) := if_neg hpass
  rw [hexec]
  split
  · rfl
  · rfl

theorem capIsDead_of_short {n : Nat} {d l : Dt} {s : State} (hlast : (s.cap n).last = some l) (hshort : (d - l).toNat < Config.deadTicks % 6872) :
    capIsDead n d s = true := by
  simp only [capIsDead, hlast, hshort, decide_true]

theorem capIsDead_of_long {n : Nat} {d : Dt} {s : State} (hlong : ∀ l, (s.cap n).last = some l → Config.deadTicks % 6872 ≤ (d - l).toNat) :
    capIsDead n d s = false := by
  unfold capIsDead
  split
  next l hlast => exact decide_eq_false (Nat.not_lt.mpr (hlong l hlast))
  next => rfl

/-! ## What a stamped edge shows (R310, R311) -/

theorem capInterval_confined (n : Nat) (d : Dt) (s : State) : Confined [R.CAP_INTV_MIN n, R.CAP_INTV_MAX n] s (capInterval n d s) := by
  unfold capInterval
  split
  next l _ => exact ((Confined.refl _ s).minF (by simp) 35 0 _).maxF (by simp) 35 0 _
  next => exact Confined.refl _ s

theorem capInterval_out (n : Nat) (d : Dt) (s : State) : (capInterval n d s).out = s.out := by
  unfold capInterval
  split
  next l _ => simp
  next => rfl

theorem capCounted_last (rising : Bool) (d : Dt) (c : CapSt) : (capCounted rising d c).last = some d := rfl

theorem capCounted_keeps (rising : Bool) (d : Dt) (c : CapSt) :
    (capCounted rising d c).fifo = c.fifo ∧ (capCounted rising d c).lost = c.lost := by
  unfold capCounted
  extract_lets sec c1
  show c1.fifo = c.fifo ∧ c1.lost = c.lost
  simp only [c1]
  split
  · exact ⟨rfl, rfl⟩
  · exact ⟨rfl, rfl⟩

theorem capShown_cap (n : Nat) (rising : Bool) (d : Dt) (s : State) : (capShown n rising d s).cap n = capCounted rising d (s.cap n) := by
  simp [capShown, State.setDt, State.sticky_eq, State.incr_eq]

theorem capShown_mem (n : Nat) (rising : Bool) (d : Dt) (s : State) : (capShown n rising d s).mem = s.mem := by
  simp [capShown, State.setDt, State.sticky_eq, State.incr_eq, (capInterval_confined n d s).mem]

theorem capShown_out (n : Nat) (rising : Bool) (d : Dt) (s : State) : (capShown n rising d s).out = s.out := by
  simp [capShown, State.setDt, State.sticky_eq, State.incr_eq, capInterval_out]

theorem capShown_level (n : Nat) (rising : Bool) (d : Dt) (s : State) : (capShown n rising d s).reg (R.CAP_LEVEL n) = s.reg (R.CAP_LEVEL n) := by
  rw [← (capInterval_confined n d s).regs (R.CAP_LEVEL n) (by simp)]
  simp [capShown, State.setDt, State.sticky_eq, State.incr_eq, reg_setReg]

theorem capShown_lastSec (n : Nat) (rising : Bool) (d : Dt) (s : State) : (capShown n rising d s).reg (R.CAP_LAST_SEC n) = dtSec d := by
  rw [capShown, State.sticky_eq, reg_setReg_ne _ _ (by simp), State.setDt_reg_sec _ _ (by simp)]

theorem capShown_lastFrac (n : Nat) (rising : Bool) (d : Dt) (s : State) : (capShown n rising d s).reg (R.CAP_LAST_FRAC n) = dtFrac d := by
  rw [capShown, State.sticky_eq, reg_setReg_ne _ _ (by simp), State.setDt_reg_frac]

theorem capShown_status (n : Nat) (rising : Bool) (d : Dt) (s : State) : bit ((capShown n rising d s).reg (R.CAP_STATUS n)) 0 = true :=
  bit_sticky _ _ (by decide)

/-! ## Room in the queue (R311) -/

theorem capStamp_full {n : Nat} {rising : Bool} {d : Dt} {s : State} (hfull : 64 ≤ (s.cap n).fifo.length) : capStamp n rising d s = capLose n s :=
  if_pos hfull

/-- Input `n` with one more edge waiting. -/
def capQueued (n : Nat) (e : CapEnt) (s : State) : State :=
  ((s.setCap n { s.cap n with fifo := (s.cap n).fifo ++ [e], lost := 0 }).setReg (R.CAP_FIFO n) (wd ((s.cap n).fifo.length + 1))).maxF
    (R.CAP_FIFO_MAX n) 6 0 ((s.cap n).fifo.length + 1)

theorem capStamp_room {n : Nat} {rising : Bool} {d : Dt} {s : State} (hroom : (s.cap n).fifo.length < 64) :
    capStamp n rising d s = capQueued n ⟨capWords n rising d (s.cap n).lost s⟩ s := by
  rw [capStamp, if_neg (Nat.not_le.mpr hroom), capQueued]
  simp only [List.length_append, List.length_singleton]

theorem capQueued_confined (n : Nat) (e : CapEnt) (s : State) : Confined [R.CAP_FIFO n, R.CAP_FIFO_MAX n] s (capQueued n e s) :=
  (((Confined.refl _ s).setCap n _).setReg (by simp) _).maxF (by simp) _ _ _

theorem capQueued_cap (n : Nat) (e : CapEnt) (s : State) :
    (capQueued n e s).cap n = { s.cap n with fifo := (s.cap n).fifo ++ [e], lost := 0 } := by
  simp [capQueued]

theorem capQueued_out (n : Nat) (e : CapEnt) (s : State) : (capQueued n e s).out = s.out := by
  simp [capQueued]

theorem capQueued_count (n : Nat) (e : CapEnt) (s : State) : (capQueued n e s).reg (R.CAP_FIFO n) = wd ((s.cap n).fifo.length + 1) := by
  rw [capQueued, ((Confined.refl [R.CAP_FIFO_MAX n] _).maxF (by simp) _ _ _).regs _ (by simp), reg_setReg_same]

/-! ## The clauses on edges -/

section

variable {n : Fin 4} {rising : Bool} {d : Dt} {s : State}

theorem captureEdge_stamped (hon : s.fsOn = true) (hsel : if rising then fld (capCfgAt n d s) 4 3 % 2 = 1 else 2 ≤ fld (capCfgAt n d s) 4 3)
    (hlong : ∀ l, (s.cap n).last = some l → Config.deadTicks % 6872 ≤ (d - l).toNat) (hroom : (s.cap n).fifo.length < 64) :
    ∃ t, exec (.captureEdge n rising d) s = .next t ∧ (t.cap n).fifo.length = (s.cap n).fifo.length + 1 ∧ (t.cap n).last = some d
      ∧ t.reg (R.CAP_LAST_SEC n) = dtSec d ∧ t.reg (R.CAP_LAST_FRAC n) = dtFrac d ∧ t.reg (R.CAP_FIFO n) = wd ((s.cap n).fifo.length + 1)
      ∧ t.reg (R.CAP_LEVEL n) = wd (b2n rising) ∧ bit (t.reg (R.CAP_STATUS n)) 0 = true ∧ t.mem = s.mem ∧ t.out = s.out := by
  obtain ⟨u, hu⟩ : ∃ u, u = capShown n rising d (capSeen n rising s) := ⟨_, rfl⟩
  have hcap : u.cap n = capCounted rising d (s.cap n) := hu ▸ capShown_cap n rising d _
  obtain ⟨hkeep, -⟩ := capCounted_keeps rising d (s.cap n)
  have hlen : (u.cap n).fifo.length = (s.cap n).fifo.length := by rw [hcap, hkeep]
  obtain ⟨e, he⟩ : ∃ e, capStamp n rising d u = capQueued n e u := ⟨_, capStamp_room (by rwa [hlen])⟩
  have hconf := capQueued_confined n e u
  refine ⟨capQueued n e u, ?_, ?_, ?_, ?_, ?_, ?_, ?_, ?_, ?_, ?_⟩
  · rw [exec_captureEdge_selected hon hsel, capIsDead_of_long hlong, if_neg Bool.false_ne_true, ← hu, he]
  · rw [capQueued_cap, List.length_append, hlen, List.length_singleton]
  · rw [capQueued_cap, hcap, capCounted_last]
  · rw [hconf.regs _ (by simp), hu, capShown_lastSec]
  · rw [hconf.regs _ (by simp), hu, capShown_lastFrac]
  · rw [capQueued_count, hlen]
  · rw [hconf.regs _ (by simp), hu, capShown_level, capSeen, reg_setReg_same]
  · rw [hconf.regs _ (by simp), hu, capShown_status]
  · rw [hconf.mem, hu, capShown_mem, capSeen, State.setReg_mem]
  · rw [capQueued_out, hu, capShown_out, capSeen, State.setReg_out]

theorem captureEdge_lost (hon : s.fsOn = true) (hsel : if rising then fld (capCfgAt n d s) 4 3 % 2 = 1 else 2 ≤ fld (capCfgAt n d s) 4 3)
    (hlong : ∀ l, (s.cap n).last = some l → Config.deadTicks % 6872 ≤ (d - l).toNat) (hfull : 64 ≤ (s.cap n).fifo.length) :
    ∃ v, exec (.captureEdge n rising d) s = .next (capLose n v) ∧ (v.cap n).fifo = (s.cap n).fifo ∧ (v.cap n).last = some d
      ∧ (v.cap n).lost = (s.cap n).lost ∧ v.reg (R.CAP_LAST_SEC n) = dtSec d ∧ v.reg (R.CAP_LEVEL n) = wd (b2n rising) ∧ v.mem = s.mem
      ∧ v.out = s.out := by
  obtain ⟨u, hu⟩ : ∃ u, u = capShown n rising d (capSeen n rising s) := ⟨_, rfl⟩
  have hcap : u.cap n = capCounted rising d (s.cap n) := hu ▸ capShown_cap n rising d _
  obtain ⟨hkeep, hlost⟩ := capCounted_keeps rising d (s.cap n)
  have hfifo : (u.cap n).fifo = (s.cap n).fifo := by rw [hcap, hkeep]
  refine ⟨u, ?_, hfifo, ?_, ?_, ?_, ?_, ?_, ?_⟩
  · rw [exec_captureEdge_selected hon hsel, capIsDead_of_long hlong, if_neg Bool.false_ne_true, ← hu, capStamp_full (by rwa [hfifo])]
  · rw [hcap, capCounted_last]
  · rw [hcap, hlost]
  · rw [hu, capShown_lastSec]
  · rw [hu, capShown_level, capSeen, reg_setReg_same]
  · rw [hu, capShown_mem, capSeen, State.setReg_mem]
  · rw [hu, capShown_out, capSeen, State.setReg_out]

theorem captureEdge_dead (hon : s.fsOn = true) (hsel : if rising then fld (capCfgAt n d s) 4 3 % 2 = 1 else 2 ≤ fld (capCfgAt n d s) 4 3) {l : Dt}
    (hlast : (s.cap n).last = some l) (hshort : (d - l).toNat < Config.deadTicks % 6872) :
    exec (.captureEdge n rising d) s = .next (capDead n (s.setReg (R.CAP_LEVEL n) (wd (b2n rising)))) := by
  rw [exec_captureEdge_selected hon hsel, capIsDead_of_short hlast hshort, if_pos rfl, capSeen]

end

/-! ## The record of an edge (R311, R312) -/

theorem exec_captureRecordWrite_front {n : Fin 4} {e : CapEnt} {rest : List CapEnt} {s : State} (hfifo : (s.cap n).fifo = e :: rest)
    (hring : s.rf R.TPC_RINGS 12 8 ≠ 0) :
    exec (.captureRecordWrite n) s = .next (recordSeq (s.rf R.TPC_RINGS 12 8) 8 R.TPC_CAP_SEQ (fun q => q :: e.words)
      (((s.setCap n { s.cap n with fifo := rest }).setReg (R.CAP_FIFO n) (wd rest.length)).setReg (R.CAP_SEQ_LAST n) (s.reg R.TPC_CAP_SEQ))) := by
  have hexec : exec (.captureRecordWrite n) s = execCaptureRecordWrite n s := rfl
  obtain ⟨t, ht⟩ : ∃ t, t = (s.setCap n { s.cap n with fifo := rest }).setReg (R.CAP_FIFO n) (wd rest.length) := ⟨_, rfl⟩
  have hconf : Confined [R.CAP_FIFO n] s t := ht ▸ ((Confined.refl _ s).setCap n _).setReg (by simp) _
  have hapart {o : Nat} (ho : o < 0x8600) : o ∉ [R.CAP_FIFO n] := by
    rw [List.mem_singleton, R.CAP_FIFO]
    omega
  have hrf : t.rf R.TPC_RINGS 12 8 = s.rf R.TPC_RINGS 12 8 := hconf.rf (hapart (by decide)) 12 8
  have hseq : t.reg R.TPC_CAP_SEQ = s.reg R.TPC_CAP_SEQ := hconf.regs _ (hapart (by decide))
  rw [hexec, execCaptureRecordWrite, hfifo]
  simp only [← ht, hrf, hseq, hring, if_false]

/-! ## A write of CAP_CFG (R9, R311) -/

/-- A whole write that R515 lets pass has the action of its register. -/
theorem exec_registerWrite_acts {src : Src} {slot : BitVec 14} {v : BitVec 64} {l : RegLoc} {s : State} (hlive : s.srcLive src = true)
    (hl : regAt (slotOff slot) = some l) (hok : writeBad (slotOff slot) l (wd v.toNat) s = false) (hw : l.row.rw ||| l.row.w1c ||| l.row.wo ≠ 0) :
    exec (.registerWrite src slot .qword v) s = .next (actWrite src (slotOff slot) l (wd v.toNat) (s.onBus src)) := by
  have hbus : exec (.registerWrite src slot .qword v) s = actRow src (slotOff slot) (wd v.toNat) s := by
    have hmsix := msixOff_eq_false_of_regAt hl
    have hexec : exec (.registerWrite src slot .qword v) s = execRegisterWrite src slot .qword v s := rfl
    rw [hexec, execRegisterWrite, actRow]
    cases src <;> simp [busWrite, hmsix, commitWord]
  rw [hbus, actRow_acts hlive hl hok hw]

theorem regAt_capCfg : ∀ n : Fin 4, regAt (R.CAP_CFG n) = some ⟨.cap, n, ⟨0x0, 0x0, 1, 0x1f8, 0x0, false, 0x0, 0x20, []⟩, 0⟩ := by decide

theorem exec_registerWrite_capCfg {src : Src} {slot : BitVec 14} {v : BitVec 64} {l : RegLoc} {n : Fin 4} {s : State} (hlive : s.srcLive src = true)
    (hslot : slotOff slot = R.CAP_CFG n) (hl : regAt (R.CAP_CFG n) = some l) (hok : writeBad (R.CAP_CFG n) l (wd v.toNat) s = false) :
    exec (.registerWrite src slot .qword v) s = .next (capCfgSet n (wMerge l.row (s.reg (R.CAP_CFG n)) (wd v.toNat)) (s.onBus src)) := by
  cases (regAt_capCfg n).symm.trans hl
  rw [← hslot] at hok
  rw [exec_registerWrite_acts hlive (by rw [hslot]; exact regAt_capCfg n) hok (by simp), hslot]
  simp [actWrite]

theorem capCfgSet_cfg (n : Nat) (m : Word) (s : State) : (capCfgSet n m s).reg (R.CAP_CFG n) = m := reg_setReg_same _ _ _

/-- An edge from the write on meets the new configuration, an earlier one the old. -/
theorem capCfgAt_capCfgSet (n : Nat) (d : Dt) (m : Word) (s : State) :
    capCfgAt n d (capCfgSet n m s) = if dtGe d s.dt then m else s.reg (R.CAP_CFG n) := by
  simp [capCfgAt, capCfgSet]

/-- Settles O43: each row is the branch of its condition; an event, a report or a record writes no register of the timing unit but the number of its
series, and showing an edge writes only registers of its own output or input. -/
theorem pulseOutputsAndCaptures : Obligations.PulseOutputsAndCaptures := by
  unfold Obligations.PulseOutputsAndCaptures
  intro n s hon
  refine ⟨fun c te ms rest hupd hdue => exec_tpModelUpdate_due hon hupd hdue, ?align,
    fun l t hst hedge hstop havail hnext hdue => exec_tpEdgeCommit_due hon hst hedge hstop havail hnext hdue, ?leading,
    fun t htrail hst hdue hstop => exec_tpTrailingEdge_running hon htrail hst hdue hstop,
    fun hst hdelta hzero => exec_slewComplete_zero hon hst hdelta hzero, ?jumpWrite, ?jump,
    fun rising d hsel => ⟨fun hlong hroom => captureEdge_stamped hon hsel hlong hroom, fun hlong hfull => captureEdge_lost hon hsel hlong hfull,
      fun l hlast hshort => captureEdge_dead hon hsel hlast hshort⟩,
    fun e rest hfifo hring => exec_captureRecordWrite_front hfifo hring, ?cfgWrite⟩
  case align =>
    intro hst havail
    obtain ⟨ps, hexec⟩ := exec_tpFirstAlignment_waiting hon hst havail
    refine ⟨_, ps, hexec, tpAligned_tpState n.isLt s, ?_, ?_, ?_, ?_, tpAligned_status n s⟩
    all_goals rw [tpAligned_tp]
  case leading =>
    intro e tick hedge hlate hst htick hdue
    obtain ⟨t, hexec, hsec, hfrac, hcnt, htp⟩ := tpLeadingEdge_onTime hon hedge hlate hst htick hdue
    refine ⟨t, hexec, hsec, hfrac, hcnt, ?_⟩
    rw [htp]
    exact ⟨rfl, rfl, rfl, rfl, rfl⟩
  case jumpWrite =>
    rintro src h hlive hboot rfl
    exact exec_tpCtrlJump_waits hon hlive hboot
  case jump =>
    intro cause
    refine ⟨_, tpJump_eq n cause s, ?_, ?_, tpJumped_count n s, tpJumped_slewEnd n s⟩
    all_goals rw [tpJumped_tp]
  case cfgWrite =>
    rintro src slot v l m hlive hslot hl hok rfl
    exact ⟨exec_registerWrite_capCfg hlive hslot hl hok, capCfgSet_cfg n _ s, fun d => capCfgAt_capCfgSet n d _ s⟩

end Sys2Proof.Machine
end

section
/-! A calibration unit (R318 to R348): its record, its registers and its state while registers are written, events raised and ramps dropped. -/

namespace Sys2Proof.Machine

/-! ## The record of a unit -/

@[simp] theorem State.setReg_calU (s : State) (o : Nat) (v : Word) (n : Nat) : (s.setReg o v).calU n = s.calU n := rfl
@[simp] theorem State.setCal_calU_same (s : State) (n : Nat) (x : CalSt) : (s.setCal n x).calU n = x :=
  congrArg RfSt.cal (State.setFe_fe_same s n _)

@[simp] theorem State.setCal_reg (s : State) (n : Nat) (x : CalSt) (o : Nat) : (s.setCal n x).reg o = s.reg o := rfl
@[simp] theorem State.setCal_out (s : State) (n : Nat) (x : CalSt) : (s.setCal n x).out = s.out := rfl

@[simp] theorem delayNote_reg (n c : Nat) (s : State) (o : Nat) : (delayNote n c s).reg o = s.reg o := rfl
@[simp] theorem delayNote_out (n c : Nat) (s : State) : (delayNote n c s).out = s.out := rfl
@[simp] theorem delayNote_calU (n c : Nat) (s : State) : (delayNote n c s).calU n = s.calU n := by
  simp only [delayNote, State.calU, State.setFe_fe_same]

theorem raise_calU (code sev unit : Nat) (ps : List Word) (s : State) (n : Nat) : (raise code sev unit ps s).calU n = s.calU n :=
  congrArg RfSt.cal (raise_fe code sev unit ps s n)

theorem Confined.setCal {L : List Nat} {s t : State} (h : Confined L s t) (n : Nat) (x : CalSt) : Confined L s (t.setCal n x) := h.setFe n _

/-! ## Its registers, which lie after those of the timing unit -/

theorem calnReg_le {a : Nat} (n : Nat) (h : 0x8000 ≤ a) : 0x8000 ≤ a + 0x100 * n := Nat.le_add_right_of_le h

theorem raise_calReg {o : Nat} (hlo : 0x8000 ≤ o) (code sev unit : Nat) (ps : List Word) (s : State) : (raise code sev unit ps s).reg o = s.reg o :=
  raise_reg (evReg_of_timing (by decide) hlo) code sev unit ps s

theorem calState_congr {n : Nat} {s t : State} (h : t.reg (R.CALN_STATE n) = s.reg (R.CALN_STATE n)) : t.calState n = s.calState n :=
  congrArg (fld · 2 0) h

theorem raise_calState (code sev unit : Nat) (ps : List Word) (s : State) (n : Nat) : (raise code sev unit ps s).calState n = s.calState n :=
  calState_congr (raise_calReg (calnReg_le n (by decide)) code sev unit ps s)

/-- The registers of a unit lie after those that the units share. -/
theorem calnReg_ne_cal {a b n : Nat} (h : b < a) : a + 0x100 * n ≠ b := by omega

/-! ## Changes of state (R324) -/

/-- Unit `n` shown in state `v`. -/
def calMoved (n v : Nat) (s : State) : State :=
  (s.setF (R.CALN_STATE n) 3 3 (b2n (s.feState n == feReplay))).setF (R.CALN_STATE n) 2 0 v

theorem calSetState_moves {n v : Nat} {s : State} (hne : s.calState n ≠ v) :
    calSetState n v s = raise 0x800 0 (uCal n) [wd (s.calState n), wd v] (calMoved n v s) := if_neg hne

theorem calMoved_calState (n : Nat) {v : Nat} (s : State) (hv : v < 8) : (calMoved n v s).calState n = v :=
  (rf_setF_same _ _ v (by decide) (by decide)).trans (Nat.mod_eq_of_lt hv)

theorem calMoved_confined (n v : Nat) (s : State) : Confined [R.CALN_STATE n] s (calMoved n v s) :=
  ((Confined.refl _ s).setF (by simp) _ _ _).setF (by simp) _ _ _

theorem calMoved_calU (n v : Nat) (s : State) (m : Nat) : (calMoved n v s).calU m = s.calU m := rfl

/-! ## Ramps dropped (R119) -/

/-- The registers that dropping a ramp of synthesiser `u` writes. -/
def rampRegs (u : Nat) : List Nat := [R.LO_RAMP_STAT u, R.LO_STATE u, R.LO_ACT u, R.FE_LO_ACT u]

theorem Confined.loSetAct {L : List Nat} {u : Nat} {s t : State} (h : Confined L s t) (hact : R.LO_ACT u ∈ L) (hfe : R.FE_LO_ACT u ∈ L) (w : Word) :
    Confined L s (loSetAct u w t) := .ite ((h.setReg hact _).setReg hfe _) (h.setReg hact _)

theorem rampClear_confined (u : Nat) (s : State) : Confined (rampRegs u) s (rampClear u s) := by
  unfold rampClear
  extract_lets t1 t2
  have hstat : R.LO_RAMP_STAT u ∈ rampRegs u := by simp [rampRegs]
  have h1 : Confined (rampRegs u) s t1 := (Confined.refl _ s).same rfl
  have h2 : Confined (rampRegs u) s t2 := h1.setReg hstat _
  have hlocked : Confined (rampRegs u) s (t2.setF (R.LO_STATE u) 3 0 2) := h2.setF (by simp [rampRegs]) 3 0 2
  exact .ite (hlocked.loSetAct (by simp [rampRegs]) (by simp [rampRegs]) _) h2

theorem rampClear_calU (u : Nat) (s : State) (n : Nat) : (rampClear u s).calU n = s.calU n := by
  unfold rampClear loSetAct
  extract_lets t1 t2 t3
  split
  · split
    · rfl
    · rfl
  · rfl

theorem rampDrop_calU (u : Nat) (s : State) (n : Nat) : (rampDrop u s).calU n = s.calU n := by
  unfold rampDrop
  extract_lets ended t
  split
  · rw [raise_calU]
    exact rampClear_calU u s n
  · exact rampClear_calU u s n

theorem calReg_not_mem_rampRegs {u o : Nat} (hu : u < 8) (hlo : 0x8000 ≤ o) : o ∉ rampRegs u := by
  simp only [rampRegs, R.LO_RAMP_STAT, R.LO_STATE, R.LO_ACT, R.FE_LO_ACT, List.mem_cons, List.not_mem_nil, or_false]
  omega

theorem rampDrop_calReg {u o : Nat} (hu : u < 8) (hlo : 0x8000 ≤ o) (s : State) : (rampDrop u s).reg o = s.reg o := by
  have hclear := (rampClear_confined u s).regs o (calReg_not_mem_rampRegs hu hlo)
  unfold rampDrop
  extract_lets ended t
  split
  · rw [raise_calReg hlo]
    exact hclear
  · exact hclear

end Sys2Proof.Machine
end

section
/-! Injection and sweeps (R319, R324, R335 to R338): starts, refusals, stops and aborts, the writes that ask for them, and the table of a sweep. -/

namespace Sys2Proof.Machine

/-! ## The start of an injection (R319, R324) -/

theorem exec_injectionStart_ready {n : Fin 4} {w : InjWait} {s : State} (hwait : (s.calU n).wait = some w) (hready : injReady n s = true)
    (hon : s.fsOn = true) : exec (.injectionStart n) s = .next (reply ⟨w.op, w.pk, w.cidx, w.late, false, w.at_, [], none⟩ 0 w.at_
      (dtWords (dtOfCycle (gridMs (calClock n s))) ++ [wd (msSince w.at_ s)]) (injBegin n (gridMs (calClock n s)) (msSince w.at_ s) s)) := by
  have hexec : exec (.injectionStart n) s = execInjectionStart n s := rfl
  rw [hexec, execInjectionStart, hwait]
  exact if_neg (by simp [hready, hon])

/-- The record of unit `n` with an injection that starts at sample cycle `n0`. -/
def CalSt.injecting (c : CalSt) (n n0 : Nat) (s : State) : CalSt :=
  { c with wait := none, n0 := n0, seen := false, touched := n0 % 163680000 != 0 || decide (calClock n s < n0), lastM := 24 }

/-- Unit `n` with that injection, its state not yet changed. -/
def injStarted (n n0 : Nat) (s : State) : State :=
  (s.setCal n ((s.calU n).injecting n n0 s)).setDt (R.CALN_START_SEC n) (R.CALN_START_FRAC n) (dtOfCycle n0)

theorem injStarted_calU (n n0 : Nat) (s : State) : (injStarted n n0 s).calU n = (s.calU n).injecting n n0 s := by
  rw [injStarted, State.setDt, State.setReg_calU, State.setReg_calU, State.setCal_calU_same]

theorem injStarted_calState (n n0 : Nat) (s : State) : (injStarted n n0 s).calState n = s.calState n :=
  calState_congr (State.setDt_reg_ne _ _ (by simp) (by simp))

/-- Unit `n` in INJECT from sample cycle `n0` on. -/
def injBegun (n n0 : Nat) (s : State) : State := calMoved n 2 (injStarted n n0 s)

theorem injBegin_waiting {n : Nat} (n0 ms : Nat) {s : State} (hst : s.calState n = 1) :
    injBegin n n0 ms s = raise 0x801 1 (uCal n) [dtSec (dtOfCycle n0), wd ms] (raise 0x800 0 (uCal n) [1, 2] (injBegun n n0 s)) := by
  have hwas : (injStarted n n0 s).calState n = 1 := (injStarted_calState n n0 s).trans hst
  have hmove := calSetState_moves (n := n) (v := 2) (s := injStarted n n0 s) (by omega)
  have hbegin : injBegin n n0 ms s = raise 0x801 1 (uCal n) [dtSec (dtOfCycle n0), wd ms] (calSetState n 2 (injStarted n n0 s)) := rfl
  rw [hbegin, hmove, hwas]
  rfl

/-- What the start shows. -/
theorem injBegun_shows (n n0 : Nat) (s : State) : (injBegun n n0 s).calState n = 2
    ∧ (injBegun n n0 s).reg (R.CALN_START_SEC n) = dtSec (dtOfCycle n0) ∧ (injBegun n n0 s).reg (R.CALN_START_FRAC n) = dtFrac (dtOfCycle n0)
    ∧ ((injBegun n n0 s).calU n).n0 = n0 ∧ ((injBegun n n0 s).calU n).wait = none := by
  have hconf : Confined [R.CALN_STATE n] (injStarted n n0 s) (injBegun n n0 s) := calMoved_confined n 2 _
  have hcal : (injBegun n n0 s).calU n = (s.calU n).injecting n n0 s := (calMoved_calU n 2 _ n).trans (injStarted_calU n n0 s)
  refine ⟨calMoved_calState n _ (by decide), ?_, ?_, ?_, ?_⟩
  · rw [hconf.regs _ (by simp), injStarted, State.setDt_reg_sec _ _ (by simp)]
  · rw [hconf.regs _ (by simp), injStarted, State.setDt_reg_frac]
  · rw [hcal, CalSt.injecting]
  · rw [hcal, CalSt.injecting]

theorem exec_injectWaitTimeout_over {n : Fin 4} {w : InjWait} {s : State} (hwait : (s.calU n).wait = some w) (hover : w.limit ≤ msSince w.at_ s) :
    exec (.injectWaitTimeout n) s = .next (calSetState n 0 (injRefuse n 0 w (s.setCal n { s.calU n with wait := none }))) := by
  have hexec : exec (.injectWaitTimeout n) s = execInjectWaitTimeout n s := rfl
  rw [hexec, execInjectWaitTimeout, hwait]
  exact if_neg (Nat.not_lt.mpr hover)

/-! ## A write of INJ_STOP or SWEEP_ABORT (R324, R338, R346) -/

/-- The immediate command that a write of CALn_CTRL stands for, with the one parameter word `w`. -/
def calCtrlPacket (w : Nat) : Packet := ⟨0, 1, false, false, false, true, 0, [wd w], .ok []⟩

/-- That command as it is held for its boundary, 16,368 sample cycles ahead on the clock of the unit's samples (R438). -/
def calCtrlHeld (op w n : Nat) (s : State) : HeldCmd :=
  ⟨op, calCtrlPacket w, 262144, false, false, s.dt, [uCal n], some (calClock n s + 16368)⟩

theorem calBnd_unstamped {p : Packet} {n : Nat} {s : State} (hn : p.pf 0 1 0 = n) (hon : s.fsOn = true) :
    calBnd p false s = some (calClock n s + 16368) := by
  have hbnd : calBnd p false s = if s.replays (p.pf 0 1 0) then some (calClock (p.pf 0 1 0) s + 16368) else bndSample p false s := rfl
  rw [hbnd, hn]
  split
  next => rfl
  next hlive => rw [bndSample, if_neg Bool.false_ne_true, if_pos hon, calClock, if_neg hlive]

/-- The parameter words name their unit. -/
theorem calCtrlPacket_unit : ∀ n : Fin 4, (calCtrlPacket (34359738368 + n)).pf 0 1 0 = n ∧ (calCtrlPacket (4 + n)).pf 0 1 0 = n := by decide

theorem calCtrl_stop (n : Fin 4) {s : State} (hon : s.fsOn = true) :
    calCtrl n 1 s = { s with cmdPend := s.cmdPend ++ [calCtrlHeld 0x800 (34359738368 + n) n s] } := by
  have hbnd := calBnd_unstamped (calCtrlPacket_unit n).1 hon
  rw [calCtrlHeld, ← hbnd]
  exact if_neg (show ¬ (calBnd (calCtrlPacket (34359738368 + n)) false s).isNone = true by simp [hbnd])

theorem calCtrl_abort (n : Fin 4) {s : State} (hon : s.fsOn = true) :
    calCtrl n 2 s = { s with cmdPend := s.cmdPend ++ [calCtrlHeld 0x801 (4 + n) n s] } := by
  have hbnd := calBnd_unstamped (calCtrlPacket_unit n).2 hon
  rw [calCtrlHeld, ← hbnd]
  exact if_neg (show ¬ (calBnd (calCtrlPacket (4 + n)) false s).isNone = true by simp [hbnd])

theorem calCtrlHeld_onBus (op w n : Nat) (s : State) (src : Src) : calCtrlHeld op w n (s.onBus src) = calCtrlHeld op w n s := by
  have hclock : calClock n (s.onBus src) = calClock n s := by rw [onBus_eq]; rfl
  rw [calCtrlHeld, onBus_dt, hclock, calCtrlHeld]

theorem regAt_calnCtrl : ∀ n : Fin 4, regAt (R.CALN_CTRL n) = some ⟨.caln, n, ⟨0x0, 0x0, 1, 0x0, 0x0, false, 0x3, 0x0, []⟩, 0⟩ := by decide

/-- A write of CALn_CTRL by a live source acts by its bits. -/
theorem actRow_calnCtrl {src : Src} {n : Fin 4} (v : Word) {s : State} (hlive : s.srcLive src = true) (hboot : s.booted = true) :
    actRow src (R.CALN_CTRL n) v s = .next (calCtrl n v.toNat (s.onBus src)) := by
  have hok : writeBad (R.CALN_CTRL n) ⟨.caln, n, ⟨0x0, 0x0, 1, 0x0, 0x0, false, 0x3, 0x0, []⟩, 0⟩ v s = false := writeBad_of_no_rules hboot rfl rfl
  rw [actRow_acts hlive (regAt_calnCtrl n) hok (by simp)]
  simp [actWrite]

theorem exec_calCtrlInjStop_waits {src : Src} {n : Fin 4} {s : State} (hlive : s.srcLive src = true) (hboot : s.booted = true) (hon : s.fsOn = true) :
    exec (.calCtrlInjStop src n) s = .next { s.onBus src with cmdPend := s.cmdPend ++ [calCtrlHeld 0x800 (34359738368 + n) n s] } := by
  have hexec : exec (.calCtrlInjStop src n) s = actRow src (R.CALN_CTRL n) 1 s := rfl
  have hstop := calCtrl_stop n (s := s.onBus src) (by rwa [onBus_fsOn])
  rw [hexec, actRow_calnCtrl 1 hlive hboot, show (1 : Word).toNat = 1 from rfl, hstop, calCtrlHeld_onBus, onBus_cmdPend]

theorem exec_calCtrlSweepAbort_waits {src : Src} {n : Fin 4} {s : State} (hlive : s.srcLive src = true) (hboot : s.booted = true)
    (hon : s.fsOn = true) :
    exec (.calCtrlSweepAbort src n) s = .next { s.onBus src with cmdPend := s.cmdPend ++ [calCtrlHeld 0x801 (4 + n) n s] } := by
  have hexec : exec (.calCtrlSweepAbort src n) s = actRow src (R.CALN_CTRL n) 2 s := rfl
  have habort := calCtrl_abort n (s := s.onBus src) (by rwa [onBus_fsOn])
  rw [hexec, actRow_calnCtrl 2 hlive hboot, show (2 : Word).toNat = 2 from rfl, habort, calCtrlHeld_onBus, onBus_cmdPend]

/-! ## Stops and aborts (R324, R338) -/

theorem calDisturb_calState (n : Nat) (s : State) : (calDisturb n s).calState n = s.calState n := by
  unfold calDisturb
  split
  · rfl
  · rfl

theorem sweepAbort_idle {n cause : Nat} {s : State} (hidle : (s.calU n).sweep = none) : sweepAbort n cause s = s := by
  rw [sweepAbort, hidle]

theorem calStop_injecting {n : Nat} {s : State} (hst : s.calState n = 2) (hsweep : (s.calU n).sweep = none) (hwait : (s.calU n).wait = none) :
    calStop n s = raise 0x800 0 (uCal n) [2, 0] (calMoved n 0 (calDisturb n s)) := by
  have hwas : (calDisturb n s).calState n = 2 := (calDisturb_calState n s).trans hst
  have hmove := calSetState_moves (n := n) (v := 0) (s := calDisturb n s) (by omega)
  rw [calStop, if_neg (by omega)]
  simp only [sweepAbort_idle hsweep, hwait, hmove, hwas]
  rfl

/-- Sweep `w` of unit `n` is cut off: its ramp dropped, and the abort shown. -/
def sweepCut (n : Nat) (w : SweepSt) (s : State) : State :=
  ((rampDrop (4 + n) (s.setCal n { s.calU n with
    sweep := none, gapTo := if w.loud then s.cycle + 327360 else (s.calU n).gapTo })).sticky R.CAL_STATUS 1).sticky (R.CALN_STATUS n) 2

theorem sweepCut_calState (n : Fin 4) (w : SweepSt) (s : State) : (sweepCut n w s).calState n = s.calState n := by
  refine calState_congr ?_
  rw [sweepCut, State.sticky_eq, reg_setReg_ne _ _ (by simp), State.sticky_eq, reg_setReg_ne _ _ (calnReg_ne_cal (by decide)),
    rampDrop_calReg (by omega) (calnReg_le n (by decide)), State.setCal_reg]

theorem sweepAbort_sweeping {n : Fin 4} (cause : Nat) {w : SweepSt} {s : State} (hsweep : (s.calU n).sweep = some w) (hst : s.calState n = 3) :
    sweepAbort n cause s = calSetState n 2 (raise 0x807 2 (uCal n) [wd cause] (sweepCut n w s)) := by
  have hstill : (raise 0x807 2 (uCal n) [wd cause] (sweepCut n w s)).calState n = 3 := by rw [raise_calState, sweepCut_calState, hst]
  rw [sweepAbort, hsweep]
  exact if_pos hstill

theorem sweepCut_shows (n : Nat) (w : SweepSt) (s : State) : ((sweepCut n w s).calU n).sweep = none
    ∧ bit ((sweepCut n w s).reg (R.CALN_STATUS n)) 2 = true ∧ bit ((sweepCut n w s).reg R.CAL_STATUS) 1 = true := by
  refine ⟨?_, bit_sticky _ _ (by decide), ?_⟩
  · simp only [sweepCut, State.sticky_eq, State.setReg_calU, rampDrop_calU, State.setCal_calU_same]
  · rw [sweepCut, State.sticky_eq, reg_setReg_ne _ _ (calnReg_ne_cal (by decide)).symm]
    exact bit_sticky _ _ (by decide)

/-! ## Periodic sweeps (R335) -/

/-- A periodic sweep falls due in DT second `sec`, and has not been answered for yet. -/
structure SweepFalls (n : Fin 4) (sec : Nat) (s : State) : Prop where
  booted : s.booted = true
  now : sec = calClock n s / 163680000
  periodic : 0 < s.rf (R.CALN_SWEEP_CFG n) 35 28 * 3600
  begun : 900 * n.val ≤ sec
  whole : (sec - 900 * n.val) % (s.rf (R.CALN_SWEEP_CFG n) 35 28 * 3600) = 0
  fresh : (s.calU n).sweepSec ≠ some sec

theorem exec_sweepDue_falls {n : Fin 4} {sec : Nat} {s u : State} (h : SweepFalls n sec s)
    (hu : u = s.setCal n { s.calU n with sweepSec := some sec }) : exec (.sweepDue n) s
      = if firstStatus (sweepStatus n u) = 0 then .next (sweepBegin n (sec * 163680000) u) else .next (raise 0x807 2 (uCal n) [3] u) := by
  obtain ⟨hboot, rfl, hper, hbegun, hwhole, hfresh⟩ := h
  have hexec : exec (.sweepDue n) s = execSweepDue n s := rfl
  rw [hexec, hu]
  exact if_neg (by simp [hboot, Nat.ne_of_gt hper, Nat.not_lt.mpr hbegun, hwhole, hfresh])

/-! ## The end of a sweep and its table (R333, R337, R345) -/

/-- Unit `n` with its sweep `w` over and the table of it due. -/
def sweepOver (n : Nat) (w : SweepSt) (s : State) : State :=
  s.setCal n { s.calU n with
    sweep := none, gapTo := if w.loud then w.endN + 327360 else (s.calU n).gapTo, tblDue := (s.calU n).tblDue ++ [w] }

theorem exec_sweepEnd_due {n : Fin 4} {w : SweepSt} {s : State} (hsweep : (s.calU n).sweep = some w) (hon : s.fsOn = true)
    (hend : w.endN ≤ calClock n s) : exec (.sweepEnd n) s = .next (calSetState n 2 (rampDrop (4 + n) (sweepOver n w s))) := by
  have hexec : exec (.sweepEnd n) s = execSweepEnd n s := rfl
  rw [hexec, execSweepEnd, hsweep]
  exact if_neg (by simp [hon, hend])

/-- The record of unit `n` with the table of sweep `w` in force. -/
def CalSt.withTable (c : CalSt) (n : Nat) (w : SweepSt) (rest : List SweepSt) : CalSt :=
  { c with tblDue := rest, tbl := sweepTable n w, tblOfs := w.ofs, tblSrc := if w.loud then 2 else 1, outSaid := [] }

/-- Unit `n` with that table shown. -/
def tableTaken (n : Nat) (w : SweepSt) (rest : List SweepSt) (s : State) : State :=
  ((((delayNote n w.tableN s).setCal n (((delayNote n w.tableN s).calU n).withTable n w rest)).setReg (R.CALN_SWEEP_SEC n)
    (dtSec (dtOfCycle w.tableN))).sticky (R.CALN_STATUS n) 3).cnt (R.CALN_SWEEP_CNT n)

/-- And its two records counted, where a ring takes them. -/
def tableNoted (n : Nat) (w : SweepSt) (rest : List SweepSt) (s : State) : State :=
  if s.rf R.CAL_RING 4 0 = 0 then tableTaken n w rest s else (tableTaken n w rest s).cnt R.CAL_REC_CNT 2

/-- The registers in which a table taken is shown. -/
def tableRegs (n : Nat) : List Nat := [R.CALN_SWEEP_SEC n, R.CALN_STATUS n, R.CALN_SWEEP_CNT n]

theorem tableTaken_confined (n : Nat) (w : SweepSt) (rest : List SweepSt) (s : State) : Confined (tableRegs n) s (tableTaken n w rest s) := by
  have hnote : Confined (tableRegs n) s (delayNote n w.tableN s) := (Confined.refl _ s).setFe n _
  unfold tableTaken
  exact (((hnote.setCal n _).setReg (by simp [tableRegs]) _).sticky (by simp [tableRegs]) 3).cnt (by simp [tableRegs]) 1

theorem tableNoted_confined (n : Nat) (w : SweepSt) (rest : List SweepSt) (s : State) :
    Confined [R.CAL_REC_CNT] (tableTaken n w rest s) (tableNoted n w rest s) := by
  unfold tableNoted
  exact .ite (.refl _ _) ((Confined.refl _ _).cnt (by simp) 2)

theorem tableNoted_calU (n : Nat) (w : SweepSt) (rest : List SweepSt) (s : State) :
    (tableNoted n w rest s).calU n = (s.calU n).withTable n w rest := by
  have htaken : (tableTaken n w rest s).calU n = (s.calU n).withTable n w rest := by
    rw [tableTaken, State.cnt_eq, State.setReg_calU, State.sticky_eq, State.setReg_calU, State.setReg_calU, State.setCal_calU_same, delayNote_calU]
  unfold tableNoted
  split
  · exact htaken
  · rw [State.cnt_eq, State.setReg_calU, htaken]

theorem tableNoted_out (n : Nat) (w : SweepSt) (rest : List SweepSt) (s : State) : (tableNoted n w rest s).out = s.out := by
  have htaken : (tableTaken n w rest s).out = s.out := by
    rw [tableTaken, State.cnt_eq, State.setReg_out, State.sticky_eq, State.setReg_out, State.setReg_out, State.setCal_out, delayNote_out]
  unfold tableNoted
  split
  · exact htaken
  · rw [State.cnt_eq, State.setReg_out, htaken]

theorem exec_sweepTableApply_due {n : Fin 4} {w : SweepSt} {rest : List SweepSt} {ring : Nat} {s : State} (hdue : (s.calU n).tblDue = w :: rest)
    (hon : s.fsOn = true) (hpast : w.tableN ≤ calClock n s) (hring : ring = s.rf R.CAL_RING 4 0) :
    exec (.sweepTableApply n) s = .next (raise 0x806 1 (uCal n) [dtSec (dtOfCycle w.tableN)]
      (recordSeq ring 0xA R.CAL_SEQ (sweepRecord n 2 w (sweepTable n w))
        (recordSeq ring 0xA R.CAL_SEQ (sweepRecord n 1 w (sweepTable n w)) (tableNoted n w rest s)))) := by
  have hexec : exec (.sweepTableApply n) s = execSweepTableApply n s := rfl
  have hshared : R.CAL_RING ∉ tableRegs n := by
    simp only [tableRegs, R.CAL_RING, R.CALN_SWEEP_SEC, R.CALN_STATUS, R.CALN_SWEEP_CNT, List.mem_cons, List.not_mem_nil, or_false]
    omega
  have hkept : (tableTaken n w rest s).rf R.CAL_RING 4 0 = ring := ((tableTaken_confined n w rest s).rf hshared 4 0).trans hring.symm
  rw [hexec, execSweepTableApply, hdue, tableNoted, ← hring, ← hkept]
  exact if_neg (by simp [hon, hpast])

theorem sweepTable_length (n : Nat) (w : SweepSt) : (sweepTable n w).length = 64 := by
  simp [sweepTable]

theorem tableNoted_shows (n : Nat) (w : SweepSt) (rest : List SweepSt) (s : State) :
    (tableNoted n w rest s).reg (R.CALN_SWEEP_SEC n) = dtSec (dtOfCycle w.tableN)
    ∧ (tableNoted n w rest s).reg (R.CALN_SWEEP_CNT n) = bump (s.reg (R.CALN_SWEEP_CNT n)) 1 ∧ (tableNoted n w rest s).mem = s.mem := by
  have hapart {a : Nat} (ha : 0x9028 < a) : a + 0x100 * n ∉ [R.CAL_REC_CNT] := by
    rw [List.mem_singleton]
    exact calnReg_ne_cal ha
  have hconf := tableNoted_confined n w rest s
  refine ⟨?_, ?_, hconf.mem.trans (tableTaken_confined n w rest s).mem⟩
  · rw [hconf.regs _ (hapart (by decide))]
    simp [tableTaken, State.cnt_eq, State.sticky_eq, reg_setReg]
  · rw [hconf.regs _ (hapart (by decide))]
    simp [tableTaken, State.cnt_eq, State.sticky_eq, reg_setReg]

/-- Settles O45: each row is the branch of its condition; a dropped ramp and an event leave the unit's record and its registers alone, so that the
state met after them is the one before, and a write of CALn_CTRL holds the command whose parameter word names the unit. -/
theorem calibrationInjectsAndSweeps : Obligations.CalibrationInjectsAndSweeps := by
  unfold Obligations.CalibrationInjectsAndSweeps
  intro n s
  refine ⟨fun w hwait hready hon => exec_injectionStart_ready hwait hready hon,
    fun n0 ms hst => ⟨_, injBegin_waiting n0 ms hst, injBegun_shows n n0 s⟩,
    fun w hwait hover => exec_injectWaitTimeout_over hwait hover, ?write,
    fun hst hsweep hwait => ⟨_, calStop_injecting hst hsweep hwait, calMoved_calState n _ (by decide)⟩,
    fun w hsweep hst => ⟨_, sweepAbort_sweeping 4 hsweep hst, sweepCut_shows n w s⟩, ?due,
    fun w hsweep hon hend => ⟨sweepOver n w s, exec_sweepEnd_due hsweep hon hend, ?idle, ?tableDue, rfl⟩, ?table⟩
  case write =>
    rintro src op w c hlive hboot hon (⟨rfl, rfl, rfl⟩ | ⟨rfl, rfl, rfl⟩)
    · exact exec_calCtrlInjStop_waits hlive hboot hon
    · exact exec_calCtrlSweepAbort_waits hlive hboot hon
  case due =>
    rintro sec per hboot rfl hsec hper hbegun hwhole hfresh u hu
    have hexec := exec_sweepDue_falls ⟨hboot, hsec, hper, hbegun, hwhole, hfresh⟩ hu
    exact ⟨fun hpass => hexec.trans (if_pos hpass), fun hfail => hexec.trans (if_neg hfail)⟩
  case idle => rw [sweepOver, State.setCal_calU_same]
  case tableDue => rw [sweepOver, State.setCal_calU_same]
  case table =>
    rintro w rest vals ring hdue hon hpast rfl hring
    obtain ⟨hsec, hcnt, hmem⟩ := tableNoted_shows n w rest s
    refine ⟨tableNoted n w rest s, _, exec_sweepTableApply_due hdue hon hpast hring, rfl, rfl, sweepTable_length n w, ?_, ?_, ?_, ?_, hsec, hcnt, hmem,
      tableNoted_out n w rest s⟩
    all_goals
      rw [tableNoted_calU]
      rfl

end Sys2Proof.Machine
end

section
/-! The estimates of a second (R328 to R332, R343, R344): what forming them leaves alone, how they are counted, and what a live estimate does to LIVE. -/

namespace Sys2Proof.Machine

/-! ## Correlators (R343) -/

/-- Correlator 0 is always enabled and listens to its own unit. -/
theorem ccEstimate_own (n f : Nat) (s : State) : (ccEstimate n 0 f s).en = true ∧ (ccEstimate n 0 f s).src = n := ⟨rfl, rfl⟩

/-- A second that the injection did not run through undisturbed, or of which less than half was used, gives no valid estimate (R330). -/
theorem ccEstimate_own_invalid {n : Nat} (f : Nat) {s : State} (h : (s.calU n).touchedL = true ∨ 2 * (s.calU n).usedL < 163680000) :
    (ccEstimate n 0 f s).valid = false := by
  have hvalid : (ccEstimate n 0 f s).valid = true → (s.calU n).touchedL = false ∧ 163680000 ≤ 2 * (s.calU n).usedL := by
    simp only [ccEstimate, ccCfg, if_true, Bool.not_true, Bool.false_eq_true, if_false, Bool.and_eq_true, Bool.not_eq_true', decide_eq_true_eq]
    rintro ⟨⟨⟨⟨⟨-, htouch⟩, hused⟩, -⟩, -⟩, -⟩
    exact ⟨htouch, hused⟩
  by_contra hne
  obtain ⟨htouch, hused⟩ := hvalid (Bool.eq_true_of_not_eq_false hne)
  rcases h with h | h
  · rw [htouch] at h
    exact Bool.false_ne_true h
  · omega

/-! ## What forming estimates leaves alone -/

/-- The registers in which a second is counted, and the state. -/
def countRegs (n : Nat) : List Nat := [R.CALN_STATE n, R.CALN_VALID_CNT n, R.CALN_INVALID_CNT n]

/-- `t` agrees with `s` in those registers, in the estimates that wait and in the second due. -/
structure CountKeeps (n : Nat) (s t : State) : Prop where
  regs : ∀ o ∈ countRegs n, t.reg o = s.reg o
  est : (t.calU n).est = (s.calU n).est
  due : (t.calU n).due = (s.calU n).due

namespace CountKeeps

variable {n : Nat} {s t u : State}

theorem refl (n : Nat) (s : State) : CountKeeps n s s := ⟨fun _ _ => rfl, rfl, rfl⟩

theorem ite {c : Prop} {_ : Decidable c} (ht : CountKeeps n s t) (hu : CountKeeps n s u) : CountKeeps n s (if c then t else u) := by
  split
  · exact ht
  · exact hu

theorem setReg {a : Nat} (h : CountKeeps n s t) (ha : a ∉ countRegs n) (v : Word) : CountKeeps n s (t.setReg a v) :=
  ⟨fun o ho => (reg_setReg_ne t v (ne_of_mem_of_not_mem ho ha)).trans (h.regs o ho), h.est, h.due⟩

theorem setCal {x : CalSt} (h : CountKeeps n s t) (hest : x.est = (t.calU n).est) (hdue : x.due = (t.calU n).due) : CountKeeps n s (t.setCal n x) :=
  ⟨h.regs, by rw [State.setCal_calU_same, hest, h.est], by rw [State.setCal_calU_same, hdue, h.due]⟩

theorem raise (h : CountKeeps n s t) (code sev unit : Nat) (ps : List Word) : CountKeeps n s (raise code sev unit ps t) := by
  have hlo : ∀ o ∈ countRegs n, 0x8000 ≤ o := by
    simp only [countRegs, List.forall_mem_cons]
    exact ⟨calnReg_le n (by decide), calnReg_le n (by decide), calnReg_le n (by decide), List.forall_mem_nil _⟩
  exact ⟨fun o ho => (raise_calReg (hlo o ho) code sev unit ps t).trans (h.regs o ho), by rw [raise_calU, h.est], by rw [raise_calU, h.due]⟩

theorem calState (h : CountKeeps n s t) : t.calState n = s.calState n := calState_congr (h.regs _ (by simp [countRegs]))

theorem calNoEst (h : CountKeeps n s t) (valid : Bool) : CountKeeps n s (calNoEst n valid t) := by
  have hshared : R.CAL_STATUS ∉ countRegs n := by
    simp only [countRegs, R.CAL_STATUS, R.CALN_STATE, R.CALN_VALID_CNT, R.CALN_INVALID_CNT, List.mem_cons, List.not_mem_nil, or_false]
    omega
  unfold Machine.calNoEst
  extract_lets c t1
  have h1 : CountKeeps n s t1 := h.setCal rfl rfl
  exact .ite (h.setCal rfl rfl) (.ite ((h1.setReg hshared _).raise _ _ _ _) h1)

theorem ccTake (h : CountKeeps n s t) (sec k : Nat) (x : CcEst) : CountKeeps n s (ccTake n sec k x t) := by
  have hraw : R.CALN_CC_RAW n k ∉ countRegs n := by
    simp only [countRegs, R.CALN_CC_RAW, R.CALN_STATE, R.CALN_VALID_CNT, R.CALN_INVALID_CNT, List.mem_cons, List.not_mem_nil, or_false]
    omega
  have hstat : R.CALN_STATUS n ∉ countRegs n := by simp [countRegs]
  unfold Machine.ccTake
  extract_lets t1 st m d c pend t2
  have h1 : CountKeeps n s t1 := h.setReg hraw _
  have hshift : CountKeeps n s (t1.setCal n { c with baseDue := c.baseDue ++ [(k, (sec + 2) * 163680000, d)] }) := h1.setCal rfl rfl
  have h2 : CountKeeps n s t2 := hshift.setReg hstat _
  exact .ite h (.ite (h2.raise _ _ _ _) h1)

theorem foldTake (h : CountKeeps n s t) (sec : Nat) (l : List (CcEst × Nat)) :
    CountKeeps n s (l.foldl (fun a (p : CcEst × Nat) => Machine.ccTake n sec p.2 p.1 a) t) := by
  induction l generalizing t with
  | nil => exact h
  | cons p l ih => exact ih (h.ccTake sec p.2 p.1)

end CountKeeps

/-! ## The estimates of a second (R328 to R331) -/

/-- The state in which unit `n` forms the estimates of a second: that second is due no more, and a free value is taken. -/
def secondTaken (n : Nat) (s : State) : State := { s.setCal n { s.calU n with due := none } with freeCtr := s.freeCtr + 1 }

/-- The estimates of the four correlators. -/
def secondCcs (n : Nat) (s : State) : List CcEst := (List.range 4).map (fun i => ccEstimate n i s.freeCtr (secondTaken n s))

/-- The estimate of correlator 0. -/
def secondOwn (n : Nat) (s : State) : CcEst := ccEstimate n 0 s.freeCtr (secondTaken n s)

/-- The estimates that wait for sample time `k` + 2 s; with no used block G is free (R331). -/
def secondEst (n k : Nat) (s : State) : CalEst :=
  let c := (secondTaken n s).calU n
  ⟨k, if c.gCntL = 0 then (Config.engineWord 7 [s.freeCtr]).toInt else divRound c.gSumL c.gCntL, c.unlkL, c.usedL * 4096 / 163680000, secondCcs n s⟩

/-- The state in which the estimates of second `k` are formed, and the correlators have taken them. -/
def secondFormed (n k : Nat) (s : State) : State :=
  (secondCcs n s).zipIdx.foldl (fun a (p : CcEst × Nat) => ccTake n k p.2 p.1 a) (calNoEst n (secondOwn n s).valid (secondTaken n s))

/-- A valid second `k` shown, with its raw estimate `r`. -/
def validShown (n k : Nat) (r : Int) (s : State) : State :=
  ((s.cnt (R.CALN_VALID_CNT n)).setReg (R.CALN_RAW n) (wdI r)).setReg (R.CALN_EST_SEC n) (wd k)

/-- Second `k` counted by the estimate `x` of correlator 0, whose BASE was `base`. -/
def secondCounted (n k : Nat) (x : CcEst) (base : Int) (s : State) : State :=
  if x.valid then
    let t := validShown n k x.r s
    t.setCal n { t.calU n with lastM := ((x.pabs - base) / (t.tapStep n : Int)).toNat }
  else if injects n s then (s.cnt (R.CALN_INVALID_CNT n)).sticky (R.CALN_STATUS n) 1
  else s

/-- Second `k` of unit `n` formed and counted. -/
def secondNoted (n k : Nat) (s : State) : State :=
  secondCounted n k (secondOwn n s) (tget (fun _ => 0) ((secondTaken n s).calU n).baseL 0) (secondFormed n k s)

theorem calSecondEnd_due {n k : Nat} {s : State} (hdue : (s.calU n).due = some k) : calSecondEnd n s
    = if (secondCcs n s).any (fun x => x.en && injects x.src (secondNoted n k s)) then (secondNoted n k s).setCal n
        { (secondNoted n k s).calU n with est := ((secondNoted n k s).calU n).est ++ [secondEst n k s] }
      else secondNoted n k s := by
  rw [calSecondEnd, hdue]
  rfl

/-! ## A second of an injecting unit (R330) -/

theorem secondTaken_calU (n : Nat) (s : State) : (secondTaken n s).calU n = { s.calU n with due := none } := State.setCal_calU_same s n _

theorem secondCcs_own (n : Nat) (s : State) : ∃ xs, secondCcs n s = secondOwn n s :: xs := ⟨_, rfl⟩

theorem secondFormed_keeps (n k : Nat) (s : State) : CountKeeps n (secondTaken n s) (secondFormed n k s) :=
  ((CountKeeps.refl n _).calNoEst _).foldTake k _

/-- The registers in which a second is counted and shown. -/
def secondRegs (n : Nat) : List Nat := [R.CALN_STATUS n, R.CALN_RAW n, R.CALN_EST_SEC n, R.CALN_VALID_CNT n, R.CALN_INVALID_CNT n]

theorem validShown_shows (n k : Nat) (r : Int) (s : State) : (validShown n k r s).reg (R.CALN_VALID_CNT n) = bump (s.reg (R.CALN_VALID_CNT n)) 1
    ∧ (validShown n k r s).reg (R.CALN_RAW n) = wdI r ∧ (validShown n k r s).reg (R.CALN_EST_SEC n) = wd k := by
  simp [validShown, State.cnt_eq, reg_setReg]

theorem secondCounted_valid {n : Nat} (k : Nat) {x : CcEst} (base : Int) {s : State} (hvalid : x.valid = true) :
    ∃ y, secondCounted n k x base s = (validShown n k x.r s).setCal n y :=
  ⟨_, if_pos hvalid⟩

theorem secondCounted_invalid {n : Nat} (k : Nat) {x : CcEst} (base : Int) {s : State} (hvalid : x.valid = false) (hinj : injects n s = true) :
    secondCounted n k x base s = (s.cnt (R.CALN_INVALID_CNT n)).sticky (R.CALN_STATUS n) 1 := by
  rw [secondCounted, hvalid, if_neg Bool.false_ne_true, if_pos hinj]

theorem secondCounted_confined (n k : Nat) (x : CcEst) (base : Int) (s : State) : Confined (secondRegs n) s (secondCounted n k x base s) := by
  unfold secondCounted
  extract_lets t
  have ht : Confined (secondRegs n) s (validShown n k x.r s) :=
    (((Confined.refl _ s).cnt (by simp [secondRegs]) 1).setReg (by simp [secondRegs]) _).setReg (by simp [secondRegs]) _
  exact .ite (ht.setCal n _) (.ite (((Confined.refl _ s).cnt (by simp [secondRegs]) 1).sticky (by simp [secondRegs]) 1) (.refl _ s))

theorem secondCounted_waits (n k : Nat) (x : CcEst) (base : Int) (s : State) :
    ((secondCounted n k x base s).calU n).est = (s.calU n).est ∧ ((secondCounted n k x base s).calU n).due = (s.calU n).due := by
  unfold secondCounted
  extract_lets t
  split
  · rw [State.setCal_calU_same]
    exact ⟨rfl, rfl⟩
  · split
    · exact ⟨rfl, rfl⟩
    · exact ⟨rfl, rfl⟩

/-- A unit injects on through the second that is formed. -/
theorem secondFormed_calState (n k : Nat) (s : State) : (secondFormed n k s).calState n = s.calState n := (secondFormed_keeps n k s).calState

theorem injects_of_inject {n : Nat} {s : State} (hst : s.calState n = 2) : injects n s = true := by
  rw [injects, hst]
  rfl

theorem secondNoted_calState (n k : Nat) (s : State) : (secondNoted n k s).calState n = s.calState n :=
  (calState_congr ((secondCounted_confined n k _ _ _).regs _ (by simp [secondRegs]))).trans (secondFormed_calState n k s)

theorem secondNoted_waits (n k : Nat) (s : State) :
    ((secondNoted n k s).calU n).est = (s.calU n).est ∧ ((secondNoted n k s).calU n).due = none := by
  obtain ⟨hest, hdue⟩ := secondCounted_waits n k (secondOwn n s) (tget (fun _ => 0) ((secondTaken n s).calU n).baseL 0) (secondFormed n k s)
  obtain ⟨-, hestF, hdueF⟩ := secondFormed_keeps n k s
  rw [secondTaken_calU] at hestF hdueF
  exact ⟨hest.trans hestF, hdue.trans hdueF⟩

/-- Correlator 0 listens to its own unit, so an estimate of an injecting unit waits. -/
theorem calSecondEnd_injecting {n k : Nat} {s : State} (hdue : (s.calU n).due = some k) (hst : s.calState n = 2) : calSecondEnd n s
    = (secondNoted n k s).setCal n { (secondNoted n k s).calU n with est := ((secondNoted n k s).calU n).est ++ [secondEst n k s] } := by
  obtain ⟨xs, hxs⟩ := secondCcs_own n s
  obtain ⟨hen, hsrc⟩ := ccEstimate_own n s.freeCtr (secondTaken n s)
  have hinj := injects_of_inject ((secondNoted_calState n k s).trans hst)
  rw [calSecondEnd_due hdue]
  refine if_pos (List.any_eq_true.mpr ⟨secondOwn n s, hxs ▸ List.mem_cons_self, ?_⟩)
  rw [secondOwn, hen, hsrc, hinj]
  rfl

/-- A counter of seconds stands at the end where it stood before the estimates were formed. -/
theorem secondFormed_reg {n k o : Nat} {s : State} (ho : o ∈ countRegs n) : (secondFormed n k s).reg o = s.reg o :=
  (secondFormed_keeps n k s).regs o ho

theorem secondNoted_valid {n k : Nat} {s : State} (hvalid : (secondOwn n s).valid = true) :
    (secondNoted n k s).reg (R.CALN_VALID_CNT n) = bump (s.reg (R.CALN_VALID_CNT n)) 1
    ∧ (secondNoted n k s).reg (R.CALN_RAW n) = wdI (secondOwn n s).r ∧ (secondNoted n k s).reg (R.CALN_EST_SEC n) = wd k := by
  obtain ⟨y, hy⟩ := secondCounted_valid k (tget (fun _ => 0) ((secondTaken n s).calU n).baseL 0) (s := secondFormed n k s) hvalid
  have hcnt : (secondFormed n k s).reg (R.CALN_VALID_CNT n) = s.reg (R.CALN_VALID_CNT n) := secondFormed_reg (by simp [countRegs])
  rw [secondNoted, hy, ← hcnt]
  simp only [State.setCal_reg]
  exact validShown_shows n k (secondOwn n s).r (secondFormed n k s)

theorem secondNoted_invalid {n k : Nat} {s : State} (hvalid : (secondOwn n s).valid = false) (hst : s.calState n = 2) :
    (secondNoted n k s).reg (R.CALN_INVALID_CNT n) = bump (s.reg (R.CALN_INVALID_CNT n)) 1
    ∧ bit ((secondNoted n k s).reg (R.CALN_STATUS n)) 1 = true := by
  have hinj := injects_of_inject ((secondFormed_calState n k s).trans hst)
  have hcnt : (secondFormed n k s).reg (R.CALN_INVALID_CNT n) = s.reg (R.CALN_INVALID_CNT n) := secondFormed_reg (by simp [countRegs])
  rw [secondNoted, secondCounted_invalid _ _ hvalid hinj]
  refine ⟨?_, bit_sticky _ _ (by decide)⟩
  rw [State.sticky_eq, reg_setReg_ne _ _ (by simp), State.cnt_eq, reg_setReg_same, hcnt]

theorem secondOwn_invalid {n : Nat} {s : State} (h : (s.calU n).touchedL = true ∨ 2 * (s.calU n).usedL < 163680000) : (secondOwn n s).valid = false :=
  ccEstimate_own_invalid _ (by rwa [secondTaken_calU])

/-! ## An estimate takes effect (R331, R332, R340, R344) -/

theorem calDrift_reg {n o : Nat} (hlo : 0x8000 ≤ o) (hne : o ≠ R.CALN_STATUS n) (s : State) : (calDrift n s).reg o = s.reg o := by
  have hstat : (s.sticky (R.CALN_STATUS n) 5).reg o = s.reg o := reg_setReg_ne _ _ hne
  unfold calDrift
  extract_lets d t c again
  split
  · rfl
  · split
    · rfl
    · split
      · rw [raise_calReg hlo]
        exact hstat
      · exact hstat

/-- Unit `n` with its oldest estimate taken, and `rest` waiting. -/
def estTaken (n : Nat) (rest : List CalEst) (s : State) : State := s.setCal n { s.calU n with est := rest }

/-- The live delay that the estimate `rn` gives: the first one itself, a later one through the filter of SHIFT. -/
def liveNext (n : Nat) (rn : Int) (s : State) : Int :=
  if !(s.calU n).seen then rn
  else (s.reg (R.CALN_LIVE n)).toInt + divRound (rn - (s.reg (R.CALN_LIVE n)).toInt) (2 ^ s.rf (R.CALN_CFG n) 14 12)

theorem liveNext_first {n : Nat} (rn : Int) {s : State} (h : (s.calU n).seen = false) : liveNext n rn s = rn := by
  rw [liveNext, h]
  rfl

theorem liveNext_later {n : Nat} (rn : Int) {s : State} (h : (s.calU n).seen = true) : liveNext n rn s
    = (s.reg (R.CALN_LIVE n)).toInt + divRound (rn - (s.reg (R.CALN_LIVE n)).toInt) (2 ^ s.rf (R.CALN_CFG n) 14 12) := by
  rw [liveNext, h]
  rfl

/-- The live delay `l` in LIVE from sample cycle `c` on. -/
def liveShown (n c : Nat) (l : Int) (s : State) : State :=
  liveNote n l (((delayNote n c s).setReg (R.CALN_LIVE n) (wdI l)).setCal n { s.calU n with seen := true, everValid := true })

/-- What an estimate `e` of unit `n` with `x` of correlator 0 makes of the state. -/
def estApplied (n : Nat) (e : CalEst) (x : CcEst) (s : State) : State :=
  if !x.valid then s
  else
    let u := liveShown n ((e.sec + 2) * 163680000) (liveNext n (x.r - e.g) s) s
    calDrift n (if (s.calU n).seen then u else raise 0x803 1 (uCal n) [wdI (liveNext n (x.r - e.g) s)] u)

theorem liveApply_come {n : Nat} {e : CalEst} {rest : List CalEst} {x : CcEst} {xs : List CcEst} {s v : State} (hest : (s.calU n).est = e :: rest)
    (hcc : e.cc = x :: xs) (hcome : s.fsOn = true → (e.sec + 2) * 163680000 ≤ calClock n s) (hv : v = estApplied n e x (estTaken n rest s)) :
    liveApply n s = recordSeq (v.rf R.CAL_RING 4 0) 0xA R.CAL_SEQ (fun q => calRecord n e q v)
      (if v.rf R.CAL_RING 4 0 = 0 then v else v.cnt R.CAL_REC_CNT) := by
  have hpast : ¬ (s.fsOn && decide (calClock n s < (e.sec + 2) * 163680000)) = true := by
    simpa using hcome
  have hx : x = e.cc.headD ⟨false, 0, 0, false, 0, 0, 0, 0⟩ := by rw [hcc, List.headD_cons]
  rw [liveApply, hest]
  subst hv hx
  exact if_neg hpast

theorem liveShown_reg (n c : Nat) (l : Int) (s : State) (o : Nat) : (liveShown n c l s).reg o = if o = R.CALN_LIVE n then wdI l else s.reg o :=
  reg_setReg (delayNote n c s) _ _ _

theorem liveShown_calU (n c : Nat) (l : Int) (s : State) : (liveShown n c l s).calU n = { s.calU n with seen := true, everValid := true } :=
  State.setCal_calU_same _ n _

theorem estApplied_ring (n : Nat) (e : CalEst) (x : CcEst) (s : State) : (estApplied n e x s).rf R.CAL_RING 4 0 = s.rf R.CAL_RING 4 0 := by
  refine congrArg (fld · 4 0) ?_
  unfold estApplied
  extract_lets u
  have hu : u.reg R.CAL_RING = s.reg R.CAL_RING := (liveShown_reg n _ _ s _).trans (if_neg (calnReg_ne_cal (by decide)).symm)
  split
  · rfl
  · rw [calDrift_reg (by decide) (calnReg_ne_cal (by decide)).symm]
    split
    · exact hu
    · exact (raise_calReg (by decide) _ _ _ _ _).trans hu

theorem estApplied_invalid {n : Nat} (e : CalEst) {x : CcEst} (s : State) (hvalid : x.valid = false) : estApplied n e x s = s := by
  rw [estApplied, hvalid]
  rfl

theorem estApplied_valid {n : Nat} (e : CalEst) {x : CcEst} (s : State) (hvalid : x.valid = true) : estApplied n e x s
    = calDrift n (if (s.calU n).seen then liveShown n ((e.sec + 2) * 163680000) (liveNext n (x.r - e.g) s) s
      else raise 0x803 1 (uCal n) [wdI (liveNext n (x.r - e.g) s)] (liveShown n ((e.sec + 2) * 163680000) (liveNext n (x.r - e.g) s) s)) := by
  rw [estApplied, hvalid]
  rfl

/-- A second formed by an injecting unit (R329, R330). -/
theorem calSecondEnd_counts {n k : Nat} {s : State} (hdue : (s.calU n).due = some k) (hst : s.calState n = 2) :
    ∃ (e : CalEst) (x : CcEst) (xs : List CcEst), e.cc = x :: xs ∧ e.sec = k ∧ ((calSecondEnd n s).calU n).est = (s.calU n).est ++ [e]
      ∧ ((calSecondEnd n s).calU n).due = none
      ∧ (x.valid = true → (calSecondEnd n s).reg (R.CALN_VALID_CNT n) = bump (s.reg (R.CALN_VALID_CNT n)) 1
          ∧ (calSecondEnd n s).reg (R.CALN_RAW n) = wdI x.r ∧ (calSecondEnd n s).reg (R.CALN_EST_SEC n) = wd k)
      ∧ (x.valid = false → (calSecondEnd n s).reg (R.CALN_INVALID_CNT n) = bump (s.reg (R.CALN_INVALID_CNT n)) 1
          ∧ bit ((calSecondEnd n s).reg (R.CALN_STATUS n)) 1 = true)
      ∧ ((s.calU n).touchedL = true ∨ 2 * (s.calU n).usedL < 163680000 → x.valid = false) := by
  obtain ⟨xs, hxs⟩ := secondCcs_own n s
  obtain ⟨hest, hnone⟩ := secondNoted_waits n k s
  rw [calSecondEnd_injecting hdue hst, State.setCal_calU_same]
  simp only [State.setCal_reg]
  refine ⟨secondEst n k s, secondOwn n s, xs, hxs, rfl, ?_, hnone, secondNoted_valid, fun hvalid => secondNoted_invalid hvalid hst, secondOwn_invalid⟩
  rw [hest]

/-- Settles O46: forming the estimates of a second writes none of the counters and keeps what waits; the estimate of correlator 0, which is always
enabled, decides how the second counts; an estimate applied leaves CAL_RING, so that its record goes to the ring read before. -/
theorem calibrationEstimatesFilterLive : Obligations.CalibrationEstimatesFilterLive := by
  unfold Obligations.CalibrationEstimatesFilterLive
  refine fun s => ⟨rfl, rfl, fun n => ⟨fun hdue => ?idle, fun hest => ?empty, fun k hdue hst _ => calSecondEnd_counts hdue hst, ?live⟩⟩
  case idle => rw [calSecondEnd, hdue]
  case empty => rw [liveApply, hest]
  case live =>
    intro e rest x xs ring hest hcc hring hcome
    obtain ⟨t, ht⟩ : ∃ t, t = estTaken n rest s := ⟨_, rfl⟩
    have hcal : t.calU n = { s.calU n with est := rest } := ht ▸ State.setCal_calU_same s n _
    have hreg (o : Nat) : t.reg o = s.reg o := ht ▸ State.setCal_reg s n _ o
    have hkept : (estApplied n e x t).rf R.CAL_RING 4 0 = ring := by
      rw [estApplied_ring, hring, State.rf, hreg, State.rf]
    have happly := liveApply_come hest hcc hcome (v := estApplied n e x t) (by rw [ht])
    rw [hkept] at happly
    have hseenT : (t.calU n).seen = (s.calU n).seen := by rw [hcal]
    refine ⟨estApplied n e x t, happly, fun hvalid => (estApplied_invalid e t hvalid).trans ht, fun hvalid hseen => ?first, fun hvalid hseen => ?later⟩
    case first =>
      rw [hseen] at hseenT
      refine ⟨liveShown n ((e.sec + 2) * 163680000) (x.r - e.g) t, ?_, ?_, ?_⟩
      · rw [estApplied_valid e t hvalid, hseenT, liveNext_first _ hseenT, if_neg Bool.false_ne_true]
      · rw [liveShown_reg, if_pos rfl]
      · rw [liveShown_calU, hcal]
        exact ⟨rfl, rfl, rfl⟩
    case later =>
      rw [hseen] at hseenT
      refine ⟨_, (estApplied_valid e t hvalid).trans (by rw [hseenT, if_pos rfl]), ?_⟩
      rw [liveShown_reg, if_pos rfl, liveNext_later _ hseenT, State.rf, hreg, hreg, State.rf]

end Sys2Proof.Machine
end
